-- ==== Sys2Proof/Word.lean ====
section
/-! DEFINITION. The word types of the model and nothing more: bytes and 64-bit register words (spec/00_scope.md R14). -/

namespace Sys2Proof

/-- One byte. -/
abbrev Byte := BitVec 8

/-- One register word: registers are 64 bits wide, little-endian (R14). -/
abbrev Word := BitVec 64

/-- A run of bytes, the lowest address first. -/
abbrev Bytes := List Byte

/-- A sparse map kept as a list of keys and values; its canonical form has strictly rising keys (Sys2Proof/Machine/FMap.lean). -/
abbrev FMap (α : Type) := List (Nat × α)

end Sys2Proof
end

