-- ==== Sys2Proof/Machine/Types.lean ====
section
/-! DEFINITION. The plain data that commands carry and that State holds: the manual's records, each with its rule. -/

namespace Sys2Proof

/-- The two SKUs (spec/00_scope.md R3). -/
inductive Sku where
  | a
  | b
  deriving DecidableEq, Repr

/-- CXL meta value of a request (spec/03_coherence.md, before R99). -/
inductive MetaV where
  | invalid
  | shared
  | any
  deriving DecidableEq, Repr

/-- State a BIRsp reports (Table 3-2). -/
inductive SnpRsp where
  | i
  | s
  | e
  deriving DecidableEq, Repr

/-- The three back-invalidate snoops (Table 9-6). -/
inductive SnpKind where
  | inv
  | data
  | cur
  deriving DecidableEq, Repr

/-- Who issues a mailbox command: an LD of this module, or the fabric manager through the FM-owned LD (R482, R485). -/
inductive Issuer where
  | ld (m : Fin 64)
  | fm
  deriving DecidableEq, Repr

/-- The view through which a register is accessed (R536): the fabric manager's, a management core's, or an LD's. -/
inductive View where
  | fm
  | core
  | ld (m : Fin 64)
  deriving DecidableEq, Repr

/-- A mailbox or CCI command's envelope: the issuer, the SPDM session it travels in (none: the plain mailbox) and the input
bytes of the command's table (R482 to R485). -/
structure Mbx where
  issuer : Issuer
  sess : Option (Fin 2)
  data : Bytes
  deriving DecidableEq, Repr

/-- Extent kinds of Table 2-2 (R58). -/
inductive Kind where
  | priv
  | shared
  | published
  deriving DecidableEq, Repr

/-- A V-LR binding (R144, R164): rank, rows, columns, first row, and the two factor base addresses. -/
structure Vlr where
  r : Nat
  m : Nat
  n : Nat
  i0 : Nat
  u : Nat
  v : Nat
  deriving DecidableEq, Repr

/-- A running re-spread of an extent (R88 to R91): slot, old and new member, pages moved; done marks the new set sent (R90). -/
structure Respread where
  slot : Nat
  old : Nat
  new : Nat
  moved : List Nat
  done : Bool
  deriving DecidableEq, Repr

/-- An extent record (R48, R58 to R61, R77, R148), with the charge placed on this module. `serving` is cleared once a flip has
replaced the extent in every hedge table (R112, R113); `namers` lists the handles of the leases that name it (R48). -/
structure Extent where
  kind : Kind
  cls : Nat
  prot : Nat
  durable : Bool
  layout : Nat
  spread : List Nat
  acct : Nat
  d : Nat
  bxk : Nat
  stoch : Bool
  elem : Nat
  tslot : Nat
  charge : Nat
  vlr : Option Vlr
  respread : Option Respread
  serving : Bool
  namers : List Nat
  deriving DecidableEq, Repr

/-- Lease states of Table 2-3 (R68). -/
inductive LeaseState where
  | active
  | orphan
  | draining
  | grace
  | closed
  deriving DecidableEq, Repr

/-- A lease (R62 to R67): the LD it is bound to (none in ORPHAN), the LD and window it was last bound to, its binding session,
rights [0] read [1] write [2] publish, duration in s, deadline in ns, token, state, end of grace, extents with their slots. -/
structure Lease where
  acct : Nat
  ld : Option Nat
  lastLd : Nat
  window : Nat
  sess : Nat
  rights : Nat
  dur : Nat
  deadline : Nat
  token : Nat
  st : LeaseState
  graceEnd : Nat
  exts : List (Nat × Nat)
  quarter : Bool
  deriving DecidableEq, Repr

/-- A running drain (R68, R69): its lease, the LD whose requests it counts, the extents, the end of its bound, and whether it
empties the whole lease. -/
structure Drain where
  handle : Nat
  ld : Option Nat
  exts : List Nat
  bound : Nat
  whole : Bool
  deriving DecidableEq, Repr

/-- An account on this module (R75, R86, R184, R185). -/
structure Account where
  b : Nat
  z : Nat
  lossless : Bool
  members : List Nat
  floor : Nat
  moved : Nat
  deriving DecidableEq, Repr

/-- Page states of Table 5-1. -/
inductive PState where
  | unwritten
  | near
  | far
  | both
  | promoting
  | demoting
  | poisoned
  | virt
  | retired
  deriving DecidableEq, Repr

/-- A page map entry (Table 5-1, R168). `seq` and `mat` repeat the SEQ and MAT of the current husk's glume, which every husk
read would give; `prev` is the state a retired source returns to (Table 5-2). -/
structure Pme where
  st : PState
  cls : Nat
  slot : Nat
  gen : Nat
  len : Nat
  cnt : Nat
  age : Nat
  acct : Nat
  prot : Nat
  near : Nat
  far : Nat
  seq : Nat
  mat : Bool
  prev : PState
  deriving DecidableEq, Repr

/-- A code table: what Table 4-8 holds beyond what follows from the lengths (R149). -/
structure Table where
  st : Nat
  gen : Nat
  cls : Nat
  elems : Nat
  wall : Nat
  lens : List Nat
  deriving DecidableEq, Repr

/-- A poison list entry (R397): a host line (its line address, space address [49:6]) or a whole page. -/
structure Poison where
  page : Bool
  addr : Nat
  synd : Nat
  injected : Bool
  deriving DecidableEq, Repr

/-- A chaff entry (Table 12-4). -/
structure Chaff where
  kind : Nat
  chan : Nat
  rank : Nat
  bank : Nat
  row : Nat
  first : Nat
  count : Nat
  origin : Nat
  deriving DecidableEq, Repr

/-- Class parameters (Table 10-1). -/
structure ClassP where
  rank : Nat
  weight : Nat
  target : Nat
  deriving DecidableEq, Repr

/-- A band's entry of the block map (R207). `st`: 0 FREE, 1 OPEN, 2 CLOSED, 3 RETIRED; `chans` are the channels its rows lie on, `blocks`
the spare blocks that it has taken, by channel, `reads` the read counts of its blocks, by channel, `prog` the rows programmed since it opened,
and `freedBy` the number of the last metadata journal record that freed chunks of it (R214). -/
structure Band where
  st : Nat
  width : Nat
  erase : Nat
  valid : Nat
  chans : List Nat
  blocks : FMap Nat
  reads : FMap Nat
  prog : Nat
  freedBy : Nat
  deriving DecidableEq, Repr

/-- What a journal record changes, with the new value (R38, R72, R172, R220, R329, R331, R398, R410, R425). -/
inductive JKind where
  | pme (page : Nat) (p : Pme)
  | extent (e : Nat) (x : Option Extent)
  | lease (h : Nat) (l : Option Lease)
  | account (a : Nat) (x : Account)
  | chaff (c : Chaff)
  | poison (p : Poison)
  | clear (p : Poison)
  | held (page : Nat) (mark : Bool)
  | key (slot : Nat) (mat : Option Nat)
  | band (b : Nat) (x : Band)
  deriving DecidableEq, Repr

/-- A journal record with its sequence (R329); `dur` marks a record of a durable write (R212), and `crc` says that its CRC-32 matches (R220). -/
structure JRec where
  seq : Nat
  kind : JKind
  dur : Bool
  crc : Bool
  deriving DecidableEq, Repr

/-- The metadata that a checkpoint and its journal hold (R220), and that the twin replicates (R330). -/
structure MetaSnap where
  pmes : FMap Pme
  extents : FMap Extent
  leases : FMap Lease
  accts : FMap Account
  chaff : List Chaff
  plist : List Poison
  held : List Nat
  keys : FMap Nat
  bands : FMap Band
  deriving DecidableEq, Repr

/-- A loaded sheaf (R264 to R270): kind, image, loader (an LD's holder ID, or none for the fabric manager), the handles of the leases that
covered each of its grant entries at load, whether it is unloading, and the code lines of this module's copy that do not read, with the
syndrome (R291). -/
structure Sheaf where
  kind : Nat
  image : Bytes
  owner : Option Nat
  leases : List (List Nat)
  unloading : Bool
  bad : List (Nat × Nat)
  deriving DecidableEq, Repr

/-- Outcome of one member of a START (Table 8-4): done, trapped, cancelled, tiller failed, member lost, with what the completion
reports of it, and whether the member had a context. -/
structure MemberEnd where
  idx : Nat
  status : Nat
  ctxid : Nat
  trapinfo : Nat
  faultaddr : Nat
  s1 : Nat
  s2 : Nat
  live : Bool
  deriving DecidableEq, Repr

/-- The fields of a message header (Table 9-5) that a command or an output carries beside its opcode. -/
structure Msg where
  dst : Fin 64
  src : Fin 64
  label : Fin 8
  holder : Nat
  tag : Nat
  cxl : Nat
  synd : Nat
  addr : Nat
  data : Bytes
  deriving DecidableEq, Repr

/-- Message opcodes of Table 9-6. -/
inductive MOp where
  | rd | wr | wrp | atom | place
  | snpinv | snpdata | snpcur
  | data | cmp | birsp | wbk
  | mirror | close | jrnl | jack | memb | copy | gasp | mack
  deriving DecidableEq, Repr

/-- What a COPY carries (Table 9-6, R424): page contents in decoded form, table slots, sheaf images, or metadata. The metadata
alternatives are the model's typed form of what the manual says modules copy to one another (log entry 12). -/
inductive CopyBody where
  | page (page : Nat) (st : PState) (seq : Nat) (synd : Nat) (data : Bytes) (poison : List (Nat × Nat))
  | table (slot : Nat) (t : Table)
  | bind (e : Nat) (slot : Nat)
  | sheaf (h : Nat) (s : Option Sheaf)
  | members (a : Nat) (holders : List Nat)
  | extent (e : Nat) (x : Option Extent)
  | charge (e : Nat) (x : Extent)
  | lease (h : Nat) (l : Lease)
  | token (h : Nat) (t : Nat) (acct : Nat) (slots : Nat)
  | refuse (h : Nat) (st : Nat)
  | names (e : Nat) (h : Nat) (on : Bool)
  | sweep (holder : Nat) (es : List Nat) (lost : Bool)
  | revoke (h : Nat) (first : Nat) (count : Nat) (boundUs : Nat)
  | revokeHolder (holder : Nat) (es : List Nat)
  | account (a : Nat) (x : Account)
  | flip (pairs : List (Nat × Nat)) (recs : List (Nat × Extent))
  | drained (e : Nat)
  | ask (e : Nat)
  | noExtent (e : Nat)
  | sync (n : Nat)
  | synced (n : Nat)
  | lmap (holder : Nat) (m : Nat) (cs : List ClassP)
  | start (desc : Nat) (ld : Nat) (sheaf : Nat) (tillers : List Nat) (first : Nat) (count : Nat) (label : Nat) (args : List Nat)
  | cancel (desc : Nat)
  | cancelCtx (c : Nat)
  | ended (desc : Nat) (m : MemberEnd)
  | progress (desc : Nat) (body : Bytes)
  | miss (holder : Nat)
  | husks (slot : Nat) (n : Nat)
  | doze (enter : Bool)
  | snapshot (m : MetaSnap)
  | recode (e : Nat)
  | vlr (e : Nat) (v : Option Vlr)
  | backlog (rs : List JRec)
  | role (e : Nat)
  | resyncEnd
  | restore (m : MetaSnap)
  | erase (a : Nat) (step : Nat)
  | poison (line : Nat)
  | pin (page : Nat) (owner : Nat) (on : Bool) (drop : Bool)
  | bound (e : Nat) (holder : Nat) (on : Bool)
  | evict (line : Nat) (holder : Nat)
  | endAns (c : Nat) (ok : Bool)
  | images
  | records (recs : List (Nat × Extent))
  | leaseIs (h : Nat) (l : Option Lease) (leaving : List Nat)
  | fetch (src : Nat) (c : Nat) (k : Nat) (page : Nat) (et : Nat) (kc : Nat) (cls : Nat) (n : Nat) (k0 : Nat)
  | fetched (c : Nat) (k : Nat) (blocks : List (List Nat × Nat)) (bad : Option (Nat × Nat)) (form : Option Nat)
  deriving DecidableEq, Repr

/-- What a MEMB message carries (R321 to R324, R338): a neighbour table entry, a link report, a publication, a doze mark, or the admission
of a module by FORM_ADOPT. -/
inductive MembBody where
  | neighbour (m : Nat) (serial : Nat) (formZ : Nat) (coord : Option Nat) (ports : List (Option (Nat × Nat)))
  | link (m : Nat) (port : Nat) (up : Bool)
  | publish (epoch : Nat) (live : List Nat) (quorum : Bool) (wits : List Nat) (witEpoch : Nat) (elapsedMs : Nat)
  | dozing (m : Nat) (on : Bool)
  | adopt (m : Nat) (serial : Nat)
  deriving DecidableEq, Repr

/-- How a codeword of a far read was obtained (R210): hard decision, soft decision, parity rebuild, or not at all. -/
inductive FarRes where
  | hard
  | soft
  | parity
  | lost
  deriving DecidableEq, Repr

/-- The real-time masters of R351. -/
inductive RtMaster where
  | hedgerow (p : Fin 6)
  | flash (g : Fin 4)
  | hostRead (p : Fin 4)
  deriving DecidableEq, Repr

end Sys2Proof
end

