-- ==== Sys2Proof/Syntax.lean ====
section
/-! DEFINITION. The commands of the block: one constructor for each of the 340 rows of spec/opcode_table.json, with the
operands that the row's rules name. Numbers of the manual that address things (pages, lines, handles, extents, requests)
are plain naturals; numbers that name one of a fixed set of units are bounded. A page is its space address [49:12], a line
its space address [49:6]. A mailbox command carries its input bytes as the manual lays them out. -/

namespace Sys2Proof

/-- A command of the block (spec/opcode_table.json). -/
inductive Instr where
  /-- HOST_READ (R27): A host CXL.mem read of one line is accepted at its portal, decoded and served from the page home. -/
  | hostRead (ld : Fin 64) (hpa : Nat) (mv : MetaV) (tag : Nat) (ide : Bool)
  /-- HOST_WRITE (R36): A host CXL.mem write of one line is accepted at its portal and stored into a merge-buffer slot at the page home. -/
  | hostWrite (ld : Fin 64) (hpa : Nat) (mv : MetaV) (tag : Nat) (mask : BitVec 64) (data : Bytes) (ide : Bool)
  /-- PULL_THROUGH_DONE (R187): The far husk of a pull-through is copied into near chunks and checked, the page enters state both and waiting reads are served. -/
  | pullThroughDone (page : Nat)
  /-- PULL_THROUGH_RAISE (R188): A pull-through not complete by half of FAR_DL_US is moved to the head of its die's read queue. -/
  | pullThroughRaise (page : Nat)
  /-- PULL_THROUGH_DL_MISS (R188): A pull-through not complete at FAR_DL_US is counted in TIER_CNT_DLMISS and posts event 0x0603. -/
  | pullThroughDlMiss (page : Nat)
  /-- STREAM_PT_BOUND_EXPIRE (R188): A stream-window pull-through not complete within PT_BOUND_US returns poison 0x03 to its read while the pull-through continues. -/
  | streamPtBoundExpire (r : Nat)
  /-- MB_SLOT_WINDOW_EXPIRE (R159): An OPEN slot closes when WIN_NS, or DUR_NS for a durable extent, has passed since its first line. -/
  | mbSlotWindowExpire (page : Nat)
  /-- MB_WRITE_SLOT_WAIT_END (R159): A write that waited for a FREE merge-buffer slot takes the freed slot and is accepted. -/
  | mbWriteSlotWaitEnd (r : Nat)
  /-- SLOT_RECODE_START (R161): A closed slot becomes RECODING once earlier recodes and moves of the page have finished and recodes the whole page into a new husk. -/
  | slotRecodeStart (page : Nat)
  /-- RECODE_WRITE_DONE (R161): The new husk's chunks are written, the page map entry is updated, old chunks are released and the journal record is sent to the twin. -/
  | recodeWriteDone (page : Nat)
  /-- LEASE_GRANT (R79): Creates a lease or adds extents to one, admitting all extent requests as a whole against budgets and pools. -/
  | leaseGrant (x : Mbx)
  /-- LEASE_RENEW (R70): Resets the lease timer and optionally replaces its duration if accepted before the deadline. -/
  | leaseRenew (x : Mbx)
  /-- LEASE_RELEASE (R69): Drains the named extents, or all, from the holder's lease. -/
  | leaseRelease (x : Mbx)
  /-- LEASE_ATTACH (R65): Binds a lease to the issuing LD, window and session on presentation of its valid token. -/
  | leaseAttach (x : Mbx)
  /-- LEASE_QUERY (R83): Returns a lease's state, time left and extent records. -/
  | leaseQuery (x : Mbx)
  /-- LEASE_REVOKE (R69): The fabric manager drains named extents from any lease with an optional drain bound. -/
  | leaseRevoke (x : Mbx)
  /-- ACCOUNT_SET (R75): Sets B, Z and the lossless privilege of an account on one module. -/
  | accountSet (x : Mbx)
  /-- ACCOUNT_QUERY (R83): Returns an account's budget, reserve, charge, overage and key slot states. -/
  | accountQuery (x : Mbx)
  /-- EXTENT_RESPREAD (R88): Replaces one member of a spread set and starts migrating that slot's pages. -/
  | extentRespread (x : Mbx)
  /-- ACCOUNT_BIND_ADD (R86): Adds a holder ID to an account's member list and copies the list to every live member. -/
  | accountBindAdd (x : Mbx)
  /-- ACCOUNT_BIND_REMOVE (R86): Removes a holder ID from an account's member list, leaving its leases running. -/
  | accountBindRemove (x : Mbx)
  /-- SPC_HB_WRITE (R71): A 64-bit write to a window's lease page by the holding LD renews the lease. -/
  | spcHbWrite (ld : Fin 64) (w : Fin 8) (off : Fin 512) (v : Word)
  /-- LEASE_QUARTER_LEFT (R85): A lease's time left falls to a quarter of its duration and ESU source 193 is raised to the holder. -/
  | leaseQuarterLeft (h : Nat)
  /-- LEASE_TIMER_EXPIRE (R68): A lease timer reaches zero, the lease enters GRACE, its token becomes invalid and its drain starts. -/
  | leaseTimerExpire (h : Nat)
  /-- LEASE_GRACE_EXPIRE (R68): After 5 s of GRACE the lease closes and extents no other lease names are reclaimed. -/
  | leaseGraceExpire (h : Nat)
  /-- LEASE_DRAIN_END (R68): A drain's in-flight count reaches zero and the drained extents leave the lease or the lease closes. -/
  | leaseDrainEnd (h : Nat)
  /-- DRAIN_BOUND_EXPIRE (R68): A drain bound expires, outstanding requests complete with poison 0x04 as stragglers and the drain ends. -/
  | drainBoundExpire (h : Nat)
  /-- TOKEN_LOCKOUT_END (R67): The 1 s lockout of an LD's LEASE_ATTACH commands after eight consecutive token refusals ends and the run count restarts. -/
  | tokenLockoutEnd (ld : Fin 64)
  /-- RESPREAD_PAGE_MOVE (R89): The old member takes a page's migration token, snoops tracked lines and sends the decoded page to the new member. -/
  | respreadPageMove (e : Nat) (page : Nat)
  /-- RESPREAD_PAGE_MOVED (R89): After the new member (and its twin) hold the page, the old member marks it moved and releases chunks, mirror copy, charge and token. -/
  | respreadPageMoved (e : Nat) (page : Nat)
  /-- RESPREAD_PORTAL_SWITCH (R90): A portal with no request outstanding at the old member switches the slot's requests to the new member. -/
  | respreadPortalSwitch (e : Nat)
  /-- DIRECTORY_WAIT_END (R106): A request that waited for a tracker entry, a way or the victim buffer proceeds once one frees. -/
  | directoryWaitEnd (r : Nat)
  /-- SNOOP_TIMEOUT (R103): A holder with no BIRsp 50 ms after a snoop is declared unresponsive, its modified lines become owner lost and its extents are revoked. -/
  | snoopTimeout (holder : Nat)
  /-- HOLDER_SWEEP_DONE (R110): A holder sweep finishes walking the directory and sets DIR_INT_STATUS.SWEEP_DONE. -/
  | holderSweepDone
  /-- PUB_BUILD (R111): Copies a source extent into a new published extent under the shared-group key using movers. -/
  | pubBuild (x : Mbx)
  /-- PUB_FLIP (R112): Remaps old published extents to new ones in every hedge table and rebinds V-LR regions to new factors. -/
  | pubFlip (x : Mbx)
  /-- PUB_OLD_RECLAIM (R113): An old flipped extent is reclaimed once the requests accepted against it have completed. -/
  | pubOldReclaim (e : Nat)
  /-- DIR_QUERY (R115): Returns the directory entry of a space line address. -/
  | dirQuery (x : Mbx)
  /-- TRAIN (R140): Histograms exponents of a source extent and builds a code table into a staging buffer. -/
  | train (x : Mbx)
  /-- TABLE_LOAD (R140): Loads given code lengths into a staging buffer after checking them. -/
  | tableLoad (x : Mbx)
  /-- TABLE_PUBLISH (R149): Copies a staging buffer into the lowest FREE code-table slot and distributes it to every live member. -/
  | tablePublish (x : Mbx)
  /-- TABLE_BIND (R148): Binds a C-EXP extent to a PUBLISHED slot of its class for later recodes. -/
  | tableBind (x : Mbx)
  /-- TABLE_RETIRE (R150): Moves an unbound PUBLISHED slot to RETIRING and starts background recodes off it. -/
  | tableRetire (x : Mbx)
  /-- TABLE_QUERY (R164): Returns a code-table slot's state, generation, class and husk count. -/
  | tableQuery (x : Mbx)
  /-- RECODE (R165): Recodes every page of an extent not already in its bound encoding as background work. -/
  | recode (x : Mbx)
  /-- VLR_BIND (R166): Binds a V-LR extent to its factor matrices, discarding materialised pages and abandoning expansions. -/
  | vlrBind (x : Mbx)
  /-- VLR_DISCARD (R166): Discards every materialised page of a V-LR extent, keeping the binding. -/
  | vlrDiscard (x : Mbx)
  /-- TABLE_SLOT_FREED (R150): A RETIRING slot whose husk count is zero on every member becomes FREE. -/
  | tableSlotFreed (slot : Fin 64)
  /-- BG_RECODE_PAGE (R153): A module starts a class-7 background recode of a page whose husk names a RETIRING slot. -/
  | bgRecodePage (page : Nat)
  /-- VLR_EXPANSION_DONE (R146): An expansion ends, the page is stored as a materialised P-RAW husk and waiting reads are served. -/
  | vlrExpansionDone (page : Nat)
  /-- EXPANSION_QUEUE_START (R298): A queued expansion starts when a module context ends. -/
  | expansionQueueStart
  /-- EPOCH_BOUNDARY (R177): The epoch timer expires, E advances and the EPOCH hook record is posted. -/
  | epochBoundary
  /-- AGE_WALKER_VISIT (R179): The age walker visits a near page, clamps its age at 128 and updates the eviction candidate list. -/
  | ageWalkerVisit (page : Nat)
  /-- EVICTION_PAGE (R181): Eviction takes the oldest evictable candidate, discarding a near copy of a both page or demoting a near page. -/
  | evictionPage (page : Nat)
  /-- DEMOTION_DONE (R175): A demotion's far program completes, near chunks are released and the page enters state far. -/
  | demotionDone (page : Nat)
  /-- PROMOTION_DONE (R175): A promotion's copy completes and checks by HCRC, and the page enters state both. -/
  | promotionDone (page : Nat)
  /-- RELOCATION_DONE (R175): A relocation of a retired-source page completes and NEAR is updated. -/
  | relocationDone (page : Nat)
  /-- PLACE_PROMOTE (R193): A policy placement request promotes consecutive pages in the named class. -/
  | placePromote
  /-- PLACE_DEMOTE (R193): A policy placement request demotes consecutive unpinned pages. -/
  | placeDemote
  /-- PLACE_DISCARD (R193): A policy placement request drops the near copy of pages in state both. -/
  | placeDiscard
  /-- PLACE_PIN (R193): A policy placement request pins consecutive pages in the near tier. -/
  | placePin
  /-- PLACE_UNPIN (R193): A policy placement request unpins consecutive pages. -/
  | placeUnpin
  /-- POLICY_ACTIVATE (R272): Makes a loaded policy sheaf active by starting its context on POL_TILLER. -/
  | policyActivate (x : Mbx)
  /-- STREAM_START (R197): Checks a stream schedule descriptor and pin budget and starts the schedule. -/
  | streamStart (x : Mbx)
  /-- STREAM_STOP (R202): Stops a running stream schedule and releases its pins. -/
  | streamStop (x : Mbx)
  /-- STREAM_QUERY (R202): Returns a schedule's status and late-layer count. -/
  | streamQuery (x : Mbx)
  /-- PAGE_PIN (R184): Pins pages near within the account floor, promoting far pages in class 7. -/
  | pagePin (x : Mbx)
  /-- PAGE_UNPIN (R202): Unpins pages. -/
  | pageUnpin (x : Mbx)
  /-- TIER_MOVE_PROMOTE (R202): Promotes a range of pages as a background command. -/
  | tierMovePromote (x : Mbx)
  /-- TIER_MOVE_DEMOTE (R202): Demotes a range of unpinned pages as a background command. -/
  | tierMoveDemote (x : Mbx)
  /-- STREAM_LAYER_PROMOTE (R198): A schedule starts promoting the next layer once it lies within the lead and the pin budget. -/
  | streamLayerPromote (i : Fin 32)
  /-- STREAM_LAYER_RESIDENT (R200): Every page of a layer becomes resident and the module writes its gate word and RESIDENT. -/
  | streamLayerResident (i : Fin 32) (layer : Nat)
  /-- FAR_READ_DONE (R210): A far read completes after hard decode, soft decode or parity rebuild and HCRC check. -/
  | farReadDone (page : Nat) (res : List FarRes)
  /-- FAR_ROW_PROGRAM_DONE (R211): A stripe row program with computed parity finishes, completing durable writes whose journal row is also done. -/
  | farRowProgramDone (page : Nat) (journal : Bool)
  /-- DUR_WIN_EXPIRE (R212): A data or journal row holding a durable record is closed with zero padding when DUR_WIN_US elapses. -/
  | durWinExpire (page : Nat) (journal : Bool)
  /-- FAR_PROGRAM_FAIL (R212): A program failure retires the block, rebuilds written rows to a spare and rewrites the row. -/
  | farProgramFail (chan : Fin 24) (die : Fin 4) (band : Nat)
  /-- FAR_ERASE_FAIL (R212): An erase failure retires the block and the band takes a spare block. -/
  | farEraseFail (chan : Fin 24) (band : Nat)
  /-- GC_BAND_COPY (R213): Background work copies valid husks of a victim band to the relocation band, updating FAR only if unchanged. -/
  | gcBandCopy (page : Nat)
  /-- BAND_ERASE (R214): A band with no valid chunks, no reads in flight and durable freeing records is erased. -/
  | bandErase (band : Nat)
  /-- GOVERNOR_REFILL (R215): The write-budget bucket refills at its rate and paced writes waiting on it resume. -/
  | governorRefill
  /-- JOURNAL_CHECKPOINT (R220): With half the journal ring used, dirty page-map regions and the block map are written and the journal is freed. -/
  | journalCheckpoint
  /-- FAR_WEAR_QUERY (R223): Returns far-tier wear figures. -/
  | farWearQuery (x : Mbx)
  /-- FAR_DIE_RETIRE (R223): The fabric manager retires a far die and starts its rebuild. -/
  | farDieRetire (x : Mbx)
  /-- ADD (R232): Scalar add. -/
  | add (c : Fin 4096)
  /-- SUB (R232): Scalar subtract. -/
  | sub (c : Fin 4096)
  /-- MUL (R232): Scalar multiply, low 64 bits. -/
  | mul (c : Fin 4096)
  /-- MULH (R232): Scalar multiply, high 64 bits, signed or unsigned. -/
  | mulh (c : Fin 4096)
  /-- AND (R232): Scalar bitwise and. -/
  | and (c : Fin 4096)
  /-- OR (R232): Scalar bitwise or. -/
  | or (c : Fin 4096)
  /-- XOR (R232): Scalar bitwise xor. -/
  | xor (c : Fin 4096)
  /-- SHL (R232): Scalar shift left. -/
  | shl (c : Fin 4096)
  /-- SHR (R232): Scalar logical shift right. -/
  | shr (c : Fin 4096)
  /-- SAR (R232): Scalar arithmetic shift right. -/
  | sar (c : Fin 4096)
  /-- MIN (R232): Scalar minimum, signed or unsigned. -/
  | min (c : Fin 4096)
  /-- MAX (R232): Scalar maximum, signed or unsigned. -/
  | max (c : Fin 4096)
  /-- CMP (R233): Lane-index compare writing 512 predicate bits. -/
  | cmp (c : Fin 4096)
  /-- LI (R232): Load sign-extended immediate. -/
  | li (c : Fin 4096)
  /-- LDS (R234): Scalar load from scratch, space or context words. -/
  | lds (c : Fin 4096)
  /-- STS (R234): Scalar store to scratch, space or context words. -/
  | sts (c : Fin 4096)
  /-- VLD (R232): Load a vector register from scratch. -/
  | vld (c : Fin 4096)
  /-- VST (R232): Store active elements of a vector register to scratch. -/
  | vst (c : Fin 4096)
  /-- VADD (R238): Vector add. -/
  | vadd (c : Fin 4096)
  /-- VMUL (R238): Vector multiply. -/
  | vmul (c : Fin 4096)
  /-- VMAC (R238): Vector multiply-accumulate with one rounding. -/
  | vmac (c : Fin 4096)
  /-- VMAX (R232): Vector maximum with NaN rules. -/
  | vmax (c : Fin 4096)
  /-- VDOT (R245): Grouped dot products into 64 results. -/
  | vdot (c : Fin 4096)
  /-- VRED (R246): Reduce active elements to a scalar sum, maximum or minimum. -/
  | vred (c : Fin 4096)
  /-- VCVT (R247): Convert elements between types, including block types and scale registers. -/
  | vcvt (c : Fin 4096)
  /-- VSCALE (R232): Scale a vector by an FP32 value or a power of two. -/
  | vscale (c : Fin 4096)
  /-- MMA (R249): Tile multiply-accumulate over 16 steps. -/
  | mma (c : Fin 4096)
  /-- TZERO (R248): Zero a tile and set its FP or integer mode. -/
  | tzero (c : Fin 4096)
  /-- TSTORE (R250): Convert and store a tile to scratch. -/
  | tstore (c : Fin 4096)
  /-- GATHER (R254): Start an asynchronous indexed row gather from the space to scratch. -/
  | gather (c : Fin 4096)
  /-- SCATTER (R254): Start an asynchronous indexed row scatter from scratch to the space. -/
  | scatter (c : Fin 4096)
  /-- STREAM (R254): Start an asynchronous block copy between space and scratch. -/
  | stream (c : Fin 4096)
  /-- PUT_PORT_MESSAGE (R254): PUT FUNC 0 sends a message to the placement or completion port, waiting while it is full. -/
  | putPortMessage (c : Fin 4096)
  /-- PUT_LINE_WRITE (R254): PUT FUNC 1 starts an asynchronous whole-line write to the space. -/
  | putLineWrite (c : Fin 4096)
  /-- FETCHF (R255): Fetch stored-form block elements and scales into registers. -/
  | fetchf (c : Fin 4096)
  /-- TOPK_INS (R256): Insert candidates or records into the top-k unit. -/
  | topkIns (c : Fin 4096)
  /-- TOPK_DRAIN (R256): Write the top-k records best first to scratch and empty the unit. -/
  | topkDrain (c : Fin 4096)
  /-- BR (R231): Branch, conditional through its guard. -/
  | br (c : Fin 4096)
  /-- BRC (R232): Branch when a register comparison holds. -/
  | brc (c : Fin 4096)
  /-- CALL (R258): Push the return index and branch. -/
  | call (c : Fin 4096)
  /-- RET (R258): Pop the return index and branch. -/
  | ret (c : Fin 4096)
  /-- LOOP (R257): Start a hardware loop. -/
  | loop (c : Fin 4096)
  /-- YIELD (R278): Give up the rest of the quantum and become a swap candidate. -/
  | yield (c : Fin 4096)
  /-- WAITG (R259): Wait until a 64-bit word compares true, with optional timeout. -/
  | waitg (c : Fin 4096)
  /-- SETG (R260): Atomically store, add, OR or max a 64-bit word at the page home. -/
  | setg (c : Fin 4096)
  /-- SIGNAL (R261): Append a signal record to the tiller's queue and raise its ESU source. -/
  | signal (c : Fin 4096)
  /-- FENCE (R253): Wait until every earlier asynchronous operation, store, PUT and SETG has completed. -/
  | fence (c : Fin 4096)
  /-- TRAP (R263): Trap with cause 0x10 and ending the context. -/
  | trap (c : Fin 4096)
  /-- HALT (R262): Wait as FENCE and end the context with status done. -/
  | halt (c : Fin 4096)
  /-- ILLEGAL_MAJOR_OPCODE (R232): An instruction word with an illegal major opcode traps with cause 0x01. -/
  | illegalMajorOpcode (c : Fin 4096)
  /-- ASYNC_OP_DONE (R254): An asynchronous operation completes, freeing one of the context's 16 outstanding slots and recording any imprecise fault. -/
  | asyncOpDone (c : Fin 4096) (op : Nat)
  /-- FETCHF_DONE (R255): A FETCHF completes and instructions waiting on its registers proceed. -/
  | fetchfDone (c : Fin 4096)
  /-- WAITG_REEVALUATE (R259): A waiting WAITG is evaluated again on a write to its line or every 100 µs and continues when true. -/
  | waitgReevaluate (c : Fin 4096)
  /-- WAITG_TIMEOUT (R259): A WAITG timeout elapses, writes zeros to its predicate and continues. -/
  | waitgTimeout (c : Fin 4096)
  /-- CONTEXT_QUANTUM_EXPIRE (R278): A resident context reaches QUANTUM_US and becomes a swap candidate for a waiting context. -/
  | contextQuantumExpire (c : Fin 4096)
  /-- CONTEXT_SWAP_DONE (R279): A context swap out or in completes. -/
  | contextSwapDone (c : Fin 4096)
  /-- SHEAF_LOAD (R267): Checks and loads a sheaf image on every live member and returns a handle. -/
  | sheafLoad (x : Mbx)
  /-- SHEAF_UNLOAD (R270): Puts a sheaf into unloading, freeing the image when its last context ends. -/
  | sheafUnload (x : Mbx)
  /-- SHEAF_QUERY (R299): Returns a sheaf's kind, state and sizes. -/
  | sheafQuery (x : Mbx)
  /-- CTX_CANCEL (R299): The fabric manager ends one context at its next instruction boundary. -/
  | ctxCancel (x : Mbx)
  /-- TLR_RQ_TAIL_WRITE (R282): A doorbell write makes the module fetch descriptors up to the new tail. -/
  | tlrRqTailWrite (ld : Fin 64) (r : Fin 4) (v : Word)
  /-- TLR_RQ_CFG_ENABLE (R282): Setting a command ring's EN from 0 to 1 zeroes HEAD and TAIL and clears ERR. -/
  | tlrRqCfgEnable (ld : Fin 64) (r : Fin 4) (v : Word)
  /-- TLR_CQ_CFG_ENABLE (R286): Setting a completion ring's EN zeroes HEAD and TAIL and sets the phase. -/
  | tlrCqCfgEnable (ld : Fin 64) (r : Fin 4) (v : Word)
  /-- TLR_CQ_HEAD_WRITE (R286): Host software advances the completion head, letting waiting completions be written. -/
  | tlrCqHeadWrite (ld : Fin 64) (r : Fin 4) (v : Word)
  /-- TLR_SIG_POP_WRITE (R261): Writing 1 removes the head record of a tiller's signal queue. -/
  | tlrSigPopWrite (n : Fin 96) (v : Word)
  /-- DESC_START (R284): A START descriptor creates and places one context per member. -/
  | descStart (ld : Fin 64) (r : Fin 4)
  /-- DESC_CANCEL (R285): A CANCEL descriptor ends every live context of its ring with the named tag. -/
  | descCancel (ld : Fin 64) (r : Fin 4)
  /-- DESC_BARRIER (R285): A BARRIER descriptor is accepted once every earlier descriptor of its ring has completed. -/
  | descBarrier (ld : Fin 64) (r : Fin 4)
  /-- DESC_START_RESUME (R275): A START waiting for a context number, LD quota or window region proceeds once they admit it. -/
  | descStartResume (ld : Fin 64) (r : Fin 4)
  /-- CQ_COALESCE_TIMER (R289): TIME_US after the first pending completion the LD's MSI-X vector is sent. -/
  | cqCoalesceTimer (ld : Fin 64) (r : Fin 4)
  /-- TILLER_SHARE_REDUCE (R294): A tiller below 85 % of its peers for 10 ms is share-reduced. -/
  | tillerShareReduce (n : Fin 96) (ratio : Fin 4096)
  /-- TILLER_RESTORE (R294): A share-reduced tiller above 90 % for 100 ms is restored. -/
  | tillerRestore (n : Fin 96) (ratio : Fin 65536)
  /-- TLR_DIS_WRITE (R296): Disabling a running tiller swaps out its contexts to its neighbour. -/
  | tlrDisWrite (hi : Bool) (v : Word)
  /-- TILLER_RUNTIME_FAIL (R296): A tiller failing at run time ends its resident contexts with status 5. -/
  | tillerRuntimeFail (n : Fin 96)
  /-- FLIT_TRANSMIT (R313): An output port chooses and sends the next flit against credit, inserting a MARKER every 256th position. -/
  | flitTransmit (p : Fin 6)
  /-- FLIT_DATA_RX (R306): A DATA flit is received, FEC-decoded and CRC-checked, or discarded with a NAK. -/
  | flitDataRx (p : Fin 6) (flit : Bytes)
  /-- FLIT_IDLE_RX (R306): An IDLE flit returns an acknowledgement and credits. -/
  | flitIdleRx (p : Fin 6) (flit : Bytes)
  /-- FLIT_NAK_RX (R306): A NAK makes the sender replay every later DATA flit from its replay buffer. -/
  | flitNakRx (p : Fin 6) (flit : Bytes)
  /-- FLIT_MARKER_RX (R307): A MARKER realigns lanes, switches key epoch and checks the GMAC tag. -/
  | flitMarkerRx (p : Fin 6) (epoch : Nat) (tag : Nat)
  /-- PORT_NO_FLIT_TIMEOUT (R309): A port receiving no valid flit for 20 µs goes down. -/
  | portNoFlitTimeout (p : Fin 6)
  /-- PORT_RETRAIN_TIMER (R309): A port that is down retrains every 100 ms. -/
  | portRetrainTimer (p : Fin 6)
  /-- KEY_EPOCH_ADVANCE (R435): After 2^40 flits on a link the key epoch advances at the next MARKER. -/
  | keyEpochAdvance (p : Fin 6)
  /-- LINK_WEIGHT_UPDATE (R318): Each port's link weight is recomputed from lanes and retry fraction every 1 ms. -/
  | linkWeightUpdate
  /-- ROUTE_SPLIT_UPDATE (R318): Every 100 µs the split for half-ring distances is recomputed from link weights. -/
  | routeSplitUpdate
  /-- MSG_RD (R315): A line read message arrives and is forwarded or served at the page home. -/
  | msgRd (m : Msg)
  /-- MSG_WR (R315): A full-line write message arrives and is forwarded or accepted at the page home. -/
  | msgWr (m : Msg)
  /-- MSG_WRP (R315): A byte-enabled write message arrives and is forwarded or accepted at the page home. -/
  | msgWrp (m : Msg)
  /-- MSG_ATOM (R315): A SETG message arrives and is applied atomically at the page home. -/
  | msgAtom (m : Msg)
  /-- MSG_PLACE (R315): A placement request message arrives at a page home. -/
  | msgPlace (m : Msg)
  /-- MSG_SNPINV (R315): A BISnpInv message reaches a holder's portal and is sent to the host. -/
  | msgSnpinv (m : Msg)
  /-- MSG_SNPDATA (R315): A BISnpData message reaches a holder's portal and is sent to the host. -/
  | msgSnpdata (m : Msg)
  /-- MSG_SNPCUR (R315): A BISnpCur message reaches a holder's portal and is sent to the host. -/
  | msgSnpcur (m : Msg)
  /-- MSG_DATA (R315): Read data, possibly poisoned, returns to the portal and is sent to the host. -/
  | msgData (m : Msg)
  /-- MSG_CMP (R315): A write or atomic completion returns to the portal. -/
  | msgCmp (m : Msg)
  /-- MSG_BIRSP (R99): A snoop response reaches the page home and the directory entry is updated, or ignored if late. -/
  | msgBirsp (m : Msg)
  /-- MSG_WBK (R103): Snoop write-back data enters the line's merge-buffer slot under later write bytes. -/
  | msgWbk (m : Msg)
  /-- MSG_MIRROR (R332): A mirrored line enters a reserved twin slot and MACK is returned. -/
  | msgMirror (m : Msg)
  /-- MSG_CLOSE (R160): A close marker closes the twin's slot for the page and stamps its SEQ. -/
  | msgClose (m : Msg)
  /-- MSG_JRNL (R329): Journal records enter the twin's receive ring and are acknowledged. -/
  | msgJrnl (m : Msg) (recs : List JRec)
  /-- MSG_JACK (R329): A journal acknowledgement marks records journalled and lets waiting commands complete. -/
  | msgJack (m : Msg)
  /-- MSG_MEMB (R321): A formation or membership message updates neighbour tables or the published live set. -/
  | msgMemb (m : Msg) (b : MembBody)
  /-- MSG_COPY (R424): A bulk copy of decoded page contents, table slots, sheaf images or metadata arrives and is stored. -/
  | msgCopy (m : Msg) (b : CopyBody)
  /-- MSG_GASP (R472): A twin keeps a partner's last-gasp record and posts event 0x0E05. -/
  | msgGasp (m : Msg)
  /-- MSG_MACK (R332): A mirror acknowledgement meets the twin condition of the matching write. -/
  | msgMack (m : Msg)
  /-- MSG_RESERVED_OP (R315): A message with a reserved opcode is discarded and counted. -/
  | msgReservedOp (op : Fin 256) (m : Msg)
  /-- MIRROR_MACK_TIMEOUT (R332): A MIRROR without MACK after FTO_MS completes its write without the twin and marks the page for resync. -/
  | mirrorMackTimeout (r : Nat)
  /-- FABRIC_REQ_TIMEOUT (R335): A remote request without response after FTO_MS is re-issued to the twin, poisoned with 0x0A or completed as lost. -/
  | fabricReqTimeout (r : Nat)
  /-- FORMATION_RETRY (R321): With fewer than 16 live modules formation is retried every 1 s. -/
  | formationRetry
  /-- MEMBER_DECLARE_ABSENT (R323): The coordinator, after probing, declares a module absent and publishes a new membership epoch. -/
  | memberDeclareAbsent (m : Fin 64) (elapsedMs : Nat)
  /-- TAKEOVER_REPLICA_ACTIVE (R333): The twin's replica becomes active and unmarked pages are served, marked pages snooped. -/
  | takeoverReplicaActive (m : Fin 64)
  /-- MODULE_REJOIN (R324): A module with matching SPACE_ID whose coordinates are a hole rejoins and copies state from its twin. -/
  | moduleRejoin (m : Fin 64) (serial : Nat) (spaceId : Nat)
  /-- RESYNC_PAGE_COPY (R336): The acting side copies a marked or newer page to the other copy as class 7 work. -/
  | resyncPageCopy (page : Nat)
  /-- WITNESS_HOLD_EXPIRE (R322): A witness absent for WIT_HOLD_S is replaced and the witness epoch increased. -/
  | witnessHoldExpire (w : Fin 64)
  /-- FORM_QUERY (R339): Returns per-index membership, epoch and witnesses. -/
  | formQuery (x : Mbx)
  /-- FORM_ADOPT (R324): Admits a module with a new serial after retiring its old keys and marking its old pages unwritten. -/
  | formAdopt (x : Mbx)
  /-- WITNESS_FORCE (R339): Names three live modules as witnesses, making their part the quorum part. -/
  | witnessForce (x : Mbx)
  /-- LINK_RETRAIN (R339): Retrains a Hedgerow port at a given width. -/
  | linkRetrain (x : Mbx)
  /-- RESYNC_QUERY (R339): Returns pages left to resynchronise and the twin state. -/
  | resyncQuery (x : Mbx)
  /-- QOS_CLASS_SET (R342): Sets a holder's label map and class parameters and copies them to every member. -/
  | qosClassSet (x : Mbx)
  /-- QOS_RESERVE (R347): Sets or releases a reservation, admitted only within the published floor. -/
  | qosReserve (x : Mbx)
  /-- QOS_QUERY (R358): Returns a resource's floor, D, admitted sums and scale factors. -/
  | qosQuery (x : Mbx)
  /-- QOS_WINDOW_END (R354): A 100 µs monitoring window ends and guarantee and latency states are evaluated. -/
  | qosWindowEnd
  /-- RT_URGENCY_CHANGE (R351): A real-time master's buffer fill crosses an urgency threshold. -/
  | rtUrgencyChange (m : RtMaster) (level : Fin 4) (chan : Option (Fin 96 × Fin 2 × Fin 16))
  /-- REFRESH_DUE (R375): A refresh interval elapses and a rank's owed count rises, paid or postponed. -/
  | refreshDue (n : Fin 96) (rank : Fin 2)
  /-- FORCED_REFRESH_DONE (R377): A forced refresh has paid every owed refresh and the rank accepts accesses again. -/
  | forcedRefreshDone (n : Fin 96) (rank : Fin 2)
  /-- REFRESH_RATE_POLL (R374): Every 100 µs the device's refresh-rate report is read and tREFI set. -/
  | refreshRatePoll (n : Fin 96) (rate : Fin 3)
  /-- WRITE_QUEUE_DRAIN (R370): A channel drains queued writes from 3/4 full to 1/4, or while no read waits. -/
  | writeQueueDrain (n : Fin 96)
  /-- RETRAIN_PERIOD_EXPIRE (R386): A channel is queued for retraining RETRAIN_MS after its last training. -/
  | retrainPeriodExpire (n : Fin 96)
  /-- RETRAIN_TEMP_QUEUE (R386): A channel whose temperature moved by RETRAIN_DC is queued for retraining. -/
  | retrainTempQueue (n : Fin 96) (temp : Fin 256)
  /-- RETRAIN_START (R387): A queued channel starts retraining when no urgent master waits or after 100 ms. -/
  | retrainStart (n : Fin 96)
  /-- RETRAIN_DONE (R387): A retraining writes new delays and releases held requests. -/
  | retrainDone (n : Fin 96) (dly : Option Word) (rd : Fin 256) (wr : Fin 256) (temp : Fin 256)
  /-- DRC_RETRAIN_GO (R387): Writing GO queues the named channel for retraining. -/
  | drcRetrainGo (v : Word)
  /-- CHANNEL_SLOW_DETECT (R388): A channel slower than 1.5 times the mean for 10 ms becomes slow. -/
  | channelSlowDetect (n : Fin 96)
  /-- CHANNEL_SLOW_CLEAR (R388): A slow channel below 1.2 times the mean for 100 ms clears SLOW. -/
  | channelSlowClear (n : Fin 96)
  /-- BROOM_START (R406): Starts a Broom scrub pass over selected channels and chunks. -/
  | broomStart (x : Mbx)
  /-- BROOM_PAGE_VISIT (R406): Broom reads and checks one page, repairing correctable lines if REPAIR is set. -/
  | broomPageVisit (page : Nat)
  /-- BROOM_QUERY (R408): Returns the summary of the last Broom pass. -/
  | broomQuery (x : Mbx)
  /-- RETIRE (R409): Retires a near chunk run, row, bank or channel and relocates its pages. -/
  | retire (x : Mbx)
  /-- CHAFF_QUERY (R419): Returns entries of the chaff list. -/
  | chaffQuery (x : Mbx)
  /-- MOVER_COPY (R404): Starts a mover copy job between space addresses. -/
  | moverCopy (x : Mbx)
  /-- MOVER_CTL_RESUME (R405): Writes the faulty line poisoned and continues a halted copy job. -/
  | moverCtlResume (x : Mbx)
  /-- MOVER_CTL_ABORT (R405): Ends a halted copy job with status 0x74. -/
  | moverCtlAbort (x : Mbx)
  /-- MOVER_COPY_CHUNK (R404): A mover copy job transfers its next lines. -/
  | moverCopyChunk (m : Fin 16) (lines : Nat)
  /-- PARITY_DELTA_APPLY (R402): A write's delta is applied to the parity line by an atomic read-XOR-write. -/
  | parityDeltaApply (n : Fin 96) (chunk : Nat)
  /-- STRIPE_RECONSTRUCT (R403): A chunk is rebuilt from the other members of its stripe row. -/
  | stripeReconstruct (n : Fin 96) (chunk : Nat)
  /-- INT_ERRQ_POP_WRITE (R413): Writing POP removes the head entry of the error queue. -/
  | intErrqPopWrite (v : Word)
  /-- CAPTURE_RELEASE_WRITE (R412): Writing 1 to a capture register's VALID releases the frozen capture. -/
  | captureReleaseWrite (off : Nat) (v : Word)
  /-- HUSK_LANE_SHARE_REDUCE (R416): A lane below 85 % of its peers for 10 ms is share-reduced. -/
  | huskLaneShareReduce (n : Fin 32) (ratio : Fin 4096)
  /-- HUSK_LANE_RESTORE (R416): A share-reduced lane above 90 % for 100 ms is restored. -/
  | huskLaneRestore (n : Fin 32) (ratio : Fin 65536)
  /-- HSK_LANE_DIS_WRITE (R157): Setting a lane's disable bit stops new work to it while it finishes its queue. -/
  | hskLaneDisWrite (v : Word)
  /-- SPREAD_MEMBER_SLOW (R418): A spread-set member twice as slow as the others for 100 ms is paced by portals. -/
  | spreadMemberSlow (e : Nat) (m : Fin 64)
  /-- KEY_QUERY (R437): Returns a key slot's state and use counts. -/
  | keyQuery (x : Mbx)
  /-- ACCOUNT_ERASE (R426): Revokes an account's leases everywhere and retires its key slots. -/
  | accountErase (x : Mbx)
  /-- SPACE_KEY_ROLL (R435): Replaces the per-space key and advances the key epoch. -/
  | spaceKeyRoll (x : Mbx)
  /-- KEY_SLOT_EMPTIED (R426): A RETIRING slot that no page names becomes EMPTY. -/
  | keySlotEmptied (slot : Fin 512)
  /-- ENTROPY_HEALTH_FAIL (R422): The entropy source fails its health test and key generation stops. -/
  | entropyHealthFail
  /-- GET_VERSION (R428): SPDM GET_VERSION request. -/
  | getVersion (who : Issuer) (data : Bytes)
  /-- GET_CAPABILITIES (R428): SPDM GET_CAPABILITIES request. -/
  | getCapabilities (who : Issuer) (data : Bytes)
  /-- NEGOTIATE_ALGORITHMS (R428): SPDM NEGOTIATE_ALGORITHMS request. -/
  | negotiateAlgorithms (who : Issuer) (data : Bytes)
  /-- GET_DIGESTS (R428): SPDM GET_DIGESTS request. -/
  | getDigests (who : Issuer) (data : Bytes)
  /-- GET_CERTIFICATE (R432): SPDM GET_CERTIFICATE request. -/
  | getCertificate (who : Issuer) (data : Bytes)
  /-- CHALLENGE (R428): SPDM CHALLENGE request. -/
  | challenge (who : Issuer) (data : Bytes)
  /-- GET_MEASUREMENTS (R428): SPDM GET_MEASUREMENTS request returning Table 13-2 measurements. -/
  | getMeasurements (who : Issuer) (data : Bytes)
  /-- KEY_EXCHANGE (R429): SPDM KEY_EXCHANGE opens a session of at most two per LD. -/
  | keyExchange (who : Issuer) (data : Bytes)
  /-- FINISH (R428): SPDM FINISH completes a session handshake. -/
  | finish (who : Issuer) (sess : Fin 2) (verified : Bool) (data : Bytes)
  /-- HEARTBEAT (R429): SPDM HEARTBEAT keeps a session alive. -/
  | heartbeat (who : Issuer) (sess : Fin 2)
  /-- KEY_UPDATE (R428): SPDM KEY_UPDATE updates session keys. -/
  | keyUpdate (who : Issuer) (sess : Fin 2) (data : Bytes)
  /-- END_SESSION (R429): SPDM END_SESSION ends a session, orphaning leases bound to it. -/
  | endSession (who : Issuer) (sess : Fin 2)
  /-- SPDM_HEARTBEAT_TIMEOUT (R429): A missed SPDM heartbeat ends the session. -/
  | spdmHeartbeatTimeout (who : Issuer) (sess : Fin 2)
  /-- VENDOR_DEFINED_REQUEST (R485): A vendor command carried as an SPDM secured VENDOR_DEFINED_REQUEST is run and answered. -/
  | vendorDefinedRequest (who : Issuer) (sess : Fin 2) (std : Nat) (vendor : Nat) (payload : Bytes)
  /-- IDE_KM (R433): CXL IDE_KM programs IDE keys for a host port within an SPDM session. -/
  | ideKm (p : Fin 4) (ld : Fin 64) (sess : Fin 2) (go : Bool) (data : Bytes)
  /-- ESU_EDGE_ARRIVE (R441): A rising edge on an edge source sets its pending bit, or is merged if already pending. -/
  | esuEdgeArrive (n : Fin 1024) (ld : Fin 64)
  /-- ESU_LEVEL_CHANGE (R442): A level source's input changes, making it pending or not. -/
  | esuLevelChange (n : Fin 1024)
  /-- ESU_GROUP_TIMER_EXPIRE (R451): A group's TIME_US passes since its first arrival and it fires. -/
  | esuGroupTimerExpire (g : Fin 64)
  /-- ESU_CLAIM_READ (R452): A claim read returns and activates the best deliverable source and pushes the threshold. -/
  | esuClaimRead (view : View) (t : Fin 68)
  /-- ESU_COMPLETE_WRITE (R454): A completion of the top-of-stack source pops the threshold and re-evaluates delivery. -/
  | esuCompleteWrite (view : View) (t : Fin 68) (v : Word)
  /-- ESU_THRESH_WRITE (R456): A write replaces the threshold at the top of the target's stack. -/
  | esuThreshWrite (view : View) (t : Fin 68) (v : Word)
  /-- ESU_SRC_WRITE (R451): A write to a source's control changes enable, priority, group, vector or target, an enable counting as an arrival. -/
  | esuSrcWrite (view : View) (n : Fin 1024) (v : Word)
  /-- MSIX_VECTOR_UNMASK (R449): Setting MSI-X Enable or unmasking a vector sends pending messages. -/
  | msixVectorUnmask (ld : Fin 64) (en : Bool) (fmask : Bool) (vmask : BitVec 32)
  /-- FUNCTION_LEVEL_RESET (R457): An LD reset clears its ESU state, ends contexts, orphans leases and drains its requests. -/
  | functionLevelReset (ld : Fin 64)
  /-- LD_RESET_DRAIN_END (R457): When an reset LD's requests have drained its reservations are released and level sources re-sampled. -/
  | ldResetDrainEnd (ld : Fin 64)
  /-- STOOK_SPILL (R461): Recorder SRAM records are copied to the spill ring. -/
  | stookSpill
  /-- STOOK_ARCHIVE (R461): Spill ring records are copied to the archive as class 7 work. -/
  | stookArchive (ok : Bool)
  /-- STOOK_SUMMARY_EMIT (R465): A rate bucket becoming full with suppressed events emits one summary record. -/
  | stookSummaryEmit (code : Nat)
  /-- STK_READ (R470): Returns records at or above a sequence from whichever store holds them. -/
  | stkRead (x : Mbx)
  /-- FREEZE (R471): The FREEZE command with byte 4 of 1 stops recorder SRAM writes for up to 50 ms. -/
  | freeze (x : Mbx)
  /-- FREEZE_THAW (R471): The FREEZE command with byte 4 of 0 ends a freeze and records held events. -/
  | freezeThaw (x : Mbx)
  /-- GASP_READ (R472): Returns the partner's last-gasp records held by this twin. -/
  | gaspRead (x : Mbx)
  /-- STK_CTL_FREEZE (R471): Writing STK_CTL.FREEZE starts a freeze. -/
  | stkCtlFreeze (v : Word)
  /-- STK_CTL_THAW (R471): Writing STK_CTL.THAW ends a freeze. -/
  | stkCtlThaw (v : Word)
  /-- STK_CTL_GASP_CLR (R472): Writing GASP_CLR empties the last-gasp bank and releases MOD_ALERT_N. -/
  | stkCtlGaspClr (v : Word)
  /-- FREEZE_TIMEOUT (R471): A freeze ends after 50 ms and the held events are recorded. -/
  | freezeTimeout
  /-- STOOK_SRAM_FAIL (R471): Failing recorder SRAM slots are taken out of use and later severe records go to the last-gasp bank. -/
  | stookSramFail (first : Nat) (last : Nat)
  /-- IDENTIFY (R483): CXL Identify command. -/
  | identify (x : Mbx)
  /-- BACKGROUND_OPERATION_STATUS (R483): Returns the status of the running background command. -/
  | backgroundOperationStatus (x : Mbx)
  /-- GET_EVENT_RECORDS (R488): Returns records of the LD's CXL event logs. -/
  | getEventRecords (x : Mbx)
  /-- CLEAR_EVENT_RECORDS (R488): Clears records of the LD's CXL event logs. -/
  | clearEventRecords (x : Mbx)
  /-- GET_FW_INFO (R483): Returns firmware information. -/
  | getFwInfo (x : Mbx)
  /-- TRANSFER_FW (R483): Transfers a firmware image through the FM-owned LD. -/
  | transferFw (x : Mbx)
  /-- ACTIVATE_FW (R510): Verifies a new firmware bank and activates it by a warm reset. -/
  | activateFw (x : Mbx)
  /-- GET_TIMESTAMP (R483): Returns the timestamp. -/
  | getTimestamp (x : Mbx)
  /-- SET_TIMESTAMP (R517): Replaces the wall-clock offset and posts event 0x0E03. -/
  | setTimestamp (x : Mbx)
  /-- GET_SUPPORTED_LOGS (R483): Returns the supported logs. -/
  | getSupportedLogs (x : Mbx)
  /-- GET_LOG (R483): Returns the Command Effects Log. -/
  | getLog (x : Mbx)
  /-- IDENTIFY_MEMORY_DEVICE (R479): Reports 512 TiB volatile capacity. -/
  | identifyMemoryDevice (x : Mbx)
  /-- GET_HEALTH_INFO (R483): Returns health information. -/
  | getHealthInfo (x : Mbx)
  /-- GET_POISON_LIST (R486): Returns stored syndromes of lines in the LD's mapped extents as DPAs. -/
  | getPoisonList (x : Mbx)
  /-- INJECT_POISON (R487): Poisons an addressed line with syndrome 0x01. -/
  | injectPoison (x : Mbx)
  /-- CLEAR_POISON (R487): Writes 64 bytes as a full-line write, clearing stored syndromes. -/
  | clearPoison (x : Mbx)
  /-- MAILBOX_UNSUPPORTED (R483): An unlisted or unassigned mailbox opcode returns Unsupported. -/
  | mailboxUnsupported (x : Mbx) (opcode : Fin 65536)
  /-- HDM_DECODER_COMMIT (R478): Commits an HDM decoder as a host window or fails with Error Not Committed. -/
  | hdmDecoderCommit (ld : Fin 64) (i : Fin 8) (base : Nat) (size : Nat)
  /-- UIO_REQUEST (R481): A UIO read or write to an HDM range is decoded and served as a request of the LD. -/
  | uioRequest (ld : Fin 64) (hpa : Nat) (write : Bool) (tag : Nat) (mask : BitVec 64) (data : Bytes)
  /-- HOST_LINK_DOWN (R480): A host link goes down, responses of accepted requests are discarded and all 16 LDs of the port reset. -/
  | hostLinkDown (p : Fin 4)
  /-- HPN_PERST_ASSERT (R480): HPn_PERST_N asserted resets all 16 LDs of the port. -/
  | hpnPerstAssert (p : Fin 4)
  /-- HOST_CABLE_PRESENT (R526): HPn_PRSNT_N falls and the port starts training within 10 ms. -/
  | hostCablePresent (p : Fin 4)
  /-- HOST_LINK_UP (R475): A host port completes training at 64 GT/s and posts event 0x0100. -/
  | hostLinkUp (p : Fin 4) (width : Nat)
  /-- L0P_WIDTH_CHANGE (R489): A port changes width by L0p and D is recomputed. -/
  | l0pWidthChange (p : Fin 4) (width : Nat)
  /-- SET_ENDPOINT_ID (R490): MCTP control command assigning the endpoint ID. -/
  | setEndpointId (eid : Byte)
  /-- MCTP_PACKET (R491): An MCTP packet is received, or dropped when the 8-packet buffer is full. -/
  | mctpPacket (binding : Fin 3) (data : Bytes)
  /-- GET_LD_INFO (R490): CXL FM API Get LD Info. -/
  | getLdInfo (data : Bytes)
  /-- GET_LD_ALLOCATIONS (R490): CXL FM API Get LD Allocations. -/
  | getLdAllocations (data : Bytes)
  /-- GET_QOS_STATUS (R490): CXL FM API Get QoS Status. -/
  | getQosStatus (data : Bytes)
  /-- DOZE_ENTER (R496): Starts Doze entry on this module or every live member. -/
  | dozeEnter (x : Mbx)
  /-- DOZE_ENTRY_STEP_DONE (R496): A step of Doze entry finishes and the next starts, or entry ends by a DOZE_EXIT. -/
  | dozeEntryStepDone
  /-- DOZE_EXIT (R499): Starts Doze exit, or ends a Doze entry in progress. -/
  | dozeExit (x : Mbx)
  /-- DOZE_EXIT_DONE (R498): Doze exit completes and held requests are served in arrival order. -/
  | dozeExitDone
  /-- IDLE_ENTRY (R494): After IDLE_US without activity the module enters Idle. -/
  | idleEntry
  /-- RAIL_EVALUATE (R502): Every 1 ms firmware sets the core rail to the lowest value meeting STEP_MHZ. -/
  | railEvaluate (mv : Nat)
  /-- THROTTLE_SAMPLE (R503): Every 1 ms firmware samples power and temperature and lowers the throttle ratio if over limit. -/
  | throttleSample (inputW : Nat) (tj : Nat)
  /-- THROTTLE_RAISE (R503): Every 10 ms below 95 % of the limit and 100 °C the throttle ratio rises by 1/16. -/
  | throttleRaise
  /-- THERMAL_SHUTDOWN (R504): At 115 °C the core supply is removed with the effect of power loss. -/
  | thermalShutdown
  /-- WARM_RESET (R510): Starts a warm reset keeping near tier, leases and sticky registers. -/
  | warmReset (x : Mbx)
  /-- MODULE_RESET (R505): Starts a module reset, as cold. -/
  | moduleReset (x : Mbx)
  /-- CHANNEL_RESET (R508): Places a channel in self-refresh and retrains it. -/
  | channelReset (x : Mbx)
  /-- SEED_WRITE (R515): Writes data into the unused firmware or seed bank. -/
  | seedWrite (x : Mbx)
  /-- SEED_WRITE_END (R515): SEED_WRITE with offset 0xFFFF_FFFF ends and verifies the new bank. -/
  | seedWriteEnd (x : Mbx)
  /-- SEED_QUERY (R518): Returns the banks in use and seed bank sequences. -/
  | seedQuery (x : Mbx)
  /-- MGMT_WATCHDOG_EXPIRE (R505): The management-core watchdog expires and a warm reset starts. -/
  | mgmtWatchdogExpire
  /-- MOD_PWRGD_RISE (R505): MOD_PWRGD rises and a cold reset and boot begin. -/
  | modPwrgdRise
  /-- MOD_PWRGD_FALL (R521): MOD_PWRGD falls and the module treats input power as lost. -/
  | modPwrgdFall
  /-- INPUT_UNDERVOLTAGE (R521): Input below 38 V for 10 µs is treated as loss of input power. -/
  | inputUndervoltage
  /-- POWER_LOSS_FLUSH_DONE (R521): The power-loss flush ends, after which a cold reset may follow. -/
  | powerLossFlushDone
  /-- INPUT_RETURN_STABLE (R521): Input back in range for 10 ms after a flush with MOD_PWRGD high causes a cold reset. -/
  | inputReturnStable
  /-- MOD_RESET_ASSERT (R527): MOD_RESET_N low for 1 µs while MOD_PWRGD is high causes a module reset. -/
  | modResetAssert
  /-- MOD_RESET_RELEASE (R527): MOD_RESET_N rises and boot starts from step 1. -/
  | modResetRelease
  /-- BOOT_STEP_DONE (R509): A boot step finishes and the next starts, ending with leases recovered and event 0x0F00. -/
  | bootStepDone (ms : Nat) (ok : Bool)
  /-- REFCLK_LOSS (R516): The reference clock is lost and counting continues from the on-die oscillator. -/
  | refclkLoss
  /-- REFCLK_LOSS_RESET (R516): After 10 ms without the reference the module takes a module reset. -/
  | refclkLossReset
  /-- HEDGEROW_CAGE_INSERT (R524): A cable module inserted in a cage is read and powered unless it declares more than 4.0 W. -/
  | hedgerowCageInsert (p : Fin 6) (mw : Nat)
  /-- REGISTER_WRITE (R15): A write to any register without behaviour of its own acts as its access codes give. -/
  | registerWrite (view : View) (off : Nat) (v : Word)
  /-- HEDGEROW_PORT_UP (R309): Training of a Hedgerow port completes and the port goes up at its trained width, or is marked foreign when the neighbour reports another SPACE_ID. -/
  | hedgerowPortUp (p : Fin 6) (lanes : Nat) (spaceId : Nat) (nmod : Fin 64) (nport : Fin 6)
  /-- HOST_CLEAN_EVICT (R99): A MemClnEvct from a holder reaches the page home and removes the holder from a pointer-form directory entry, or is ignored for a coarse entry. -/
  | hostCleanEvict (ld : Fin 64) (hpa : Nat)
  /-- HOST_BIRSP (R99): A host's BIRsp to a back-invalidate snoop arrives at its portal's host port and is applied at, or forwarded to, the page home. -/
  | hostBirsp (ld : Fin 64) (line : Nat) (lines : Nat) (rsp : SnpRsp) (wb : Option Bytes)
  /-- HPN_PERST_RELEASE (R505): HPn_PERST_N rises and the port leaves reset and begins link training. -/
  | hpnPerstRelease (p : Fin 4)
  /-- HOST_CABLE_REMOVED (R526): HPn_PRSNT_N rises, the port stops training and its island clock is stopped. -/
  | hostCableRemoved (p : Fin 4)
  /-- REFERENCE_LOCK (R516): The timebase locks the 100 MHz reference, sets TMB_STAT.LOCKED and posts event 0x1000. -/
  | referenceLock
  /-- GLOBAL_PERSISTENT_FLUSH (R475): A host's CXL Global Persistent Flush is acknowledged in each phase with nothing flushed. -/
  | globalPersistentFlush (p : Fin 4) (phase : Fin 2)
  deriving DecidableEq, Repr

end Sys2Proof
end

