-- ==== Sys2Proof/Machine/FMap.lean ====
section
/-! DEFINITION. The operations on sparse maps: look up, write, erase, and the canonical form (strictly rising keys), and plain
byte helpers that every block uses. -/

namespace Sys2Proof.Machine

open Sys2Proof

variable {α : Type}

/-- The value listed for a key. -/
def look : FMap α → Nat → Option α
  | [], _ => none
  | (a, v) :: t, k => if a = k then some v else look t k

/-- Write a value, keeping the keys rising. -/
def put : FMap α → Nat → α → FMap α
  | [], k, v => [(k, v)]
  | (a, w) :: t, k, v => if k < a then (k, v) :: (a, w) :: t else if a = k then (k, v) :: t else (a, w) :: put t k v

/-- Erase a key. -/
def del : FMap α → Nat → FMap α
  | [], _ => []
  | (a, w) :: t, k => if a = k then t else (a, w) :: del t k

/-- Write or erase. -/
def putOpt (m : FMap α) (k : Nat) : Option α → FMap α
  | some v => put m k v
  | none => del m k

/-- Change the value of a key that is listed. -/
def upd (m : FMap α) (k : Nat) (f : α → α) : FMap α :=
  match look m k with
  | some v => put m k (f v)
  | none => m

/-- The keys are strictly rising from a bound on. -/
def risingFrom : Nat → FMap α → Bool
  | _, [] => true
  | b, (a, _) :: t => decide (b ≤ a) && risingFrom (a + 1) t

/-- The canonical form of a map. -/
def rising (m : FMap α) : Bool := risingFrom 0 m

/-- The keys of a map. -/
def keys (m : FMap α) : List Nat := m.map Prod.fst

/-- The values of a map. -/
def vals (m : FMap α) : List α := m.map Prod.snd

/-- Little-endian value of a run of bytes (R14). -/
def le : Bytes → Nat
  | [] => 0
  | b :: t => b.toNat + 256 * le t

/-- A number as n little-endian bytes. -/
def toLe : Nat → Nat → Bytes
  | 0, _ => []
  | n + 1, v => BitVec.ofNat 8 v :: toLe n (v / 256)

/-- Byte i of a run, 0 beyond its end. -/
def byteAt (d : Bytes) (i : Nat) : Nat := ((d[i]?).getD 0).toNat

/-- The number in bytes i to i + n - 1 of a run. -/
def leAt (d : Bytes) (i n : Nat) : Nat := le ((d.drop i).take n)

/-- A run of zero bytes. -/
def zeros (n : Nat) : Bytes := List.replicate n 0

/-- A run cut or padded with zeros to n bytes. -/
def fit (n : Nat) (d : Bytes) : Bytes := (d ++ zeros n).take n

/-- Bits hi down to lo of a number. -/
def bits (w hi lo : Nat) : Nat := (w >>> lo) % (2 ^ (hi + 1 - lo))

/-- The number with bits hi down to lo replaced. -/
def setBits (w hi lo v : Nat) : Nat :=
  w - (bits w hi lo) * 2 ^ lo + (v % 2 ^ (hi + 1 - lo)) * 2 ^ lo

/-- Merge bytes under a mask of the written bytes. -/
def mergeBytes (mask : Nat) (new old : Bytes) : Bytes :=
  (List.range old.length).map fun i => if mask.testBit i then (new[i]?).getD 0 else (old[i]?).getD 0

/-- The mask of all 64 bytes of a line. -/
def fullMask : Nat := 2 ^ 64 - 1

/-- Replace the first element that meets a test. -/
def replaceFirst (p : α → Bool) (f : α → α) : List α → List α
  | [] => []
  | x :: t => if p x then f x :: t else x :: replaceFirst p f t

/-- Remove the first element that meets a test. -/
def removeFirst (p : α → Bool) : List α → List α
  | [] => []
  | x :: t => if p x then t else x :: removeFirst p t

/-- Add to a list of numbers that holds no repeats. -/
def addNew (l : List Nat) (x : Nat) : List Nat := if x ∈ l then l else l ++ [x]

/-- The element with the least key, the first among equals. -/
def argMin (f : α → Nat) : List α → Option α
  | [] => none
  | x :: t => match argMin f t with
    | none => some x
    | some y => if f x ≤ f y then some x else some y

/-- The first number at or after `start`, within n numbers taken modulo n, that meets a test. -/
def firstFrom (n start : Nat) (p : Nat → Bool) : Option Nat :=
  ((List.range n).map fun i => (start + i) % n).find? p

/-- Sum of a function over a list. -/
def sumOf (l : List α) (f : α → Nat) : Nat := l.foldl (fun a x => a + f x) 0

/-- XOR of two runs of bytes of one length. -/
def xorBytes (a b : Bytes) : Bytes := List.zipWith (fun x y => x ^^^ y) a b

end Sys2Proof.Machine
end

