-- ==== Sys2Proof/Machine/Gf.lean ====
section
/-! DEFINITION. The Reed–Solomon code of a near-tier line (spec/12_integrity.md R390 to R392), which the Hedgerow links use with
other lengths (spec/09_hedgerow.md R305): arithmetic over GF(2⁸) with field polynomial 0x11D, check bytes, correction of up to
four bytes, and the poison form. -/

namespace Sys2Proof.Machine

open Sys2Proof

/-- Multiply by α = 2. -/
def xtime (a : Nat) : Nat := if a < 128 then 2 * a else (2 * a) ^^^ 0x11D

/-- Product in the field. -/
def gmul (a b : Nat) : Nat :=
  ((List.range 8).foldl (fun (p : Nat × Nat) i => (if b.testBit i then p.1 ^^^ p.2 else p.1, xtime p.2)) (0, a)).1

/-- α to the power n. -/
def alpha : Nat → Nat
  | 0 => 1
  | n + 1 => xtime (alpha n)

/-- a to the power n, by squaring over the 8 bits of n. -/
def gpow (a n : Nat) : Nat :=
  ((List.range 8).foldl (fun (p : Nat × Nat) i => (if n.testBit i then gmul p.1 p.2 else p.1, gmul p.2 p.2)) (1, a)).1

/-- The inverse; 0 for 0. -/
def ginv (a : Nat) : Nat := gpow a 254

/-- Value at x of a polynomial whose highest coefficient comes first. -/
def polyHi (x : Nat) (c : List Nat) : Nat := c.foldl (fun a b => gmul a x ^^^ b) 0

/-- Value at x of a polynomial whose constant comes first. -/
def polyLo (x : Nat) : List Nat → Nat
  | [] => 0
  | c :: t => c ^^^ gmul x (polyLo x t)

/-- Multiply a polynomial (highest first) by (x − r). -/
def timesRoot (p : List Nat) (r : Nat) : List Nat :=
  List.zipWith (fun a b => a ^^^ b) (p ++ [0]) ((0 :: p).map (gmul r))

/-- The generator with roots α^f to α^(f + 7), without its leading 1. -/
def rsGen (f : Nat) : List Nat := ((List.range 8).foldl (fun p i => timesRoot p (alpha (f + i))) [1]).drop 1

/-- The eight check bytes of data: the remainder of data × x⁸ divided by the generator (R390). -/
def rsCheckF (f : Nat) (data : List Nat) : List Nat :=
  let g := rsGen f
  data.foldl (fun rem d =>
    let q := d ^^^ rem.headD 0
    List.zipWith (fun a b => a ^^^ gmul q b) (rem.drop 1 ++ [0]) g) (List.replicate 8 0)

/-- The eight syndromes of a codeword (highest coefficient first). -/
def rsSynd (f : Nat) (c : List Nat) : List Nat := (List.range 8).map fun i => polyHi (alpha (f + i)) c

/-- One step of the search for the error locator. State: locator C, former locator B, length L, shift m, former discrepancy b. -/
def bmStep (s : List Nat) (st : List Nat × List Nat × Nat × Nat × Nat) (r : Nat) : List Nat × List Nat × Nat × Nat × Nat :=
  let (cc, b, l, m, d0) := st
  let d := (List.range (l + 1)).foldl (fun a i => a ^^^ gmul ((cc[i]?).getD 0) ((s[r - i]?).getD 0)) 0
  if d = 0 then (cc, b, l, m + 1, d0)
  else
    let k := gmul d (ginv d0)
    let sh := List.replicate m 0 ++ b.map (gmul k)
    let n := max cc.length sh.length
    let c' := (List.range n).map fun i => ((cc[i]?).getD 0) ^^^ ((sh[i]?).getD 0)
    if 2 * l ≤ r then (c', cc, r + 1 - l, 1, d) else (c', b, l, m + 1, d0)

/-- Correct a codeword with errors in at most four of its bytes: the corrected codeword and the number of bytes corrected, or none
when the code reports it uncorrectable (R391). -/
def rsDecode (f : Nat) (cc : List Nat) : Option (List Nat × Nat) :=
  let s := rsSynd f cc
  if s.all (· == 0) then some (cc, 0)
  else
    let (loc, _, l, _, _) := (List.range 8).foldl (bmStep s) ([1], [1], 0, 1, 1)
    let n := cc.length
    let om := (List.range 8).map fun k =>
      (List.range (k + 1)).foldl (fun a i => a ^^^ gmul ((loc[i]?).getD 0) ((s[k - i]?).getD 0)) 0
    let der := (List.range 8).map fun i => if i % 2 = 0 then (loc[i + 1]?).getD 0 else 0
    let fixed := (List.range n).map fun i =>
      let x := alpha ((n - 1 - i) % 255)
      let xi := ginv x
      if polyLo xi loc = 0 then
        let e := gmul (gmul (polyLo xi om) (ginv (polyLo xi der))) (gmul x (gpow xi (f % 255)))
        (((cc[i]?).getD 0) ^^^ e, 1)
      else ((cc[i]?).getD 0, 0)
    let errs := fixed.foldl (fun a p => a + p.2) 0
    let c' := fixed.map Prod.fst
    if l ≤ 4 && errs == l && (rsSynd f c').all (· == 0) then some (c', errs) else none

/-- Check bytes of a near-tier line (R390). -/
def lineCheck (d : Bytes) : Bytes := (rsCheckF 0 (d.map BitVec.toNat)).map (BitVec.ofNat 8)

/-- The pattern of the poison form (R392), with the syndrome in its last byte. -/
def poisonPattern (synd : Nat) : Bytes := [0xE7, 0x3C, 0x9A, 0x51, 0xC6, 0x2B, 0x78, BitVec.ofNat 8 synd]

/-- A stored line: 64 data bytes and their 8 check bytes, in poison form when a syndrome is given (R361, R392). -/
def encLine (d : Bytes) (poison : Option Nat) : Bytes :=
  let c := lineCheck d
  d ++ (match poison with
    | none => c
    | some y => xorBytes c (poisonPattern y))

/-- What the decoder of a stored line answers: clean data with the number of bytes corrected, poisoned with its syndrome, or
uncorrectable. -/
inductive LineRes where
  | clean (d : Bytes) (fixed : Nat)
  | poisoned (d : Bytes) (synd : Nat)
  | uncorr
  deriving DecidableEq, Repr

/-- Decode a stored line in the order of R392. -/
def decLine (w : Bytes) : LineRes :=
  let d := w.take 64
  let k := w.drop 64
  let x := xorBytes k (lineCheck d)
  if x = zeros 8 then .clean d 0
  else if x.take 7 = (poisonPattern 0).take 7 then
    .poisoned d (if byteAt x 7 = 0 then 1 else byteAt x 7)
  else
    match rsDecode 0 (w.map BitVec.toNat) with
    | some (c, n) => .clean ((c.take 64).map (BitVec.ofNat 8)) n
    | none => .uncorr

end Sys2Proof.Machine
end

