-- ==== Sys2Proof/Config.lean ====
section
/-! DEFINITION. What the manual leaves open, as constants without a body: nothing can evaluate them or prove a value of them.
Each is applied to the number of the draw (State.draws) or to what it depends on, and each has a row of the assumption log. -/

namespace Sys2Proof.Config

/-- Output of the controller's random sources: lease tokens, key material, SPDM contents (R67, R422, R428). Log entry 13. -/
opaque random : Nat → Nat

/-- A choice that the manual leaves open among several candidates, as the index a search starts from (R84, R366). Log entry 14. -/
opaque pick : Nat → Nat

/-- Whether another module admits its share of a command that this module accepts (R79, R84, R88). Log entry 15. -/
opaque peerAdmits : Nat → Bool

/-- What a query to the other modules returns (R84, R164, TABLE_QUERY, RESYNC_QUERY). Log entry 15. -/
opaque peerAnswer : Nat → Nat

/-- Bytes of an answer whose contents the manual does not state (Identify, Get FW Info, SPDM, FM API): draw, byte. Log entry 16. -/
opaque answerByte : Nat → Nat → Byte

/-- Stored bytes whose content the manual calls undefined (R380). Log entry 17. -/
opaque undefinedByte : Nat → Byte

/-- Value of an arithmetic result that the manual does not state: draw. Log entry 18. -/
opaque value : Nat → Nat

/-- How a codeword is obtained by the read of a background copy: draw, index of the codeword; modulo 4, hard decision, soft decision, parity
rebuild or not at all (R210, R213). Log entry 91. -/
opaque codewordRead : Nat → Nat → Nat

/-- Whether more than half of a reservation's shortfall in a window was spent waiting for Hedgerow credits, at a page home other than its holder's
portal (R356): draw. Log entry 100. -/
opaque fabricWait : Nat → Bool

/-- The PCI vendor ID of the module, which the manual does not give (R485). Log entry 16. -/
opaque pciVendor : Nat

/-- The factory serial of the module (R319). Log entry 6. -/
opaque serial : Nat

/-- Husk chunks that channel n contributes to the near-tier pool at boot, by SKU: true for QS-STV84-B (R3, R180). Log entry 9. -/
opaque poolChunks : Bool → Nat → Nat

/-- First chunk index of a channel's share of the pool (R180). Log entry 9. -/
opaque poolFirst : Nat → Nat

/-- Whether a stripe region of a group is in use for parity (R401). Log entry 9. -/
opaque stripeRegion : Nat → Nat → Bool

/-- Whether a band is a journal or system band (R220). Log entry 9. -/
opaque reservedBand : Nat → Bool

/-- Spare blocks of a die of a new module (R212). Log entry 9. -/
opaque spareBlocks : Nat → Nat

/-- The physical block of a band on a channel of a new module, and the spare block that a die gives with so many left (R207, R212). Log
entry 9. -/
opaque bandBlock : Nat → Nat → Nat
opaque spareBlock : Nat → Nat → Nat

/-- The exponent of α at the first root of the link code's generator, which the manual does not state (R305). Log entry 19. -/
opaque fecFirstRoot : Nat

/-- Byte i of the keystream of the link direction of a port under a key epoch for a flit number (R307, R434): port, epoch, flit,
byte. Log entry 20. -/
opaque keystream : Nat → Nat → Nat → Nat → Byte

/-- The tag of the flits since the last marker, under a key epoch (R308): port, epoch, bytes. Log entry 20. -/
opaque linkTag : Nat → Nat → Bytes → Nat

/-- The records of the factory seed's body (R512, R514). Log entry 21. -/
opaque factorySeed : Bytes

/-- Whether a channel finds a working setting at a start-up where not all do (R383): channel and draw. Log entry 21. -/
opaque channelTrains : Nat → Nat → Bool

/-- Whether a tiller passes a start-up self-test that not all pass (R295): tiller and draw. Log entry 21. -/
opaque tillerPasses : Nat → Nat → Bool

/-- Whether the signature and security version of an image verify (R436): its bytes. Log entry 21. -/
opaque imageOk : Bytes → Bool

/-- Whether the certificate chain behind a serial verifies (R432). Log entry 21. -/
opaque chainOk : Nat → Bool

/-- Whether a wrapped key slot unwraps (R425): slot and draw. Log entry 21. -/
opaque unwrapOk : Nat → Nat → Bool

end Sys2Proof.Config
end

