-- ==== Sys2Proof/Machine/Aes.lean ====
section
/-! DEFINITION. AES-256 (FIPS-197) and its XTS mode (IEEE 1619) on whole 16-byte blocks, as spec/04_husk_compression.md R120 uses
them; taken from those standards (PRESUMED, log entry 22). -/

namespace Sys2Proof.Machine

open Sys2Proof

/-- Multiply by x in the AES field (polynomial 0x11B). -/
def aesX (a : Nat) : Nat := if a < 128 then 2 * a else (2 * a) ^^^ 0x11B

/-- Product in the AES field. -/
def aesMul (a b : Nat) : Nat :=
  ((List.range 8).foldl (fun (p : Nat × Nat) i => (if b.testBit i then p.1 ^^^ p.2 else p.1, aesX p.2)) (0, a)).1

/-- Inverse in the AES field, 0 for 0. -/
def aesInv (a : Nat) : Nat :=
  ((List.range 8).foldl (fun (p : Nat × Nat) i => (if (254).testBit i then aesMul p.1 p.2 else p.1, aesMul p.2 p.2)) (1, a)).1

/-- Rotate a byte left. -/
def rotl8 (a n : Nat) : Nat := (a <<< n ||| a >>> (8 - n)) % 256

/-- The S-box: inverse, then the affine map of FIPS-197. -/
def sbox (a : Nat) : Nat :=
  let b := if a = 0 then 0 else aesInv a
  b ^^^ rotl8 b 1 ^^^ rotl8 b 2 ^^^ rotl8 b 3 ^^^ rotl8 b 4 ^^^ 0x63

/-- The inverse S-box. -/
def sboxInv (a : Nat) : Nat :=
  let b := rotl8 a 1 ^^^ rotl8 a 3 ^^^ rotl8 a 6 ^^^ 5
  if b = 0 then 0 else aesInv b

/-- XOR of two runs of field bytes. -/
def xorN (a b : List Nat) : List Nat := List.zipWith (fun x y => x ^^^ y) a b

/-- The 60 words of the AES-256 key schedule, the last computed first in the accumulator. -/
def aesKeyWords (key : List Nat) : List (List Nat) :=
  let w0 := (List.range 8).map fun i => (key.drop (4 * i)).take 4
  ((List.range 52).foldl (fun (acc : List (List Nat) × Nat) j =>
    let i := j + 8
    let t := acc.1.headD []
    let (t', rc) :=
      if i % 8 = 0 then
        (xorN ((t.drop 1 ++ t.take 1).map sbox) [acc.2, 0, 0, 0], aesX acc.2)
      else if i % 8 = 4 then (t.map sbox, acc.2) else (t, acc.2)
    (xorN t' ((acc.1[7]?).getD []) :: acc.1, rc)) (w0.reverse, 1)).1.reverse

/-- Round key r of the schedule, 16 bytes. -/
def aesRound (ks : List (List Nat)) (r : Nat) : List Nat := ((ks.drop (4 * r)).take 4).flatten

/-- Rows shifted; byte i of the state lies in row i mod 4. -/
def shiftRows (s : List Nat) : List Nat := (List.range 16).map fun i => (s[(i + 4 * (i % 4)) % 16]?).getD 0

/-- Rows shifted back. -/
def unshiftRows (s : List Nat) : List Nat := (List.range 16).map fun i => (s[(i + 12 * (i % 4)) % 16]?).getD 0

/-- Columns multiplied by the circulant matrix whose first row is given. -/
def mixWith (m s : List Nat) : List Nat :=
  (List.range 16).map fun i =>
    let c := 4 * (i / 4)
    (List.range 4).foldl (fun a k => a ^^^ aesMul ((m[(k + 4 - i % 4) % 4]?).getD 0) ((s[c + k]?).getD 0)) 0

/-- Encrypt one block. -/
def aesEnc (ks : List (List Nat)) (b : List Nat) : List Nat :=
  let s := (List.range 13).foldl (fun s r => xorN (mixWith [2, 3, 1, 1] (shiftRows (s.map sbox))) (aesRound ks (r + 1)))
    (xorN b (aesRound ks 0))
  xorN (shiftRows (s.map sbox)) (aesRound ks 14)

/-- Decrypt one block. -/
def aesDec (ks : List (List Nat)) (b : List Nat) : List Nat :=
  let s := (List.range 13).foldl (fun s r => mixWith [14, 11, 13, 9] (xorN ((unshiftRows s).map sboxInv) (aesRound ks (13 - r))))
    (xorN b (aesRound ks 14))
  xorN ((unshiftRows s).map sboxInv) (aesRound ks 0)

/-- Multiply an XTS tweak by α: 128 bits, little-endian bytes. -/
def xtsNext (t : Nat) : Nat :=
  let d := t * 2
  if d < 2 ^ 128 then d else (d - 2 ^ 128) ^^^ 0x87

/-- The XTS mode over whole blocks: data unit number (the tweak of R120), key material (key 1 in the low 256 bits, key 2 above). -/
def xts (decrypt : Bool) (key tweak : Nat) (d : Bytes) : Bytes :=
  let k1 := aesKeyWords ((toLe 32 key).map BitVec.toNat)
  let k2 := aesKeyWords ((toLe 32 (key / 2 ^ 256)).map BitVec.toNat)
  let t0 := le ((aesEnc k2 ((toLe 16 tweak).map BitVec.toNat)).map (BitVec.ofNat 8))
  ((List.range (d.length / 16)).foldl (fun (acc : List Bytes × Nat) i =>
    let tw := (toLe 16 acc.2).map BitVec.toNat
    let blk := ((d.drop (16 * i)).take 16).map BitVec.toNat
    let x := xorN ((if decrypt then aesDec k1 else aesEnc k1) (xorN blk tw)) tw
    (x.map (BitVec.ofNat 8) :: acc.1, xtsNext acc.2)) ([], t0)).1.reverse.flatten

end Sys2Proof.Machine
end

