-- ==== Sys2Proof/Machine/Flt.lean ====
section
/-! DEFINITION. Exact values and their rounding: the number formats of spec/07_ralath_isa.md Table 7-10 (IEEE 754 and OCP MX
encodings are taken from those standards, PRESUMED, log entry 23), the rounding codes of Table 7-11, and exact sums and
products. The husk classes (R130 to R136) and the Ralath instructions (R238 to R247) both use them. -/

namespace Sys2Proof.Machine

open Sys2Proof

/-- An exact value: m × 2^e with a sign, an infinity, or NaN. -/
inductive Val where
  | nan
  | inf (neg : Bool)
  | fin (neg : Bool) (m : Nat) (e : Int)
  deriving DecidableEq, Repr

/-- How a value is rounded (Table 7-11); a stochastic rounding carries its 16-bit draw (R135). -/
inductive Rnd where
  | rne
  | rtz
  | rna
  | stoch (u : Nat)
  deriving DecidableEq, Repr

/-- A binary format: exponent bits, fraction bits, bias, and its special values: 0 as IEEE 754, 1 only NaN (all ones), 2 none. -/
structure Fmt where
  eb : Nat
  mb : Nat
  bias : Int
  special : Nat
  deriving DecidableEq, Repr

/-- binary32. -/
def fp32 : Fmt := ⟨8, 23, 127, 0⟩
/-- bfloat16. -/
def bf16 : Fmt := ⟨8, 7, 127, 0⟩
/-- binary16. -/
def fp16 : Fmt := ⟨5, 10, 15, 0⟩
/-- FP8 E4M3. -/
def e4m3 : Fmt := ⟨4, 3, 7, 1⟩
/-- FP8 E5M2. -/
def e5m2 : Fmt := ⟨5, 2, 15, 0⟩
/-- FP6 E3M2. -/
def e3m2 : Fmt := ⟨3, 2, 3, 2⟩
/-- FP6 E2M3. -/
def e2m3 : Fmt := ⟨2, 3, 1, 2⟩
/-- FP4 E2M1. -/
def e2m1 : Fmt := ⟨2, 1, 1, 2⟩

/-- The value that a bit pattern stands for. -/
def Fmt.decode (f : Fmt) (w : Nat) : Val :=
  let man := w % 2 ^ f.mb
  let ex := (w / 2 ^ f.mb) % 2 ^ f.eb
  let neg := (w / 2 ^ (f.mb + f.eb)) % 2 = 1
  let top := 2 ^ f.eb - 1
  if f.special = 0 ∧ ex = top then (if man = 0 then .inf neg else .nan)
  else if f.special = 1 ∧ ex = top ∧ man = 2 ^ f.mb - 1 then .nan
  else if ex = 0 then .fin neg man (1 - f.bias - f.mb)
  else .fin neg (2 ^ f.mb + man) ((ex : Int) - f.bias - f.mb)

/-- The canonical quiet NaN (R131); S.1111.111 with sign 0 for E4M3. -/
def Fmt.nan (f : Fmt) : Nat :=
  if f.special = 0 then (2 ^ f.eb - 1) * 2 ^ f.mb + 2 ^ (f.mb - 1) else 2 ^ (f.eb + f.mb) - 1

/-- The pattern of infinity without its sign (a NaN where the format has none). -/
def Fmt.infPat (f : Fmt) : Nat := if f.special = 0 then (2 ^ f.eb - 1) * 2 ^ f.mb else f.nan

/-- The pattern of the largest finite magnitude. -/
def Fmt.maxPat (f : Fmt) : Nat :=
  if f.special = 0 then (2 ^ f.eb - 1) * 2 ^ f.mb - 1
  else if f.special = 1 then 2 ^ (f.eb + f.mb) - 2
  else 2 ^ (f.eb + f.mb) - 1

/-- m × 2^s rounded to an integer, and whether it was inexact. -/
def roundInt (r : Rnd) (m : Nat) (s : Int) : Nat × Bool :=
  if 0 ≤ s then (m * 2 ^ s.toNat, false)
  else
    let n := (-s).toNat
    let fl := m / 2 ^ n
    let rem := m % 2 ^ n
    let up := match r with
      | .rtz => 0
      | .rne => if 2 * rem > 2 ^ n ∨ (2 * rem = 2 ^ n ∧ fl % 2 = 1) then 1 else 0
      | .rna => if 2 * rem ≥ 2 ^ n then 1 else 0
      | .stoch u => if rem * 65536 + u * 2 ^ n ≥ 65536 * 2 ^ n then 1 else 0
    (fl + up, rem != 0)

/-- Flags that a rounding raises: overflow, underflow, inexact (R242). -/
structure RFlags where
  ovf : Bool
  unf : Bool
  nx : Bool
  deriving DecidableEq, Repr

/-- No flag. -/
def RFlags.none : RFlags := ⟨false, false, false⟩

/-- floor(log2(m × 2^e)), m not 0. -/
def log2Of (m : Nat) (e : Int) : Int := (Nat.log2 m : Int) + e

/-- Round a value to a format. Overflow gives the largest finite magnitude when saturating, else infinity or NaN (R240). An
infinite result saturates as an overflow does. Tininess is judged after rounding (log entry 23). -/
def Fmt.encode (f : Fmt) (sat : Bool) (r : Rnd) : Val → Nat × RFlags
  | .nan => (f.nan, RFlags.none)
  | .inf neg =>
    let s := if neg then 2 ^ (f.eb + f.mb) else 0
    if f.special = 0 then (s + (if sat then f.maxPat else f.infPat), ⟨sat, false, false⟩)
    else if f.special = 1 ∧ ¬ sat then (f.nan, ⟨true, false, true⟩) else (s + f.maxPat, ⟨true, false, true⟩)
  | .fin neg m e =>
    let s := if neg then 2 ^ (f.eb + f.mb) else 0
    if m = 0 then (s, RFlags.none)
    else
      let emin := 1 - f.bias
      let q := max (log2Of m e) emin - f.mb
      let (t, nx) := roundInt r m (e - q)
      let (t, q) := if t ≥ 2 ^ (f.mb + 1) then (t / 2, q + 1) else (t, q)
      let mag := if t < 2 ^ f.mb then t else ((q + f.mb + f.bias).toNat) * 2 ^ f.mb + (t - 2 ^ f.mb)
      if mag > f.maxPat then
        ((if sat ∨ f.special = 2 then s + f.maxPat else if f.special = 1 then f.nan else s + f.infPat), ⟨true, false, true⟩)
      else (s + mag, ⟨false, nx && decide (mag < 2 ^ f.mb), nx⟩)

/-- Is the value NaN or infinite? -/
def Val.special : Val → Bool
  | .fin _ _ _ => false
  | _ => true

/-- Magnitude as m × 2^e, 0 for a special value. -/
def Val.mag : Val → Nat × Int
  | .fin _ m e => (m, e)
  | _ => (0, 0)

/-- Sign. -/
def Val.neg : Val → Bool
  | .fin n _ _ => n
  | .inf n => n
  | .nan => false

/-- Multiply by 2^k. -/
def Val.scale (k : Int) : Val → Val
  | .fin n m e => .fin n m (e + k)
  | v => v

/-- Negate. -/
def Val.negate : Val → Val
  | .fin n m e => .fin (!n) m e
  | .inf n => .inf (!n)
  | .nan => .nan

/-- The signed integer m of a finite value on the grid 2^e, e at most its exponent. -/
def Val.onGrid (g : Int) : Val → Int
  | .fin n m e => let k : Int := m * 2 ^ (e - g).toNat; if n then -k else k
  | _ => 0

/-- The exponent of a finite value. -/
def Val.exp : Val → Int
  | .fin _ _ e => e
  | _ => 0

/-- A finite value from a signed integer on a grid; zero takes the given sign. -/
def Val.ofInt (k : Int) (g : Int) (zneg : Bool) : Val :=
  if k = 0 then .fin zneg 0 0 else .fin (decide (k < 0)) k.natAbs g

/-- Exact sum and whether the operation is invalid (infinities of both signs). The sum of zeros is −0 only when all are −0. -/
def Val.sum (l : List Val) : Val × Bool :=
  if l.any (· == .nan) then (.nan, l.contains (.inf true) && l.contains (.inf false))
  else
    let p := l.contains (.inf false)
    let n := l.contains (.inf true)
    if p && n then (.nan, true)
    else if p then (.inf false, false)
    else if n then (.inf true, false)
    else
      let g := l.foldl (fun a v => if v.mag.1 = 0 then a else min a v.exp) (0 : Int)
      let k := l.foldl (fun (a : Int) v => a + v.onGrid (min g v.exp) * (if v.mag.1 = 0 then 0 else 2 ^ (min g v.exp - g).toNat)) 0
      let zneg := l.all fun v => v.mag.1 == 0 && v.neg
      (.ofInt k g (zneg && !l.isEmpty), false)

/-- Exact product and whether the operation is invalid (0 × infinity). -/
def Val.mul : Val → Val → Val × Bool
  | .nan, _ => (.nan, false)
  | _, .nan => (.nan, false)
  | .inf a, .inf b => (.inf (a != b), false)
  | .inf a, .fin b m _ => if m = 0 then (.nan, true) else (.inf (a != b), false)
  | .fin a m _, .inf b => if m = 0 then (.nan, true) else (.inf (a != b), false)
  | .fin a m e, .fin b n d => (.fin (a != b) (m * n) (e + d), false)

/-- Is a strictly smaller than b, as numbers, with −0 below +0 (VMAX)? Neither is NaN. -/
def Val.lt : Val → Val → Bool
  | .inf true, .inf true => false
  | .inf true, _ => true
  | _, .inf true => false
  | .inf false, _ => false
  | _, .inf false => true
  | a, b =>
    let g := min (min a.exp b.exp) 0
    let x := a.onGrid g
    let y := b.onGrid g
    decide (x < y) || (decide (x = y) && decide (x = 0) && a.neg && !b.neg)

/-- Round a value to an integer, saturating when out of range [lo, hi] or wrapping at w bits, with NaN as 0 and invalid (R240,
R242): the integer, invalid, overflow, inexact. -/
def Val.toInt (sat : Bool) (w : Nat) (r : Rnd) (v : Val) : Int × Bool × Bool × Bool :=
  let hi : Int := 2 ^ (w - 1) - 1
  let lo : Int := -(2 ^ (w - 1))
  match v with
  | .nan => (0, true, false, false)
  | .inf n => (if n then lo else hi, false, true, false)
  | .fin n m e =>
    let (t, nx) := roundInt r m e
    let k : Int := if n then -(t : Int) else t
    if k > hi then (if sat then hi else (k + 2 ^ (w - 1)) % 2 ^ w - 2 ^ (w - 1), false, true, nx)
    else if k < lo then (if sat then lo else (k + 2 ^ (w - 1)) % 2 ^ w - 2 ^ (w - 1), false, true, nx)
    else (k, false, false, nx)

/-- A signed integer in w bits. -/
def sext (w : Nat) (x : Nat) : Int := if x % 2 ^ w < 2 ^ (w - 1) then (x % 2 ^ w : Nat) else ((x % 2 ^ w : Nat) : Int) - 2 ^ w

/-- The low w bits of an integer. -/
def unsext (w : Nat) (k : Int) : Nat := (k % 2 ^ w).toNat

/-! ## The stochastic generator (R135, R241) -/

/-- One step of the 32-bit generator. -/
def xorshift (x : Nat) : Nat :=
  let x := x ^^^ (x * 8192) % 2 ^ 32
  let x := x ^^^ x / 131072
  x ^^^ (x * 32) % 2 ^ 32

/-- next16: the generator word and whether its high half is still to be drawn, to the draw and the new state. -/
def next16 (st : Nat × Bool) : Nat × (Nat × Bool) :=
  if st.2 then (st.1 / 65536, (st.1, false))
  else let x := xorshift st.1; (x % 65536, (x, true))

/-- n draws in order. -/
def draws16 : Nat → Nat × Bool → List Nat × (Nat × Bool)
  | 0, st => ([], st)
  | n + 1, st => let (d, st') := next16 st; let (ds, e) := draws16 n st'; (d :: ds, e)

/-! ## Block types (R130 to R133, R244) -/

/-- The element format of an MX block: its format (none for INT8) and emax. -/
structure MxT where
  fmt : Option Fmt
  w : Nat
  emax : Int
  deriving DecidableEq, Repr

/-- MX element types by element type code 0x5 to 0xA (Table 7-10). -/
def mxOf (et : Nat) : Option MxT :=
  match et with
  | 5 => some ⟨some e4m3, 8, 8⟩
  | 6 => some ⟨some e5m2, 8, 15⟩
  | 7 => some ⟨some e3m2, 6, 4⟩
  | 8 => some ⟨some e2m3, 6, 2⟩
  | 9 => some ⟨some e2m1, 4, 2⟩
  | 10 => some ⟨none, 8, 0⟩
  | _ => none

/-- The largest magnitude of a list of values, as m × 2^e. -/
def amax (vs : List Val) : Nat × Int :=
  vs.foldl (fun a v =>
    let b := v.mag
    if b.1 = 0 then a else if a.1 = 0 then b else if Val.lt (.fin false a.1 a.2) (.fin false b.1 b.2) then b else a) (0, 0)

/-- An integer clamped. -/
def clampInt (lo hi x : Int) : Int := if x < lo then lo else if x > hi then hi else x

/-- The MX scale byte of a block (R130). -/
def mxScale (t : MxT) (vs : List Val) : Nat :=
  if vs.any Val.special then 255
  else
    let a := amax vs
    if a.1 = 0 then 0 else (clampInt (-127) 127 (log2Of a.1 a.2 - t.emax) + 127).toNat

/-- One MX element of a block with a scale byte (R130, R132): rounded, saturated, never infinity or NaN. -/
def mxElem (t : MxT) (scale : Nat) (r : Rnd) (v : Val) : Nat × RFlags :=
  if scale = 255 then (0, RFlags.none)
  else
    let v' := v.scale (127 - (scale : Int))
    match t.fmt with
    | some f => f.encode true r v'
    | none =>
      match v' with
      | .fin n m e =>
        let (k, nx) := roundInt r m (e + 6)
        let c := min k 127
        (unsext 8 (if n then -(c : Int) else c), ⟨decide (k > 127), false, nx⟩)
      | _ => (0, RFlags.none)

/-- The value of an MX element under a scale byte (R131). -/
def mxVal (t : MxT) (scale e : Nat) : Val :=
  if scale = 255 then .nan
  else
    let k : Int := (scale : Int) - 127
    match t.fmt with
    | some f => (f.decode e).scale k
    | none => (Val.ofInt (sext 8 e) (-6) false).scale k

/-- The exponent byte of an L-BX block (R133). -/
def bxScale (vs : List Val) : Nat :=
  if vs.any Val.special then 255
  else
    let a := amax vs
    if a.1 = 0 then 0 else (clampInt (-126) 127 (log2Of a.1 a.2) + 127).toNat

/-- One L-BX element of k bits (R133): saturated to ±(2^(k−1) − 1). -/
def bxElem (k scale : Nat) (r : Rnd) (v : Val) : Nat × RFlags :=
  if scale = 255 ∨ scale = 0 then (0, RFlags.none)
  else
    match v with
    | .fin n m e =>
      let (t, nx) := roundInt r m (e - ((scale : Int) - 127 - k + 2))
      let c := min t (2 ^ (k - 1) - 1)
      (unsext k (if n then -(c : Int) else c), ⟨decide (t > 2 ^ (k - 1) - 1), false, nx⟩)
    | _ => (0, RFlags.none)

/-- The value of an L-BX element (R133). -/
def bxVal (k scale e : Nat) : Val :=
  if scale = 255 then .nan
  else if scale = 0 then .fin false 0 0
  else Val.ofInt (sext k e) ((scale : Int) - 127 - k + 2) false

/-- A rounding for each element: the draws of a stochastic rounding in order, the mode itself otherwise. -/
def rndAt (stoch : Bool) (r : Rnd) (ds : List Nat) (i : Nat) : Rnd :=
  if stoch then .stoch ((ds[i]?).getD 0) else r

end Sys2Proof.Machine
end

