-- ==== Sys2Proof/Machine/Codec.lean ====
section
/-! DEFINITION. The husk as bytes (spec/04_husk_compression.md): CRCs, glume, fixed-rate and lossless grains, encryption of grains,
and the encode and decode of one grain. Pure functions over byte runs; no state. -/

namespace Sys2Proof.Machine

open Sys2Proof

/-! ## CRCs (R123) -/

/-- CRC-16, polynomial 0x1021, initial value 0xFFFF, no reflection, no final XOR. -/
def crc16 (d : Bytes) : Nat :=
  d.foldl (fun c b =>
    (List.range 8).foldl (fun c _ => if c.testBit 15 then ((c * 2) % 65536) ^^^ 0x1021 else c * 2) (c ^^^ b.toNat * 256)) 0xFFFF

/-- CRC-32, polynomial 0x04C11DB7 reflected, initial value and final XOR 0xFFFFFFFF. -/
def crc32 (d : Bytes) : Nat :=
  (d.foldl (fun c b =>
    (List.range 8).foldl (fun c _ => if c.testBit 0 then (c / 2) ^^^ 0xEDB88320 else c / 2) (c ^^^ b.toNat)) 0xFFFFFFFF) ^^^ 0xFFFFFFFF

/-! ## Classes (Table 4-2, Table 4-3) -/

/-- C-EXP classes. -/
def isExp (c : Nat) : Bool := c == 1 || c == 2 || c == 3

/-- Lossless classes. -/
def isLossless (c : Nat) : Bool := isExp c || c == 4

/-- MX classes. -/
def isMx (c : Nat) : Bool := decide (5 ≤ c ∧ c ≤ 10)

/-- Lossy classes. -/
def isLossy (c : Nat) : Bool := decide (5 ≤ c ∧ c ≤ 11)

/-- Does a class accept a host element type (R127)? -/
def classElemOk (c elem : Nat) : Bool :=
  decide (elem ≤ 2) &&
    (match c with
     | 0 => true
     | 1 => elem == 1
     | 2 => elem == 2
     | 3 => elem == 0
     | 4 => true
     | n => decide (5 ≤ n ∧ n ≤ 12))

/-- The element type code of an MX class: L-MX8 is 0x5, and so on (Table 7-10 against Table 4-2, R255). -/
def mxClassEt (c : Nat) : Nat := c

/-- k of the L-BX mantissa code 0 to 4 (Table 2-9). -/
def bxK (code : Nat) : Nat := 4 + 2 * code

/-- Bytes of a host element. -/
def elemBytes (elem : Nat) : Nat := if elem = 0 then 4 else 2

/-- Round up to a multiple. -/
def roundUp (n m : Nat) : Nat := (n + m - 1) / m * m

/-- Elements of a block, and bytes of a block, of a lossy class. -/
def blockElems (c : Nat) : Nat := if c = 11 then 16 else 32

/-- Element width of a lossy class. -/
def lossyWidth (c bxk : Nat) : Nat :=
  if c = 11 then bxk else match mxOf (mxClassEt c) with
    | some t => t.w
    | none => 8

/-- Bytes of a stored block: scale or exponent byte and packed elements (R129). -/
def blockBytes (c bxk : Nat) : Nat := 1 + blockElems c * lossyWidth c bxk / 8

/-- Stored length of every grain of a fixed-rate class (Table 4-3). -/
def fixedLen (c elem bxk : Nat) : Nat :=
  if isLossy c then roundUp (256 / elemBytes elem / blockElems c * blockBytes c bxk) 16 else 256

/-- Chunks of a husk of so many bytes (R121). -/
def chunksOf (len : Nat) : Nat := (len + 127) / 128

/-- Chunk count of a fixed-rate class (Table 4-3). -/
def fixedChunks (c elem bxk : Nat) : Nat := chunksOf (64 + 16 * fixedLen c elem bxk)

/-- Charge per page (Table 2-5). -/
def chargeOf (c elem bxk d : Nat) : Nat :=
  if c = 12 then 0 else if isLossless c then d else fixedChunks c elem bxk

/-! ## Host elements -/

/-- The format of a host element type. -/
def hostFmt (elem : Nat) : Fmt := if elem = 0 then fp32 else if elem = 1 then bf16 else fp16

/-- The element values of a run of host bytes. -/
def hostVals (elem : Nat) (d : Bytes) : List Val :=
  let n := elemBytes elem
  (List.range (d.length / n)).map fun i => (hostFmt elem).decode (leAt d (n * i) n)

/-- Host bytes of element values, rounded to nearest even (R131). -/
def hostBytes (elem : Nat) (vs : List Val) : Bytes :=
  (vs.map fun v => toLe (elemBytes elem) ((hostFmt elem).encode false .rne v).1).flatten

/-- Elements of w bits packed as a little-endian bit string (R129). -/
def packLe (w : Nat) (es : List Nat) : Bytes :=
  toLe ((w * es.length + 7) / 8) (es.foldr (fun e a => e % 2 ^ w + 2 ^ w * a) 0)

/-- Element j of a packed field. -/
def unpackLe (w : Nat) (d : Bytes) (j : Nat) : Nat := (le d / 2 ^ (w * j)) % 2 ^ w

/-! ## Lossy grains (R129 to R136, R162) -/

/-- Values of a stored block. -/
def blockVals (c bxk : Nat) (b : Bytes) : List Val :=
  let s := byteAt b 0
  let w := lossyWidth c bxk
  let fld := le (b.drop 1)
  (List.range (blockElems c)).map fun j =>
    let e := (fld / 2 ^ (w * j)) % 2 ^ w
    if c = 11 then bxVal bxk s e
    else match mxOf (mxClassEt c) with
      | some t => mxVal t s e
      | none => .nan

/-- Host bytes of a stored lossy grain. -/
def lossyDecode (c elem bxk : Nat) (g : Bytes) : Bytes :=
  let bb := blockBytes c bxk
  ((List.range (256 / elemBytes elem / blockElems c)).map fun k =>
    hostBytes elem (blockVals c bxk ((g.drop (bb * k)).take bb))).flatten

/-- The generator seed of a grain (R135). -/
def grainSeed (seq page g : Nat) : Nat :=
  let x := (seq ^^^ ((page % 2 ^ 28) * 16 ||| g)) % 2 ^ 32
  if x = 0 then 1 else x

/-- Value j of a block as it is quantised: in a block of zeros every element is 0, without a sign (R130, R133). -/
def blockVal (vs : List Val) (j : Nat) : Val := if (amax vs).1 = 0 then .fin false 0 0 else (vs[j]?).getD (.fin false 0 0)

/-- Encode one lossy block from its values; an old block of the same encoding keeps the bits of untouched elements when the scale
is unchanged, and is kept whole when nothing of it was written (R162). -/
def lossyBlock (c bxk : Nat) (rs : List Rnd) (vs : List Val) (written : List Bool) (old : Option Bytes) : Bytes :=
  let w := lossyWidth c bxk
  match old, written.any id with
  | some o, false => o
  | _, _ =>
    let s := if c = 11 then bxScale vs else match mxOf (mxClassEt c) with
      | some t => mxScale t vs
      | none => 0
    let keep := match old with
      | some o => decide (byteAt o 0 = s)
      | none => false
    let of := le ((old.getD []).drop 1)
    let es := (List.range vs.length).map fun j =>
      let v := blockVal vs j
      if keep && !((written[j]?).getD true) then (of / 2 ^ (w * j)) % 2 ^ w
      else
        let r := (rs[j]?).getD .rne
        if c = 11 then (bxElem bxk s r v).1
        else match mxOf (mxClassEt c) with
          | some t => (mxElem t s r v).1
          | none => 0
    BitVec.ofNat 8 s :: packLe w es

/-- Encode a lossy grain: host bytes, mask of written bytes, old stored plaintext when the encoding is kept. -/
def lossyEncode (c elem bxk : Nat) (stoch : Bool) (seed : Nat) (d : Bytes) (mask : Nat) (old : Option Bytes) : Bytes :=
  let n := elemBytes elem
  let cnt := 256 / n
  let be := blockElems c
  let bb := blockBytes c bxk
  let vs := hostVals elem d
  let ds := if stoch then (draws16 cnt (seed, false)).1 else []
  let blocks := (List.range (cnt / be)).map fun k =>
    let rs := (List.range be).map fun j => rndAt stoch .rne ds (be * k + j)
    let wr := (List.range be).map fun j => bits mask (n * (be * k + j) + n - 1) (n * (be * k + j)) != 0
    lossyBlock c bxk rs ((vs.drop (be * k)).take be) wr (old.map fun o => (o.drop (bb * k)).take bb)
  fit (fixedLen c elem bxk) blocks.flatten

/-! ## C-EXP grains (R137 to R140) -/

/-- Alphabet size of a C-EXP class. -/
def alphabet (c : Nat) : Nat := if c = 2 then 32 else 256

/-- Do code lengths meet R140: 1 to 15 for every symbol of the alphabet, none else, Kraft sum 1? -/
def lensOk (c : Nat) (lens : List Nat) : Bool :=
  let a := alphabet c
  (List.range 256).all (fun s => let l := (lens[s]?).getD 0; if s < a then decide (1 ≤ l ∧ l ≤ 15) else l == 0) &&
    sumOf (lens.take a) (fun l => 2 ^ (15 - l)) == 2 ^ 15

/-- Symbols of one length, ascending. -/
def symsOf (lens : List Nat) (l : Nat) : List Nat := (List.range lens.length).filter fun s => (lens[s]?).getD 0 == l

/-- The first codeword of each length 0 to 15 (R140). -/
def firstCodes (lens : List Nat) : List Nat :=
  ((List.range 15).foldl (fun (acc : List Nat × Nat) i =>
    let code := acc.2
    (acc.1 ++ [code], (code + (symsOf lens (i + 1)).length) * 2)) ([0], 0)).1

/-- The canonical codeword of a symbol, most significant bit first. -/
def codeword (lens : List Nat) (s : Nat) : List Bool :=
  let l := (lens[s]?).getD 0
  let rank := ((List.range s).filter fun t => (lens[t]?).getD 0 == l).length
  let v := ((firstCodes lens)[l]?).getD 0 + rank
  (List.range l).map fun i => v.testBit (l - 1 - i)

/-- Bits packed from the most significant bit of each byte down. -/
def packMsb : List Bool → Bytes
  | [] => []
  | bs@(_ :: _) =>
    (List.range ((bs.length + 7) / 8)).map fun i =>
      BitVec.ofNat 8 ((List.range 8).foldl (fun a j => 2 * a + (if (bs[8 * i + j]?).getD false then 1 else 0)) 0)

/-- Bits of a run of bytes, most significant first. -/
def bitsMsb (d : Bytes) : List Bool := d.flatMap fun b => (List.range 8).map fun j => b.toNat.testBit (7 - j)

/-- Decode one codeword: value so far, length so far, tables by length; none when no codeword matches within 15 bits. -/
def decodeSym (tabs : List (Nat × List Nat)) : Nat → List Bool → Option (Nat × List Bool)
  | _, [] => none
  | v, b :: t =>
    match tabs with
    | [] => none
    | (first, syms) :: rest =>
      let v' := 2 * v + (if b then 1 else 0)
      if v' < first + syms.length ∧ first ≤ v' then some ((syms[v' - first]?).getD 0, t)
      else decodeSym rest v' t

/-- Decode n codewords. -/
def decodeSyms (tabs : List (Nat × List Nat)) : Nat → List Bool → Option (List Nat × List Bool)
  | 0, bs => some ([], bs)
  | n + 1, bs =>
    match decodeSym tabs 0 bs with
    | none => none
    | some (s, r) => (decodeSyms tabs n r).map fun p => (s :: p.1, p.2)

/-- Fields of host elements: sign-mantissa field and exponent, by class. -/
def expSplit (c w : Nat) : Nat × Nat :=
  if c = 1 then ((w / 32768) * 128 + w % 128, (w / 128) % 256)
  else if c = 2 then ((w / 32768) * 1024 + w % 1024, (w / 1024) % 32)
  else ((w / 2 ^ 31) * 2 ^ 23 + w % 2 ^ 23, (w / 2 ^ 23) % 256)

/-- A host element from its sign-mantissa field and exponent. -/
def expJoin (c sm e : Nat) : Nat :=
  if c = 1 then (sm / 128) * 32768 + e * 128 + sm % 128
  else if c = 2 then (sm / 1024) * 32768 + e * 1024 + sm % 1024
  else (sm / 2 ^ 23) * 2 ^ 31 + e * 2 ^ 23 + sm % 2 ^ 23

/-- Width of the sign-mantissa field, elements per grain, host bytes per element (Table 4-4). -/
def expDims (c : Nat) : Nat × Nat × Nat := if c = 1 then (8, 128, 2) else if c = 2 then (11, 128, 2) else (24, 64, 4)

/-- Encode a C-EXP grain: field, code stream, zero padding; an all-zero grain has length 0 (R119). -/
def expEncode (c : Nat) (lens : List Nat) (d : Bytes) : Bytes :=
  if d.all (· == 0) then []
  else
    let (w, n, hb) := expDims c
    let parts := (List.range n).map fun i => expSplit c (leAt d (hb * i) hb)
    let field := packLe w (parts.map Prod.fst)
    let stream := packMsb (parts.flatMap fun p => codeword lens p.2)
    let raw := field ++ stream
    fit (roundUp raw.length 16) raw

/-- Decode a C-EXP grain of a non-zero length (R139): the host bytes, or none. -/
def expDecode (c : Nat) (lens : List Nat) (g : Bytes) : Option Bytes :=
  let (w, n, hb) := expDims c
  let fb := w * n / 8
  let fs := firstCodes lens
  let tabs := (List.range 15).map fun i => ((fs[i + 1]?).getD 0, symsOf lens (i + 1))
  let fld := le (g.take fb)
  match decodeSyms tabs n (bitsMsb (g.drop fb)) with
  | none => none
  | some (es, rest) =>
    let used := fb + ((g.length - fb) * 8 - rest.length + 7) / 8
    if rest.any id ∨ roundUp used 16 ≠ g.length then none
    else some ((List.range n).flatMap fun i => toLe hb (expJoin c ((fld / 2 ^ (w * i)) % 2 ^ w) ((es[i]?).getD 0)))

/-! ## Code construction (R140) -/

/-- A node of the code tree: weight, smallest symbol, and the symbols below it with their depths. -/
abbrev HNode := Nat × Nat × List (Nat × Nat)

/-- Is one node's key below another's? -/
def hLess (a b : HNode) : Bool := decide (a.1 < b.1) || (a.1 == b.1 && decide (a.2.1 < b.2.1))

/-- Insert a node into a list kept in rising key order. -/
def hInsert (x : HNode) : List HNode → List HNode
  | [] => [x]
  | y :: t => if hLess y x then y :: hInsert x t else x :: y :: t

/-- Join the two nodes of least key until one remains. -/
def hMerge : Nat → List HNode → List HNode
  | 0, l => l
  | n + 1, x :: y :: t =>
    hMerge n (hInsert (x.1 + y.1, min x.2.1 y.2.1, (x.2.2 ++ y.2.2).map fun p => (p.1, p.2 + 1)) t)
  | _ + 1, l => l

/-- Depth of each leaf for weights w. -/
def huffLens (w : List Nat) : List Nat :=
  let leaves := (List.range w.length).foldl (fun l s => hInsert ((w[s]?).getD 1, s, [(s, 0)]) l) ([] : List HNode)
  match hMerge w.length leaves with
  | (_, _, ds) :: _ => (List.range w.length).map fun s => match ds.find? (fun p => p.1 == s) with
    | some p => p.2
    | none => 0
  | [] => []

/-- TRAIN's code lengths from a histogram: weights halved until no length exceeds 15 (R140). -/
def trainLens : Nat → List Nat → List Nat
  | 0, w => huffLens w
  | n + 1, w =>
    let l := huffLens w
    if l.all (· ≤ 15) then l else trainLens n (w.map fun x => (x + 1) / 2)

/-- Code lengths of TRAIN for a histogram of counts. -/
def codeOf (hist : List Nat) : List Nat := fitN (trainLens 64 (hist.map (· + 1)))
where
  /-- Lengths padded to 256 symbols. -/
  fitN (l : List Nat) : List Nat := (l ++ List.replicate 256 0).take 256

/-- Lengths from runs of (first, last, length). -/
def lensFromRuns (runs : List (Nat × Nat × Nat)) : List Nat :=
  (List.range 256).map fun s => match runs.find? (fun r => decide (r.1 ≤ s ∧ s ≤ r.2.1)) with
    | some r => r.2.2
    | none => 0

/-- Default lengths for 8-bit exponents (Table 4-5). -/
def defaultLens8 : List Nat :=
  lensFromRuns [(119, 120, 2), (118, 118, 3), (121, 121, 3), (117, 117, 4), (116, 116, 5), (122, 122, 5), (115, 115, 6),
    (0, 0, 7), (114, 114, 7), (113, 113, 9), (123, 123, 9), (1, 112, 11), (124, 135, 11), (136, 255, 12)]

/-- Default lengths for 5-bit exponents (Table 4-16). -/
def defaultLens5 : List Nat :=
  lensFromRuns [(13, 14, 2), (12, 12, 3), (15, 15, 3), (11, 11, 4), (10, 10, 5), (16, 16, 5), (0, 0, 6), (9, 9, 6), (8, 8, 7),
    (1, 7, 8), (17, 31, 8)]

/-! ## C-GEN grains (R141, R142) -/

/-- Length of the match at a distance back from a position, at most `n` bytes. -/
def matchLen (d : Bytes) (pos off : Nat) : Nat → Nat
  | 0 => 0
  | n + 1 => if (d[pos]?).getD 0 = (d[pos - off]?).getD 0 ∧ pos < 256 then 1 + matchLen d (pos + 1) off n else 0

/-- The longest match of at least 3 bytes within the preceding 255 bytes, the nearest among equals: length and offset. -/
def bestMatch (d : Bytes) (pos : Nat) : Nat × Nat :=
  (List.range (min pos 255)).foldl (fun b i =>
    let l := matchLen d pos (i + 1) (256 - pos)
    if l ≥ 3 ∧ l > b.1 then (l, i + 1) else b) (0, 0)

/-- Extension bytes of a count that reached 15. -/
def extBytes : Nat → Nat → Bytes
  | 0, _ => []
  | n + 1, x => if x < 255 then [BitVec.ofNat 8 x] else 255 :: extBytes n (x - 255)

/-- The bytes of a token. -/
def genToken (lits : Bytes) (m : Option (Nat × Nat)) : Bytes :=
  let ml := match m with
    | some p => p.1 - 3
    | none => 0
  BitVec.ofNat 8 ((min lits.length 15) * 16 + min ml 15)
    :: (if lits.length ≥ 15 then extBytes 4 (lits.length - 15) else []) ++ lits
      ++ (match m with
          | some p => BitVec.ofNat 8 p.2 :: (if ml ≥ 15 then extBytes 4 (ml - 15) else [])
          | none => [])

/-- Encode from a position with literals gathered since the last token. -/
def genFrom (d : Bytes) : Nat → Nat → Bytes → Bytes
  | 0, _, _ => []
  | n + 1, pos, lits =>
    if pos ≥ 256 then (if lits.isEmpty then [] else genToken lits none)
    else
      let b := bestMatch d pos
      if b.1 ≥ 3 then genToken lits (some b) ++ genFrom d n (pos + b.1) []
      else genFrom d n (pos + 1) (lits ++ [(d[pos]?).getD 0])

/-- Encode a C-GEN grain. -/
def genEncode (d : Bytes) : Bytes :=
  if d.all (· == 0) then [] else let raw := genFrom d 300 0 []; fit (roundUp raw.length 16) raw

/-- Read extension bytes: the sum and the rest. -/
def readExt : Nat → Bytes → Nat → Option (Nat × Bytes)
  | 0, _, _ => none
  | _, [], _ => none
  | n + 1, b :: t, acc => if b.toNat < 255 then some (acc + b.toNat, t) else readExt n t (acc + 255)

/-- Copy m bytes from an offset back, one at a time; the output is kept in reverse. -/
def copyBack (off : Nat) : Nat → Bytes → Bytes
  | 0, out => out
  | n + 1, out => copyBack off n ((out[off - 1]?).getD 0 :: out)

/-- Decode tokens until 256 bytes are out: the output and the unread bytes. -/
def genTokens : Nat → Bytes → Bytes → Option (Bytes × Bytes)
  | 0, _, _ => none
  | _, [], _ => none
  | n + 1, tok :: t, out =>
    let l0 := tok.toNat / 16
    let m0 := tok.toNat % 16
    match if l0 = 15 then readExt 8 t 15 else some (l0, t) with
    | none => none
    | some (l, t) =>
      if t.length < l then none
      else
        let out := (t.take l).reverse ++ out
        let t := t.drop l
        if out.length > 256 then none
        else if out.length = 256 then (if m0 = 0 then some (out.reverse, t) else none)
        else
          match t with
          | [] => none
          | o :: t =>
            if o.toNat = 0 ∨ o.toNat > out.length then none
            else
              match if m0 = 15 then readExt 8 t 15 else some (m0, t) with
              | none => none
              | some (m, t) =>
                let out := copyBack o.toNat (m + 3) out
                if out.length > 256 then none
                else if out.length = 256 then some (out.reverse, t)
                else genTokens n t out

/-- Decode a C-GEN grain of a non-zero length (R141). -/
def genDecode (g : Bytes) : Option Bytes :=
  match genTokens 300 g [] with
  | none => none
  | some (out, rest) =>
    if rest.any (· != 0) ∨ roundUp (g.length - rest.length) 16 ≠ g.length then none else some out

/-! ## The glume (Table 4-1) -/

/-- The fields of a glume. -/
structure Glume where
  version : Nat
  cls : Nat
  slot : Nat
  fallback : Bool
  mat : Bool
  gen : Nat
  key : Nat
  prot : Nat
  length : Nat
  ends : List Nat
  gcrc : List Nat
  hcrc : Nat
  seq : Nat
  deriving DecidableEq, Repr

/-- The first 56 bytes of a glume. -/
def Glume.head (g : Glume) : Bytes :=
  [BitVec.ofNat 8 (g.version * 16 + g.cls),
   BitVec.ofNat 8 (g.slot * 4 + (if g.fallback then 2 else 0) + (if g.mat then 1 else 0))]
  ++ toLe 2 (g.gen * 4096 + g.key) ++ toLe 2 (g.prot * 8192 + g.length) ++ zeros 2
  ++ g.ends.map (BitVec.ofNat 8) ++ g.gcrc.flatMap (toLe 2)

/-- The 64 bytes of a glume. -/
def Glume.pack (g : Glume) : Bytes := g.head ++ toLe 4 g.hcrc ++ toLe 4 g.seq

/-- Read a glume from 64 bytes. -/
def Glume.parse (d : Bytes) : Glume :=
  { version := byteAt d 0 / 16, cls := byteAt d 0 % 16, slot := byteAt d 1 / 4, fallback := (byteAt d 1).testBit 1,
    mat := (byteAt d 1).testBit 0, gen := leAt d 2 2 / 4096, key := leAt d 2 2 % 512, prot := leAt d 4 2 / 8192 % 4,
    length := leAt d 4 2 % 8192, ends := (List.range 16).map fun g => byteAt d (8 + g),
    gcrc := (List.range 16).map fun g => leAt d (24 + 2 * g) 2, hcrc := leAt d 56 4, seq := leAt d 60 4 }

/-- The end of grain g in 16-byte units; that of grain 15 from LENGTH. -/
def Glume.endOf (x : Glume) (g : Nat) : Nat := if g = 15 then (x.length - 64) / 16 else (x.ends[g]?).getD 0

/-- The start of grain g. -/
def Glume.startOf (x : Glume) (g : Nat) : Nat := if g = 0 then 0 else x.endOf (g - 1)

/-- Is the glume valid (R124)? The extent's element type and k fix the ends of a fixed-rate class. -/
def Glume.ok (x : Glume) (elem bxk : Nat) : Bool :=
  x.version == 1 && decide (x.cls ≤ 12) && x.prot != 3 && decide (64 ≤ x.length) && (x.length - 64) % 16 == 0
    && (List.range 15).all (fun g => decide (x.startOf g ≤ x.endOf g))
    && decide (x.endOf 14 ≤ x.endOf 15) && (x.ends[15]?).getD 0 == x.endOf 15 % 256
    && (isLossless x.cls || (List.range 16).all fun g => x.endOf g == (g + 1) * fixedLen x.cls elem bxk / 16)

/-! ## Grains -/

/-- The tweak of a grain (R120). -/
def grainTweak (page g : Nat) : Nat := page % 2 ^ 38 * 16 + g

/-- Encrypt or decrypt a grain. -/
def cryptGrain (decrypt : Bool) (key page g : Nat) (d : Bytes) : Bytes :=
  if d.isEmpty then [] else xts decrypt key (grainTweak page g) d

/-- How an extent's pages are encoded. -/
structure EncP where
  cls : Nat
  elem : Nat
  bxk : Nat
  stoch : Bool
  slot : Nat
  gen : Nat
  lens : List Nat
  keySlot : Nat
  key : Nat
  prot : Nat
  mat : Bool
  deriving DecidableEq, Repr

/-- Plaintext stored form of a grain from its host bytes. -/
def grainPlain (p : EncP) (seq page g : Nat) (d : Bytes) (mask : Nat) (old : Option Bytes) : Bytes :=
  if isLossy p.cls then lossyEncode p.cls p.elem p.bxk p.stoch (grainSeed seq page g) d mask old
  else if isExp p.cls then expEncode p.cls p.lens d
  else if p.cls = 4 then genEncode d
  else d

/-- Host bytes of a plaintext stored grain, or the cause of its failure (HSK_ERR_CAP.CAUSE: 2 stream or tokens, 3 length). -/
def grainHost (cls elem bxk : Nat) (lens : List Nat) (g : Bytes) : Except Nat Bytes :=
  let r := if isLossless cls ∧ g.isEmpty then some (zeros 256)
    else if isLossy cls then some (lossyDecode cls elem bxk g)
    else if isExp cls then expDecode cls lens g
    else if cls = 4 then genDecode g
    else some g
  match r with
  | none => .error 2
  | some d => if d.length = 256 then .ok d else .error 3

/-- A stored grain: encrypted bytes, CRC of its host bytes. -/
structure SGrain where
  enc : Bytes
  crc : Nat
  deriving DecidableEq, Repr

/-- The husk's bytes: glume and grains, padded to whole chunks with zeros. -/
def huskBytes (p : EncP) (fallback : Bool) (seq : Nat) (gs : List SGrain) : Bytes :=
  let ends := (gs.foldl (fun (acc : List Nat × Nat) g => let e := acc.2 + g.enc.length / 16; (acc.1 ++ [e], e)) ([], 0))
  let body := gs.flatMap SGrain.enc
  let cls := if fallback then 0 else p.cls
  let x : Glume :=
    { version := 1, cls := cls, slot := if isExp cls then p.slot else 0, fallback := fallback, mat := p.mat,
      gen := if isExp cls then p.gen else 0, key := p.keySlot, prot := p.prot, length := 64 + 16 * ends.2,
      ends := ends.1.map (· % 256), gcrc := gs.map SGrain.crc, hcrc := 0, seq := seq }
  let x := { x with hcrc := crc32 (x.head ++ body) }
  let all := x.pack ++ body
  fit (128 * chunksOf all.length) all

/-- Does HCRC match (R123)? -/
def hcrcOk (b : Bytes) : Bool :=
  let x := Glume.parse (b.take 64)
  x.hcrc == crc32 (b.take 56 ++ (b.drop 64).take (x.length - 64))

/-- SEQ after SEQ (R125). -/
def nextSeq (q : Nat) : Nat := if q ≥ 0xFFFFFFFF then 1 else q + 1

end Sys2Proof.Machine
end

