-- ==== Sys2Proof/Machine/RegTable.lean ====
section
/-! DEFINITION. The registers of the module (spec/19_register_index.md Table 19-2) with the fields, access codes, ranges and reset
values that the chapters give them, and the Stook events with their severity and rate limit (the event tables of the chapters).
Read-only fields whose value follows from other state are not listed: Sys2Proof/Machine/RegRead.lean computes them. -/

namespace Sys2Proof.Machine

open Sys2Proof

/-- Access codes (Table 0-4). -/
inductive Acc where
  | rw
  | ro
  | w1c
  | w1s
  | wo
  | rwl
  | rws
  deriving DecidableEq, Repr

/-- A field: bits hi to lo, its access code, and the values a write may give it. -/
structure RegField where
  hi : Nat
  lo : Nat
  acc : Acc
  min : Nat
  max : Nat
  deriving DecidableEq, Repr

/-- A register, or an indexed family of them: the offset of index 0, up to two strides with counts, the offset of the block's LOCK
register, the reset value, and the fields. -/
structure RegDesc where
  base : Nat
  stride : Nat
  count : Nat
  stride2 : Nat
  count2 : Nat
  lock : Nat
  reset : Nat
  fields : List RegField
  deriving DecidableEq, Repr

/-- Registers with the prefix GLB_ (Table 19-2). -/
def regsGlb : List RegDesc :=
  [
   -- GLB_ID
   ⟨0x0, 0, 1, 0, 1, 0x0, 0x840100, [⟨31, 16, .ro, 0, 65535⟩, ⟨15, 8, .ro, 0, 255⟩]⟩]

/-- Registers with the prefix HP_ (Table 19-2). -/
def regsHp : List RegDesc :=
  [
   -- HP_CFG
   ⟨0x100008, 0, 1, 0, 1, 0x100008, 0x15C, [⟨63, 63, .w1s, 0, 1⟩, ⟨8, 8, .rwl, 0, 1⟩, ⟨6, 0, .rwl, 0, 127⟩]⟩,
   -- HP_INT_STATUS
   ⟨0x100028, 0, 1, 0, 1, 0x100008, 0x0, [⟨3, 3, .w1c, 0, 1⟩, ⟨2, 2, .w1c, 0, 1⟩, ⟨1, 1, .w1c, 0, 1⟩, ⟨0, 0, .w1c, 0, 1⟩]⟩,
   -- HP_INT_EN
   ⟨0x100030, 0, 1, 0, 1, 0x100008, 0x0, [⟨3, 3, .rw, 0, 1⟩, ⟨2, 2, .rw, 0, 1⟩, ⟨1, 1, .rw, 0, 1⟩, ⟨0, 0, .rw, 0, 1⟩]⟩,
   -- HP_CNT_x
   ⟨0x100080, 8, 5, 0, 1, 0x100008, 0x0, [⟨47, 0, .rw, 0, 281474976710655⟩]⟩,
   -- HP_PORT_STAT_p
   ⟨0x100200, 8, 4, 0, 1, 0x100008, 0x0, [⟨31, 0, .rw, 0, 4294967295⟩]⟩,
   -- HP_LD_STAT_n
   ⟨0x100400, 8, 64, 0, 1, 0x100008, 0x0, []⟩]

/-- Registers with the prefix HDG_ (Table 19-2). -/
def regsHdg : List RegDesc :=
  [
   -- HDG_TOPO
   ⟨0x200000, 0, 1, 0, 1, 0x200008, 0x0, []⟩,
   -- HDG_CFG
   ⟨0x200008, 0, 1, 0, 1, 0x200008, 0xA0005, [⟨63, 63, .w1s, 0, 1⟩, ⟨25, 16, .rwl, 1, 600⟩, ⟨6, 0, .rwl, 1, 100⟩]⟩,
   -- HDG_MEMB
   ⟨0x200010, 0, 1, 0, 1, 0x200008, 0x0, []⟩,
   -- HDG_LIVE
   ⟨0x200018, 0, 1, 0, 1, 0x200008, 0x0, []⟩,
   -- HDG_REACH
   ⟨0x200020, 0, 1, 0, 1, 0x200008, 0x0, []⟩,
   -- HDG_INT_STATUS
   ⟨0x200028, 0, 1, 0, 1, 0x200008, 0x0, [⟨6, 6, .w1c, 0, 1⟩, ⟨5, 5, .w1c, 0, 1⟩, ⟨4, 4, .w1c, 0, 1⟩, ⟨3, 3, .w1c, 0, 1⟩,
     ⟨2, 2, .w1c, 0, 1⟩, ⟨1, 1, .w1c, 0, 1⟩, ⟨0, 0, .w1c, 0, 1⟩]⟩,
   -- HDG_INT_EN
   ⟨0x200030, 0, 1, 0, 1, 0x200008, 0x0, [⟨6, 6, .rw, 0, 1⟩, ⟨5, 5, .rw, 0, 1⟩, ⟨4, 4, .rw, 0, 1⟩, ⟨3, 3, .rw, 0, 1⟩, ⟨2,
     2, .rw, 0, 1⟩, ⟨1, 1, .rw, 0, 1⟩, ⟨0, 0, .rw, 0, 1⟩]⟩,
   -- HDG_WIT
   ⟨0x200040, 0, 1, 0, 1, 0x200008, 0x0, []⟩,
   -- HDG_TWIN
   ⟨0x200048, 0, 1, 0, 1, 0x200008, 0x0, []⟩,
   -- HDG_SPACE_ID
   ⟨0x200050, 0, 1, 0, 1, 0x200008, 0x0, []⟩,
   -- HDG_CNT_x
   ⟨0x200080, 8, 5, 0, 1, 0x200008, 0x0, [⟨47, 0, .rw, 0, 281474976710655⟩]⟩,
   -- HDG_PORT_STAT_p
   ⟨0x200200, 8, 6, 0, 1, 0x200008, 0x0, [⟨31, 0, .rw, 0, 4294967295⟩]⟩,
   -- HDG_PORT_FEC_p
   ⟨0x200240, 8, 6, 0, 1, 0x200008, 0x0, [⟨63, 32, .rw, 0, 4294967295⟩, ⟨31, 0, .rw, 0, 4294967295⟩]⟩]

/-- Registers with the prefix SPC_ (Table 19-2). -/
def regsSpc : List RegDesc :=
  [
   -- SPC_ID
   ⟨0x300000, 0, 1, 0, 1, 0x300008, 0x0, []⟩,
   -- SPC_CFG
   ⟨0x300008, 0, 1, 0, 1, 0x300008, 0x1E07D00000, [⟨63, 63, .w1s, 0, 1⟩, ⟨41, 32, .rwl, 1, 600⟩, ⟨31, 16, .rwl, 100, 50000⟩]⟩,
   -- SPC_POOL
   ⟨0x300010, 0, 1, 0, 1, 0x300008, 0x0, []⟩,
   -- SPC_EMERG
   ⟨0x300018, 0, 1, 0, 1, 0x300008, 0x0, []⟩,
   -- SPC_INT_STATUS
   ⟨0x300028, 0, 1, 0, 1, 0x300008, 0x0, [⟨4, 4, .w1c, 0, 1⟩, ⟨3, 3, .w1c, 0, 1⟩, ⟨2, 2, .w1c, 0, 1⟩, ⟨1, 1, .w1c, 0, 1⟩,
     ⟨0, 0, .w1c, 0, 1⟩]⟩,
   -- SPC_INT_EN
   ⟨0x300030, 0, 1, 0, 1, 0x300008, 0x0, [⟨4, 4, .rw, 0, 1⟩, ⟨3, 3, .rw, 0, 1⟩, ⟨2, 2, .rw, 0, 1⟩, ⟨1, 1, .rw, 0, 1⟩, ⟨0,
     0, .rw, 0, 1⟩]⟩,
   -- SPC_ACCT_SEL
   ⟨0x300040, 0, 1, 0, 1, 0x300008, 0x0, [⟨7, 0, .rw, 0, 255⟩]⟩,
   -- SPC_ACCT_BUDGET
   ⟨0x300048, 0, 1, 0, 1, 0x300008, 0x0, [⟨63, 63, .rw, 0, 1⟩, ⟨39, 0, .rw, 0, 1099511627775⟩]⟩,
   -- SPC_ACCT_BRAN
   ⟨0x300050, 0, 1, 0, 1, 0x300008, 0x0, [⟨39, 0, .rw, 0, 1099511627775⟩]⟩,
   -- SPC_ACCT_GRANTED
   ⟨0x300058, 0, 1, 0, 1, 0x300008, 0x0, []⟩,
   -- SPC_ACCT_OVER
   ⟨0x300060, 0, 1, 0, 1, 0x300008, 0x0, []⟩,
   -- SPC_CNT_x
   ⟨0x300080, 8, 5, 0, 1, 0x300008, 0x0, [⟨47, 0, .rw, 0, 281474976710655⟩]⟩,
   -- SPC_WIN_STAT_w
   ⟨0x300100, 8, 8, 0, 1, 0x300008, 0x0, []⟩,
   -- SPC_HB_w: any 8-byte offset of the page of window w (R71)
   ⟨0x310000, 8, 4096, 0, 1, 0x300008, 0x0, [⟨63, 0, .wo, 0, 18446744073709551615⟩]⟩]

/-- Registers with the prefix DIR_ (Table 19-2). -/
def regsDir : List RegDesc :=
  [
   -- DIR_STAT
   ⟨0x400000, 0, 1, 0, 1, 0x0, 0x0, []⟩,
   -- DIR_INT_STATUS
   ⟨0x400028, 0, 1, 0, 1, 0x0, 0x0, [⟨4, 4, .w1c, 0, 1⟩, ⟨3, 3, .w1c, 0, 1⟩, ⟨2, 2, .w1c, 0, 1⟩, ⟨1, 1, .w1c, 0, 1⟩, ⟨0,
     0, .w1c, 0, 1⟩]⟩,
   -- DIR_INT_EN
   ⟨0x400030, 0, 1, 0, 1, 0x0, 0x0, [⟨4, 4, .rw, 0, 1⟩, ⟨3, 3, .rw, 0, 1⟩, ⟨2, 2, .rw, 0, 1⟩, ⟨1, 1, .rw, 0, 1⟩, ⟨0, 0,
     .rw, 0, 1⟩]⟩,
   -- DIR_LOST_CAP
   ⟨0x400040, 0, 1, 0, 1, 0x0, 0x0, [⟨63, 63, .w1c, 0, 1⟩]⟩,
   -- DIR_LOST_LINE
   ⟨0x400048, 0, 1, 0, 1, 0x0, 0x0, []⟩,
   -- DIR_SWEEP
   ⟨0x400060, 0, 1, 0, 1, 0x0, 0x0, []⟩,
   -- DIR_CNT_x
   ⟨0x400080, 8, 6, 0, 1, 0x0, 0x0, [⟨47, 0, .rw, 0, 281474976710655⟩]⟩]

/-- Registers with the prefix HSK_ (Table 19-2). -/
def regsHsk : List RegDesc :=
  [
   -- HSK_CAP
   ⟨0x500000, 0, 1, 0, 1, 0x500010, 0x100040314, [⟨32, 20, .ro, 0, 8191⟩, ⟨19, 12, .ro, 0, 255⟩, ⟨11, 6, .ro, 0, 63⟩, ⟨5,
     0, .ro, 0, 63⟩]⟩,
   -- HSK_MERGE
   ⟨0x500010, 0, 1, 0, 1, 0x500010, 0x1003E800138810, [⟨63, 63, .w1s, 0, 1⟩, ⟨54, 46, .rwl, 0, 256⟩, ⟨45, 32, .rwl, 100,
     10000⟩, ⟨26, 7, .rwl, 1000, 1000000⟩, ⟨6, 0, .rwl, 1, 64⟩]⟩,
   -- HSK_MB_STAT
   ⟨0x500018, 0, 1, 0, 1, 0x500010, 0x0, []⟩,
   -- HSK_LANE_DIS
   ⟨0x500020, 0, 1, 0, 1, 0x500010, 0x0, [⟨31, 20, .rws, 0, 4095⟩, ⟨19, 0, .rws, 0, 1048575⟩]⟩,
   -- HSK_INT_STATUS
   ⟨0x500028, 0, 1, 0, 1, 0x500010, 0x0, [⟨6, 6, .w1c, 0, 1⟩, ⟨5, 5, .w1c, 0, 1⟩, ⟨4, 4, .w1c, 0, 1⟩, ⟨3, 3, .w1c, 0, 1⟩,
     ⟨2, 2, .w1c, 0, 1⟩, ⟨1, 1, .w1c, 0, 1⟩, ⟨0, 0, .w1c, 0, 1⟩]⟩,
   -- HSK_INT_EN
   ⟨0x500030, 0, 1, 0, 1, 0x500010, 0x0, [⟨6, 6, .rw, 0, 1⟩, ⟨5, 5, .rw, 0, 1⟩, ⟨4, 4, .rw, 0, 1⟩, ⟨3, 3, .rw, 0, 1⟩, ⟨2,
     2, .rw, 0, 1⟩, ⟨1, 1, .rw, 0, 1⟩, ⟨0, 0, .rw, 0, 1⟩]⟩,
   -- HSK_TBL_SEL
   ⟨0x500040, 0, 1, 0, 1, 0x500010, 0x0, [⟨5, 0, .rw, 0, 63⟩]⟩,
   -- HSK_TBL_STAT
   ⟨0x500048, 0, 1, 0, 1, 0x500010, 0x0, []⟩,
   -- HSK_ERR_CAP
   ⟨0x500058, 0, 1, 0, 1, 0x500010, 0x0, [⟨63, 63, .w1c, 0, 1⟩]⟩,
   -- HSK_CNT_x
   ⟨0x500080, 8, 6, 0, 1, 0x500010, 0x0, [⟨47, 0, .rw, 0, 281474976710655⟩]⟩,
   -- HSK_LANE_STAT_n
   ⟨0x500200, 8, 32, 0, 1, 0x500010, 0x0, []⟩,
   -- HSK_TBL_DATA_i
   ⟨0x501000, 8, 128, 0, 1, 0x500010, 0x0, []⟩]

/-- Registers with the prefix TIER_ (Table 19-2). -/
def regsTier : List RegDesc :=
  [
   -- TIER_EPOCH
   ⟨0x600000, 0, 1, 0, 1, 0x600008, 0x0, []⟩,
   -- TIER_CFG
   ⟨0x600008, 0, 1, 0, 1, 0x600008, 0xA0FA07D000000, [⟨63, 63, .w1s, 0, 1⟩, ⟨57, 48, .rwl, 1, 1000⟩, ⟨47, 33, .rwl, 500,
     20000⟩, ⟨32, 22, .rwl, 50, 2000⟩]⟩,
   -- TIER_WMARK
   ⟨0x600010, 0, 1, 0, 1, 0x600008, 0x290014, [⟨25, 16, .rwl, 0, 1023⟩, ⟨9, 0, .rwl, 0, 1023⟩]⟩,
   -- TIER_NEAR
   ⟨0x600018, 0, 1, 0, 1, 0x600008, 0x0, []⟩,
   -- TIER_POL_STAT
   ⟨0x600020, 0, 1, 0, 1, 0x600008, 0x8000000000000000, [⟨63, 63, .ro, 0, 1⟩]⟩,
   -- TIER_INT_STATUS
   ⟨0x600028, 0, 1, 0, 1, 0x600008, 0x0, [⟨6, 6, .w1c, 0, 1⟩, ⟨5, 5, .w1c, 0, 1⟩, ⟨4, 4, .w1c, 0, 1⟩, ⟨3, 3, .w1c, 0, 1⟩,
     ⟨2, 2, .w1c, 0, 1⟩, ⟨1, 1, .w1c, 0, 1⟩, ⟨0, 0, .w1c, 0, 1⟩]⟩,
   -- TIER_INT_EN
   ⟨0x600030, 0, 1, 0, 1, 0x600008, 0x0, [⟨6, 6, .rw, 0, 1⟩, ⟨5, 5, .rw, 0, 1⟩, ⟨4, 4, .rw, 0, 1⟩, ⟨3, 3, .rw, 0, 1⟩, ⟨2,
     2, .rw, 0, 1⟩, ⟨1, 1, .rw, 0, 1⟩, ⟨0, 0, .rw, 0, 1⟩]⟩,
   -- TIER_ACCT_SEL
   ⟨0x600040, 0, 1, 0, 1, 0x600008, 0x0, [⟨7, 0, .rw, 0, 255⟩]⟩,
   -- TIER_ACCT_FLOOR
   ⟨0x600048, 0, 1, 0, 1, 0x600008, 0x0, [⟨39, 0, .rw, 0, 1099511627775⟩]⟩,
   -- TIER_ACCT_NEAR
   ⟨0x600050, 0, 1, 0, 1, 0x600008, 0x0, []⟩,
   -- TIER_ACCT_MOVED
   ⟨0x600058, 0, 1, 0, 1, 0x600008, 0x0, [⟨47, 0, .rw, 0, 281474976710655⟩]⟩,
   -- TIER_CNT_x
   ⟨0x600080, 8, 10, 0, 1, 0x600008, 0x0, [⟨47, 0, .rw, 0, 281474976710655⟩]⟩,
   -- TIER_STRM_SEL
   ⟨0x600100, 0, 1, 0, 1, 0x600008, 0x0, [⟨4, 0, .rw, 0, 31⟩]⟩,
   -- TIER_STRM_STAT
   ⟨0x600108, 0, 1, 0, 1, 0x600008, 0x0, []⟩,
   -- TIER_STRM_LATE
   ⟨0x600110, 0, 1, 0, 1, 0x600008, 0x0, [⟨31, 0, .rw, 0, 4294967295⟩]⟩]

/-- Registers with the prefix FAR_ (Table 19-2). -/
def regsFar : List RegDesc :=
  [
   -- FAR_CFG
   ⟨0x700008, 0, 1, 0, 1, 0x700008, 0x6464186A0A06018, [⟨63, 63, .w1s, 0, 1⟩, ⟨62, 53, .rwl, 10, 1000⟩, ⟨52, 43, .rwl,
     50, 1000⟩, ⟨42, 24, .rwl, 10000, 500000⟩, ⟨23, 16, .rwl, 0, 255⟩, ⟨15, 8, .rwl, 0, 255⟩, ⟨7, 0, .rwl, 0, 255⟩]⟩,
   -- FAR_GOV
   ⟨0x700010, 0, 1, 0, 1, 0x700008, 0xE100096, [⟨31, 16, .rw, 60, 65535⟩, ⟨9, 0, .rw, 10, 1000⟩]⟩,
   -- FAR_GOV_STAT
   ⟨0x700018, 0, 1, 0, 1, 0x700008, 0x0, []⟩,
   -- FAR_BANDS
   ⟨0x700020, 0, 1, 0, 1, 0x700008, 0x0, []⟩,
   -- FAR_INT_STATUS
   ⟨0x700028, 0, 1, 0, 1, 0x700008, 0x0, [⟨6, 6, .w1c, 0, 1⟩, ⟨5, 5, .w1c, 0, 1⟩, ⟨4, 4, .w1c, 0, 1⟩, ⟨3, 3, .w1c, 0, 1⟩,
     ⟨2, 2, .w1c, 0, 1⟩, ⟨1, 1, .w1c, 0, 1⟩, ⟨0, 0, .w1c, 0, 1⟩]⟩,
   -- FAR_INT_EN
   ⟨0x700030, 0, 1, 0, 1, 0x700008, 0x0, [⟨6, 6, .rw, 0, 1⟩, ⟨5, 5, .rw, 0, 1⟩, ⟨4, 4, .rw, 0, 1⟩, ⟨3, 3, .rw, 0, 1⟩, ⟨2,
     2, .rw, 0, 1⟩, ⟨1, 1, .rw, 0, 1⟩, ⟨0, 0, .rw, 0, 1⟩]⟩,
   -- FAR_CNT_x
   ⟨0x700080, 8, 5, 0, 1, 0x700008, 0x0, [⟨47, 0, .rw, 0, 281474976710655⟩]⟩,
   -- FAR_DIE_STAT_n
   ⟨0x700200, 8, 96, 0, 1, 0x700008, 0x0, []⟩]

/-- Registers with the prefix TLR_ (Table 19-2). -/
def regsTlr : List RegDesc :=
  [
   -- TLR_STAT_n
   ⟨0x800000, 16384, 96, 0, 1, 0x980008, 0x0, []⟩,
   -- TLR_SIG_CTX_n
   ⟨0x800008, 16384, 96, 0, 1, 0x980008, 0x0, []⟩,
   -- TLR_SIG_PAY_n
   ⟨0x800010, 16384, 96, 0, 1, 0x980008, 0x0, []⟩,
   -- TLR_SIG_POP_n
   ⟨0x800018, 16384, 96, 0, 1, 0x980008, 0x0, [⟨0, 0, .wo, 0, 1⟩]⟩,
   -- TLR_TINT_STATUS_n
   ⟨0x800028, 16384, 96, 0, 1, 0x980008, 0x0, [⟨3, 3, .w1c, 0, 1⟩, ⟨2, 2, .w1c, 0, 1⟩, ⟨1, 1, .w1c, 0, 1⟩, ⟨0, 0, .w1c, 0, 1⟩]⟩,
   -- TLR_TINT_EN_n
   ⟨0x800030, 16384, 96, 0, 1, 0x980008, 0x0, [⟨3, 3, .rw, 0, 1⟩, ⟨2, 2, .rw, 0, 1⟩, ⟨1, 1, .rw, 0, 1⟩, ⟨0, 0, .rw, 0, 1⟩]⟩,
   -- TLR_TRAP_CAP_n
   ⟨0x800040, 16384, 96, 0, 1, 0x980008, 0x0, [⟨63, 63, .w1c, 0, 1⟩]⟩,
   -- TLR_SLOT_n_k
   ⟨0x800100, 16384, 96, 8, 8, 0x980008, 0x0, []⟩,
   -- TLR_CAP
   ⟨0x980000, 0, 1, 0, 1, 0x980008, 0x410008060, [⟨39, 32, .ro, 0, 255⟩, ⟨28, 16, .ro, 0, 8191⟩, ⟨15, 12, .ro, 0, 15⟩,
     ⟨6, 0, .ro, 0, 127⟩]⟩,
   -- TLR_CFG
   ⟨0x980008, 0, 1, 0, 1, 0x980008, 0x14040000000000, [⟨63, 63, .w1s, 0, 1⟩, ⟨57, 48, .rwl, 5, 1000⟩, ⟨43, 32, .rwl, 1,
     4032⟩, ⟨6, 0, .rwl, 0, 95⟩]⟩,
   -- TLR_CTX_STAT
   ⟨0x980010, 0, 1, 0, 1, 0x980008, 0x0, []⟩,
   -- TLR_DIS_LO
   ⟨0x980018, 0, 1, 0, 1, 0x980008, 0x0, [⟨63, 0, .rws, 0, 18446744073709551615⟩]⟩,
   -- TLR_DIS_HI
   ⟨0x980020, 0, 1, 0, 1, 0x980008, 0x0, [⟨31, 0, .rws, 0, 4294967295⟩]⟩,
   -- TLR_CNT_x
   ⟨0x980080, 8, 7, 0, 1, 0x980008, 0x0, [⟨47, 0, .rw, 0, 281474976710655⟩]⟩,
   -- TLR_RQ_BASE_r
   ⟨0x990000, 256, 4, 0, 1, 0x980008, 0x0, [⟨63, 12, .rw, 0, 4503599627370495⟩]⟩,
   -- TLR_RQ_CFG_r
   ⟨0x990008, 256, 4, 0, 1, 0x980008, 0x6, [⟨63, 63, .rw, 0, 1⟩, ⟨4, 0, .rw, 6, 16⟩]⟩,
   -- TLR_RQ_TAIL_r
   ⟨0x990010, 256, 4, 0, 1, 0x980008, 0x0, [⟨15, 0, .wo, 0, 65535⟩]⟩,
   -- TLR_RQ_HEAD_r
   ⟨0x990018, 256, 4, 0, 1, 0x980008, 0x0, []⟩,
   -- TLR_CQ_BASE_r
   ⟨0x990020, 256, 4, 0, 1, 0x980008, 0x0, [⟨63, 12, .rw, 0, 4503599627370495⟩]⟩,
   -- TLR_CQ_CFG_r
   ⟨0x990028, 256, 4, 0, 1, 0x980008, 0x10001000006, [⟨63, 63, .rw, 0, 1⟩, ⟨52, 48, .rw, 0, 31⟩, ⟨47, 40, .rw, 1, 255⟩,
     ⟨37, 24, .rw, 1, 10000⟩, ⟨4, 0, .rw, 6, 16⟩]⟩,
   -- TLR_CQ_HEAD_r
   ⟨0x990030, 256, 4, 0, 1, 0x980008, 0x0, [⟨15, 0, .rw, 0, 65535⟩]⟩,
   -- TLR_CQ_TAIL_r
   ⟨0x990038, 256, 4, 0, 1, 0x980008, 0x10000, [⟨16, 16, .ro, 0, 1⟩]⟩]

/-- Registers with the prefix QOS_ (Table 19-2). -/
def regsQos : List RegDesc :=
  [
   -- QOS_CFG
   ⟨0xA00008, 0, 1, 0, 1, 0xA00008, 0x3, [⟨63, 63, .w1s, 0, 1⟩, ⟨3, 0, .rwl, 1, 15⟩]⟩,
   -- QOS_INT_STATUS
   ⟨0xA00028, 0, 1, 0, 1, 0xA00008, 0x0, [⟨4, 4, .w1c, 0, 1⟩, ⟨3, 3, .w1c, 0, 1⟩, ⟨2, 2, .w1c, 0, 1⟩, ⟨1, 1, .w1c, 0, 1⟩,
     ⟨0, 0, .w1c, 0, 1⟩]⟩,
   -- QOS_INT_EN
   ⟨0xA00030, 0, 1, 0, 1, 0xA00008, 0x0, [⟨4, 4, .rw, 0, 1⟩, ⟨3, 3, .rw, 0, 1⟩, ⟨2, 2, .rw, 0, 1⟩, ⟨1, 1, .rw, 0, 1⟩, ⟨0,
     0, .rw, 0, 1⟩]⟩,
   -- QOS_MISS_CAP
   ⟨0xA00040, 0, 1, 0, 1, 0xA00008, 0x0, [⟨63, 63, .w1c, 0, 1⟩]⟩,
   -- QOS_CLS_SEL
   ⟨0xA00048, 0, 1, 0, 1, 0xA00008, 0x0, [⟨18, 16, .rw, 0, 7⟩, ⟨15, 0, .rw, 0, 65535⟩]⟩,
   -- QOS_CLS_PARAM
   ⟨0xA00050, 0, 1, 0, 1, 0xA00008, 0x301000000000000, [⟨57, 56, .ro, 0, 3⟩, ⟨55, 48, .ro, 0, 255⟩]⟩,
   -- QOS_CLS_STAT
   ⟨0xA00058, 0, 1, 0, 1, 0xA00008, 0x0, [⟨31, 0, .rw, 0, 4294967295⟩]⟩,
   -- QOS_URG
   ⟨0xA00060, 0, 1, 0, 1, 0xA00008, 0x0, []⟩,
   -- QOS_CNT_x
   ⟨0xA00080, 8, 4, 0, 1, 0xA00008, 0x0, [⟨47, 0, .rw, 0, 281474976710655⟩]⟩,
   -- QOS_FLOOR_r
   ⟨0xA00100, 8, 15, 0, 1, 0xA00008, 0x0, []⟩,
   -- QOS_ADMIT_r
   ⟨0xA00180, 8, 15, 0, 1, 0xA00008, 0x0, []⟩,
   -- QOS_SCALE_r
   ⟨0xA00200, 8, 15, 0, 1, 0xA00008, 0x100010001000, [⟨44, 32, .ro, 0, 8191⟩, ⟨28, 16, .ro, 0, 8191⟩, ⟨12, 0, .ro, 0, 8191⟩]⟩,
   -- QOS_LMAP_n
   ⟨0xA00400, 8, 64, 0, 1, 0xA00008, 0xFAC688, [⟨23, 0, .ro, 0, 16777215⟩]⟩]

/-- Registers with the prefix DRC_ (Table 19-2). -/
def regsDrc : List RegDesc :=
  [
   -- DRC_CH_STAT_n
   ⟨0xB00000, 4096, 96, 0, 1, 0xB80008, 0x0, []⟩,
   -- DRC_DLY_n
   ⟨0xB00008, 4096, 96, 0, 1, 0xB80008, 0x0, [⟨63, 56, .rws, 0, 255⟩, ⟨55, 48, .rws, 0, 255⟩, ⟨47, 40, .rws, 0, 255⟩,
     ⟨39, 32, .rws, 0, 255⟩, ⟨31, 24, .rws, 0, 255⟩, ⟨23, 16, .rws, 0, 255⟩, ⟨15, 8, .rws, 0, 255⟩, ⟨7, 0, .rws, 0, 255⟩]⟩,
   -- DRC_EYE_n
   ⟨0xB00010, 4096, 96, 0, 1, 0xB80008, 0x0, []⟩,
   -- DRC_PASR_n
   ⟨0xB00018, 4096, 96, 0, 1, 0xB80008, 0x0, [⟨15, 8, .rw, 0, 255⟩, ⟨7, 0, .rw, 0, 255⟩]⟩,
   -- DRC_INT_STATUS_n
   ⟨0xB00028, 4096, 96, 0, 1, 0xB80008, 0x0, [⟨4, 4, .w1c, 0, 1⟩, ⟨3, 3, .w1c, 0, 1⟩, ⟨2, 2, .w1c, 0, 1⟩, ⟨1, 1, .w1c, 0,
     1⟩, ⟨0, 0, .w1c, 0, 1⟩]⟩,
   -- DRC_INT_EN_n
   ⟨0xB00030, 4096, 96, 0, 1, 0xB80008, 0x0, [⟨4, 4, .rw, 0, 1⟩, ⟨3, 3, .rw, 0, 1⟩, ⟨2, 2, .rw, 0, 1⟩, ⟨1, 1, .rw, 0, 1⟩,
     ⟨0, 0, .rw, 0, 1⟩]⟩,
   -- DRC_CNT_n_x
   ⟨0xB00080, 4096, 96, 8, 8, 0xB80008, 0x0, [⟨47, 0, .rw, 0, 281474976710655⟩]⟩,
   -- DRC_CAP
   ⟨0xB80000, 0, 1, 0, 1, 0xB80008, 0x60, [⟨6, 0, .ro, 0, 127⟩]⟩,
   -- DRC_CFG
   ⟨0xB80008, 0, 1, 0, 1, 0xB80008, 0x503E8, [⟨63, 63, .w1s, 0, 1⟩, ⟨20, 16, .rwl, 1, 20⟩, ⟨13, 0, .rwl, 100, 10000⟩]⟩,
   -- DRC_DIS_LO
   ⟨0xB80010, 0, 1, 0, 1, 0xB80008, 0x0, [⟨63, 0, .rws, 0, 18446744073709551615⟩]⟩,
   -- DRC_DIS_HI
   ⟨0xB80018, 0, 1, 0, 1, 0xB80008, 0x0, [⟨31, 0, .rws, 0, 4294967295⟩]⟩,
   -- DRC_RETRAIN
   ⟨0xB80020, 0, 1, 0, 1, 0xB80008, 0x0, [⟨7, 7, .wo, 0, 1⟩, ⟨6, 0, .wo, 0, 127⟩]⟩,
   -- DRC_LIVE
   ⟨0xB80028, 0, 1, 0, 1, 0xB80008, 0x0, []⟩]

/-- Registers with the prefix INT_ (Table 19-2). -/
def regsInt : List RegDesc :=
  [
   -- INT_CFG
   ⟨0xC00008, 0, 1, 0, 1, 0xC00008, 0x10000000003, [⟨63, 63, .w1s, 0, 1⟩, ⟨41, 32, .rwl, 16, 1023⟩, ⟨7, 0, .rwl, 1, 255⟩]⟩,
   -- INT_INT_STATUS
   ⟨0xC00028, 0, 1, 0, 1, 0xC00008, 0x0, [⟨7, 7, .w1c, 0, 1⟩, ⟨6, 6, .w1c, 0, 1⟩, ⟨5, 5, .w1c, 0, 1⟩, ⟨4, 4, .w1c, 0, 1⟩,
     ⟨3, 3, .w1c, 0, 1⟩, ⟨2, 2, .w1c, 0, 1⟩, ⟨1, 1, .w1c, 0, 1⟩, ⟨0, 0, .w1c, 0, 1⟩]⟩,
   -- INT_INT_EN
   ⟨0xC00030, 0, 1, 0, 1, 0xC00008, 0x0, [⟨7, 7, .rw, 0, 1⟩, ⟨6, 6, .rw, 0, 1⟩, ⟨5, 5, .rw, 0, 1⟩, ⟨4, 4, .rw, 0, 1⟩, ⟨3,
     3, .rw, 0, 1⟩, ⟨2, 2, .rw, 0, 1⟩, ⟨1, 1, .rw, 0, 1⟩, ⟨0, 0, .rw, 0, 1⟩]⟩,
   -- INT_ERR_CAP
   ⟨0xC00040, 0, 1, 0, 1, 0xC00008, 0x0, [⟨63, 63, .w1c, 0, 1⟩]⟩,
   -- INT_ERR_ADDR
   ⟨0xC00048, 0, 1, 0, 1, 0xC00008, 0x0, []⟩,
   -- INT_ERRQ_STAT
   ⟨0xC00050, 0, 1, 0, 1, 0xC00008, 0x0, [⟨37, 6, .rw, 0, 4294967295⟩]⟩,
   -- INT_ERRQ_HEAD
   ⟨0xC00058, 0, 1, 0, 1, 0xC00008, 0x0, []⟩,
   -- INT_ERRQ_POP
   ⟨0xC00060, 0, 1, 0, 1, 0xC00008, 0x0, [⟨0, 0, .wo, 0, 1⟩]⟩,
   -- INT_PLIST_STAT
   ⟨0xC00068, 0, 1, 0, 1, 0xC00008, 0x0, []⟩,
   -- INT_CNT_x
   ⟨0xC00080, 8, 6, 0, 1, 0xC00008, 0x0, [⟨47, 0, .rw, 0, 281474976710655⟩]⟩,
   -- INT_MOV_STAT_m
   ⟨0xC00200, 8, 16, 0, 1, 0xC00008, 0x0, []⟩]

/-- Registers with the prefix SEC_ (Table 19-2). -/
def regsSec : List RegDesc :=
  [
   -- SEC_CFG
   ⟨0xD00008, 0, 1, 0, 1, 0xD00008, 0x0, [⟨63, 63, .w1s, 0, 1⟩, ⟨3, 0, .rwl, 0, 15⟩]⟩,
   -- SEC_INT_STATUS
   ⟨0xD00028, 0, 1, 0, 1, 0xD00008, 0x0, [⟨4, 4, .w1c, 0, 1⟩, ⟨3, 3, .w1c, 0, 1⟩, ⟨2, 2, .w1c, 0, 1⟩, ⟨1, 1, .w1c, 0, 1⟩,
     ⟨0, 0, .w1c, 0, 1⟩]⟩,
   -- SEC_INT_EN
   ⟨0xD00030, 0, 1, 0, 1, 0xD00008, 0x0, [⟨4, 4, .rw, 0, 1⟩, ⟨3, 3, .rw, 0, 1⟩, ⟨2, 2, .rw, 0, 1⟩, ⟨1, 1, .rw, 0, 1⟩, ⟨0,
     0, .rw, 0, 1⟩]⟩,
   -- SEC_SLOT_SEL
   ⟨0xD00040, 0, 1, 0, 1, 0xD00008, 0x0, [⟨8, 0, .rw, 0, 511⟩]⟩,
   -- SEC_SLOT_STAT
   ⟨0xD00048, 0, 1, 0, 1, 0xD00008, 0x0, []⟩,
   -- SEC_CNT_x
   ⟨0xD00080, 8, 4, 0, 1, 0xD00008, 0x0, [⟨47, 0, .rw, 0, 281474976710655⟩]⟩]

/-- Registers with the prefix ESU_ (Table 19-2). -/
def regsEsu : List RegDesc :=
  [
   -- ESU_CAP
   ⟨0xE00000, 0, 1, 0, 1, 0x0, 0x1003F22400, [⟨39, 32, .ro, 0, 255⟩, ⟨25, 20, .ro, 0, 63⟩, ⟨19, 11, .ro, 0, 511⟩, ⟨10, 0,
     .ro, 0, 2047⟩]⟩,
   -- ESU_INT_STATUS
   ⟨0xE00028, 0, 1, 0, 1, 0x0, 0x0, [⟨2, 2, .w1c, 0, 1⟩, ⟨1, 1, .w1c, 0, 1⟩, ⟨0, 0, .w1c, 0, 1⟩]⟩,
   -- ESU_INT_EN
   ⟨0xE00030, 0, 1, 0, 1, 0x0, 0x0, [⟨2, 2, .rw, 0, 1⟩, ⟨1, 1, .rw, 0, 1⟩, ⟨0, 0, .rw, 0, 1⟩]⟩,
   -- ESU_CNT_x
   ⟨0xE00080, 8, 6, 0, 1, 0x0, 0x0, [⟨47, 0, .rw, 0, 281474976710655⟩]⟩,
   -- ESU_GRP_g
   ⟨0xE01008, 8, 63, 0, 1, 0x0, 0xA000001, [⟨37, 24, .rw, 1, 10000⟩, ⟨7, 0, .rw, 1, 255⟩]⟩,
   -- ESU_SRC_n
   ⟨0xE02000, 8, 1024, 0, 1, 0x0, 0x0, [⟨58, 58, .rw, 0, 1⟩, ⟨51, 48, .rw, 0, 15⟩, ⟨45, 40, .rw, 0, 63⟩, ⟨36, 32, .rw, 0,
     31⟩, ⟨6, 0, .rw, 0, 127⟩]⟩,
   -- ESU_CLAIM_t
   ⟨0xE10000, 256, 68, 0, 1, 0x0, 0x0, []⟩,
   -- ESU_COMPLETE_t
   ⟨0xE10008, 256, 68, 0, 1, 0x0, 0x0, [⟨9, 0, .wo, 0, 1023⟩]⟩,
   -- ESU_THRESH_t
   ⟨0xE10010, 256, 68, 0, 1, 0x0, 0x0, [⟨3, 0, .rw, 0, 15⟩]⟩]

/-- Registers with the prefix STK_ (Table 19-2). -/
def regsStk : List RegDesc :=
  [
   -- STK_NEXT
   ⟨0xF00000, 0, 1, 0, 1, 0x0, 0x0, []⟩,
   -- STK_CTL
   ⟨0xF00010, 0, 1, 0, 1, 0x0, 0x0, [⟨2, 2, .wo, 0, 1⟩, ⟨1, 1, .wo, 0, 1⟩, ⟨0, 0, .wo, 0, 1⟩]⟩,
   -- STK_STAT
   ⟨0xF00018, 0, 1, 0, 1, 0x0, 0x0, []⟩,
   -- STK_INT_STATUS
   ⟨0xF00028, 0, 1, 0, 1, 0x0, 0x0, [⟨3, 3, .w1c, 0, 1⟩, ⟨2, 2, .w1c, 0, 1⟩, ⟨1, 1, .w1c, 0, 1⟩, ⟨0, 0, .w1c, 0, 1⟩]⟩,
   -- STK_INT_EN
   ⟨0xF00030, 0, 1, 0, 1, 0x0, 0x0, [⟨3, 3, .rw, 0, 1⟩, ⟨2, 2, .rw, 0, 1⟩, ⟨1, 1, .rw, 0, 1⟩, ⟨0, 0, .rw, 0, 1⟩]⟩,
   -- STK_WIN_SEL
   ⟨0xF00048, 0, 1, 0, 1, 0x0, 0x0, [⟨3, 0, .rw, 0, 15⟩]⟩,
   -- STK_CNT_x
   ⟨0xF00080, 8, 5, 0, 1, 0x0, 0x0, [⟨47, 0, .rw, 0, 281474976710655⟩]⟩,
   -- STK_RATE_b
   ⟨0xF00100, 8, 17, 0, 1, 0x0, 0x1000000064, [⟨47, 32, .rw, 1, 65535⟩, ⟨19, 0, .rw, 1, 1000000⟩]⟩,
   -- STK_GASP_i
   ⟨0xF01000, 8, 256, 0, 1, 0x0, 0x0, []⟩,
   -- STK_WIN_i
   ⟨0xF80000, 8, 8192, 0, 1, 0x0, 0x0, []⟩]

/-- Registers with the prefix PWR_ (Table 19-2). -/
def regsPwr : List RegDesc :=
  [
   -- PWR_STATE
   ⟨0x1000000, 0, 1, 0, 1, 0x1000008, 0x10, [⟨4, 0, .ro, 0, 31⟩]⟩,
   -- PWR_CFG
   ⟨0x1000008, 0, 1, 0, 1, 0x1000008, 0x64000000064, [⟨63, 63, .w1s, 0, 1⟩, ⟨53, 44, .rwl, 0, 1023⟩, ⟨43, 32, .rwl, 0,
     4095⟩, ⟨13, 0, .rwl, 10, 10000⟩]⟩,
   -- PWR_MON
   ⟨0x1000010, 0, 1, 0, 1, 0x1000008, 0x0, []⟩,
   -- PWR_INT_STATUS
   ⟨0x1000028, 0, 1, 0, 1, 0x1000008, 0x0, [⟨2, 2, .w1c, 0, 1⟩, ⟨1, 1, .w1c, 0, 1⟩, ⟨0, 0, .w1c, 0, 1⟩]⟩,
   -- PWR_INT_EN
   ⟨0x1000030, 0, 1, 0, 1, 0x1000008, 0x0, [⟨2, 2, .rw, 0, 1⟩, ⟨1, 1, .rw, 0, 1⟩, ⟨0, 0, .rw, 0, 1⟩]⟩,
   -- PWR_CNT_x
   ⟨0x1000080, 8, 4, 0, 1, 0x1000008, 0x0, [⟨47, 0, .rw, 0, 281474976710655⟩]⟩]

/-- Registers with the prefix TMB_ (Table 19-2). -/
def regsTmb : List RegDesc :=
  [
   -- TMB_MONO
   ⟨0x1100000, 0, 1, 0, 1, 0x0, 0x0, []⟩,
   -- TMB_WALL
   ⟨0x1100010, 0, 1, 0, 1, 0x0, 0x0, []⟩,
   -- TMB_STAT
   ⟨0x1100018, 0, 1, 0, 1, 0x0, 0x0, []⟩,
   -- TMB_INT_STATUS
   ⟨0x1100028, 0, 1, 0, 1, 0x0, 0x0, [⟨0, 0, .w1c, 0, 1⟩]⟩,
   -- TMB_INT_EN
   ⟨0x1100030, 0, 1, 0, 1, 0x0, 0x0, [⟨0, 0, .rw, 0, 1⟩]⟩]

/-- Every register of the module. -/
def regTable : List RegDesc := regsGlb ++ regsHp ++ regsHdg ++ regsSpc ++ regsDir ++ regsHsk ++ regsTier ++ regsFar ++ regsTlr ++ regsQos ++ regsDrc ++ regsInt ++ regsSec ++ regsEsu ++ regsStk ++ regsPwr ++ regsTmb

/-- Does an offset name a register of this family? -/
def RegDesc.covers (d : RegDesc) (off : Nat) : Bool :=
  decide (d.base ≤ off) &&
    (let r := off - d.base
     if d.count2 = 1 then
       (if d.count = 1 then r == 0 else decide (r / d.stride < d.count) && r % d.stride == 0)
     else decide (r / d.stride < d.count) && decide (r % d.stride / d.stride2 < d.count2) && r % d.stride % d.stride2 == 0)

/-- The register at an offset. -/
def regAt (off : Nat) : Option RegDesc := regTable.find? (·.covers off)

/-- The reset value of the register at an offset; 0 where there is none (R534). -/
def resetOf (off : Nat) : Nat :=
  match regAt off with
  | some d => d.reset
  | none => 0

/-- Stook events: code, severity (0 info to 3 fatal), and whether the code is rate-limited (R460, R464). -/
def eventTable : List (Nat × Nat × Bool) :=
  [(0x0100, 0, false), (0x0101, 2, false), (0x0102, 1, false), (0x0103, 1, false), (0x0104, 1, true), (0x0200, 0,
   false), (0x0201, 2, false), (0x0202, 1, false), (0x0203, 2, false), (0x0204, 1, false), (0x0205, 1, false), (0x0206,
   2, false), (0x0207, 2, true), (0x0208, 0, false), (0x0209, 1, false), (0x020A, 2, false), (0x020B, 1, true), (0x0300,
   0, false), (0x0301, 0, false), (0x0302, 1, false), (0x0303, 1, false), (0x0304, 0, false), (0x0305, 1, false),
   (0x0306, 1, false), (0x0307, 1, true), (0x0308, 1, false), (0x0309, 2, false), (0x030B, 2, false), (0x030C, 1, false),
   (0x030D, 0, false), (0x030E, 0, false), (0x0400, 0, true), (0x0401, 2, false), (0x0402, 2, true), (0x0403, 1, false),
   (0x0404, 0, false), (0x0405, 0, false), (0x0406, 0, false), (0x0500, 0, false), (0x0501, 0, false)] ++
  [(0x0502, 0, false), (0x0503, 2, true), (0x0504, 0, true), (0x0505, 1, true), (0x0506, 1, true), (0x0507, 2, false),
   (0x0508, 0, false), (0x0509, 1, false), (0x050A, 2, false), (0x0600, 0, false), (0x0601, 1, true), (0x0602, 2, false),
   (0x0603, 1, true), (0x0604, 1, false), (0x0605, 2, true), (0x0606, 1, true), (0x0607, 2, false), (0x0608, 0, false),
   (0x0609, 0, false), (0x060A, 1, false), (0x0700, 1, false), (0x0701, 0, true), (0x0702, 0, true), (0x0703, 2, false),
   (0x0704, 2, false), (0x0705, 0, false), (0x0706, 2, false), (0x0707, 1, true), (0x0708, 1, false), (0x0709, 1, true),
   (0x070A, 2, false), (0x070B, 2, false), (0x0800, 0, false), (0x0801, 0, false), (0x0802, 1, true), (0x0803, 2, false),
   (0x0804, 1, false), (0x0805, 2, false), (0x0806, 1, true), (0x0807, 1, false)] ++
  [(0x0808, 2, false), (0x0809, 1, true), (0x0900, 2, false), (0x0901, 0, false), (0x0902, 1, false), (0x0903, 1,
   false), (0x0904, 2, false), (0x0905, 1, true), (0x0906, 0, false), (0x0A00, 0, false), (0x0A01, 2, false), (0x0A02, 1,
   false), (0x0A03, 2, false), (0x0A04, 1, true), (0x0A05, 0, true), (0x0A06, 1, false), (0x0A07, 2, false), (0x0A08, 3,
   false), (0x0B00, 1, true), (0x0B01, 1, true), (0x0B02, 2, false), (0x0B03, 0, false), (0x0B04, 2, false), (0x0B05, 2,
   false), (0x0B06, 0, false), (0x0B07, 1, false), (0x0B08, 2, false), (0x0B09, 1, false), (0x0B0A, 1, false), (0x0B0B,
   1, false), (0x0B0C, 2, false), (0x0C00, 0, false), (0x0C01, 0, false), (0x0C02, 1, false), (0x0C03, 2, false),
   (0x0C04, 2, false), (0x0C05, 2, false), (0x0C06, 2, false), (0x0C07, 2, false), (0x0C08, 0, false)] ++
  [(0x0D00, 1, true), (0x0D01, 0, true), (0x0D02, 1, false), (0x0D03, 1, true), (0x0E00, 0, false), (0x0E01, 2, false),
   (0x0E02, 1, false), (0x0E03, 1, false), (0x0E04, 2, false), (0x0E05, 2, false), (0x0E06, 2, false), (0x0F00, 0,
   false), (0x0F01, 1, false), (0x0F02, 0, false), (0x0F03, 1, true), (0x0F04, 1, false), (0x0F05, 1, false), (0x0F06, 3,
   false), (0x0F07, 1, false), (0x1000, 0, false), (0x1001, 3, false)]

/-- Severity of an event code. -/
def sevOf (code : Nat) : Nat := match eventTable.find? (fun e => e.1 == code) with
  | some e => e.2.1
  | none => 0

/-- Is an event code rate-limited? -/
def limited (code : Nat) : Bool := match eventTable.find? (fun e => e.1 == code) with
  | some e => e.2.2
  | none => false

end Sys2Proof.Machine
end

