-- ==== Sys2Proof/Machine/State.lean ====
section
/-! DEFINITION. The state of one module, block by block, as plain data; its two ways to stop; and the state after a cold
reset. Every field cites the rule that names it; a field that the manual does not name says so. -/

namespace Sys2Proof.Machine

open Sys2Proof

/-- Why a step stops. -/
inductive Fault where
  /-- Raised by PARITY_DELTA_APPLY and STRIPE_RECONSTRUCT when the chunk index they name is one that the channel does not have
  (R363: never stored). Safe: the manual says that no such address exists. -/
  | nearAddressAbsent
  deriving DecidableEq, Repr

/-- Why a command has no meaning here. -/
inductive Refusal where
  /-- Raised by an arm of the dispatcher whose command is not modelled. Safe. -/
  | notModelled (mnemonic : String)
  deriving DecidableEq, Repr

/-- What leaves the module through its ports, mailboxes and pins, in order (no register of the manual: the model's record of
what the outside sees). -/
inductive Out where
  /-- Read data to a host: LD, tag, poison syndrome (0 clean), meta 0 Cmp, 1 Cmp-S, 2 Cmp-E, DevLoad 0 light to 3 severe (R99, R357,
  R395). -/
  | data (ld tag synd cmp devload : Nat) (bytes : Bytes)
  /-- Write completion to a host; synd is that of a straggler's poison (R36, Table 2-4). -/
  | cmp (ld tag synd devload : Nat)
  /-- A CXL.mem request completed as unsupported (R433). -/
  | unsupported (ld tag : Nat)
  /-- Completion of a UIO request (R481): 0 success, 1 poison. -/
  | uio (ld tag status : Nat) (bytes : Bytes)
  /-- Answer of a mailbox or CCI command: the issuer's number (64 the fabric manager), return code, output bytes (R482, R83). -/
  | mbox (who rc : Nat) (bytes : Bytes)
  /-- Answer of an SPDM request: who, response code, payload (R428). -/
  | spdm (who code : Nat) (bytes : Bytes)
  /-- Answer of an MCTP control or FM API command (R490). -/
  | mctp (code : Nat) (bytes : Bytes)
  /-- MSI-X message of an LD (R449). -/
  | msix (ld vec : Nat)
  /-- The request line of a management core is asserted, or no longer (R448). -/
  | line (core : Nat) (on : Bool)
  /-- Value returned by a claim read (R452). -/
  | claim (target id : Nat)
  /-- Back-invalidate snoop at a host port: LD, kind, first line, lines (R99, Table 9-6). -/
  | snoop (ld : Nat) (k : SnpKind) (line n : Nat)
  /-- A message sent into the fabric (Table 9-5, Table 9-6). -/
  | msg (op : MOp) (m : Msg)
  /-- A COPY with its body (R424). -/
  | copy (dst : Nat) (b : CopyBody)
  /-- A MEMB with its body (R321). -/
  | memb (b : MembBody)
  /-- Journal records sent to the twin (R329). -/
  | jrnl (dst : Nat) (rs : List JRec)
  /-- A JACK to the twin (R329). -/
  | jack (dst seq : Nat)
  /-- A GASP record to the twin (R471). -/
  | gasp (dst : Nat) (rec : Bytes)
  /-- A flit on a Hedgerow port (R304). -/
  | flit (port : Nat) (bytes : Bytes)
  /-- A MARKER on a Hedgerow port: key epoch and tag (R307). -/
  | marker (port epoch tag : Nat)
  /-- An acknowledged phase of a Global Persistent Flush (R475). -/
  | gpf (port phase : Nat)
  deriving DecidableEq, Repr

/-! ## Requests -/

/-- Where an accepted request came from. -/
inductive Src where
  | host (ld tag : Nat)
  | uio (ld tag : Nat)
  | peer (m tag : Nat)
  | ctx (c k : Nat)
  | gate (i : Nat)
  | ring (ld r idx : Nat)
  | mover (m : Nat)
  /-- A Clear Poison command of an LD (R487). -/
  | cmd (ld : Nat)
  deriving DecidableEq, Repr

/-- Operation of a request. -/
inductive ROp where
  | rd
  | wr
  | atom
  /-- A clean evict (Table 3-2): it has no response. -/
  | evict
  deriving DecidableEq, Repr

/-- What a request waits for before it is served or answered. -/
inductive Wait where
  /-- A snoop answer on its line (R100, R102). -/
  | snoop
  /-- A pending entry, a way, a tracker or the victim buffer (R100, R106). -/
  | dir
  /-- The copy of a promotion (R187, R189). -/
  | pull
  /-- A FREE merge-buffer slot (R159). -/
  | slot
  /-- The new husk of a recode (chapter 1, a read that meets a RECODING slot). -/
  | recode
  /-- The expansion of a V-LR page (R146). -/
  | vlr
  /-- The MACK of the twin (R36). -/
  | mirror
  /-- The far program of a durable write's data row (R212). -/
  | far
  /-- The program of the journal row that holds a durable write's record, by its number (R212). -/
  | jrnl (n : Nat)
  /-- The answer of another module (R334). -/
  | remote (m : Nat)
  /-- The end of a re-spread move of its page (R90). -/
  | respread
  /-- Fewer outstanding requests to a slow member of a spread set (R418). -/
  | pace (m : Nat)
  /-- The end of a takeover's snoops for its page, at the home it was sent to (R333). -/
  | takeover
  /-- Doze exit (R498). -/
  | doze
  /-- An earlier request to its line, which is not served yet (R41, R100). -/
  | order
  /-- Room in a husk lane of the kind that its grain needs (R156). -/
  | lane
  /-- A DRAM channel that retrains or is reset (R385, R388). -/
  | chan (n : Nat)
  deriving DecidableEq, Repr

/-- An accepted request not yet answered (R41, R69, R98, R102). `stored` marks a write whose bytes are in the merge buffer, or a
read that has passed the directory; `slot` is the number of the slot that holds a write, `mirrorTag` the TAG of its MIRROR;
`dropped` marks a request whose response is discarded, `tAcc` is when
the request was accepted and `t0` when its present wait began; `par` the parameters that its class had when it arrived. -/
structure Req where
  id : Nat
  src : Src
  op : ROp
  sa : Nat
  label : Nat
  holder : Nat
  mv : MetaV
  mask : Nat
  data : Bytes
  t0 : Nat
  tAcc : Nat
  waits : List Wait
  stored : Bool
  slot : Nat
  mirrorTag : Nat
  dropped : Bool
  par : ClassP
  deriving DecidableEq, Repr

/-! ## Memory space (chapter 2) -/

/-- A host window (R52): base, log2 of the span, committed. -/
structure Window where
  base : Nat
  k : Nat
  deriving DecidableEq, Repr

/-- A LEASE_ATTACH whose lease another module holds (R72): the LD, handle, window and session, the modules that have not answered, and
whether one has refused the token. -/
structure Attach where
  ld : Nat
  handle : Nat
  window : Nat
  sess : Nat
  left : List Nat
  bad : Bool
  deriving DecidableEq, Repr

/-- A command that waits for the records of extents whose home is another module: which command it is, the extents asked for, and those not answered
for. -/
structure Ask where
  cmd : Nat
  x : Mbx
  asked : List Nat
  left : List Nat
  deriving DecidableEq, Repr

/-- Pooled memory space. `windows` and `slots` are keyed by LD × 8 + window, a slot's map by its number in the window. `bound` lists the
shared coherent extents with pages here and the holders of other modules that are bound to a lease naming them (R101); `asks` the commands that
wait for an extent's record; `flipLeft` the modules at which requests may still be outstanding on an extent that a flip replaced (R113);
`peerLeases` the leases of other portals that loaded sheaves are bound to, each with the extents that drain from it (R268). -/
structure Spc where
  windows : FMap Window
  slots : FMap (FMap Nat)
  extents : FMap Extent
  leases : FMap Lease
  drains : List Drain
  accts : FMap Account
  tokRun : FMap Nat
  tokLock : FMap Nat
  respreadBg : FMap Nat
  attaching : List Attach
  bound : List (Nat × Nat)
  asks : List Ask
  flipLeft : FMap (List Nat)
  peerLeases : FMap (Lease × List Nat)
  deriving DecidableEq, Repr

/-! ## Directory (chapter 3) -/

/-- The fields of Table 3-1. -/
structure DirEnt where
  tag : Nat
  st : Nat
  form : Nat
  count : Nat
  holders : Nat
  deriving DecidableEq, Repr

/-- A snoop tracker entry (R98): the line, the request that waits (none for a victim, a sweep or a drain), the holders that owe
an answer, those that keep the line, the time the snoops were sent, their kind, and whether the line was held exclusive. -/
structure Trk where
  line : Nat
  req : Option Nat
  owed : List Nat
  kept : List Nat
  t0 : Nat
  kind : SnpKind
  victim : Bool
  excl : Bool
  deriving DecidableEq, Repr

/-- The directory: the ways in use of each set, most recently used first; `owed` lists the snoops that LDs of this module owe to other
homes, as LD, line, home and TAG (R99, R312). -/
structure Dir where
  sets : FMap (List DirEnt)
  vbuf : List (Nat × DirEnt)
  trk : List Trk
  unresp : List Nat
  owed : List (Nat × Nat × Nat × Nat)
  sweepBusy : Bool
  sweepHolder : Nat
  deriving DecidableEq, Repr

/-! ## Husks (chapter 4) -/

/-- A line in a merge-buffer slot: visible bytes and, under a pending entry, hidden bytes (R104). -/
structure SLine where
  mask : Nat
  data : Bytes
  hmask : Nat
  hdata : Bytes
  deriving DecidableEq, Repr

/-- A stored husk: its chunk count and bytes (a whole number of chunks), with the host lines that are poisoned in stored form
or in the list (R394, R539). -/
structure Husk where
  chunks : Nat
  bytes : Bytes
  fallback : Bool
  cls : Nat
  slot : Nat
  gen : Nat
  mat : Bool
  seq : Nat
  copied : Nat
  poison : List (Nat × Nat)
  raw : List (Nat × Nat)
  deriving DecidableEq, Repr

/-- Phases of a slot in use (R158): OPEN, closed and waiting for an earlier recode or move, RECODING. -/
inductive Phase where
  | opened
  | closed
  | recoding
  deriving DecidableEq, Repr

/-- A merge-buffer slot that is not FREE (R158 to R161), with a number of the model's own; `seq` is the SEQ that a close marker
stamped, 0 for none; `built` the husk that a recode has made. -/
structure Slot where
  id : Nat
  page : Nat
  ph : Phase
  twin : Bool
  bg : Bool
  seq : Nat
  lines : FMap SLine
  tFirst : Nat
  built : Option Husk
  deriving DecidableEq, Repr

/-- A husk lane (R156, R416). `work` is its queue: the host bytes of each grain and the time that it still takes, in 1/960 ns at the nominal
corner and full speed × 65,536. -/
structure Lane where
  reduced : Bool
  ratio : Nat
  work : List (Nat × Nat)
  deriving DecidableEq, Repr

/-- A TRAIN that runs (R164): the mailbox that issued it, staging buffer, extent, class, page stride and limit. -/
structure Train where
  who : Nat
  buf : Nat
  ext : Nat
  cls : Nat
  stride : Nat
  limit : Nat
  deriving DecidableEq, Repr

/-- The husk block; `zeros` lists the RETIRING slots, with a member each, that no husk of the member names any more (R151); `bgJobs` holds the running RECODE commands: mailbox, extent, pages left, pages recoded, pages skipped (R165). -/
structure HuskB where
  slots : List Slot
  tables : FMap Table
  staging : FMap Table
  trains : List Train
  zeros : List (Nat × Nat)
  lanes : FMap Lane
  bgJobs : List (Nat × Nat × List Nat × Nat × Nat)
  bgWant : List Nat
  deriving DecidableEq, Repr

/-! ## Tiering (chapter 5) -/

/-- A move that holds a page's migration token (R174), or a promotion that waits for near space to start. `kind`: 0 promotion, 1 demotion,
2 relocation, 3 integrity or re-spread work; `holder` is whose read or command started it (R350). -/
structure Move where
  kind : Nat
  cls : Nat
  pull : Bool
  raised : Bool
  stream : Bool
  staged : Bool
  waitSpace : Bool
  t0 : Nat
  issued : Bool
  revoked : Bool
  near : Nat
  far : Nat
  done : Bool
  missed : Bool
  holder : Nat
  deriving DecidableEq, Repr

/-- A placement request (Table 5-4); `peer` is the module and TAG of a PLACE message that brought it. -/
structure PlaceReq where
  op : Nat
  cls : Nat
  count : Nat
  tag : Nat
  first : Nat
  peer : Option (Nat × Nat)
  deriving DecidableEq, Repr

/-- A placement request or TIER_MOVE whose pages are being moved: op, account, tag, pages done and refused, pages still moving, the PLACE
message to answer, the mailbox whose background command it is, and the PLACE messages for pages of other modules not yet answered, as TAG and
module. -/
structure MoveRun where
  op : Nat
  acct : Nat
  tag : Nat
  done : Nat
  refused : Nat
  wait : List Nat
  peer : Option (Nat × Nat)
  who : Option Nat
  away : List (Nat × Nat)
  deriving DecidableEq, Repr

/-- A stream schedule (R196 to R201); `placed` lists the PLACE messages not yet answered, as layer, TAG and module. `st`: 0 idle, 1 running, 2 ended or stopped, 3 faulted. -/
structure Sched where
  st : Nat
  ld : Nat
  sheaf : Nat
  lead : Nat
  leadMin : Nat
  leadMax : Nat
  flags : Nat
  layers : Nat
  label : Nat
  drop : Nat
  gatePage : Nat
  budget : Nat
  pass : Nat
  c : Nat
  resident : Nat
  resValid : Bool
  late : Nat
  onTime : Nat
  started : List Nat
  gated : List Nat
  pinned : List Nat
  placed : List (Nat × Nat × Nat)
  entries : List (Nat × Nat × Nat)
  acct : Nat
  deriving DecidableEq, Repr

/-- The tiering block. `hooks` are the hook records not taken, `hookOld` those taken, by their place in the ring, until the ring comes round
(R272); `placeWait` holds the placement requests of other modules that wait for a full port (R193), `peerPins` the running
schedules of other modules that pin a page homed here, as 32 × module + schedule (R198). -/
structure Tier where
  pmes : FMap Pme
  pmcache : FMap (List Nat)
  moves : FMap Move
  epoch : Nat
  epochAt : Nat
  epochMs : Nat
  cand : List Nat
  pins : FMap Nat
  evicting : Bool
  pressure : Bool
  missed : List Nat
  hooks : List Bytes
  hookOld : FMap Bytes
  hookProd : Nat
  hookCons : Nat
  placeQ : List PlaceReq
  runs : List MoveRun
  policy : Nat
  scheds : FMap Sched
  placeWait : List PlaceReq
  peerPins : FMap (List Nat)
  deriving DecidableEq, Repr

/-! ## Near tier (chapter 11) and far tier (chapter 6) -/

/-- A DRAM channel (R367 to R388). `st`: 0 good, 1 training, 2 retired, 3 disabled at start-up, 4 retraining. -/
structure Chan where
  st : Nat
  slow : Bool
  owed0 : Int
  owed1 : Int
  rate : Nat
  temp : Nat
  wq : FMap Bytes
  openRows : FMap Nat
  hits : FMap Nat
  rdMin : Nat
  wrMin : Nat
  lastTrain : Nat
  queuedAt : Nat
  attempts : Nat
  sref : Bool
  deriving DecidableEq, Repr

/-- The near tier: stored lines keyed by chunk address × 2 + line of the chunk, 64 data and 8 check bytes each (R361, R390). `retired` lists
the units out of allocation, those of a full chaff list until the next cold reset among them (R409, R411); `pool` and `first` are each channel's
share of the pool, its chunks and where it begins (R180). -/
structure Near where
  lines : FMap Bytes
  chans : FMap Chan
  pool : FMap Nat
  first : FMap Nat
  alloc : FMap Nat
  stripes : List (Nat × Nat)
  retrainQ : List Nat
  retrainActive : Nat
  deltas : FMap Bytes
  retired : List Chaff
  deriving DecidableEq, Repr

/-- A flash die (R209, R218). `st`: 0 good, 1 rebuilding, 2 retired, 3 absent; `rebuilt` are the rows whose last read of the die needed
parity rebuild, as 1,024 × band + row; `read` is the page whose read the die serves, and `susp` the row, in the same form, whose program a
raised read has suspended. -/
structure Die where
  st : Nat
  spares : Nat
  rebuilt : List Nat
  read : Option Nat
  susp : Option Nat
  deriving DecidableEq, Repr

/-- A husk waiting in the row being filled: page, chunk address, why (0 demotion, 1 durable write, 2 background copy, 3 write-
through of a lost far copy), the time it joined, and the address and length of the far husk that it replaces. -/
structure RowItem where
  id : Nat
  page : Nat
  far : Nat
  why : Nat
  t0 : Nat
  old : Nat
  oldLen : Nat
  bytes : Bytes
  deriving DecidableEq, Repr

/-- An OPEN band: its number and the next free chunk offset (R211). -/
structure OpenBand where
  band : Nat
  off : Nat
  deriving DecidableEq, Repr

/-- The far tier. `paced` holds the pages whose paced writes wait (R216); `gov` is the bucket level in bytes (R215); `parity` the programmed
parity of the rows, by 512 × (1,024 × band + row) + chunk of the unit (R206, R211); `reserved` the journal and system bands (R220); `jrnlPad`
the last journal record of a row that padding closed (R212). -/
structure Far where
  flash : FMap Bytes
  parity : FMap Bytes
  reserved : List Nat
  bands : FMap Band
  dies : FMap Die
  hostBand : Option OpenBand
  relocBand : Option OpenBand
  row : List RowItem
  relocRow : List RowItem
  gov : Int
  govAt : Nat
  queue : List Nat
  paced : List Nat
  jrnl : List JRec
  jrnlNext : Nat
  jrnlDone : Nat
  jrnlSafe : Nat
  jrnlWin : Option Nat
  jrnlPad : Nat
  ckpt : MetaSnap
  bytesDone : Nat
  sysCoord : Option (Nat × Nat)
  sysBench : Bool
  crit : Bool
  collecting : Bool
  rebuildBg : Option (Nat × Nat)
  deriving DecidableEq, Repr

/-! ## Tillers (chapters 7 and 8) -/

/-- A tile register (R225): 128 words of 32 bits per row of its accumulator and its mode. -/
structure Tile where
  mode : Nat
  words : List (BitVec 32)
  deriving DecidableEq, Repr

/-- The top-k unit: capacity, order flag, pairs of score and index. -/
structure TopK where
  k : Nat
  items : List (BitVec 32 × BitVec 64)
  deriving DecidableEq, Repr

/-- A space operation of a context that is not complete (R253, R254): its requests that are not answered, the scratch address that data goes
to, the lines read, whether one was poisoned, and the PC of its instruction followed by what it transfers. `kind`: 0 a synchronous load,
1 GATHER, 2 SCATTER, 3 STREAM in, 4 STREAM out, 5 PUT, 8 a FETCHF from the module `dst`, 9 a store or SETG. -/
structure AOp where
  id : Nat
  kind : Nat
  left : Nat
  dst : Nat
  lines : FMap Bytes
  ps : Bool
  info : List Nat
  deriving DecidableEq, Repr

/-- What a context waits for. -/
inductive CtxWait where
  | run
  /-- A synchronous space access (R253). -/
  | mem
  /-- WAITG: address, comparison, value (R259). -/
  | gate (addr cond : Nat) (val : BitVec 64)
  /-- A FETCHF: its page's stored form (R255). -/
  | fetch
  deriving DecidableEq, Repr

/-- A tiller context (R225 to R228, R271, R275). `buf` holds the lines that a synchronous access has read, with the syndrome of a poisoned
one; `gateEnd` is the timeout of a WAITG; `since` the time from which it is resident or waits to be; `late` an imprecise trap that it takes
at its next instruction boundary (cause, detail, fault address, PC); `ended` the end it has reached while it waits for completion space
(R286). -/
structure Ctx where
  s : List (BitVec 64)
  a : List (BitVec 64)
  p : List (BitVec 512)
  v : List (BitVec 2048)
  t : List Tile
  pc : Nat
  calls : List Nat
  loops : List (Nat × Nat × Nat)
  topk : TopK
  words : List (BitVec 64)
  sheaf : Nat
  tiller : Nat
  resident : Bool
  label : Nat
  ld : Option Nat
  portal : Nat
  desc : Nat
  member : Nat
  scratchLen : Nat
  scratch : FMap Byte
  ops : List AOp
  wait : CtxWait
  gateEnd : Option Nat
  buf : FMap Bytes
  bufSynd : Nat
  since : Nat
  yielded : Bool
  expired : Bool
  late : Option (Nat × Nat × Nat × Nat)
  ended : Option MemberEnd
  deriving DecidableEq, Repr

/-- A tiller (R261, R294, R296). -/
structure Tiller where
  reduced : Bool
  failed : Bool
  ratio : Nat
  sig : List (Nat × BitVec 64)
  deriving DecidableEq, Repr

/-- An accepted descriptor whose START has live members (R281 to R287): LD, ring, its 64 bytes, time of acceptance, the members that have
not ended with their modules, and those that have. -/
structure DescLive where
  ld : Nat
  ring : Nat
  raw : Bytes
  t0 : Nat
  left : List (Nat × Nat)
  ends : List MemberEnd
  deriving DecidableEq, Repr

/-- A ring pair of an LD (R280 to R289): doorbell index, next descriptor to accept, next to fetch, the fetched ones by index, completion
indices and phase, completions that wait on chip with their interrupt flag, the coalescing count with the time of its first, and for a CANCEL at
the head the descriptors that it cancels with the contexts cancelled so far (R285). -/
structure Ring where
  tail : Nat
  head : Nat
  asked : Nat
  fetched : FMap Bytes
  err : Bool
  waitCtx : Bool
  cqHead : Nat
  cqTail : Nat
  phase : Bool
  cqErr : Bool
  cqWait : List (Bytes × Bool)
  pend : Nat
  pendAt : Nat
  cancel : Option (List Nat × Nat)
  deriving DecidableEq, Repr

/-- A START that another portal sent and that waits for a context: portal, descriptor, LD, sheaf, tiller of the member, member, count,
label, arguments. -/
structure StartWait where
  portal : Nat
  desc : Nat
  ld : Nat
  sheaf : Nat
  tiller : Nat
  member : Nat
  count : Nat
  label : Nat
  args : List Nat
  deriving DecidableEq, Repr

/-- A FETCHF of a context of another module that waits for its page here (R255): module, context and number of the operation; page, element
type, k code, class, blocks, first block. -/
structure FetchWait where
  src : Nat
  c : Nat
  k : Nat
  page : Nat
  et : Nat
  kc : Nat
  cls : Nat
  n : Nat
  k0 : Nat
  deriving DecidableEq, Repr

/-- The tiller block. `expanding` gives the page that each module context expands (R271); `turns` the context that issued last on each tiller
(R277); `fetchQ` the FETCHFs of other modules that wait (R255). -/
structure Tlr where
  ctxs : FMap Ctx
  tillers : FMap Tiller
  sheaves : FMap Sheaf
  rings : FMap Ring
  descs : FMap DescLive
  expq : List Nat
  expanding : FMap Nat
  polCtx : Option Nat
  startQ : List StartWait
  turns : FMap Nat
  fetchQ : List FetchWait
  deriving DecidableEq, Repr

/-! ## Hedgerow (chapter 9) -/

/-- A message that waits at a port: channel, rank of its class, whether it is in transit, and its bytes. -/
structure TxMsg where
  ch : Nat
  rank : Nat
  transit : Bool
  bytes : Bytes
  deriving DecidableEq, Repr

/-- A Hedgerow port (R303 to R314). `st` and `width` as HDG_PORT_STAT; `want` the width that LINK_RETRAIN names, `off` a cage left unpowered; `weight` in 1/256 lane and
whether it is halved for credit stalls. By channel: `credits` to send against, `owed` to be returned, `outst` granted and not used up. `replay`
holds sequence, channel and payload of the flits not acknowledged, `resend` the sequences to send again, `fails` the replays of the first one;
`txPos` and `rxPos` count flit positions, `txBytes` and `rxBytes` are the bytes since the last marker, `rxLost` a flit of them discarded;
`epochAt` is the position at which the key epoch began and `newEpoch` one that takes effect at the next marker. `part` and `rxs` hold the rest
of a message begun on a channel, `skip` the flits for which a SYS or REQ channel has waited; `sent` and `resent` are counts of this
millisecond, `stall` and `seen` of this 100 µs. -/
structure HPort where
  st : Nat
  width : Nat
  want : Nat
  off : Bool
  nport : Nat
  nmod : Nat
  weight : Nat
  halved : Bool
  seqTx : Nat
  seqRx : Nat
  credits : List Nat
  owed : List Nat
  outst : List Nat
  replay : List (Nat × Nat × Bytes)
  resend : List Nat
  fails : Nat
  nak : Bool
  txPos : Nat
  rxPos : Nat
  txBytes : Bytes
  rxBytes : Bytes
  rxLost : Bool
  txEpoch : Nat
  rxEpoch : Nat
  epochAt : Nat
  newEpoch : Bool
  lastRx : Nat
  txq : List TxMsg
  part : FMap Bytes
  rxs : FMap Bytes
  skip : FMap Nat
  sent : Nat
  resent : Nat
  stall : Nat
  seen : Nat
  retrainAt : Nat
  deriving DecidableEq, Repr

/-- A neighbour table entry (R321), keyed by serial: FORM_Z, recorded module index, and for each port its neighbour's serial and port. -/
structure Nbr where
  formZ : Nat
  coord : Option Nat
  links : List (Option (Nat × Nat))
  deriving DecidableEq, Repr

/-- An answer that waits until the other members hold what a command copied to them: its number, the members that have not said so, whether it ends
a version flip, and the answer. -/
structure Sync where
  n : Nat
  left : List Nat
  flip : Bool
  out : Out
  deriving DecidableEq, Repr

/-- The fabric block. `serials` are the serials recorded by position (R324); `linksDown` the ports known to be down, as module and port;
`splits` and `reqSplits` are keyed by destination × 4 + dimension (R318); `resync` the pages to copy to the twin, `returned` the extents whose
role has returned, `roles` those whose role is offered back and not yet taken, `away` that this module's mirrored pages are served by its twin (R336, R337); `heldMarks` the marks journalled, `twinMarks` the
pages that a takeover has not released (R333); `acting` the modules acted for, `takeover` those whose twin's replica is not active yet;
`jseq` and `jacked` the journal sequences sent and acknowledged, `backlog` the records not acknowledged, `snapDue` that a snapshot replaces them;
`replica` the partner's metadata and `replSeq` its last record; `absentAt` the time of the first link-down report of a module and `witHold`
that from which a witness is absent; `replies` the answers that wait for a journal record (R72); `mirrorQ` the MIRROR messages that wait for a twin
slot (R312); `syncs` the answers that wait until other members hold what was copied to them; `reclaimed` the extents of the absent partner that were
reclaimed (R74); `images` that this module has joined and its twin has not yet sent every sheaf image (R265); `injected` the outputs that the ports have taken; `weightAt`, `splitAt` and `formAt` the times of the last periodic steps. -/
structure Hdg where
  midx : Nat
  size : Nat
  formed : Bool
  bench : Bool
  formZ : Nat
  spaceId : Nat
  live : List Nat
  quorum : Bool
  epoch : Nat
  wits : List Nat
  witEpoch : Nat
  nbrs : FMap Nbr
  serials : FMap Nat
  ports : FMap HPort
  linksDown : List (Nat × Nat)
  splits : FMap Nat
  reqSplits : FMap Nat
  twinState : Nat
  resync : List Nat
  returned : List Nat
  roles : List Nat
  away : Bool
  heldMarks : List Nat
  twinMarks : List Nat
  acting : List Nat
  takeover : List Nat
  jseq : Nat
  jacked : Nat
  backlog : List JRec
  snapDue : Bool
  replica : MetaSnap
  replSeq : Nat
  dozing : List Nat
  absentAt : FMap Nat
  witHold : FMap Nat
  replies : List (Nat × Out)
  mirrorQ : List Msg
  syncs : List Sync
  reclaimed : List Nat
  images : Bool
  injected : Nat
  weightAt : Nat
  splitAt : Nat
  formAt : Nat
  deriving DecidableEq, Repr

/-! ## Regulation (chapter 10) -/

/-- A reservation of one holder, class and resource (R346, R348, R354, R355): rate in MB/s; the token bucket in thousandths of a byte
and the time of its last fill; bytes delivered and demanded in this window; missed windows in a row, the missed state, and the
bytes of the last window. -/
structure Resv where
  holder : Nat
  cls : Nat
  res : Nat
  rate : Nat
  bucket : Int
  filled : Nat
  deliv : Nat
  demand : Nat
  run : Nat
  missed : Bool
  last : Nat
  deriving DecidableEq, Repr

/-- Monitoring of one holder and class (R356, QOS_CLS_STAT): completions and late ones of this window, all late ones, missed windows
in a row, the missed state, bytes delivered in this window and the last. -/
structure Lat where
  holder : Nat
  cls : Nat
  done : Nat
  late : Nat
  lateSum : Nat
  run : Nat
  missed : Bool
  deliv : Nat
  last : Nat
  deriving DecidableEq, Repr

/-- The counts of an arbiter (R349, Table 10-3): grants since a waiting class-7 request of the module entity had one, and the turns that each
entity and class (holder × 8 + class) has left in the present round of its weighted round robin. -/
structure Arb where
  since7 : Nat
  wrr : FMap Nat
  deriving DecidableEq, Repr

/-- The regulation block. `lmap` is keyed by LD, `classes` by holder ID (0xFFFF the module entity), `resv` by entry index, `arbs` by arbiter. -/
structure Qos where
  lmap : FMap Nat
  classes : FMap (List ClassP)
  resv : FMap Resv
  lat : List Lat
  urg : FMap Nat
  urgChan : FMap Nat
  winAt : Nat
  arbs : FMap Arb
  deriving DecidableEq, Repr

/-! ## Integrity (chapter 12) -/

/-- A copy job of a mover (R404, R405). `st`: 0 idle, 1 page move, 2 copy job, 3 halted; `phase` of its line in hand: 0 none, 1 reading, 2 read,
3 writing, 4 writing as poisoned. -/
structure Mover where
  st : Nat
  synd : Nat
  done : Nat
  src : Nat
  dst : Nat
  len : Nat
  who : Nat
  newExt : Option Nat
  phase : Nat
  hold : Bytes
  deriving DecidableEq, Repr

/-- A Broom pass (R406 to R408). -/
structure Broom where
  mode : Nat
  repair : Bool
  chans : Nat
  first : Nat
  last : Nat
  visited : List Nat
  scanned : Nat
  corrected : Nat
  uncorr : Nat
  poisoned : Nat
  skipped : Nat
  ceRows : FMap Nat
  sugg : List Chaff
  deriving DecidableEq, Repr

/-- An error queue entry (INT_ERRQ_HEAD). -/
structure ErrQ where
  num : Nat
  ref : Nat
  synd : Nat
  src : Nat
  deriving DecidableEq, Repr

/-- The integrity block. `buildQ` holds the PUB_BUILD copies that wait for a mover: source extent, new extent, issuer. -/
structure Integ where
  plist : List Poison
  errq : List ErrQ
  errNum : Nat
  chaff : List Chaff
  broom : Option Broom
  broomLast : Option Broom
  broomSugg : List Chaff
  movers : FMap Mover
  spreadSlow : List (Nat × Nat)
  buildQ : List (Nat × Nat × Nat)
  deriving DecidableEq, Repr

/-! ## Security (chapter 13) -/

/-- A key slot: 0 EMPTY, 1 ACTIVE, 2 RETIRING, with its 512 bits of key material (R421, R426). -/
structure Key where
  st : Nat
  mat : Nat
  deriving DecidableEq, Repr

/-- An ACCOUNT_ERASE whose drains have not all ended (R426): the account, the mailbox that issued it here, the module that asked for it,
and the modules that have not drained. -/
structure Erase where
  acct : Nat
  who : Option Nat
  src : Nat
  left : List Nat
  deriving DecidableEq, Repr

/-- The security block. Sessions are keyed by issuer × 2 + index; phase 1 key exchange done, 2 established. `ide` lists the host ports with an
active stream, `ideKeys` what IDE_KM programmed for a port (R433). -/
structure Sec where
  keys : FMap Key
  wrapped : FMap Nat
  sessions : FMap Nat
  entropyOk : Bool
  spaceKey : Option Nat
  keyEpoch : Nat
  ide : List Nat
  ideKeys : FMap Bytes
  erasing : List Erase
  lostKeys : List Nat
  deriving DecidableEq, Repr

/-! ## Event steering (chapter 14) and Stook (chapter 15) -/

/-- Bits of one source instance (R441, R442, R447, R451). -/
structure EsuBits where
  pend : Bool
  active : Bool
  rel : Bool
  input : Bool
  told : Bool
  deriving DecidableEq, Repr

/-- Event steering. Sources are keyed by number × 64 + LD (LD 0 for a source that is not directed); a target's stack holds pairs
of threshold and source, the top first; groups hold arrivals and the time of the first; `lines` are the management cores whose request line is
asserted (R448). -/
structure Esu where
  srcs : FMap EsuBits
  latch : List (Nat × Nat)
  thresh : FMap Nat
  stack : FMap (List (Nat × Nat))
  grps : FMap (Nat × Nat)
  msixEn : List Nat
  msixFm : List Nat
  msixUnmask : FMap Nat
  msixPend : FMap Nat
  lines : List Nat
  deriving DecidableEq, Repr

/-- A Stook record (Table 15-1) but for ECHO, which equals SEQ in every complete record; `lds` are the LDs that it concerns (R488). -/
structure SRec where
  seq : Nat
  mono : Nat
  wall : Nat
  code : Nat
  flags : Nat
  sev : Nat
  suppr : Nat
  payload : Bytes
  lds : List Nat
  deriving DecidableEq, Repr

/-- A rate bucket of one code: level in units of tokenUnit, time of the last refill, suppressed count, last payload and whom it concerned. -/
structure Bucket where
  level : Nat
  last : Nat
  suppr : Nat
  payload : Bytes
  lds : List Nat
  deriving DecidableEq, Repr

/-- The recorder. A stored record carries whether the next store holds it; record p of `sram` stands in the p-th slot that is in use, `badSlots` are
the ranges taken out of use and `failed` their number. `logs` and `logOvf` are the CXL event logs of the LDs, keyed by LD × 4 + severity: records with
their handles; records lost with the wall times of the first and the last. -/
structure Stk where
  next : Nat
  sram : List (SRec × Bool)
  spill : List (SRec × Bool)
  archive : List SRec
  failed : Nat
  badSlots : List (Nat × Nat)
  buckets : FMap Bucket
  frozenAt : Option Nat
  thawAt : Option Nat
  held : List SRec
  gasp : List SRec
  gaspOn : Bool
  partnerGasp : List Bytes
  dropSram : Nat
  dropSpill : Nat
  dropArch : Nat
  holdOvf : Nat
  archErr : Bool
  logs : FMap (List (Nat × SRec))
  logOvf : FMap (Nat × Nat × Nat)
  deriving DecidableEq, Repr

/-! ## Host ports (chapter 16) and power (chapter 17) -/

/-- A host port: `st` as HP_PORT_STAT.STATE. -/
structure PortH where
  st : Nat
  width : Nat
  trained : Nat
  cable : Bool
  perst : Bool
  deriving DecidableEq, Repr

/-- The background command of one mailbox (R482): opcode, percentage done, return code, output. -/
structure Bg where
  opcode : Nat
  running : Bool
  rc : Nat
  out : Bytes
  deriving DecidableEq, Repr

/-- Host ports and management transport; the fabric manager's mailbox is number 64. -/
structure HostB where
  ports : FMap PortH
  bg : FMap Bg
  ldReset : List Nat
  eid : Nat
  mctp : Nat
  fwStage : Bytes
  wallOff : Int
  wallSet : Bool
  locked : Bool
  refLostAt : Option Nat
  deriving DecidableEq, Repr

/-- A firmware or seed bank (R512 to R515). -/
structure Bank where
  seq : Nat
  ver : Nat
  valid : Bool
  body : Bytes
  deriving DecidableEq, Repr

/-- Power, reset and boot (chapter 17). `state` is PWR_STATE.STATE: 0 Active, 1 Idle, 2 Doze, 3 entering Doze, 4 leaving Doze; `last` the kind of
the last reset; `boot` the boot step that runs; `dozeStep` the step of Doze entry that runs and `dozeAbort` a DOZE_EXIT during it; `exitReply` a
DOZE_EXIT that is answered at the end of the exit; `flush` the start of a power-loss flush and `rose` a rise of MOD_PWRGD during it; `warmAt` the
start of a warm reset; `lostNear` the near-only pages that the last reset lost. `banks` are firmware A and B (0, 1) and seed A and B (2, 3);
`fwBank` is 0 A, 1 B or 2 the factory firmware, `seedBank` 0 the factory seed, 1 A or 2 B; `fwNew` says that SEED_WRITE left a verified firmware
bank that takes effect at the next reset (R515). -/
structure Pwr where
  state : Nat
  last : Nat
  on : Bool
  pwrgd : Bool
  resetN : Bool
  alert : Bool
  boot : Option Nat
  bootTimes : List Nat
  fit : Bool
  dozeStep : Option Nat
  dozeAbort : Bool
  flush : Option Nat
  throttle : Nat
  lastRaise : Nat
  inputW : Nat
  tj : Nat
  railMv : Nat
  banks : FMap Bank
  fwBank : Nat
  fwNew : Bool
  seedBank : Nat
  inputOk : Bool
  lastActive : Nat
  exitReply : Bool
  rose : Bool
  warmAt : Nat
  lostNear : Nat
  deriving DecidableEq, Repr

/-! ## The machine -/

/-- One module. `draws`, `nextId`, `out` and `pending` are the model's own (log entries 5 and 1). -/
structure State where
  sku : Sku
  regs : FMap Word
  now : Nat
  draws : Nat
  spc : Spc
  dir : Dir
  husk : HuskB
  tier : Tier
  near : Near
  far : Far
  tlr : Tlr
  hdg : Hdg
  qos : Qos
  integ : Integ
  sec : Sec
  esu : Esu
  stk : Stk
  host : HostB
  pwr : Pwr
  reqs : List Req
  nextId : Nat
  out : List Out
  pending : List Instr
  deriving DecidableEq, Repr

/-- What a command answers. -/
abbrev Outcome := Host.Outcome State Fault Refusal

/-! ## Reset -/

/-- Empty metadata (R220). -/
def MetaSnap.empty : MetaSnap :=
  { pmes := [], extents := [], leases := [], accts := [], chaff := [], plist := [], held := [], keys := [], bands := [] }

/-- The memory-space block after reset (Table 17-3). -/
def Spc.reset : Spc :=
  { windows := [], slots := [], extents := [], leases := [], drains := [], accts := [], tokRun := [], tokLock := [],
    respreadBg := [], attaching := [], bound := [], asks := [], flipLeft := [], peerLeases := [] }

/-- The directory after reset. -/
def Dir.reset : Dir := { sets := [], vbuf := [], trk := [], unresp := [], owed := [], sweepBusy := false, sweepHolder := 0 }

/-- The husk block after reset: all slots FREE (R147, R158). -/
def HuskB.reset : HuskB := { slots := [], tables := [], staging := [], trains := [], zeros := [], lanes := [], bgJobs := [], bgWant := [] }

/-- The tiering block after reset (R173, R177). -/
def Tier.reset : Tier :=
  { pmes := [], pmcache := [], moves := [], epoch := 0, epochAt := 0, epochMs := 10, cand := [], pins := [],
    evicting := false, pressure := false, missed := [], hooks := [], hookOld := [], hookProd := 0, hookCons := 0, placeQ := [],
    runs := [], policy := 0, scheds := [], placeWait := [], peerPins := [] }

/-- The near tier after power-on (log entry 8). -/
def Near.reset : Near :=
  { lines := [], chans := [], pool := [], first := [], alloc := [], stripes := [], retrainQ := [], retrainActive := 0, deltas := [],
    retired := [] }

/-- The far tier of a module that has never run (log entry 8), with the governor's bucket full (FAR_GOV_STAT): 3,600 s at 1.5 user
capacities a day. -/
def Far.reset : Far :=
  { flash := [], parity := [], reserved := [], bands := [], dies := [], hostBand := none, relocBand := none, row := [], relocRow := [], gov := 755914244096,
    govAt := 1099511627776, queue := [], paced := [], jrnl := [], jrnlNext := 1, jrnlDone := 0, jrnlSafe := 0, jrnlWin := none, jrnlPad := 0, ckpt := MetaSnap.empty,
    bytesDone := 0, sysCoord := none, sysBench := false, crit := false, collecting := false, rebuildBg := none }

/-- The tillers after reset. -/
def Tlr.reset : Tlr :=
  { ctxs := [], tillers := [], sheaves := [], rings := [], descs := [], expq := [], expanding := [], polCtx := none, startQ := [], turns := [], fetchQ := [] }

/-- The fabric after reset. -/
def Hdg.reset : Hdg :=
  { midx := 0, size := 0, formed := false, bench := false, formZ := 0, spaceId := 0, live := [],
    quorum := false, epoch := 0, wits := [], witEpoch := 0, nbrs := [], serials := [], ports := [], linksDown := [],
    splits := [], reqSplits := [], twinState := 0, resync := [], returned := [], roles := [], away := false, heldMarks := [], twinMarks := [],
    acting := [], takeover := [], jseq := 0, jacked := 0, backlog := [], snapDue := false, replica := MetaSnap.empty, replSeq := 0,
    dozing := [], absentAt := [], witHold := [], replies := [], mirrorQ := [], syncs := [], reclaimed := [], images := false, injected := 0, weightAt := 0, splitAt := 0, formAt := 0 }

/-- Regulation after reset: identity label maps, rank 3, weight 1, no target, no reservation (R341 to R343). -/
def Qos.reset : Qos := { lmap := [], classes := [], resv := [], lat := [], urg := [], urgChan := [], winAt := 0, arbs := [] }

/-- Integrity after reset. -/
def Integ.reset : Integ :=
  { plist := [], errq := [], errNum := 0, chaff := [], broom := none, broomLast := none, broomSugg := [], movers := [],
    spreadSlow := [], buildQ := [] }

/-- Security after reset: every slot EMPTY until unwrapped at boot (R425, R426). -/
def Sec.reset : Sec :=
  { keys := [], wrapped := [], sessions := [], entropyOk := true, spaceKey := none, keyEpoch := 0, ide := [],
    ideKeys := [], erasing := [], lostKeys := [] }

/-- Event steering after reset (R457, Table 16-2; MSI-X as PCIe resets it, log entry 10). -/
def Esu.reset : Esu :=
  { srcs := [], latch := [], thresh := [], stack := [], grps := [], msixEn := [], msixFm := [], msixUnmask := [],
    msixPend := [], lines := [] }

/-- The recorder after reset: it has not started (STK_NEXT 0). -/
def Stk.reset : Stk :=
  { next := 0, sram := [], spill := [], archive := [], failed := 0, badSlots := [], buckets := [], frozenAt := none, thawAt := none,
    held := [], gasp := [], gaspOn := false, partnerGasp := [], dropSram := 0, dropSpill := 0, dropArch := 0,
    holdOvf := 0, archErr := false, logs := [], logOvf := [] }

/-- Host ports after reset. -/
def HostB.reset : HostB :=
  { ports := [], bg := [], ldReset := [], eid := 0, mctp := 0, fwStage := [], wallOff := 0, wallSet := false,
    locked := false, refLostAt := none }

/-- Power and boot right after a cold reset: boot step 1 runs (R505, R509). -/
def Pwr.reset : Pwr :=
  { state := 0, last := 0, on := true, pwrgd := true, resetN := true, alert := false, boot := some 1, bootTimes := [],
    fit := true, dozeStep := none, dozeAbort := false, flush := none, throttle := 16, lastRaise := 0, inputW := 0, tj := 0,
    railMv := 0, banks := [], fwBank := 0, fwNew := false, seedBank := 0, inputOk := true, lastActive := 0,
    exitReply := false, rose := false, warmAt := 0, lostNear := 0 }

/-- The machine right after a cold reset of a module that has never run: every register at its reset value, the timebase count
at 2⁴⁰ (R516), boot step 1 running, nothing waiting. -/
def State.reset : State :=
  { sku := .b, regs := [], now := 1099511627776, draws := 0, spc := Spc.reset, dir := Dir.reset, husk := HuskB.reset,
    tier := Tier.reset, near := Near.reset, far := Far.reset, tlr := Tlr.reset, hdg := Hdg.reset, qos := Qos.reset,
    integ := Integ.reset, sec := Sec.reset, esu := Esu.reset, stk := Stk.reset, host := HostB.reset, pwr := Pwr.reset,
    reqs := [], nextId := 0, out := [], pending := [] }

end Sys2Proof.Machine
end

