-- ==== Sys2Proof/Machine/Ops.lean ====
section
/-! DEFINITION. The named operations that every block uses: registers and counters, drawing a free value, sending out of the
module, time, journalling, page identity, and the views of the membership. -/

namespace Sys2Proof.Machine

open Sys2Proof

/-! ## Registers -/

/-- Raw peak values that differ by SKU (Table 0-1, R503): power limit, local extents, bands, dies, user chunks, row indices. -/
def State.isB (s : State) : Bool := s.sku == .b

/-- The reset value of a register of this SKU: PWR_CFG.LIMIT_W (R503), GLB_ID.SKU and DRC_CAP differ. -/
def resetFor (k : Sku) (off : Nat) : Nat :=
  if off = 0x1000008 then resetOf off + (if k = .b then 420 else 360) * 2 ^ 44
  else if off = 0 then resetOf off + (if k = .b then 1 else 0)
  else if off = 0xB80000 then resetOf off + (if k = .b then 64 * 65536 + 8 * 1024 + 2 * 256 else 2 ^ 24 + 32 * 65536 + 4 * 1024 + 256)
  else resetOf off

/-- The key of a register in a bank: bank 0 is the module's, bank 1 + ld an LD's own. -/
def regKey (bank off : Nat) : Nat := bank * 2 ^ 32 + off

/-- The held value of a register of a bank. -/
def State.regB (s : State) (bank off : Nat) : Nat :=
  match look s.regs (regKey bank off) with
  | some v => v.toNat
  | none => resetFor s.sku off

/-- The held value of a register of the module. -/
def State.reg (s : State) (off : Nat) : Nat := s.regB 0 off

/-- Hold a value in a register of a bank. -/
def State.setRegB (s : State) (bank off v : Nat) : State :=
  { s with regs := put s.regs (regKey bank off) (BitVec.ofNat 64 v) }

/-- Hold a value in a register. -/
def State.setReg (s : State) (off v : Nat) : State := s.setRegB 0 off v

/-- A field of a register. -/
def State.fld (s : State) (off hi lo : Nat) : Nat := bits (s.reg off) hi lo

/-- Set a bit of an interrupt status register. -/
def State.intr (s : State) (off bit : Nat) : State := s.setReg off (s.reg off ||| 2 ^ bit)

/-- Add to a 48-bit saturating counter (x-th of a block). -/
def State.bump (s : State) (base x n : Nat) : State :=
  s.setReg (base + 8 * x) (min (s.reg (base + 8 * x) + n) (2 ^ 48 - 1))

/-- Counter bases by block. -/
def cntHp : Nat := 0x100080
def cntHdg : Nat := 0x200080
def cntSpc : Nat := 0x300080
def cntDir : Nat := 0x400080
def cntHsk : Nat := 0x500080
def cntTier : Nat := 0x600080
def cntFar : Nat := 0x700080
def cntTlr : Nat := 0x980080
def cntQos : Nat := 0xA00080
def cntInt : Nat := 0xC00080
def cntSec : Nat := 0xD00080
def cntEsu : Nat := 0xE00080
def cntStk : Nat := 0xF00080
def cntPwr : Nat := 0x1000080

/-- Counter x of channel n. -/
def State.bumpDrc (s : State) (n x k : Nat) : State := s.bump (0xB00080 + 0x1000 * n) x k

/-- Interrupt status bit of channel n. -/
def State.intrDrc (s : State) (n bit : Nat) : State := s.intr (0xB00028 + 0x1000 * n) bit

/-! ## Free values and output -/

/-- Count a draw of a free value. -/
def State.drew (s : State) : State := { s with draws := s.draws + 1 }

/-- Apply a change for each element of a list, in order. -/
def State.each {α : Type} (s : State) (l : List α) (f : State → α → State) : State := l.foldl f s

/-- Send something out of the module. -/
def State.emit (s : State) (o : Out) : State := { s with out := s.out ++ [o] }

/-- Send several things. -/
def State.emits (s : State) (os : List Out) : State := { s with out := s.out ++ os }

/-- A nanosecond passes (R516). Firmware takes a packet from the MCTP receive buffer in the meantime (log entry 2). -/
def State.tick (s : State) : State := { s with now := s.now + 1, host := { s.host with mctp := s.host.mctp - 1 } }

/-! ## Membership (chapter 9) as other blocks see it -/

/-- The coordinates of a module index (R46). -/
def coordX (m : Nat) : Nat := m % 4
def coordY (m : Nat) : Nat := m / 4 % 4
def coordZ (m : Nat) : Nat := m / 16

/-- The twin of a module: x XOR 1. -/
def twinOf (m : Nat) : Nat := if m % 2 = 0 then m + 1 else m - 1

/-- This module's index. -/
def State.me (s : State) : Nat := s.hdg.midx

/-- Is a module live, as this module's membership says? Alone in bench mode. -/
def State.isLive (s : State) (m : Nat) : Bool := if s.hdg.bench then m == s.me else s.hdg.live.contains m

/-- Does a warm reset run (R506, R510)? Its steps are those of a boot whose last reset is of kind 2. -/
def State.warming (s : State) : Bool := s.pwr.boot.isSome && s.pwr.last == 2

/-- Does the module take requests: it has booted and is fit, with its links up, which a warm reset leaves as they are (R494, R506)? -/
def State.serving (s : State) : Bool := (s.pwr.boot.isNone || s.warming) && s.pwr.on && s.pwr.resetN && s.pwr.fit && s.pwr.flush.isNone && !s.hdg.images

/-- Is the module powered and out of reset, with no power-loss flush running: its management endpoint answers (R490)? -/
def State.sideband (s : State) : Bool := s.pwr.on && s.pwr.resetN && s.pwr.flush.isNone

/-- Has the fabric manager an SPDM session (R491)? -/
def State.fmSession (s : State) : Bool := look s.sec.sessions 128 == some 2 || look s.sec.sessions 129 == some 2

/-- Can a view's registers be accessed now: the fabric manager's within a session (R491), an LD's through its port, a core's always? -/
def State.viewOpen (s : State) (v : View) : Bool :=
  match v with
  | .fm => s.sideband && s.fmSession
  | .core => s.sideband
  | .ld m => s.serving && s.pwr.boot.isNone && (look s.host.ports (m.val / 16)).any fun x => x.st == 2

/-- Does the twin of this module take journal records and mirror lines now? -/
def State.twinLive (s : State) : Bool := !s.hdg.bench && s.hdg.formed && s.isLive (twinOf s.me) && s.hdg.quorum

/-! ## Pages and extents -/

/-- The extent number of a page (space address [49:12]). -/
def extOf (page : Nat) : Nat := page / 2 ^ 18

/-- The page index within its extent. -/
def pageIdx (page : Nat) : Nat := page % 2 ^ 18

/-- The home module of an extent number (R45). -/
def homeOf (e : Nat) : Nat := e / 2 ^ 14 % 64

/-- The local extent index (R45). -/
def localIdx (e : Nat) : Nat := e % 2 ^ 14

/-- Member slot of a page in a spread set of n (R50). -/
def spreadSlot (e p n : Nat) : Nat := ((p % 64) ^^^ (p / 64 % 64) ^^^ (p / 4096 % 64) ^^^ (e % 64)) % n

/-- The page home of a page by its extent record; the home module where none is known (R49, R50). While a re-spread runs or its
portals have not switched, the old member still receives the slot's requests (R90). -/
def State.pageHome (s : State) (page : Nat) : Nat :=
  let e := extOf page
  match look s.spc.extents e with
  | some x => if x.spread.isEmpty then homeOf e else (x.spread[spreadSlot e (pageIdx page) x.spread.length]?).getD (homeOf e)
  | none => homeOf e

/-- The extent record of a page. -/
def State.extent (s : State) (page : Nat) : Option Extent := look s.spc.extents (extOf page)

/-- Is a page mirrored (R60)? -/
def State.mirrored (s : State) (page : Nat) : Bool := (s.extent page).any fun x => x.prot == 2

/-- Has a re-spread moved a page to this module, or to the absent partner for which it acts (R89, R90, R91)? -/
def State.movedHere (s : State) (page : Nat) : Bool :=
  (s.extent page).any fun x => x.respread.any fun q =>
    (q.new == s.me && q.moved.contains (pageIdx page)) ||
      (s.hdg.acting.contains q.new && x.prot == 2 &&
        (look s.hdg.replica.extents (extOf page)).any fun y => y.respread.any fun q => q.moved.contains (pageIdx page))

/-- Does this module hold a page as its own page home: by the extent record, or moved to it by a re-spread? -/
def State.ownPage (s : State) (page : Nat) : Bool :=
  s.pageHome page == s.me || (s.extent page).any fun x => x.respread.any fun q => q.new == s.me && q.moved.contains (pageIdx page)

/-- Is this module the page home now: its own page, or a mirrored one of the absent twin it acts for, unless the home role of a mirrored
page lies with the other side (R333, R336, R337); or a page that a re-spread moved here? -/
def State.homes (s : State) (page : Nat) : Bool :=
  let h := s.pageHome page
  if h = s.me then !(s.hdg.away && s.mirrored page && !s.hdg.returned.contains (extOf page))
  else s.movedHere page || (s.hdg.acting.contains h && s.mirrored page && !s.hdg.returned.contains (extOf page))

/-- Space address of a page and of a line. -/
def pageSa (page : Nat) : Nat := page * 4096
/-- The page of a space address. -/
def saPage (sa : Nat) : Nat := sa / 4096
/-- The extents that n bytes at a space address lie in. -/
def extsOf (sa n : Nat) : List Nat := (List.range ((sa + n - 1) / 2 ^ 30 - sa / 2 ^ 30 + 1)).map (· + sa / 2 ^ 30)
/-- The line address of a space address (R94). -/
def saLine (sa : Nat) : Nat := sa / 64
/-- The line index in its page. -/
def lineIdx (sa : Nat) : Nat := sa / 64 % 64

/-- A page's map entry; an entry that is not listed is unwritten (R168). -/
def Pme.unwritten : Pme :=
  { st := .unwritten, cls := 0, slot := 0, gen := 0, len := 0, cnt := 0, age := 0, acct := 0, prot := 0, near := 0, far := 0,
    seq := 0, mat := false, prev := .unwritten }

/-- The page map entry of a page. -/
def State.pme (s : State) (page : Nat) : Pme := (look s.tier.pmes page).getD Pme.unwritten

/-- The account record, all zero before ACCOUNT_SET. -/
def State.acct (s : State) (a : Nat) : Account :=
  (look s.spc.accts a).getD { b := 0, z := 0, lossless := false, members := [], floor := 0, moved := 0 }

/-! ## Journals (R38, R72, R172, R220, R329) -/

/-- Send a record to the twin: it is numbered, kept until acknowledged, and sent while the twin is live (R329). In bench mode there
is no twin. -/
def State.toTwin (s : State) (k : JKind) (dur : Bool) : State :=
  if s.hdg.bench || !s.hdg.formed then s
  else
    let r : JRec := ⟨s.hdg.jseq + 1, k, dur, true⟩
    let s := { s with hdg := { s.hdg with jseq := s.hdg.jseq + 1, backlog := s.hdg.backlog ++ [r] } }
    if s.twinLive then s.emit (.jrnl (twinOf s.me) [r]) else s

/-- Enter a record in the metadata journal that survives power loss (R220). -/
def State.toMeta (s : State) (k : JKind) (dur : Bool) : State :=
  { s with far := { s.far with jrnl := s.far.jrnl ++ [⟨s.far.jrnlNext, k, dur, true⟩], jrnlNext := s.far.jrnlNext + 1,
                               jrnlWin := if dur && s.far.jrnlWin.isNone then some s.now else s.far.jrnlWin } }

/-- Enter a record in both journals. -/
def State.journal (s : State) (k : JKind) : State := (s.toTwin k false).toMeta k false

/-- States whose entry or leaving enters the metadata journal (R172). -/
def persistState : PState → Bool
  | .far => true
  | .both => true
  | .poisoned => true
  | _ => false

/-- Change a page's map entry where no rule journals it: the passing state of a staged pull-through. -/
def State.putPme (s : State) (page : Nat) (p : Pme) : State :=
  { s with tier := { s.tier with pmes := if p = Pme.unwritten then del s.tier.pmes page else put s.tier.pmes page p } }

/-- Change a page's map entry and journal the change (R172). A change that leaves the entry as it is journals nothing. -/
def State.setPme (s : State) (page : Nat) (p : Pme) (dur : Bool) : State :=
  let o := s.pme page
  if p = o then s
  else
    let s := (s.putPme page p).toTwin (.pme page p) dur
    if o.far != p.far || (o.st != p.st && (persistState o.st || persistState p.st)) then s.toMeta (.pme page p) dur else s

/-- Record an extent, journalled with the metadata (R48, R220). -/
def State.setExtent (s : State) (e : Nat) (x : Option Extent) : State :=
  ({ s with spc := { s.spc with extents := putOpt s.spc.extents e x } }).journal (.extent e x)

/-- The other live modules; none in bench mode. -/
def State.peers (s : State) : List Nat := if s.hdg.bench then [] else s.hdg.live.filter (· != s.me)

/-- LDs of this module bound to a lease that names an extent. -/
def State.boundLds (s : State) (e : Nat) : List Nat :=
  (List.range 64).filter fun d => s.spc.leases.any fun l => l.2.ld == some d && l.2.exts.any fun x => x.1 == e

/-- The LD that a lease is bound to and an extent that it names, for each. -/
def bindings (l : Option Lease) : List (Nat × Nat) :=
  match l with
  | some l => l.ld.elim [] fun d => l.exts.map fun x => (d, x.1)
  | none => []

/-- Tell the other modules which LDs here a change of a lease bound to a shared extent or unbound from it: the page homes snoop by this
(R101; log entry 12). `o` is the state before the change. -/
def State.tellBound (s o : State) (ps : List (Nat × Nat)) : State :=
  s.each (ps.eraseDups.filter fun p => (look s.spc.extents p.2).any fun x => x.kind == .shared) fun s p =>
    let on := (s.boundLds p.2).contains p.1
    if on = (o.boundLds p.2).contains p.1 then s
    else s.emits (s.peers.map fun m => .copy m (.bound p.2 (s.me * 64 + p.1) on))

/-- Extents that drain from a lease in part (R69). -/
def State.leaving (s : State) (h : Nat) : List Nat := (s.spc.drains.filter fun d => d.handle == h && !d.whole).flatMap Drain.exts

/-- Tell the other modules how a lease stands to which a loaded sheaf is bound: contexts there are granted by it (R268; log entry 12). -/
def State.tellSheaves (s : State) (h : Nat) : State :=
  if s.tlr.sheaves.any fun q => q.2.leases.any fun l => l.contains h then
    s.emits (s.peers.map fun m => .copy m (.leaseIs h (look s.spc.leases h) (s.leaving h)))
  else s

/-- Record a lease in this portal's table, its journal, and the bindings that page homes know. -/
def State.recordLease (s : State) (h : Nat) (l : Option Lease) : State :=
  let t := ({ s with spc := { s.spc with leases := putOpt s.spc.leases h l } }).journal (.lease h l)
  t.tellBound s (bindings (look s.spc.leases h) ++ bindings l)

/-- A lease changes; a CLOSED lease leaves the table (R72, R220). -/
def State.setLease (s : State) (h : Nat) (l : Option Lease) : State := (s.recordLease h l).tellSheaves h

/-- Record an account. -/
def State.setAcct (s : State) (a : Nat) (x : Account) : State :=
  ({ s with spc := { s.spc with accts := put s.spc.accts a x } }).journal (.account a x)

/-- Change a lease in place. -/
def State.modLease (s : State) (h : Nat) (f : Lease → Lease) : State :=
  match look s.spc.leases h with
  | some l => s.setLease h (some (f l))
  | none => s

/-! ## Small updates of the blocks -/

def State.onSpc (s : State) (f : Spc → Spc) : State := { s with spc := f s.spc }
def State.onDir (s : State) (f : Dir → Dir) : State := { s with dir := f s.dir }
def State.onHusk (s : State) (f : HuskB → HuskB) : State := { s with husk := f s.husk }
def State.onTier (s : State) (f : Tier → Tier) : State := { s with tier := f s.tier }
def State.onNear (s : State) (f : Near → Near) : State := { s with near := f s.near }
def State.onFar (s : State) (f : Far → Far) : State := { s with far := f s.far }
def State.onTlr (s : State) (f : Tlr → Tlr) : State := { s with tlr := f s.tlr }
def State.onHdg (s : State) (f : Hdg → Hdg) : State := { s with hdg := f s.hdg }
def State.onQos (s : State) (f : Qos → Qos) : State := { s with qos := f s.qos }
def State.onInt (s : State) (f : Integ → Integ) : State := { s with integ := f s.integ }
def State.onSec (s : State) (f : Sec → Sec) : State := { s with sec := f s.sec }
def State.onEsu (s : State) (f : Esu → Esu) : State := { s with esu := f s.esu }
def State.onStk (s : State) (f : Stk → Stk) : State := { s with stk := f s.stk }
def State.onHost (s : State) (f : HostB → HostB) : State := { s with host := f s.host }
def State.onPwr (s : State) (f : Pwr → Pwr) : State := { s with pwr := f s.pwr }

/-! ## Holders (R96) -/

/-- Holder ID of LD m of this module. -/
def State.holderOf (s : State) (m : Nat) : Nat := s.me * 64 + m

/-- Portal of a holder ID. -/
def holderMod (h : Nat) : Nat := h / 64 % 64

/-- LD number of a holder ID on its portal. -/
def holderLd (h : Nat) : Nat := h % 64

/-! ## Event steering inputs -/

/-- A rising edge of an edge source for an LD: held in its latch until the unit takes it (R441). -/
def State.edge (s : State) (n ld : Nat) : State := s.onEsu fun e => { e with latch := e.latch ++ [(n, ld)] }

end Sys2Proof.Machine
end

