-- ==== Sys2Proof/Machine/Events.lean ====
section
/-! DEFINITION. Posting an event to Stook (spec/15_stook.md), its stores and rate limits, the CXL event logs of the LDs (R488), and
the integrity error capture and queue (spec/12_integrity.md R412 to R414). -/

namespace Sys2Proof.Machine

open Sys2Proof

/-! ## Payload (R538) -/

/-- Pack items of a width and a value, each at the next multiple of its width (of 8 for 16-byte items). -/
def packPay : List (Nat × Nat) → Bytes
  | items => items.foldl (fun d it => d ++ zeros (roundUp d.length (min it.1 8) - d.length) ++ toLe it.1 it.2) []

/-! ## Stores (R461 to R463) -/

/-- Slots of the recorder SRAM, the spill ring and the archive (Table 15-2). -/
def sramCap : Nat := 16384
def spillCap : Nat := 4194304
def archCap : Nat := 16777216

/-- Severity of a record as stored. -/
def SRec.flagSev (r : SRec) : Nat := r.sev

/-- The 64 bytes of a record (Table 15-1). -/
def SRec.bytes (r : SRec) : Bytes :=
  toLe 8 r.seq ++ toLe 8 r.mono ++ toLe 8 r.wall ++ toLe 2 r.code ++ [BitVec.ofNat 8 (r.flags + r.sev), BitVec.ofNat 8 (r.code / 256)]
    ++ toLe 4 r.suppr ++ fit 24 r.payload ++ toLe 8 r.seq

/-- The smallest sequence among the records that meet a test. -/
def oldestSeq (p : SRec × Bool → Bool) (l : List (SRec × Bool)) : Option Nat :=
  (argMin (fun x => x.1.seq) (l.filter p)).map fun x => x.1.seq

/-- Put a record in a store of a capacity (R462): the new store, whether a record was overwritten that the next store lacks, and
whether the new record was dropped. -/
def storeIn (cap : Nat) (l : List (SRec × Bool)) (r : SRec) : List (SRec × Bool) × Bool × Bool :=
  if l.length < cap then (l ++ [(r, false)], false, false)
  else
    match oldestSeq (fun x => x.2) l with
    | some q => (replaceFirst (fun x => x.1.seq == q) (fun _ => (r, false)) l, false, false)
    | none =>
      match oldestSeq (fun x => decide (x.1.sev ≤ r.sev)) l with
      | some q => (replaceFirst (fun x => x.1.seq == q) (fun _ => (r, false)) l, true, false)
      | none => (l, false, true)

/-- Put a record in the spill ring. -/
def State.putSpill (s : State) (r : SRec) : State :=
  let (l, ov, dr) := storeIn spillCap s.stk.spill r
  let s := s.onStk fun k => { k with spill := l, dropSpill := k.dropSpill + (if dr then 1 else 0) }
  let s := if ov then s.bump cntStk 1 1 else s
  if dr then (s.bump cntStk 0 1).intr 0xF00028 0 else s

/-- Put a record in the archive; its own slots are never freed by a next store. -/
def State.putArchive (s : State) (r : SRec) : State :=
  let (l, ov, dr) := storeIn archCap (s.stk.archive.map fun x => (x, false)) r
  let s := s.onStk fun k => { k with archive := l.map Prod.fst, dropArch := k.dropArch + (if dr then 1 else 0) }
  let s := if ov then s.bump cntStk 1 1 else s
  if dr then (s.bump cntStk 0 1).intr 0xF00028 0 else s

/-- The last-gasp bank takes a record while the recorder memory has failed (chapter 15, case 'When the recorder SRAM fails'):
it is also written to the spill ring and sent to the twin. The record as it is then stored. -/
def State.gaspTake (s : State) (r : SRec) : State × SRec × Bool :=
  if s.stk.gaspOn && decide (2 ≤ r.sev) then
    if s.stk.gasp.length < 32 then
      let r := { r with flags := r.flags ||| 16 }
      let s := (s.onStk fun k => { k with gasp := k.gasp ++ [r] }).intr 0xF00028 2
      let s := s.onPwr fun p => { p with alert := true }
      let s := s.putSpill r
      (if s.hdg.formed && !s.hdg.bench then s.emit (.gasp (twinOf s.me) r.bytes) else s, r, true)
    else (s.bump cntStk 4 1, r, false)
  else (s, r, false)

/-- Place a stored record in the log of its severity of each LD that it concerns, under the next handle of that log; a full log of 256 counts
overflow (R488). -/
def State.logFor (s : State) (lds : List Nat) (r : SRec) : State :=
  s.each lds fun s d =>
    let k := d * 4 + r.sev
    let l := (look s.stk.logs k).getD []
    if l.length < 256 then
      s.onStk fun t => { t with logs := put t.logs k (l ++ [(((l.getLast?).elim r.seq Prod.fst) % 65535 + 1, r)]) }
    else s.onStk fun t =>
      let o := (look t.logOvf k).getD (0, r.wall, r.wall)
      { t with logOvf := put t.logOvf k (o.1 + 1, o.2.1, r.wall) }

/-- Store one record in the recorder SRAM: it takes the next sequence unless it is dropped (R460, R462), and enters the logs of the LDs that it
concerns. -/
def State.putRec (s : State) (r : SRec) : State :=
  let r := { r with seq := s.stk.next }
  let (s, r, gasped) := s.gaspTake r
  let cap := sramCap - s.stk.failed
  if cap = 0 then
    let t := if gasped then s else s.putSpill r
    if t.stk.dropSpill ≠ s.stk.dropSpill && !gasped then t
    else (t.onStk fun k => { k with next := k.next + 1 }).logFor r.lds r
  else
    let (l, ov, dr) := storeIn cap s.stk.sram r
    let s := if dr then ((s.onStk fun k => { k with dropSram := k.dropSram + 1 }).bump cntStk 0 1).intr 0xF00028 0 else s
    if dr && !gasped then s
    else
      let l := if gasped then l.map fun x => if x.1.seq = r.seq then (x.1, true) else x else l
      let s := s.onStk fun k => { k with sram := l, next := k.next + 1 }
      (if ov then s.bump cntStk 1 1 else s).logFor r.lds r

/-- Would a record of a severity be stored now rather than dropped? -/
def State.sramTakes (s : State) (sev : Nat) : Bool :=
  let cap := sramCap - s.stk.failed
  decide (cap = 0) || decide (s.stk.sram.length < cap) || s.stk.sram.any (fun x => x.2 || decide (x.1.sev ≤ sev))

/-- Store a record, preceded by event 0x0E01 when records were dropped since the last one (R463). -/
def State.storeRec (s : State) (r : SRec) : State :=
  let k := s.stk
  if k.dropSram + k.dropSpill + k.dropArch = 0 then s.putRec r
  else if s.sramTakes r.sev then
    let d : SRec := { r with lds := [], code := 0x0E01, sev := 2, flags := r.flags % 16 / 8 * 8, suppr := 0,
                             payload := packPay [(4, k.dropSram), (4, k.dropSpill), (4, k.dropArch)] }
    if s.sramTakes 2 then
      ((s.onStk fun k => { k with dropSram := 0, dropSpill := 0, dropArch := 0 }).putRec d).putRec r
    else (s.onStk fun k => { k with dropSram := k.dropSram + 1 }).putRec r
  else s.putRec r

/-! ## Time and the start of the recorder (R466, R467, R517) -/

/-- The wall clock: the timebase count plus the offset, 64 bits. -/
def State.wall (s : State) : Nat := (((s.now : Int) + s.host.wallOff) % 2 ^ 64).toNat

/-- The highest sequence found in the archive and the last-gasp bank. -/
def State.highSeq (s : State) : Nat :=
  max (s.stk.archive.foldl (fun a r => max a r.seq) 0) (s.stk.gasp.foldl (fun a r => max a r.seq) 0)

/-- A record of an event that arrives now. -/
def State.newRec (s : State) (code flags suppr : Nat) (payload : Bytes) : SRec :=
  { seq := 0, mono := s.now, wall := s.wall, code := code, flags := flags + (if s.host.wallSet then 0 else 8),
    sev := sevOf code, suppr := suppr, payload := payload, lds := [] }

/-- Start the recorder after a cold or module reset: the next sequence, then event 0x0E00 as the first record (R467). -/
def State.startStk (s : State) : State :=
  if s.stk.next ≠ 0 then s
  else
    let n := s.highSeq + 2 ^ 24
    let s := s.onStk fun k => { k with next := n }
    s.putRec (s.newRec 0x0E00 0 0 (packPay [(1, s.pwr.last), (8, n)]))

/-! ## The CXL event logs (R488) -/

/-- LDs of this module whose windows map the extent of a space address. -/
def State.ldsOfAddr (s : State) (sa : Nat) : List Nat :=
  (List.range 64).filter fun d => (List.range 8).any fun w =>
    match look s.spc.slots (d * 8 + w) with
    | some m => m.any fun p => p.2 == sa / 2 ^ 30
    | none => false

/-- The LD of a holder ID when its portal is this module. -/
def State.ldsOfHolder (s : State) (h : Nat) : List Nat := if holderMod h = s.me then [holderLd h] else []

/-- The LDs that an address and a holder concern. -/
def State.ldsOfBoth (s : State) (sa h : Nat) : List Nat := (s.ldsOfAddr sa).foldl addNew (s.ldsOfHolder h)

/-! ## Freeze (R471) -/

/-- End a freeze: the held events are stored in arrival order with HELD set, and an overflow of the queue is posted. -/
def State.thaw (s : State) : State :=
  match s.stk.frozenAt with
  | none => s
  | some _ =>
    let held := s.stk.held
    let ovf := s.stk.holdOvf
    let s := s.onStk fun k => { k with frozenAt := none, thawAt := some s.now, held := [], holdOvf := 0 }
    let s := s.each held fun s r => s.storeRec { r with flags := r.flags ||| 32 }
    if ovf = 0 then s else s.storeRec (s.newRec 0x0E02 0 0 (packPay [(4, ovf)]))

/-- A stamped record reaches the recorder: stored, or held during a freeze; a fatal event ends the freeze. -/
def State.arrive (s : State) (r : SRec) : State :=
  match s.stk.frozenAt with
  | none => s.storeRec r
  | some _ =>
    if r.sev = 3 then s.thaw.storeRec r
    else if s.stk.held.length < 256 then s.onStk fun k => { k with held := k.held ++ [r] }
    else ((s.onStk fun k => { k with holdOvf := k.holdOvf + 1 }).bump cntStk 3 1).intr 0xF00028 1

/-! ## Rate limits (R464) -/

/-- Units of a bucket's level: one record. -/
def tokenUnit : Nat := 1000000000

/-- The bucket of a code, refilled to now; a bucket not yet used is full. -/
def State.bucketNow (s : State) (code : Nat) : Bucket :=
  let b := code / 256
  let rate := s.fld (0xF00100 + 8 * b) 19 0
  let burst := s.fld (0xF00100 + 8 * b) 47 32
  match look s.stk.buckets code with
  | none => { level := burst * tokenUnit, last := s.now, suppr := 0, payload := [], lds := [] }
  | some k => { k with level := min (k.level + (s.now - k.last) * rate) (burst * tokenUnit), last := s.now }

/-- Post an event with extra flags that concerns some LDs: rate limit, stamp, recorder. -/
def State.postWith (s : State) (code flags : Nat) (payload : Bytes) (lds : List Nat) : State :=
  let s := s.startStk
  if limited code then
    let k := s.bucketNow code
    if k.level < tokenUnit then
      (s.onStk fun t => { t with buckets := put t.buckets code { k with suppr := k.suppr + 1, payload := payload, lds := lds } }).bump cntStk 2 1
    else
      let s := s.onStk fun t => { t with buckets := put t.buckets code { k with level := k.level - tokenUnit, suppr := 0 } }
      s.arrive { s.newRec code flags (min k.suppr (2 ^ 32 - 1)) payload with lds := lds }
  else s.arrive { s.newRec code flags 0 payload with lds := lds }

/-- Post an event with payload items, concerning some LDs. -/
def State.postFor (s : State) (lds : List Nat) (code : Nat) (items : List (Nat × Nat)) : State :=
  s.postWith code 0 (packPay items) lds

/-- Post an event. -/
def State.post (s : State) (code : Nat) (items : List (Nat × Nat)) : State := s.postFor [] code items

/-! ## Integrity errors (R412 to R414) -/

/-- An integrity error: numbered, captured as primary, or queued as secondary and its record marked, or counted when the queue is
full; its event is posted in every case, and concerns the LDs whose windows hold the address that its payload names. -/
def State.intError (s : State) (code synd addr : Nat) (items : List (Nat × Nat)) : State :=
  let lds := (items.find? fun i => i.1 == 8).elim [] fun i => s.ldsOfAddr i.2
  let num := (s.integ.errNum + 1) % 65536
  let s := s.onInt fun i => { i with errNum := num }
  let src := code / 256
  let cap := s.reg 0xC00040
  if !cap.testBit 63 then
    let s := s.setReg 0xC00040 (2 ^ 63 + num * 2 ^ 32 + synd % 256 * 2 ^ 24 + src * 2 ^ 16 + code)
    ((s.setReg 0xC00048 (addr % 2 ^ 50)).intr 0xC00028 0).postFor lds code items
  else
    let prim := bits cap 47 32
    let pay := fit 20 (packPay items) ++ toLe 4 prim
    if s.integ.errq.length < 32 then
      (s.onInt fun i => { i with errq := i.errq ++ [⟨num, prim, synd % 256, src⟩] }).postWith code 4 pay lds
    else
      let st := s.reg 0xC00050
      let s := s.setReg 0xC00050 (setBits st 37 6 (min (bits st 37 6 + 1) (2 ^ 32 - 1)))
      (((s.intr 0xC00028 2).postWith code 4 pay lds).post 0x0B08 [])

end Sys2Proof.Machine
end

