-- ==== Sys2Proof/Machine/Media.lean ====
section
/-! DEFINITION. The near-tier media (spec/11_dram_controller.md R361 to R366, spec/12_integrity.md R390 to R403) and the far-tier
media (spec/06_far_tier.md R205): where chunks lie, stored lines in canonical form, allocation, parity stripes, and the husk of a
page as it is read from the near tier. -/

namespace Sys2Proof.Machine

open Sys2Proof

/-! ## Geometry -/

/-- Ranks per channel, row indices per channel (Table 11-1). -/
def State.ranks (s : State) : Nat := if s.isB then 2 else 1
def State.rowsIdx (s : State) : Nat := if s.isB then 4194304 else 2097152

/-- Chunks per channel: 14 per row index (R363). -/
def State.chanChunks (s : State) : Nat := 14 * s.rowsIdx

/-- A near chunk address from channel and index, and back (R363). -/
def nearAddr (n k : Nat) : Nat := n * 2 ^ 29 + k
def chanOf (a : Nat) : Nat := a / 2 ^ 29 % 128
def chunkIdx (a : Nat) : Nat := a % 2 ^ 29

/-- Row index, slot, bank, rank and row of a chunk index (R363). -/
def rowIndex (k : Nat) : Nat := k / 14
def chunkSlot (k : Nat) : Nat := k % 14
def bankOf (k : Nat) : Nat := rowIndex k % 16
def rankOf (ranks k : Nat) : Nat := rowIndex k / 16 % ranks
def rowOf (ranks k : Nat) : Nat := rowIndex k / (16 * ranks)

/-- Stripe group and member of a channel (R400). -/
def stripeGroup (n : Nat) : Nat := n / 48 * 4 + n % 4
def stripeMember (n : Nat) : Nat := n % 48 / 4
def memberChan (g j : Nat) : Nat := 4 * (12 * (g / 4) + j) + g % 4

/-- Stripe region of a chunk index (R401). -/
def stripeRegion (k : Nat) : Nat := k / 229376

/-- Is a chunk in a stripe region? -/
def State.inStripe (s : State) (n k : Nat) : Bool := s.near.stripes.contains (stripeGroup n, stripeRegion k)

/-- The parity member's channel for a chunk index of a channel's group (R401). -/
def parityChan (n k : Nat) : Nat := memberChan (stripeGroup n) (stripeRegion k % 12)

/-- Segment of a chunk index (R379) and whether DRC_PASR masks it while its channel is in self-refresh or just left it (R380). -/
def State.masked (s : State) (n k : Nat) : Bool :=
  let seg := rowIndex k / (262144 * s.ranks)
  s.fld (0xB00018 + 0x1000 * n) 15 0 |>.testBit (8 * rankOf s.ranks k + seg)

/-! ## Stored lines -/

/-- What a line that nothing has written reads as: 72 zero bytes (log entry 8). -/
def blankLine : Bytes := zeros 72

/-- A channel's record; a channel not yet listed is in state 0. -/
def Chan.blank : Chan :=
  { st := 0, slow := false, owed0 := 0, owed1 := 0, rate := 1, temp := 0, wq := [], openRows := [], hits := [], rdMin := 0,
    wrMin := 0, lastTrain := 0, queuedAt := 0, attempts := 0, sref := false }

/-- The record of channel n. -/
def State.chan (s : State) (n : Nat) : Chan := (look s.near.chans n).getD Chan.blank

/-- Change the record of channel n. -/
def State.setChan (s : State) (n : Nat) (f : Chan → Chan) : State :=
  s.onNear fun r => { r with chans := put r.chans n (f (s.chan n)) }

/-- Owed refreshes of a rank (R375). -/
def Chan.owed (c : Chan) (rank : Nat) : Int := if rank = 0 then c.owed0 else c.owed1

/-- Does a channel hold data: states 0, 1 and 4 (R383, chapter 11)? -/
def State.chanUp (s : State) (n : Nat) : Bool := let c := s.chan n; c.st != 2 && c.st != 3

/-- The stored bytes of a line (key: chunk address × 2 + line of the chunk), with a queued write of it ahead of the device
(R371, R372). -/
def State.nearLine (s : State) (key : Nat) : Bytes :=
  match look (s.chan (chanOf (key / 2))).wq key with
  | some d => d
  | none => (look s.near.lines key).getD blankLine

/-- Store a line, keeping the list canonical: rising keys, nothing equal to the blank line. -/
def Near.setLine (r : Near) (key : Nat) (d : Bytes) : Near :=
  { r with lines := if d = blankLine then del r.lines key else put r.lines key d }

/-- The canonical form of the near-tier media. -/
def Near.wf (r : Near) : Bool := rising r.lines && r.lines.all fun p => p.2 != blankLine

/-- Entries of a channel's write queue (DRC_CAP.WQ). -/
def State.wqCap (s : State) : Nat := if s.isB then 64 else 32

/-- An access of the device opens the row of a chunk in its bank: a hit when it is open, a conflict when another row is (R367, R369). -/
def State.openRow (s : State) (n k : Nat) : State :=
  let b := rankOf s.ranks k * 16 + bankOf k
  let row := rowOf s.ranks k
  match look (s.chan n).openRows b with
  | some r =>
    if r = row then (s.setChan n fun c => { c with hits := put c.hits b ((look c.hits b).getD 0 + 1) }).bumpDrc n 2 1
    else (s.setChan n fun c => { c with openRows := put c.openRows b row, hits := del c.hits b }).bumpDrc n 3 1
  | none => s.setChan n fun c => { c with openRows := put c.openRows b row, hits := del c.hits b }

/-- Issue a queued write to the device. -/
def State.issueWrite (s : State) (n key : Nat) : State :=
  match look (s.chan n).wq key with
  | none => s
  | some d =>
    let s := (s.onNear fun r => r.setLine key d).setChan n fun c => { c with wq := del c.wq key }
    (s.openRow n (chunkIdx (key / 2))).bumpDrc n 1 1

/-- Drain a channel's write queue until it holds so many entries (R370). -/
def State.drainTo (s : State) (n left : Nat) : State :=
  let q := keys (s.chan n).wq
  s.each (q.take (q.length - left)) fun s key => s.issueWrite n key

/-- Lines are read by the controller: forwarded from the queue on QS-STV84-A, after the queued write is issued on QS-STV84-B (R371, R372),
else from the device. -/
def State.readLines (s : State) (l : List Nat) : State :=
  s.each l fun s key =>
    let n := chanOf (key / 2)
    let queued := (look (s.chan n).wq key).isSome
    if queued && !s.isB then s.bumpDrc n 5 1
    else
      let s := if queued then (s.issueWrite n key).bumpDrc n 6 1 else s
      (s.openRow n (chunkIdx (key / 2))).bumpDrc n 0 1

/-- Store a line and its check bytes that no masked segment holds. -/
def State.queueLine (s : State) (key : Nat) (d : Bytes) : State :=
  let n := chanOf (key / 2)
  let k := chunkIdx (key / 2)
  let old := s.nearLine key
  let s := s.setChan n fun c => { c with wq := put c.wq key d }
  let s := if (s.chan n).wq.length ≥ s.wqCap then s.drainTo n (s.wqCap / 4) else s
  if s.inStripe n k && parityChan n k != n then
    let pk := nearAddr (parityChan n k) k * 2 + key % 2
    s.onNear fun r => { r with deltas := put r.deltas pk (xorBytes ((look r.deltas pk).getD blankLine) (xorBytes old d)) }
  else s

/-- Store a whole line and its check bytes (R362): it waits in the channel's write queue, which drains when it is full (R370). A line of a
parity-protected region sends its delta to the parity member (R402). A write to a masked segment is dropped and reported (chapter 11, case 'When a
request reaches a masked segment'). -/
def State.writeLine (s : State) (key : Nat) (d : Bytes) : State :=
  let n := chanOf (key / 2)
  if s.masked n (chunkIdx (key / 2)) then (s.intrDrc n 4).post 0x0A07 [] else s.queueLine key d

/-- The pending delta of a line of a parity member is applied, as one read-XOR-write (R402). -/
def State.applyDelta (s : State) (key : Nat) : State :=
  match look s.near.deltas key with
  | none => s
  | some d =>
    let s := s.onNear fun r => { r with deltas := del r.deltas key }
    if s.chanUp (chanOf (key / 2)) then s.writeLine key (xorBytes (s.nearLine key) d) else s

/-- The deltas that a husk's lines sent are applied, with which its write counts as issued (R402). -/
def State.applyDeltas (s : State) (a len : Nat) : State :=
  s.each (List.range (2 * len)) fun s i =>
    let k := chunkIdx a + i / 2
    s.applyDelta (nearAddr (parityChan (chanOf a) k) k * 2 + i % 2)

/-- Write the bytes of a husk at a chunk address, with some stored lines in poison form. -/
def State.writeHusk (s : State) (a : Nat) (b : Bytes) (raw : List (Nat × Nat)) : State :=
  s.each (List.range (b.length / 64)) fun s i =>
    s.writeLine (a * 2 + i) (encLine ((b.drop (64 * i)).take 64) ((raw.find? fun p => p.1 == i).map Prod.snd))

/-! ## Allocation (R180, R186, R366, R401) -/

/-- The pull-through staging reserve in chunks: 64 MiB (R186). -/
def stagingChunks : Nat := 524288

/-- Chunks allocated in a channel. -/
def State.usedIn (s : State) (n : Nat) : Nat := sumOf (s.near.alloc.filter fun p => chanOf p.1 == n) Prod.snd

/-- Chunks of a channel's segments that DRC_PASR masks: 262,144 row indices of 14 chunks each (R363, R379). -/
def State.maskedIn (s : State) (n : Nat) : Nat :=
  ((List.range (8 * s.ranks)).filter fun b => (s.fld (0xB00018 + 0x1000 * n) 15 0).testBit b).length * (14 * 262144)

/-- Chunks of the pool in a channel that holds data, its masked segments left out (R180). -/
def State.poolIn (s : State) (n : Nat) : Nat := if s.chanUp n then (look s.near.pool n).getD 0 - s.maskedIn n else 0

/-- First chunk of a channel's share of the pool. -/
def State.firstIn (s : State) (n : Nat) : Nat := (look s.near.first n).getD 0

/-- Free chunks of a channel. -/
def State.freeIn (s : State) (n : Nat) : Nat := s.poolIn n - s.usedIn n

/-- The pool in chunks (TIER_NEAR.TOTAL). -/
def State.nearPool (s : State) : Nat := sumOf (List.range 96) s.poolIn

/-- Free pool chunks, excluding the staging reserve (R186). -/
def State.nearFree (s : State) : Nat := sumOf (List.range 96) s.freeIn - stagingChunks

/-- Do two runs of chunk indices overlap? -/
def overlap (a n b m : Nat) : Bool := decide (a < b + m ∧ b < a + n)

/-- Does a retired unit of the near tier hold chunk k of channel n (Table 12-4)? -/
def Chaff.hits (ranks n k : Nat) (c : Chaff) : Bool :=
  c.chan == n &&
    (if c.kind = 1 then decide (c.first ≤ k ∧ k < c.first + c.count)
     else if c.kind = 2 then rankOf ranks k == c.rank && bankOf k == c.bank && rowOf ranks k == c.row
     else if c.kind = 3 then rankOf ranks k == c.rank && bankOf k == c.bank
     else c.kind == 4)

/-- Does a run of chunks touch a retired unit? -/
def State.touchesRetired (s : State) (n k len : Nat) : Bool :=
  !s.near.retired.isEmpty && (List.range len).any fun i => s.near.retired.any (Chaff.hits s.ranks n (k + i))

/-- May a run of a channel be allocated: inside the pool's range, outside the training rows (R507), masked segments, retired runs
and runs in use, and in or out of the stripe regions as the page is parity-protected or not (R401)? -/
def State.runFree (s : State) (n k len : Nat) (parity : Bool) : Bool :=
  let last := k + len - 1
  decide (14 * 16 * s.ranks ≤ k) && decide (s.firstIn n ≤ k) && decide (k + len ≤ s.chanChunks)
    && !s.masked n k && !s.masked n last
    && (if parity then s.inStripe n k && stripeRegion k == stripeRegion last && parityChan n k != n && s.chanUp (parityChan n k)
        else !s.inStripe n k && !s.inStripe n last)
    && s.near.alloc.all (fun p => chanOf p.1 != n || !overlap k len (chunkIdx p.1) p.2)
    && !s.touchesRetired n k len

/-- Where a free run may start: the pool's first chunk, the end of a run in use, the start of a region, and, with retired units, the rows
that follow one of these. -/
def State.runStarts (s : State) (n : Nat) : List Nat :=
  let l := [s.firstIn n, 14 * 16 * s.ranks]
    ++ (s.near.alloc.filter fun p => chanOf p.1 == n).map (fun p => chunkIdx p.1 + p.2)
    ++ (s.near.stripes.filter fun p => p.1 == stripeGroup n).flatMap fun p => [p.2 * 229376, (p.2 + 1) * 229376]
  if s.near.retired.any (fun c => c.chan == n) then l ++ l.flatMap fun k => (List.range 36).map fun i => 14 * (k / 14 + i + 1) else l

/-- A free run of a channel; which one is left open. -/
def State.runIn (s : State) (n len : Nat) (parity : Bool) : Option Nat :=
  if s.freeIn n < len then none
  else
    let cs := (s.runStarts n).filter fun k => s.runFree n k len parity
    match cs with
    | [] => none
    | _ => cs[Config.pick s.draws % cs.length]?

/-- Channels that may take a new husk: up, not slow (R417). -/
def State.allocChans (s : State) : List Nat := (List.range 96).filter fun n => s.chanUp n && !(s.chan n).slow

/-- A place for a husk of so many chunks: the preferred channel when it has room, else the live channel with the most free chunks
that has a run (R366). `reserve` chunks stay free in all. -/
def State.findNear (s : State) (prefer : Option Nat) (len : Nat) (parity : Bool) (reserve : Nat) : Option Nat :=
  if sumOf (List.range 96) s.freeIn < reserve + len then none
  else
    let best :=
      let c := s.allocChans.filter fun n => (s.runIn n len parity).isSome
      match argMin (fun n => 2 ^ 40 - s.freeIn n) c with
      | none => none
      | some n => (s.runIn n len parity).map (nearAddr n)
    match prefer with
    | some n => if s.allocChans.contains n then (match s.runIn n len parity with
        | some k => some (nearAddr n k)
        | none => best) else best
    | none => best

/-- Take a run. -/
def State.takeNear (s : State) (a len : Nat) : State :=
  ({ s with near := { s.near with alloc := put s.near.alloc a len } }).drew

/-- Return a run to the pool. -/
def State.freeNear (s : State) (a : Nat) : State := { s with near := { s.near with alloc := del s.near.alloc a } }

/-! ## Far chunks (R205) -/

/-- Band and offset of a far chunk address. -/
def farBand (a : Nat) : Nat := a / 2 ^ 24
def farOff (a : Nat) : Nat := a % 2 ^ 24

/-- A band's record; a band not listed is FREE at full width. -/
def Band.blank : Band :=
  { st := 0, width := 23, erase := 0, valid := 0, chans := List.range 24, blocks := [], reads := [], prog := 0, freedBy := 0 }
def State.band (s : State) (b : Nat) : Band := (look s.far.bands b).getD Band.blank
def State.setBand (s : State) (b : Nat) (f : Band → Band) : State :=
  s.onFar fun r => { r with bands := put r.bands b (f (s.band b)) }

/-- A change of a band's entry that enters the metadata journal (R207, R220). -/
def State.mapBand (s : State) (b : Nat) (f : Band → Band) : State := (s.setBand b f).toMeta (.band b (f (s.band b))) false

/-- The die index of a band: its erase blocks lie on the die of that index of every channel. -/
def dieIdx (b : Nat) : Nat := b / 2048

/-- The record of die n (channel n mod 24); a die not listed is good, with the spares of a new module. -/
def State.die (s : State) (n : Nat) : Die := (look s.far.dies n).getD ⟨0, Config.spareBlocks n, [], none, none⟩
def State.setDie (s : State) (n : Nat) (f : Die → Die) : State := s.onFar fun r => { r with dies := put r.dies n (f (s.die n)) }

/-- Data chunks of a stripe row at width w (R206). -/
def rowChunks (w : Nat) : Nat := 512 * w

/-- The row of a far chunk in its band (R206). -/
def State.rowOfChunk (s : State) (a : Nat) : Nat := farOff a / rowChunks (s.band (farBand a)).width

/-- The channel that holds a far chunk: the data channels of a row are those of the band in ascending order, less the row's parity
channel (R206). -/
def State.chanOfChunk (s : State) (a : Nat) : Nat :=
  let b := farBand a
  let x := s.band b
  let i := farOff a % rowChunks x.width / 512
  x.chans.getD (if i < (b + s.rowOfChunk a) % (x.width + 1) then i else i + 1) 0

/-- The die that holds a far chunk. -/
def State.dieOfChunk (s : State) (a : Nat) : Nat := dieIdx (farBand a) * 24 + s.chanOfChunk a

/-- The parity chunk that covers a far chunk: its row of the module, and its place in the 64 KiB unit (R206). -/
def State.parityOf (s : State) (a : Nat) : Nat := (farBand a * 1024 + s.rowOfChunk a) * 512 + farOff a % 512

/-- Exclusive or of two chunks. -/
def xorChunk (a b : Bytes) : Bytes := List.zipWith (fun x y => x ^^^ y) a b

/-- A stored far chunk. -/
def State.farChunk (s : State) (a : Nat) : Bytes := (look s.far.flash a).getD (zeros 128)

/-- A far chunk rebuilt from the other chunks of its place in the stripe row and their parity (R206, R210). -/
def State.rebuildChunk (s : State) (a : Nat) : Bytes :=
  let w := (s.band (farBand a)).width
  let first := farBand a * 2 ^ 24 + s.rowOfChunk a * rowChunks w + farOff a % 512
  ((List.range w).map fun i => first + 512 * i).foldl (fun x c => if c = a then x else xorChunk x (s.farChunk c))
    ((look s.far.parity (s.parityOf a)).getD (zeros 128))

/-- Is the die that holds a far chunk retired or being rebuilt? Its chunks are rebuilt from parity (R218). -/
def State.dieGone (s : State) (a : Nat) : Bool := (s.die (s.dieOfChunk a)).st == 1 || (s.die (s.dieOfChunk a)).st == 2

/-- Bands and dies of the SKU (Table 6-1). -/
def State.bandCount (s : State) : Nat := if s.isB then 8192 else 4096
def State.dieCount (s : State) : Nat := if s.isB then 96 else 48

/-- User capacity in chunks (Table 6-1). -/
def State.userChunks (s : State) : Nat := if s.isB then 94489280512 else 47244640256

/-- Stored bytes of a far husk; those on a retired die come from parity (R218). -/
def State.farHusk (s : State) (a len : Nat) : Bytes :=
  (List.range len).flatMap fun i => if s.dieGone (a + i) then s.rebuildChunk (a + i) else s.farChunk (a + i)

/-- A far-tier medium with one chunk set; a blank chunk is not listed. -/
def setChunk (m : FMap Bytes) (a : Nat) (d : Bytes) : FMap Bytes := if d = zeros 128 then del m a else put m a d

/-- The canonical form of a far-tier medium. -/
def chunksOk (m : FMap Bytes) : Bool := rising m && m.all fun p => p.2 != zeros 128

/-- Program one chunk and bring the parity of its row up to it (R211). -/
def State.farWriteChunk (s : State) (a : Nat) (d : Bytes) : State :=
  let k := s.parityOf a
  let q := xorChunk (xorChunk ((look s.far.parity k).getD (zeros 128)) (s.farChunk a)) d
  s.onFar fun r => { r with flash := setChunk r.flash a d, parity := setChunk r.parity k q }

/-- Program chunks of a husk. -/
def State.farWrite (s : State) (a : Nat) (b : Bytes) : State :=
  s.each (List.range (b.length / 128)) fun s i => s.farWriteChunk (a + i) ((b.drop (128 * i)).take 128)

/-- The canonical form of the far-tier media: data and parity. -/
def Far.wf (r : Far) : Bool := chunksOk r.flash && chunksOk r.parity

/-- Release far chunks that no journal record names: the band's valid count falls (R207). -/
def State.dropFar (s : State) (a len : Nat) : State := s.setBand (farBand a) fun b => { b with valid := b.valid - len }

/-- Release far chunks that journal record n frees (R207, R214). -/
def State.freeFarAt (s : State) (a len n : Nat) : State :=
  s.setBand (farBand a) fun b => { b with valid := b.valid - len, freedBy := max b.freedBy n }

/-- Release far chunks that the journal record just entered frees. -/
def State.freeFar (s : State) (a len : Nat) : State := s.freeFarAt a len (s.far.jrnlNext - 1)

/-! ## A page's husk in the near tier -/

/-- Does a page have a husk in the near tier that reads are served from? -/
def hasNear (p : Pme) : Bool :=
  match p.st with
  | .near => true
  | .both => true
  | .demoting => true
  | .retired => true
  | _ => false

/-- Does a page have a husk in the far tier? -/
def hasFar (p : Pme) : Bool :=
  match p.st with
  | .far => true
  | .both => true
  | .promoting => true
  | _ => false

/-- Stored line i of a page's near husk, decoded, with 1 when it was corrected. A masked segment or a channel that is down is not readable. -/
def State.huskLine (s : State) (p : Pme) (i : Nat) : LineRes :=
  let n := chanOf p.near
  if !s.chanUp n || s.masked n (chunkIdx p.near + i / 2) then .uncorr
  else match decLine (s.nearLine (p.near * 2 + i)) with
    | .clean d k => .clean d (min k 1)
    | r => r

/-- How a grain of a page reads: host bytes with its plaintext stored form and the count of corrected lines, or a syndrome and the
cause of HSK_ERR_CAP (6 for a line stored in poison form). -/
inductive GrainRes where
  | ok (d plain : Bytes) (fixed : Nat)
  | bad (synd cause : Nat)
  deriving DecidableEq, Repr

/-- The key material of a slot that is ACTIVE (R427). -/
def State.keyOf (s : State) (k : Nat) : Option Nat :=
  match look s.sec.keys k with
  | some x => if x.st = 1 then some x.mat else none
  | none => none

/-- Code lengths of a slot when it is not FREE and its generation matches (R152). -/
def State.lensOf (s : State) (slot gen : Nat) : Option (List Nat) :=
  match look s.husk.tables slot with
  | some t => if t.st ≠ 0 ∧ t.gen = gen then some t.lens else none
  | none => none

/-- Host element type and L-BX k of a page's extent. -/
def State.elemOf (s : State) (page : Nat) : Nat × Nat :=
  match s.extent page with
  | some x => (x.elem, bxK x.bxk)
  | none => (1, 4)

/-- Decode a grain from a glume and the stored bytes of the grain (R163): checks the glume, the generation, the stream, the length,
and GCRC when asked. -/
def State.decodeGrain (s : State) (page : Nat) (x : Glume) (g : Nat) (stored : Bytes) (crc : Bool) (fixed : Nat) : GrainRes :=
  let (elem, bxk) := s.elemOf page
  if !x.ok elem bxk then .bad 9 0
  else
    match s.keyOf x.key with
    | none => .bad 6 0
    | some key =>
      let plain := cryptGrain true key page g stored
      let lens := if isExp x.cls then s.lensOf x.slot x.gen else some []
      match lens with
      | none => .bad 9 1
      | some ls =>
        match grainHost (if x.mat then 0 else x.cls) elem bxk ls plain with
        | .error c => .bad 9 c
        | .ok d => if crc && crc16 d != (x.gcrc[g]?).getD 0 then .bad 9 4 else .ok d plain fixed

/-- The worst of some stored lines: uncorrectable first, then a stored syndrome, else the bytes and corrections. -/
def joinLines (l : List LineRes) : LineRes :=
  l.foldl (fun a b =>
    match a, b with
    | .uncorr, _ => .uncorr
    | _, .uncorr => .uncorr
    | .poisoned d y, .clean e _ => .poisoned (d ++ e) y
    | .poisoned d y, .poisoned e _ => .poisoned (d ++ e) y
    | .clean d _, .poisoned e y => .poisoned (d ++ e) y
    | .clean d n, .clean e m => .clean (d ++ e) (n + m)) (.clean [] 0)

/-- The glume of a page's near husk. -/
def State.nearGlume (s : State) (p : Pme) : Option Glume :=
  match s.huskLine p 0 with
  | .clean d _ => some (Glume.parse d)
  | _ => none

/-- Read grain g of a page's near husk. `always` checks GCRC in every case; a read checks it for lossless classes and after a
correction (R393). An uncorrectable line answers syndrome 0x01 with cause 5. -/
def State.nearGrain (s : State) (page : Nat) (p : Pme) (g : Nat) (always : Bool) : GrainRes :=
  match s.huskLine p 0 with
  | .uncorr => .bad 1 5
  | .poisoned _ y => .bad y 6
  | .clean d f0 =>
    let x := Glume.parse d
    let (elem, bxk) := s.elemOf page
    if !x.ok elem bxk then .bad 9 0
    else
      let b := 64 + 16 * x.startOf g
      let e := 64 + 16 * x.endOf g
      if b = e then s.decodeGrain page x g [] (always || isLossless x.cls) 0
      else
        let ls := (List.range ((e + 63) / 64 - b / 64)).map fun i => s.huskLine p (b / 64 + i)
        match joinLines ls with
        | .uncorr => .bad 1 5
        | .poisoned _ y => .bad y 6
        | .clean by_ f =>
          let stored := (by_.drop (b % 64)).take (e - b)
          s.decodeGrain page x g stored (always || isLossless x.cls || f + f0 != 0) (f + f0)

/-- Is the near husk P-RAW without fallback, whose host lines are stored lines 1 to 64 (R394)? -/
def State.isPlain (s : State) (p : Pme) : Bool :=
  match s.nearGlume p with
  | some x => x.cls == 0 && !x.fallback
  | none => p.cls == 0

/-- Host line j of a P-RAW husk without fallback: its bytes, or a syndrome; the count of corrected bytes. The glume must be valid (R124, R163),
and after a correction the grain's GCRC is checked when the rest of the grain reads (R393). -/
def State.plainLine (s : State) (page : Nat) (p : Pme) (j : Nat) : GrainRes :=
  match s.huskLine p 0, s.huskLine p (1 + j) with
  | .uncorr, _ => .bad 1 5
  | .poisoned _ y, _ => .bad y 6
  | _, .uncorr => .bad 1 5
  | _, .poisoned _ y => .bad y 6
  | .clean h f0, .clean d f =>
    let x := Glume.parse h
    let (elem, bxk) := s.elemOf page
    if !x.ok elem bxk then .bad 9 0
    else match s.keyOf x.key with
    | none => .bad 6 0
    | some key =>
      let g := j / 4
      let unit := zeros (64 * (j % 4)) ++ d ++ zeros (64 * (3 - j % 4))
      let line := ((cryptGrain true key page g unit).drop (64 * (j % 4))).take 64
      if f0 + f = 0 then .ok line [] 0
      else match s.nearGrain page p g true with
        | .bad 9 c => .bad 9 c
        | _ => .ok line [] (f0 + f)

/-- Reconstruct a stored line from the other members of its stripe row, after every pending delta has been applied (R403). -/
def State.rebuildLine (s : State) (key : Nat) : Option Bytes :=
  let n := chanOf (key / 2)
  let k := chunkIdx (key / 2)
  let g := stripeGroup n
  let others := (List.range 12).filter fun j => memberChan g j != n
  let part := others.map fun j =>
    let ok := nearAddr (memberChan g j) k * 2 + key % 2
    let w := s.nearLine ok
    match decLine w with
    | .uncorr => if s.chanUp (memberChan g j) || memberChan g j == parityChan n k then none else some blankLine
    | _ => some (xorBytes w ((look s.near.deltas ok).getD blankLine))
  if !s.inStripe n k || part.any Option.isNone then none
  else some (part.foldl (fun a x => xorBytes a (x.getD blankLine)) blankLine)

end Sys2Proof.Machine
end

