-- ==== Sys2Proof/Machine/Poison.lean ====
section
/-! DEFINITION. The poison list (spec/12_integrity.md R395 to R398), its overflow into stored poison forms, decode failures
(spec/04_husk_compression.md R163), and the record of corrected and uncorrectable lines. -/

namespace Sys2Proof.Machine

open Sys2Proof

/-- Entries of the poison list (R397). -/
def plistCap : Nat := 65536

/-- The syndrome listed for a host line, by its line address. -/
def State.plistLine (s : State) (l : Nat) : Option Nat := (s.integ.plist.find? fun p => !p.page && p.addr == l).map Poison.synd

/-- The syndrome listed for a whole page. -/
def State.plistPage (s : State) (page : Nat) : Option Nat := (s.integ.plist.find? fun p => p.page && p.addr == page).map Poison.synd

/-- The page an entry belongs to. -/
def poisonPage (p : Poison) : Nat := if p.page then p.addr else p.addr / 64

/-- Entries of pages with a far husk are journalled with the metadata (R398). -/
def State.notePoison (s : State) (p : Poison) (clear : Bool) : State :=
  if hasFar (s.pme (poisonPage p)) then s.toMeta (if clear then .clear p else .poison p) false else s

/-- Write the stored lines of grain g of a page's near husk in poison form (chapter 12, case 'When the poison list is full'). -/
def State.poisonGrain (s : State) (page g synd : Nat) : State :=
  let p := s.pme page
  if !hasNear p then s
  else match s.nearGlume p with
    | none => s
    | some x =>
      let lo := (64 + 16 * x.startOf g) / 64
      let hi := (64 + 16 * x.endOf g + 63) / 64
      s.each ((List.range (hi - lo)).map (· + lo)) fun s i =>
        match s.huskLine p i with
        | .clean d _ => s.writeLine (p.near * 2 + i) (encLine d (some synd))
        | .poisoned d _ => s.writeLine (p.near * 2 + i) (encLine d (some synd))
        | .uncorr => s.writeLine (p.near * 2 + i) (encLine (zeros 64) (some synd))

/-- Write host line j of a P-RAW husk in poison form. -/
def State.poisonPlain (s : State) (page j synd : Nat) : State :=
  let p := s.pme page
  if !hasNear p then s
  else match s.huskLine p (1 + j) with
    | .clean d _ => s.writeLine (p.near * 2 + 1 + j) (encLine d (some synd))
    | .poisoned d _ => s.writeLine (p.near * 2 + 1 + j) (encLine d (some synd))
    | .uncorr => s.writeLine (p.near * 2 + 1 + j) (encLine (zeros 64) (some synd))

/-- The list is full: interrupt status and event 0x0B09. -/
def State.plistOvf (s : State) : State := (s.intr 0xC00028 1).post 0x0B09 []

/-- Give a host line a stored syndrome. -/
def State.poisonLine (s : State) (l synd : Nat) (inj : Bool) : State :=
  let e : Poison := ⟨false, l, synd, inj⟩
  if (s.plistLine l).isSome then
    (s.onInt fun i => { i with plist := replaceFirst (fun p => !p.page && p.addr == l) (fun _ => e) i.plist }).notePoison e false
  else if s.integ.plist.length < plistCap then
    (s.onInt fun i => { i with plist := i.plist ++ [e] }).notePoison e false
  else
    let page := l / 64
    let j := l % 64
    (if s.isPlain (s.pme page) then s.poisonPlain page j synd else s.poisonGrain page (j / 4) synd).plistOvf

/-- Enter a whole page with its syndrome; when the list is full the page reads 0x01 (R175). -/
def State.poisonPageEntry (s : State) (page synd : Nat) : State :=
  let e : Poison := ⟨true, page, synd, false⟩
  if (s.plistPage page).isSome then
    (s.onInt fun i => { i with plist := replaceFirst (fun p => p.page && p.addr == page) (fun _ => e) i.plist }).notePoison e false
  else if s.integ.plist.length < plistCap then
    (s.onInt fun i => { i with plist := i.plist ++ [e] }).notePoison e false
  else s.plistOvf

/-- Remove the entries that meet a test. -/
def State.plistDrop (s : State) (p : Poison → Bool) : State :=
  let gone := s.integ.plist.filter p
  if gone.isEmpty then s
  else (s.onInt fun i => { i with plist := i.plist.filter fun e => !p e }).each gone fun s e => s.notePoison e true

/-- Remove a line's entry. -/
def State.clearLine (s : State) (l : Nat) : State := s.plistDrop fun p => !p.page && p.addr == l

/-- Remove every entry of a page (R398). -/
def State.clearPage (s : State) (page : Nat) : State := s.plistDrop fun p => poisonPage p == page

/-- Line entries of a page: line index and syndrome. -/
def State.pagePoison (s : State) (page : Nat) : List (Nat × Nat) :=
  (s.integ.plist.filter fun p => !p.page && p.addr / 64 == page).map fun p => (p.addr % 64, p.synd)

/-- The syndrome that reads of a poisoned page return (R175). -/
def State.pageSynd (s : State) (page : Nat) : Nat := (s.plistPage page).getD 1

/-! ## Failures found by a read -/

/-- A grain that does not decode (chapter 4, case 'When a grain does not decode'): counted, captured first, posted as an integrity
error. -/
def State.decFail (s : State) (page g synd cause : Nat) : State :=
  let s := (s.bump cntHsk 2 1).intr 0x500028 0
  let s := if (s.reg 0x500058).testBit 63 then s
    else s.setReg 0x500058 (2 ^ 63 + synd * 2 ^ 55 + cause * 2 ^ 51 + g * 2 ^ 47 + page % 2 ^ 38)
  let s := s.intr 0xC00028 0
  s.intError 0x0503 synd (pageSa page) [(8, pageSa page), (1, g), (1, synd)]

/-- Outcomes of event 0x0B02, in the order that its payload lists them. -/
def outRefetched : Nat := 0
def outTwin : Nat := 1
def outRebuilt : Nat := 2
def outPoisoned : Nat := 3

/-- An uncorrectable near line was found, with what came of it (R399, Table 12-8). -/
def State.uncorrNear (s : State) (page outcome : Nat) : State :=
  let s := s.bump cntInt 1 1
  let s := s.intError 0x0B02 1 (pageSa page) [(8, pageSa page), (1, outcome)]
  if outcome = outPoisoned then s.bump cntInt 4 1 else s

/-- Lines that were corrected: counted, event 0x0B00. -/
def State.corrected (s : State) (n : Nat) : State := if n = 0 then s else (s.bump cntInt 0 n).post 0x0B00 []

/-- An HCRC mismatch of a whole husk (chapter 4, case 'When HCRC does not match'). -/
def State.hcrcFail (s : State) (page : Nat) : State :=
  (s.intr 0x500028 5).intError 0x050A 1 (pageSa page) [(8, pageSa page)]

/-- The chunk run of a page's near husk, as a Broom suggestion (R399). -/
def State.suggestRun (s : State) (p : Pme) : State :=
  s.onInt fun i => { i with broomSugg := i.broomSugg ++
    [⟨1, chanOf p.near, 0, 0, 0, chunkIdx p.near, p.len, 0⟩] }

/-! ## The chaff list (R410, R411) -/

/-- Entries of the chaff list. -/
def chaffCap : Nat := 4096

/-- Is an entry a run or a row that a bank or channel retirement covers? -/
def Chaff.under (c u : Chaff) : Bool :=
  (c.kind == 1 || c.kind == 2) && c.chan == u.chan && (u.kind == 4 || (c.kind == 2 && c.rank == u.rank && c.bank == u.bank))

/-- The chaff list is full: interrupt status and event 0x0B0C. -/
def State.chaffFull (s : State) : State := (s.intr 0xC00028 7).post 0x0B0C []

/-- Enter a retirement in the chaff list, journalled; in a full list it takes the oldest entry that it covers, or applies until the next
cold reset only. -/
def State.addChaff (s : State) (c : Chaff) : State :=
  if s.integ.chaff.length < chaffCap then (s.onInt fun i => { i with chaff := i.chaff ++ [c] }).toMeta (.chaff c) false
  else
    let hit (x : Chaff) : Bool := (c.kind == 3 || c.kind == 4) && Chaff.under x c
    let s := s.chaffFull
    if s.integ.chaff.any hit then (s.onInt fun i => { i with chaff := removeFirst hit i.chaff ++ [c] }).toMeta (.chaff c) false
    else s

end Sys2Proof.Machine
end

