-- ==== Sys2Proof/Machine/FarBase.lean ====
section
/-! DEFINITION. The far tier's write path (spec/06_far_tier.md R205 to R216): the governor, open bands, rows, and where a husk of a
page is read from. -/

namespace Sys2Proof.Machine

open Sys2Proof

/-! ## Governor (R215, R216) -/

/-- FAR_GOV.DWPD in 0.01 drive writes per day, and BURST_S. -/
def State.dwpd (s : State) : Nat := s.fld 0x700010 9 0
def State.burstS (s : State) : Nat := s.fld 0x700010 31 16

/-- Bytes of user capacity. -/
def State.userBytes (s : State) : Nat := s.userChunks * 128

/-- Depth of the bucket in bytes. -/
def State.govDepth (s : State) : Nat := s.burstS * (s.dwpd * s.userBytes) / 8640000

/-- The level now: what was held, refilled at the rate since, at most the depth. -/
def State.govLevel (s : State) : Int :=
  min (s.govDepth : Int) (s.far.gov + (((s.now - s.far.govAt) * (s.dwpd * s.userBytes) / 8640000000000000 : Nat) : Int))

/-- Draw the bytes of a program from the bucket, at most to minus its depth (R216): the bytes below zero are counted in 4 KiB units,
reaching zero is reported. -/
def State.govProgram (s : State) (n : Nat) : State :=
  let l := s.govLevel
  let l' := max (-(s.govDepth : Int)) (l - n)
  let below := ((max 0 (-l')) - (max 0 (-l))).toNat
  let s := s.onFar fun f => { f with gov := l', govAt := s.now }
  let s := if below = 0 then s else (s.bump cntFar 2 ((below + 4095) / 4096)).post 0x0707 []
  if decide (l > 0) && decide (l' ≤ 0) then (s.intr 0x700028 1).post 0x0708 [] else s

/-! ## Bands and rows (R204 to R207, R211, R212) -/

/-- The channels of a band opened now on a die index: those whose die of that index is not retired (R218). -/
def State.chansFor (s : State) (d : Nat) : List Nat :=
  (List.range 24).filter fun c => (s.die (d * 24 + c)).st != 1 && (s.die (d * 24 + c)).st != 2

/-- Is a band one of the journal and system bands (R220)? -/
def State.reservedBand (s : State) (b : Nat) : Bool := s.far.reserved.contains b

/-- Free bands; the reserved bands are not counted. -/
def State.freeBands (s : State) : Nat :=
  s.bandCount - s.far.reserved.length - ((s.far.bands.filter fun p => p.2.st != 0 && !s.reservedBand p.1).length)

/-- The FREE band of least erase count (R214). -/
def State.nextBand (s : State) : Option Nat :=
  argMin (fun b => (s.band b).erase) ((List.range s.bandCount).filter fun b =>
    (s.band b).st == 0 && !s.reservedBand b)

/-- The open band of a write point: host or relocation. -/
def State.openOf (s : State) (reloc : Bool) : Option OpenBand := if reloc then s.far.relocBand else s.far.hostBand
def State.setOpen (s : State) (reloc : Bool) (o : Option OpenBand) : State :=
  s.onFar fun f => if reloc then { f with relocBand := o } else { f with hostBand := o }

/-- The items waiting in the rows of a write point. -/
def State.rowOf (s : State) (reloc : Bool) : List RowItem := if reloc then s.far.relocRow else s.far.row
def State.setRow (s : State) (reloc : Bool) (l : List RowItem) : State :=
  s.onFar fun f => if reloc then { f with relocRow := l } else { f with row := l }

/-- Open the next band for a write point. -/
def State.openNext (s : State) (reloc : Bool) : State :=
  let s := match s.openOf reloc with
    | some o => s.mapBand o.band fun b => { b with st := 2 }
    | none => s
  match s.nextBand with
  | none => s.setOpen reloc none
  | some b =>
    let l := s.chansFor (dieIdx b)
    (s.mapBand b fun x => { x with st := 1, width := l.length - 1, chans := l, valid := 0, reads := [], prog := 0 }).setOpen reloc (some ⟨b, 0⟩)

/-- Does the open band of a write point have room for n more chunks? -/
def State.roomFor (s : State) (reloc : Bool) (n : Nat) : Bool :=
  match s.openOf reloc with
  | some o => decide (o.off + n ≤ 1024 * rowChunks (s.band o.band).width)
  | none => false

/-- Append a husk at the write point (R211): its far chunk address, none when no band is free. -/
def State.farAppend (s : State) (reloc : Bool) (it : RowItem) : State × Option Nat :=
  let n := it.bytes.length / 128
  let s := if s.roomFor reloc n then s else s.openNext reloc
  match s.openOf reloc with
  | none => (s, none)
  | some o =>
    let a := o.band * 2 ^ 24 + o.off
    let s := s.setOpen reloc (some { o with off := o.off + n })
    let s := s.setBand o.band fun b => { b with valid := b.valid + n }
    (s.setRow reloc (s.rowOf reloc ++ [{ it with far := a, t0 := s.now }]), some a)

/-- The last row of an item. -/
def RowItem.lastRow (it : RowItem) (rc : Nat) : Nat := (farOff it.far + it.bytes.length / 128 - 1) / rc

/-- Close the row that an item ends in with zero padding (R212). -/
def State.padRow (s : State) (reloc : Bool) : State :=
  match s.openOf reloc with
  | none => s
  | some o =>
    let rc := rowChunks (s.band o.band).width
    if o.off % rc = 0 then s else (s.setOpen reloc (some { o with off := roundUp o.off rc })).bump cntFar 4 1

/-- The write point whose rows hold an item of a page. -/
def State.itemOf (s : State) (page : Nat) : Option (Bool × RowItem) :=
  match s.far.row.find? (fun i => i.page == page) with
  | some i => some (false, i)
  | none => (s.far.relocRow.find? (fun i => i.page == page)).map fun i => (true, i)

/-- Is the row that ends an item complete? An item of a band that is no longer open is in a complete row. -/
def State.rowFull (s : State) (reloc : Bool) (it : RowItem) : Bool :=
  match s.openOf reloc with
  | some o =>
    o.band != farBand it.far || (let rc := rowChunks (s.band o.band).width; decide (it.lastRow rc < o.off / rc))
  | none => true

/-- The husk of a page at a far address in the controller's buffer, while its row is not programmed. -/
def State.inBuffer (s : State) (page a : Nat) : Option RowItem := (s.far.row ++ s.far.relocRow).find? fun i => i.page == page && i.far == a

/-- The husk of a page at a far address: from the controller's buffer while its row is not programmed, else from flash. -/
def State.farBytes (s : State) (page a len : Nat) : Bytes :=
  match s.inBuffer page a with
  | some i => i.bytes
  | none => s.farHusk a len

/-! ## Codewords (R208, R210, R218) -/

/-- The first chunks, one for each LDPC codeword of 32 chunks that a husk at a far address spans, of the husk's part of it (R208). -/
def codewords (a len : Nat) : List Nat :=
  (List.range ((a + len - 1) / 32 + 1 - a / 32)).map fun i => max a ((a / 32 + i) * 32)

/-- Has the stripe row of a far chunk lost another die as well? It cannot be rebuilt then (chapter 6, case 'When a second die fails in a band
before its rebuild'). -/
def State.rowLost (s : State) (a : Nat) : Bool :=
  (s.band (farBand a)).chans.any fun c => c != s.chanOfChunk a &&
    (let n := dieIdx (farBand a) * 24 + c; (s.die n).st == 1 || (s.die n).st == 2)

/-- How a codeword is obtained: one of a retired die by parity rebuild, and no rebuild where the row has lost two dies (R210, R218). -/
def State.cwResult (s : State) (a : Nat) (r : FarRes) : FarRes :=
  if r = .lost then .lost
  else if r = .parity ∨ s.dieGone a then (if s.rowLost a then .lost else .parity)
  else r

/-- The codewords of a husk with the results of the read of each. -/
def State.cwResults (s : State) (a len : Nat) (res : List FarRes) : List (Nat × FarRes) :=
  (codewords a len).zipIdx.map fun c => (c.1, s.cwResult c.1 (res.getD c.2 .hard))

/-- Is a program of this page's husk still waiting in a row? -/
def State.farPending (s : State) (page : Nat) : Bool := (s.itemOf page).isSome

end Sys2Proof.Machine
end

