-- ==== Sys2Proof/Machine/TierBase.lean ====
section
/-! DEFINITION. What the tiering block does inside other commands (spec/05_tiering_streaming.md R168 to R201): the page-map cache,
access counts, near use and watermarks, pins, hook records, starting a pull-through or a promotion, and the consumer of a stream
schedule. -/

namespace Sys2Proof.Machine

open Sys2Proof

/-! ## Page map -/

/-- The entry a page of a granted extent has before it is written. -/
def State.freshPme (s : State) (page : Nat) : Pme :=
  match s.extent page with
  | some x => { Pme.unwritten with st := if x.cls = 12 then .virt else .unwritten, cls := x.cls, acct := x.acct, prot := x.prot }
  | none => Pme.unwritten

/-- The entry of a page, an unlisted one with the fields of its extent. -/
def State.pmeOf (s : State) (page : Nat) : Pme :=
  match look s.tier.pmes page with
  | some p => p
  | none => s.freshPme page

/-- A page-map cache lookup (R171): a miss is counted and replaces the least recently used entry of the set. -/
def State.pmeCache (s : State) (page : Nat) : State :=
  let set := (page % 2 ^ 18) ^^^ (page / 2 ^ 18 % 2 ^ 18)
  let ws := (look s.tier.pmcache set).getD []
  let s := if ws.contains page then s else s.bump cntTier 8 1
  s.onTier fun t => { t with pmcache := put t.pmcache set ((page :: ws.filter (· != page)).take 16) }

/-- d of R178. -/
def State.elapsed (s : State) (p : Pme) : Nat := (s.tier.epoch % 256 + 256 - p.age) % 256

/-- Effective counter and age (R178). -/
def State.effCount (s : State) (p : Pme) : Nat := p.cnt / 2 ^ (min (s.elapsed p) 8)
def State.effAge (s : State) (p : Pme) : Nat := min (s.elapsed p) 128

/-- A counted access (R178). -/
def State.countAccess (s : State) (page : Nat) : State :=
  let p := s.pmeOf page
  let d := s.elapsed p
  let n := if d ≥ 8 then 0 else p.cnt / 2 ^ d
  s.setPme page { p with cnt := min (n + 1) 255, age := s.tier.epoch % 256 } false

/-- Code of a page state (Table 5-1). -/
def stCode : PState → Nat
  | .unwritten => 0
  | .near => 1
  | .far => 2
  | .both => 3
  | .promoting => 4
  | .demoting => 5
  | .poisoned => 6
  | .virt => 7
  | .retired => 8

/-! ## Accounts, pins, floors (R182, R184) -/

/-- Near chunks that a page holds. -/
def nearLen (p : Pme) : Nat := if hasNear p || p.st == .promoting then p.len else 0

/-- Near chunks held by an account. -/
def State.acctNear (s : State) (a : Nat) : Nat := sumOf (vals s.tier.pmes) fun p => if p.acct = a then nearLen p else 0

/-- Pages of a layer of a schedule. -/
def Sched.layerPages (c : Sched) (l : Nat) : List Nat :=
  (c.entries.filter fun e => e.2.2 == l).flatMap fun e => (List.range e.2.1).map (· + e.1)

/-- Is a page in a layer of a schedule? -/
def Sched.layerHas (c : Sched) (l page : Nat) : Bool :=
  c.entries.any fun e => e.2.2 == l && decide (e.1 ≤ page ∧ page < e.1 + e.2.1)

/-- The layer index of an absolute layer number (layers counted over the passes). -/
def Sched.layerOf (c : Sched) (k : Nat) : Nat := k % max c.layers 1

/-- The absolute number of the consumer layer. -/
def Sched.abs (c : Sched) : Nat := c.pass * c.layers + c.c

/-- Is a page pinned by a running schedule (R198)? -/
def State.schedPins (s : State) (page : Nat) : Bool :=
  s.tier.scheds.any fun e => e.2.st == 1 && e.2.pinned.any fun k => e.2.layerHas (e.2.layerOf k) page

/-- Is a page pinned? -/
def State.isPinned (s : State) (page : Nat) : Bool :=
  (look s.tier.pins page).isSome || s.schedPins page || (look s.tier.peerPins page).isSome

/-- Chunks that an account pins: by PAGE_PIN, and by the budgets of its running schedules (R184). -/
def State.pinnedOf (s : State) (a : Nat) : Nat :=
  sumOf (s.tier.pins.filter fun e => e.2 == a) (fun e => (s.pme e.1).len)
    + sumOf (s.tier.scheds.filter fun e => e.2.st == 1 && e.2.acct == a) (fun e => e.2.budget)

/-- Is a page evictable (R182)? A page whose far program or recode is still pending is not. -/
def State.evictable (s : State) (page : Nat) (p : Pme) : Bool :=
  (p.st == .near || p.st == .both) && !s.isPinned page && (look s.tier.moves page).isNone && !s.farPending page
    && decide (s.acctNear p.acct > (s.acct p.acct).floor)

/-- Is any page evictable? -/
def State.anyEvictable (s : State) : Bool := s.tier.pmes.any fun e => s.evictable e.1 e.2

/-! ## Hook records (R191, R192, Table 5-3) -/

/-- A hook record from its fields. -/
def hookRec (kind acct cls flags epoch q8 cnt age st len n20 n24 : Nat) : Bytes :=
  toLe 1 kind ++ toLe 1 acct ++ toLe 1 cls ++ toLe 1 flags ++ toLe 4 epoch ++ toLe 8 q8 ++ toLe 1 cnt ++ toLe 1 age ++ toLe 1 st
    ++ toLe 1 len ++ toLe 4 n20 ++ toLe 4 n24 ++ zeros 4

/-- Is a record EPOCH or PRESSURE, which a full ring keeps? -/
def hookKept (r : Bytes) : Bool := byteAt r 0 == 0 || byteAt r 0 == 2

/-- A dropped hook record. -/
def State.hookDrop (s : State) : State := ((s.bump cntTier 9 1).intr 0x600028 5).post 0x0606 []

/-- Post a hook record: a full ring drops MISS and DONE records and keeps the newest of the others. -/
def State.hook (s : State) (r : Bytes) : State :=
  let add (n : Nat) (s : State) : State := s.onTier fun t => { t with hooks := t.hooks ++ [r], hookProd := t.hookProd + n }
  if s.tier.hooks.length < 4096 then add 1 s
  else if !hookKept r then s.hookDrop
  else
    let s := if s.tier.hooks.any (fun h => !hookKept h)
      then s.onTier fun t => { t with hooks := removeFirst (fun h => !hookKept h) t.hooks }
      else s.onTier fun t => { t with hooks := t.hooks.drop 1 }
    add 0 s.hookDrop

/-- TIER_NEAR.FREE: free near space in 64 KiB units. -/
def State.freeUnits (s : State) : Nat := s.nearFree / 512

/-- An EPOCH (0) or PRESSURE (2) record. -/
def State.hookSpace (s : State) (kind : Nat) : State :=
  s.hook (hookRec kind 0 0 0 (s.tier.epoch % 2 ^ 32) 0 0 0 0 0 s.freeUnits 0)

/-! ## Watermarks (R180) -/

/-- LOW and HIGH in chunks. -/
def State.lowMark (s : State) : Nat := s.fld 0x600010 9 0 * s.nearPool / 1024
def State.highMark (s : State) : Nat := s.fld 0x600010 25 16 * s.nearPool / 1024

/-- After a change of free near space: eviction starts below LOW and stops at HIGH; falling below LOW is recorded once. -/
def State.checkMark (s : State) : State :=
  let f := s.nearFree
  if f < s.lowMark then
    let s := s.onTier fun t => { t with evicting := true }
    if s.tier.pressure then s
    else (((s.onTier fun t => { t with pressure := true }).intr 0x600028 0).post 0x0601 []).hookSpace 2
  else
    let s := s.onTier fun t => { t with pressure := false }
    if f ≥ s.highMark then s.onTier fun t => { t with evicting := false } else s

/-- Space was needed and none is free; when no page is evictable this is recorded (chapter 5). -/
def State.noSpace (s : State) : State :=
  let s := s.onTier fun t => { t with evicting := true }
  if s.anyEvictable then s else (s.intr 0x600028 1).post 0x0602 []

/-- Release a page's near chunks. -/
def State.dropNear (s : State) (page : Nat) : State :=
  let p := s.pme page
  if hasNear p then (s.freeNear p.near).checkMark else s

/-! ## Moves (R174, R185) -/

/-- The holder number of the module entity. -/
def moduleHolder : Nat := 65535

/-- A move record. -/
def Move.mk0 (kind cls : Nat) (now : Nat) : Move :=
  { kind := kind, cls := cls, pull := false, raised := false, stream := false, staged := false, waitSpace := false, t0 := now,
    issued := false, revoked := false, near := 0, far := 0, done := false, missed := false, holder := moduleHolder }

def State.setMove (s : State) (page : Nat) (m : Option Move) : State := s.onTier fun t => { t with moves := putOpt t.moves page m }
def State.move (s : State) (page : Nat) : Option Move := look s.tier.moves page

/-- Charge a finished move to its account (R185). -/
def State.chargeMove (s : State) (a n : Nat) : State :=
  s.onSpc fun c => { c with accts := put c.accts a (let x := s.acct a; { x with moved := min (x.moved + n) (2 ^ 48 - 1) }) }

/-- Is a page in a layer of a running schedule (a stream-window page)? -/
def State.streamPage (s : State) (page : Nat) : Bool :=
  s.tier.scheds.any fun e => e.2.st == 1 && e.2.entries.any fun x => decide (x.1 ≤ page ∧ page < x.1 + x.2.1)

/-- Is a recode of a page in progress? -/
def State.recoding (s : State) (page : Nat) : Bool := s.husk.slots.any fun x => x.page == page && x.ph == .recoding

/-- Give a waiting promotion its near chunks: in full the page is promoting; a pull-through with no free chunks takes the staging
reserve and the page stays far (R186). A promotion without space waits. -/
def State.movePlace (s : State) (page : Nat) (m : Move) : State :=
  let p := s.pmeOf page
  match s.findNear none p.len (p.prot == 1) stagingChunks with
  | some a =>
    let s := (s.takeNear a p.len).setMove page (some { m with near := a, far := p.far, waitSpace := false })
    (s.setPme page { p with st := .promoting, near := a } false).checkMark
  | none =>
    let s := s.noSpace
    if m.pull then
      match s.findNear none p.len false 0 with
      | some a => (s.takeNear a p.len).setMove page (some { m with near := a, far := p.far, staged := true, waitSpace := false })
      | none => s.setMove page (some { m with waitSpace := true })
    else s.setMove page (some { m with waitSpace := true })

/-- Start a pull-through of a page in state far, for a read in a class (R187, R188, R192). -/
def State.startPull (s : State) (page cls : Nat) : State :=
  let p := s.pmeOf page
  let str := s.streamPage page
  let s := s.bump cntTier 3 1
  let flags := (if str then 1 else 0) + (if s.tier.missed.contains (page - 1) && extOf (page - 1) == extOf page && page != 0 then 2 else 0)
  let s := s.hook (hookRec 1 p.acct cls flags (s.tier.epoch % 2 ^ 32) (page % 2 ^ 38) (s.effCount p) (s.effAge p) (stCode p.st) p.len 0 0)
  let s := s.onTier fun t => { t with missed := addNew t.missed page }
  s.movePlace page { Move.mk0 0 cls s.now with pull := true, raised := str, stream := str }

/-- Near bytes of a far page are needed: its pull-through starts, also while a promotion of it waits for space; one that runs or waits is
joined (R35, R187, R189). -/
def State.needPull (s : State) (page cls : Nat) : State :=
  match s.move page with
  | none => s.startPull page cls
  | some m => if m.waitSpace && !m.pull then s.startPull page cls else s

/-- Is the far program of a demotion issued: its row is complete or programmed? -/
def State.progIssued (s : State) (page : Nat) (m : Move) : Bool :=
  m.issued && match s.itemOf page with
    | some (r, it) => s.rowFull r it
    | none => true

/-! ## Stream schedules inside a read or write (R199, R201) -/

/-- Change schedule i. -/
def State.modSched (s : State) (i : Nat) (f : Sched → Sched) : State := s.onTier fun t => { t with scheds := upd t.scheds i f }

/-- Keep the poison of a near husk that is about to be released or moved: the stored lines in poison form, or uncorrectable, take
entries of the poison list for their host lines (log entry 35). -/
def State.carryPoison (s : State) (page : Nat) : State :=
  let p := s.pme page
  let plain := s.isPlain p
  let g := s.nearGlume p
  s.each (List.range (2 * p.len)) fun s i =>
    let y := match s.huskLine p i with
      | .poisoned _ y => y
      | .uncorr => 1
      | .clean _ _ => 0
    if y = 0 ∨ i = 0 then s
    else if plain then (if i ≤ 64 then s.poisonLine (page * 64 + (i - 1)) y false else s)
    else match g with
      | none => s
      | some x =>
        s.each ((List.range 16).filter fun k => decide (64 + 16 * x.startOf k < 64 * (i + 1) ∧ 64 * i < 64 + 16 * x.endOf k)) fun s k =>
          s.each (List.range 4) fun s j => if (s.plistLine (page * 64 + 4 * k + j)).isSome then s else s.poisonLine (page * 64 + 4 * k + j) y false

/-- Discard the near copy of a page in state both that nothing pins. -/
def State.discardNear (s : State) (page : Nat) : State :=
  let p := s.pme page
  if p.st == .both && !s.isPinned page && (s.move page).isNone && !s.farPending page then
    (((s.carryPoison page).dropNear page).setPme page { p with st := .far, near := 0 } false).bump cntTier 2 1
  else s

/-- Release the pins of schedule i on the pages of a layer that other modules home; with `drop` their near copies go as well (R199). -/
def State.unpinAway (s : State) (i : Nat) (c : Sched) (k : Nat) (drop : Bool) : State :=
  s.each ((c.layerPages (c.layerOf k)).filter fun p => !s.homes p) fun s p =>
    s.emit (.copy (s.pageHome p) (.pin p (s.me * 32 + i) false drop))

/-- A running schedule of another module pins a page homed here, or releases it (R198, R199). -/
def State.peerPin (s : State) (page owner : Nat) (on drop : Bool) : State :=
  let l := ((look s.tier.peerPins page).getD []).filter (· != owner)
  let l := if on then l ++ [owner] else l
  let s := s.onTier fun t => { t with peerPins := putOpt t.peerPins page (if l.isEmpty then none else some l) }
  if drop then s.discardNear page else s

/-- End a schedule: 2 ended or stopped, 3 faulted; its pins are released and event 0x0609 posted. -/
def State.endSched (s : State) (i st : Nat) : State :=
  let s := match look s.tier.scheds i with
    | some c => s.each c.pinned fun s k => s.unpinAway i c k false
    | none => s
  (s.modSched i fun c => { c with st := st, pinned := [] }).post 0x0609 [(1, i)]

/-- The consumer of schedule i reaches absolute layer k: each layer that it reaches before its gate is late, each layer it passes is
unpinned, and without LOOP passing the last layer ends the schedule. -/
def State.consume (s : State) (i : Nat) (k : Nat) : State :=
  match look s.tier.scheds i with
  | none => s
  | some c0 =>
    if c0.st ≠ 1 ∨ k ≤ c0.abs then s
    else
      let loop := c0.flags.testBit 0
      let last := if loop then k else min k c0.layers
      let s := s.each ((List.range (last - c0.abs)).map (· + c0.abs + 1)) fun s n =>
        match look s.tier.scheds i with
        | none => s
        | some c =>
          let s := s.modSched i fun c => { c with pinned := c.pinned.filter (· != n - 1), pass := if loop then n / max c.layers 1 else 0,
                                                  c := if loop then n % max c.layers 1 else n }
          let s := if c.pinned.contains (n - 1) then s.unpinAway i c (n - 1) (c.flags.testBit 1) else s
          let s := if c.flags.testBit 1 then s.each (c.layerPages (c.layerOf (n - 1))) fun s p => s.discardNear p else s
          if !loop && decide (n ≥ c.layers) then s
          else if c.gated.contains n then
            s.modSched i fun c =>
              if c.drop ≠ 0 ∧ c.onTime + 1 ≥ c.drop then { c with lead := max c.leadMin (c.lead - 1), onTime := 0 }
              else { c with onTime := c.onTime + 1 }
          else
            let lead := min (c.lead + 1) c.leadMax
            let s := s.modSched i fun c => { c with lead := lead, onTime := 0, late := min (c.late + 1) (2 ^ 32 - 1) }
            (s.intr 0x600028 3).post 0x0604 [(1, i), (2, c.layerOf n), (2, n / max c.layers 1), (1, lead)]
      if !loop && decide (k ≥ c0.layers) then s.endSched i 2 else s

/-- A read with a consumer label reaches a page (R199). -/
def State.consumeRead (s : State) (page label ld : Nat) : State :=
  s.each s.tier.scheds fun s e =>
    let c := e.2
    if c.st = 1 ∧ c.label = label ∧ c.ld = ld then
      match c.entries.find? (fun x => decide (x.1 ≤ page ∧ page < x.1 + x.2.1) && decide (x.2.2 > c.c)) with
      | some x => s.consume e.1 (c.pass * c.layers + x.2.2)
      | none => s
    else s

/-- A CONSUMER word was written on a gate page (R199, Table 5-7). -/
def State.consumeWord (s : State) (page : Nat) (w : Nat) : State :=
  s.each s.tier.scheds fun s e =>
    if e.2.st = 1 ∧ e.2.gatePage = page then s.consume e.1 (bits w 47 32 * e.2.layers + bits w 11 0) else s

/-- The class of a label of an LD of this module (R342); the identity map until it is set. -/
def State.classOf (s : State) (ld label : Nat) : Nat :=
  match look s.qos.lmap ld with
  | some w => bits w (3 * label + 2) (3 * label)
  | none => label

/-- The class of a label of a holder of any portal; another portal's maps are kept as it sent them (R341). -/
def State.classOfHolder (s : State) (h label : Nat) : Nat :=
  if holderMod h = s.me then s.classOf (holderLd h) label
  else match look s.qos.lmap (4096 + h) with
    | some w => bits w (3 * label + 2) (3 * label)
    | none => label

end Sys2Proof.Machine
end

