-- ==== Sys2Proof/Machine/QosBase.lean ====
section
/-! DEFINITION. Regulation as the other blocks use it (spec/10_qos.md): class parameters, published floors, the deliverable rate and
the scaling of reservations, metering, latency counts, and DevLoad. -/

namespace Sys2Proof.Machine

open Sys2Proof

/-! ## Classes (R342 to R344) -/

/-- The default parameters of a class (Table 10-1). -/
def ClassP.std : ClassP := { rank := 3, weight := 1, target := 0 }

/-- Parameters of a class of a holder. -/
def State.classP (s : State) (holder c : Nat) : ClassP :=
  (((look s.qos.classes holder).getD [])[c]?).getD ClassP.std

/-- The identity label map. -/
def lmapId : Nat := 0xFAC688

/-! ## Rates (Table 10-2, R352, R353) -/

/-- The published floor of a resource in MB/s. -/
def State.pubFloor (s : State) (r : Nat) : Nat :=
  if r < 8 then 112000
  else if r = 8 then (if s.isB then 1354000 else 1287000)
  else if r = 9 then 984000
  else if r = 10 then 738000
  else if r = 11 then 369000
  else if r = 12 then 184000
  else if r = 13 then (if s.isB then 103000 else 68000)
  else s.userBytes * s.dwpd / (100 * 86400 * 1000000)

/-- The record of a husk lane: 0 to 19 fixed-rate, 20 to 31 lossless. -/
def State.lane (s : State) (n : Nat) : Lane := (look s.husk.lanes n).getD ⟨false, 4096, []⟩

/-- Is a lane disabled by HSK_LANE_DIS (R157)? -/
def State.laneDis (s : State) (n : Nat) : Bool := (s.reg 0x500020).testBit n

/-- Dispatch share of a lane in 1/4,096 (R416). -/
def State.laneShare (s : State) (n : Nat) : Nat := if s.laneDis n then 0 else if (s.lane n).reduced then (s.lane n).ratio else 4096

/-- Live channels. -/
def State.liveChans (s : State) : Nat := ((List.range 96).filter fun n => s.chanUp n).length

/-- Dies fitted and live. -/
def State.fittedDies (s : State) : Nat := ((List.range s.dieCount).filter fun n => (s.die n).st ≠ 3).length
def State.liveDies (s : State) : Nat := ((List.range s.dieCount).filter fun n => decide ((s.die n).st ≤ 1)).length

/-- Width of a host port as metered: its lanes while it is up. -/
def State.portWidth (s : State) (p : Nat) : Nat :=
  match look s.host.ports p with
  | some x => if x.st = 2 then x.width else 16
  | none => 16

/-- The deliverable rate D of a resource as a fraction: published floor × the loss factors of Table 10-4. -/
def State.deliverRate (s : State) (r : Nat) : Nat × Nat :=
  let f := s.pubFloor r
  let t := s.pwr.throttle
  if r < 8 then (f * s.portWidth (r % 4), 16)
  else if r = 8 then (f * s.liveChans * t, 96 * 16)
  else if r ≤ 10 then (f * sumOf (List.range 20) s.laneShare * t, 20 * 4096 * 16)
  else if r ≤ 12 then (f * sumOf (List.range 12) (fun i => s.laneShare (20 + i)) * t, 12 * 4096 * 16)
  else if r = 13 then (f * s.liveDies * t, (max s.fittedDies 1) * 16)
  else (f * t, 16)

/-- D in MB/s. -/
def State.dRate (s : State) (r : Nat) : Nat := (s.deliverRate r).1 / (s.deliverRate r).2

/-- Admitted rate of a rank on a resource. -/
def State.admitted (s : State) (r k : Nat) : Nat :=
  sumOf ((vals s.qos.resv).filter fun x => x.res == r && (s.classP x.holder x.cls).rank == k) Resv.rate

/-- The scale factor of a rank on a resource, as a fraction (R353). -/
def State.scale (s : State) (r k : Nat) : Nat × Nat :=
  let (n, d) := s.deliverRate r
  let a1 := s.admitted r 1 * d
  let a2 := s.admitted r 2 * d
  let a3 := s.admitted r 3 * d
  let g1 := min a1 n
  let g2 := min a2 (n - g1)
  let g3 := min a3 (n - g1 - g2)
  let f (g a : Nat) : Nat × Nat := if a = 0 then (1, 1) else (g, a)
  if k = 1 then f g1 a1 else if k = 2 then f g2 a2 else f g3 a3

/-- A scale factor in 1/4,096. -/
def State.scale12 (s : State) (r k : Nat) : Nat := (s.scale r k).1 * 4096 / (s.scale r k).2

/-- The scaled rate of a reservation in MB/s. -/
def State.scaledRate (s : State) (x : Resv) : Nat :=
  let (n, d) := s.scale x.res (s.classP x.holder x.cls).rank
  x.rate * n / d

/-- Report what a change of a factor did to the scaling: `before` is the state ahead of the change (R353). -/
def State.rescaled (s before : State) : State :=
  s.each (List.range 15) fun s r =>
    let f := (List.range 3).map fun k => s.scale12 r (k + 1)
    if f = ((List.range 3).map fun k => before.scale12 r (k + 1)) || f.all (fun x => decide (x ≥ 4096)) then s
    else if (f[0]?).getD 4096 < 4096 then (s.intr 0xA00028 3).post 0x0904 []
    else (s.intr 0xA00028 2).post 0x0903 [(1, r), (8, s.dRate r), (2, (f[1]?).getD 0), (2, (f[2]?).getD 0)]

/-- The width of a host port that is up changes (R489): what it can deliver follows, interrupt status WIDTH, event 0x0102. -/
def State.hostWidth (s : State) (p w : Nat) : State :=
  match look s.host.ports p with
  | some x =>
    if x.st ≠ 2 ∨ x.width = w then s
    else (((s.onHost fun h => { h with ports := put h.ports p { x with width := w } }).intr 0x100028 1).post 0x0102 []).rescaled s
  | none => s

/-! ## Metering (R348, R354) -/

/-- The bucket of a reservation in thousandths of a byte, filled to now: at most the greater of 20 µs of its scaled rate and 4 KiB. -/
def State.bucket (s : State) (x : Resv) : Int :=
  let rate := s.scaledRate x
  min (x.bucket + ((s.now - x.filled) * rate : Nat)) ((max (20 * rate) 4096 * 1000 : Nat) : Int)

/-- Is a class of a holder within its reservation on a resource? -/
def State.within (s : State) (holder c r : Nat) : Bool :=
  s.qos.resv.any fun e => e.2.holder == holder && e.2.cls == c && e.2.res == r && decide (0 ≤ s.bucket e.2)

/-- The effective rank of a request at a resource (R350). -/
def State.effRank (s : State) (holder c r : Nat) : Nat := if s.within holder c r then (s.classP holder c).rank else 4

/-- The monitor record of a class. -/
def State.latOf (s : State) (holder c : Nat) : Lat :=
  (s.qos.lat.find? fun x => x.holder == holder && x.cls == c).getD ⟨holder, c, 0, 0, 0, 0, false, 0, 0⟩

/-- Change the monitor record of a class. -/
def State.modLat (s : State) (holder c : Nat) (f : Lat → Lat) : State :=
  s.onQos fun q =>
    if q.lat.any fun x => x.holder == holder && x.cls == c then
      { q with lat := replaceFirst (fun x => x.holder == holder && x.cls == c) f q.lat }
    else { q with lat := q.lat ++ [f ⟨holder, c, 0, 0, 0, 0, false, 0, 0⟩] }

/-- Bytes of a class arrive at a resource: the demand of its reservation grows. -/
def State.demand (s : State) (holder c r n : Nat) : State :=
  s.onQos fun q => { q with resv := q.resv.map fun e =>
    if e.2.holder = holder ∧ e.2.cls = c ∧ e.2.res = r then (e.1, { e.2 with demand := e.2.demand + n }) else e }

/-- An arbiter of a resource grants bytes of a class: its bucket is debited and they count as delivered. -/
def State.grant (s : State) (holder c r n : Nat) : State :=
  let s := s.onQos fun q => { q with resv := q.resv.map fun e =>
    if e.2.holder = holder ∧ e.2.cls = c ∧ e.2.res = r then
      (e.1, { e.2 with bucket := s.bucket e.2 - (n * 1000 : Nat), filled := s.now, deliv := e.2.deliv + n })
    else e }
  if s.qos.resv.any fun e => e.2.holder == holder && e.2.cls == c && e.2.res == r then s.modLat holder c fun x => { x with deliv := x.deliv + n }
  else s

/-- A request that arrives and is granted at once. -/
def State.meter (s : State) (holder c r n : Nat) : State := (s.demand holder c r n).grant holder c r n

/-! ## Latency and DevLoad (R356, R357) -/

/-- A request of a class completes after so many nanoseconds. -/
def State.finished (s : State) (holder c ns : Nat) : State :=
  let t := (s.classP holder c).target
  if t = 0 then s
  else
    let late := if ns > t * 10 then 1 else 0
    s.modLat holder c fun x => { x with done := x.done + 1, late := x.late + late, lateSum := min (x.lateSum + late) (2 ^ 32 - 1) }

/-- DevLoad of a response: 0 light, 1 optimal, 2 moderate overload, 3 severe overload (Table 10-6). -/
def State.devLoad (s : State) (holder c ns : Nat) : Nat :=
  let t := (s.classP holder c).target * 10
  let mine := s.qos.resv.filter fun e => e.2.holder == holder && e.2.cls == c
  if mine.any (fun e => e.2.missed) || (t != 0 && decide (ns > 2 * t)) then 3
  else if (t != 0 && decide (ns > t)) || mine.any (fun e => decide (s.scaledRate e.2 < e.2.rate)) then 2
  else if t != 0 && decide (2 * ns > t) then 1
  else 0

end Sys2Proof.Machine
end

