-- ==== Sys2Proof/Machine/Merge.lean ====
section
/-! DEFINITION. The merge buffer and the recode of a page (spec/04_husk_compression.md R158 to R163, spec/12_integrity.md R394, R399
and R539, spec/02_memory_space.md R81). -/

namespace Sys2Proof.Machine

open Sys2Proof

/-! ## Slots (R158) -/

/-- Slots for the module's own pages, and for twin copies. -/
def State.slotCap (s : State) : Nat := if s.hdg.bench then 4096 else 3840
def twinCap : Nat := 256

/-- Is a slot of a kind FREE? -/
def State.slotFree (s : State) (twin : Bool) : Bool :=
  let used := (s.husk.slots.filter fun x => x.twin == twin).length
  if twin then decide (used < twinCap) else decide (used < s.slotCap)

/-- The slots of a page in the order that their lines merge: RECODING, closed, OPEN. -/
def State.slotsOf (s : State) (page : Nat) : List Slot :=
  let l := s.husk.slots.filter fun x => x.page == page
  l.filter (fun x => x.ph == .recoding) ++ l.filter (fun x => x.ph == .closed) ++ l.filter (fun x => x.ph == .opened)

/-- A slot by its number. -/
def State.slotById (s : State) (i : Nat) : Option Slot := s.husk.slots.find? fun x => x.id == i
def State.modSlot (s : State) (i : Nat) (f : Slot → Slot) : State :=
  s.onHusk fun h => { h with slots := replaceFirst (fun x => x.id == i) f h.slots }
def State.freeSlot (s : State) (i : Nat) : State := s.onHusk fun h => { h with slots := removeFirst (fun x => x.id == i) h.slots }

/-- An empty line. -/
def SLine.empty : SLine := ⟨0, zeros 64, 0, zeros 64⟩

/-- Bytes of a write stored in a line: visible ones go over what is there, hidden ones over other hidden ones (R103, R104). -/
def SLine.store (l : SLine) (hidden : Bool) (mask : Nat) (d : Bytes) : SLine :=
  if hidden then { l with hmask := l.hmask ||| mask, hdata := mergeBytes mask d l.hdata }
  else { l with mask := l.mask ||| mask, data := mergeBytes mask d l.data }

/-- Hidden bytes become visible (R104). -/
def SLine.reveal (l : SLine) : SLine := { mask := l.mask ||| l.hmask, data := mergeBytes l.hmask l.hdata l.data, hmask := 0, hdata := zeros 64 }

/-- The line of a slot. -/
def Slot.line (x : Slot) (j : Nat) : SLine := (look x.lines j).getD SLine.empty

/-- Does the slot hold a line, or hold it whole? -/
def Slot.has (x : Slot) (j : Nat) : Bool := (x.line j).mask != 0 || (x.line j).hmask != 0
def Slot.whole (x : Slot) (j : Nat) : Bool := (x.line j).mask == fullMask
def Slot.wholePage (x : Slot) : Bool := (List.range 64).all x.whole

/-- Is a page's extent durable? -/
def State.durablePage (s : State) (page : Nat) : Bool := match s.extent page with
  | some x => x.durable
  | none => false

/-- Close a slot. -/
def State.closeSlot (s : State) (i : Nat) : State := s.modSlot i fun x => { x with ph := .closed }

/-- The Count and Full conditions of Table 4-11. A twin slot closes only at its marker (R160). -/
def State.closeCheck (s : State) (i : Nat) : State :=
  match s.slotById i with
  | none => s
  | some x =>
    if x.twin || x.ph != .opened || x.bg then s
    else
      let n := x.lines.length
      let front := (keys x.lines) == List.range n
      if x.wholePage || (decide (n ≥ s.fld 0x500010 6 0) && !front) then s.closeSlot i else s

/-- Take a FREE slot for a page. -/
def State.takeSlot (s : State) (page : Nat) (twin bg : Bool) : State :=
  let i := s.nextId + 1
  let x : Slot := { id := i, page := page, ph := .opened, twin := twin, bg := bg, seq := 0, lines := [], tFirst := s.now, built := none }
  ({ s with nextId := i }).onHusk fun h => { h with slots := h.slots ++ [x] }

/-- The OPEN slot of a page, of the kind named: the one that takes its new lines. A slot that has closed stays the page's OPEN one, and takes lines,
until it becomes RECODING, so that a page has one OPEN slot (R158; log entry 93); a twin's ends at its marker (R160). -/
def State.openSlot (s : State) (page : Nat) (twin : Bool) : Option Slot :=
  s.husk.slots.find? fun x => x.page == page && x.twin == twin && (x.ph == .opened || (x.ph == .closed && !twin))

/-- Is a slot one that a recovery fills from the twin (R399)? -/
def Slot.fills (x : Slot) : Bool := x.bg && x.ph == .opened

/-- The Needed condition (Table 4-11): the OPEN slot whose first line is oldest closes. -/
def State.closeOldest (s : State) : State :=
  match argMin (fun x => x.tFirst) (s.husk.slots.filter fun x => x.ph == .opened && !x.twin && !x.bg) with
  | some x => s.closeSlot x.id
  | none => s

/-- Store bytes of a line of a page: the number of the slot that took them, or 0 when no slot is FREE. -/
def State.slotStore (s : State) (page j mask : Nat) (d : Bytes) (hidden twin : Bool) : State × Nat :=
  let s := match s.openSlot page twin with
    | some _ => s
    | none => if s.slotFree twin then s.takeSlot page twin false else s
  match s.openSlot page twin with
  | none => (s, 0)
  | some x =>
    let s := s.modSlot x.id fun y => { y with lines := put y.lines j ((y.line j).store hidden mask d) }
    (s.closeCheck x.id, x.id)

/-- A write found no FREE slot (chapter 4). -/
def State.slotWait (s : State) : State := (((s.closeOldest).bump cntHsk 3 1).intr 0x500028 2).post 0x0506 []

/-- The visible bytes of a line over all slots of a page. -/
def State.slotLine (s : State) (page j : Nat) : Nat × Bytes :=
  (s.slotsOf page).foldl (fun acc x => let l := x.line j; (acc.1 ||| l.mask, mergeBytes l.mask l.data acc.2)) (0, zeros 64)

/-! ## How an extent encodes (R126, R148, R421) -/

/-- The key slot of an extent (R421). -/
def keySlotOf (x : Extent) : Nat := match x.kind with
  | .priv => x.acct
  | _ => 256 + x.acct

/-- Encoding of a page of an extent now. -/
def State.encOf (s : State) (x : Extent) : EncP :=
  let t := look s.husk.tables x.tslot
  { cls := x.cls, elem := x.elem, bxk := bxK x.bxk, stoch := x.stoch, slot := if isExp x.cls then x.tslot else 0,
    gen := if isExp x.cls then (match t with | some t => t.gen | none => 0) else 0,
    lens := match t with | some t => t.lens | none => [],
    keySlot := keySlotOf x, key := (s.keyOf (keySlotOf x)).getD 0, prot := x.prot, mat := x.cls == 12 }

/-! ## One grain of a recode (R161, R162, R394, R539) -/

/-- What a recode starts from. -/
inductive Base where
  | zero
  | lost (synd : Nat)
  | husk (x : Glume)
  deriving DecidableEq, Repr

/-- A grain on its way into the new husk: its stored form where it is copied, or its host bytes with the written mask and the old
plaintext of the same encoding; the syndromes of host lines that stay poisoned; the syndrome of a copied grain; a failed decode. -/
structure GIn where
  copy : Option SGrain
  rawSynd : Option Nat
  host : Bytes
  mask : Nat
  old : Option Bytes
  pois : List (Nat × Nat)
  fail : Option (Nat × Nat)
  fixed : Nat
  deriving DecidableEq, Repr

/-- Does a new husk keep the encoding of an old one, so that grains may be copied (Table 4-12, step 3)? -/
def keepsEnc (x : Glume) (e : EncP) : Bool :=
  x.cls == e.cls && x.slot == e.slot && x.gen == e.gen && x.key == e.keySlot && !x.fallback && x.mat == e.mat

/-- The merged bytes and mask of a grain's four lines in a slot. -/
def grainWrites (lines : FMap SLine) (g : Nat) : Nat × Bytes :=
  (List.range 4).foldl (fun acc i =>
    let l := (look lines (4 * g + i)).getD SLine.empty
    (acc.1 ||| l.mask * 2 ^ (64 * i), acc.2 ++ l.data)) (0, [])

/-- Mask of one of a grain's lines. -/
def lineMask (m i : Nat) : Nat := bits m (64 * i + 63) (64 * i)

/-- The syndromes of rebuilt lines (R539). -/
def rebuiltLines (g m synd : Nat) : List (Nat × Nat) :=
  (List.range 4).filterMap fun i =>
    let w := lineMask m i
    if w = fullMask then none else some (4 * g + i, if w = 0 then synd else 7)

/-- Stored bytes of a grain of a near husk as they lie, with the worst syndrome of their lines. -/
def State.storedGrain (s : State) (p : Pme) (x : Glume) (g : Nat) : Bytes × Option Nat :=
  let b := 64 + 16 * x.startOf g
  let e := 64 + 16 * x.endOf g
  if b = e then ([], none)
  else
    let ls := (List.range ((e + 63) / 64 - b / 64)).map fun i => s.huskLine p (b / 64 + i)
    let d := ls.flatMap fun l => match l with
      | .clean d _ => d
      | .poisoned d _ => d
      | .uncorr => zeros 64
    let y := ls.findSome? fun l => match l with
      | .clean _ _ => none
      | .poisoned _ y => some y
      | .uncorr => some 1
    ((d.drop (b % 64)).take (e - b), y)

/-- Take one grain through steps 3 and 4 of Table 4-12. `may` says whether stored forms may be copied. -/
def State.grainIn (s : State) (page : Nat) (p : Pme) (base : Base) (e : EncP) (lines : FMap SLine) (may : Bool) (g : Nat) : GIn :=
  let (m, w) := grainWrites lines g
  let from0 (d : Bytes) (old : Option Bytes) (pois : List (Nat × Nat)) (fail : Option (Nat × Nat)) (f : Nat) : GIn :=
    ⟨none, none, mergeBytes m w d, m, old, pois, fail, f⟩
  if (List.range 4).all (fun i => lineMask m i == fullMask) then from0 (zeros 256) none [] none 0
  else
    match base with
    | .zero => from0 (zeros 256) none [] none 0
    | .lost y => from0 (zeros 256) none (rebuiltLines g m y) none 0
    | .husk x =>
      let keep := keepsEnc x e
      let (st, raw) := s.storedGrain p x g
      let crc := (x.gcrc[g]?).getD 0
      if x.cls = 0 ∧ ¬ x.fallback then
        let ls := (List.range 4).map fun i => s.plainLine page p (4 * g + i)
        let d := ls.flatMap fun r => match r with
          | .ok d _ _ => d
          | .bad _ _ => zeros 64
        let f := sumOf ls fun r => match r with
          | .ok _ _ f => f
          | .bad _ _ => 0
        let pois := (List.range 4).filterMap fun i => match ls[i]? with
          | some (GrainRes.bad y _) => if lineMask m i = fullMask then none else some (4 * g + i, if lineMask m i = 0 then y else 7)
          | _ => none
        if m = 0 ∧ keep ∧ may then { from0 d none pois none f with copy := some ⟨st, crc⟩ }
        else from0 d none pois none f
      else if m = 0 ∧ keep ∧ may then { from0 (zeros 256) none [] none 0 with copy := some ⟨st, crc⟩, rawSynd := raw }
      else
        match s.nearGrain page p g true with
        | .ok d plain f => from0 d (if keep then some plain else none) [] none f
        | .bad y c =>
          let fail := if c ≤ 4 ∧ y = 9 then some (y, c) else none
          if keep ∧ may then { from0 (zeros 256) none [] fail 0 with copy := some ⟨st, crc⟩, rawSynd := some y }
          else from0 (zeros 256) none (rebuiltLines g m y) fail 0

/-- The stored form of a grain. -/
def GIn.store (x : GIn) (e : EncP) (raw : Bool) (seq page g : Nat) : SGrain :=
  match x.copy with
  | some c => c
  | none =>
    let plain := if raw then x.host else grainPlain e seq page g x.host x.mask x.old
    -- GCRC covers the bytes that the grain decodes to (R122): after quantisation these are not the host's
    let back := if raw || e.mat || e.cls == 0 then x.host else match grainHost e.cls e.elem e.bxk e.lens plain with
      | .ok d => d
      | .error _ => x.host
    ⟨cryptGrain false e.key page g plain, crc16 back⟩

/-! ## The new husk -/

/-- A husk built from its grains, with the stored lines that are in poison form and the host lines that take list entries. -/
def mkHusk (e : EncP) (fb : Bool) (seq : Nat) (ins : List GIn) (gs : List SGrain) : Husk :=
  let b := huskBytes e fb seq gs
  let x := Glume.parse (b.take 64)
  let plain := e.cls == 0
  let pois := ins.flatMap GIn.pois
  let rawG := (List.range 16).flatMap fun g => match (ins[g]?).bind GIn.rawSynd with
    | some y =>
      let lo := (64 + 16 * x.startOf g) / 64
      let hi := (64 + 16 * x.endOf g + 63) / 64
      (List.range (hi - lo)).map fun i => (lo + i, y)
    | none => []
  { chunks := b.length / 128, bytes := b, fallback := fb, cls := e.cls, slot := e.slot, gen := e.gen, mat := e.mat, seq := seq,
    copied := (ins.filter fun i => i.copy.isSome).length,
    poison := if plain then [] else pois, raw := if plain then pois.map fun q => (1 + q.1, q.2) else rawG }

/-- Build a page's new husk (Table 4-12 steps 3 to 6, R143): grains as they come, or all raw as a fallback. -/
def State.buildHusk (s : State) (page : Nat) (p : Pme) (base : Base) (e : EncP) (lines : FMap SLine) (seq : Nat) : Husk × List GIn :=
  let mk (may raw : Bool) : Husk × List GIn :=
    let ins := (List.range 16).map fun g => s.grainIn page p base e lines may g
    let gs := (List.range 16).map fun g => match ins[g]? with
      | some i => i.store e raw seq page g
      | none => ⟨[], 0⟩
    (mkHusk e raw seq ins gs, ins)
  let r := mk true false
  if isLossless e.cls ∧ r.1.chunks ≥ 33 then mk false true else r

/-! ## Overage (R81, R82) -/

/-- The term of a written lossless page in O: stored length less D. -/
def State.overTerm (s : State) (page : Nat) (p : Pme) : Int :=
  match s.extent page with
  | some x => if isLossless x.cls && p.len != 0 && p.st != .poisoned then (p.len : Int) - x.d else 0
  | none => 0

/-- O of an account. -/
def State.overage (s : State) (a : Nat) : Int :=
  (s.tier.pmes.filter fun e => e.2.acct == a).foldl (fun t e => t + s.overTerm e.1 e.2) 0

/-- What the emergency reserve supplies to an account whose O is o. -/
def emergOf (o : Int) (z : Nat) : Nat := (o - z).toNat

/-- The emergency reserve in chunks: 1 % of the user capacity (R76). -/
def State.emergSize (s : State) : Nat := s.userChunks / 100

/-- Chunks supplied to all accounts. -/
def State.emergUsed (s : State) : Nat := sumOf s.spc.accts fun e => emergOf (s.overage e.1) e.2.z

/-- Can the reserves supply a page whose overage term becomes t (R81)? -/
def State.capacityOk (s : State) (page : Nat) (p : Pme) (t : Int) : Bool :=
  let a := p.acct
  let o := s.overage a
  let o' := o - s.overTerm page p + t
  let z := (s.acct a).z
  decide (emergOf o' z ≤ emergOf o z) || decide (s.emergUsed - emergOf o z + emergOf o' z ≤ s.emergSize)

/-- Bran level of an overage o against a reserve z (R81). -/
def branOf (o z : Int) : Int := if o > 0 then z - o else z

/-- Bran events (Table 2-10) of what happens to an account: its level falls below an eighth of Z, or O comes to exceed Z. -/
def State.branWatch (s : State) (a : Nat) (f : State → State) : State :=
  let o := s.overage a
  let z := ((s.acct a).z : Int)
  let t := f s
  let o' := t.overage a
  let z' := ((t.acct a).z : Int)
  let t := if decide (8 * branOf o z ≥ z) && decide (8 * branOf o' z' < z') then (t.intr 0x300028 2).post 0x0308 [] else t
  if decide (o ≤ z) && decide (o' > z') then (t.intr 0x300028 3).post 0x0309 [] else t

/-! ## Recovery of near data (R399) -/

/-- Fetch the 64 lines of a page from its twin into its OPEN slot, under the lines that the slot holds; the whole page is then recoded (R399,
source 2). -/
def State.fetchTwin (s : State) (page : Nat) : State :=
  let s := match s.openSlot page false with
    | some x => s.modSlot x.id fun y => { y with bg := true, ph := .opened }
    | none => s.takeSlot page false true
  s.each (List.range 64) fun s j =>
    let i := s.nextId + 1
    let sa := pageSa page + 64 * j
    let r : Req := { id := i, src := .mover 16, op := .rd, sa := sa, label := 7, holder := 4096, mv := .invalid, mask := 0, data := [],
                     t0 := s.now, tAcc := s.now, waits := [.remote (twinOf s.me)], stored := false, slot := 0, mirrorTag := 0,
                     dropped := false, par := s.classP moduleHolder 7 }
    ({ s with nextId := i, reqs := s.reqs ++ [r] }).emit (.msg .rd
      { dst := Fin.ofNat 64 (twinOf s.me), src := Fin.ofNat 64 s.me, label := 7, holder := 0, tag := i % 65536, cxl := 1, synd := 0,
        addr := sa, data := [] })

/-- Reconstruct every uncorrectable stored line of a page from its parity stripe and store the page in new chunks (R399, R403):
false when the stripe cannot. -/
def State.fromParity (s : State) (page : Nat) : State × Bool :=
  let p := s.pme page
  let ls := (List.range (2 * p.len)).map fun i =>
    match s.huskLine p i with
    | .uncorr => s.rebuildLine (p.near * 2 + i)
    | _ => some (s.nearLine (p.near * 2 + i))
  if ls.any Option.isNone then ((s.intr 0xC00028 5).intError 0x0B04 8 (pageSa page) [], false)
  else
    let s := s.suggestRun p
    match s.findNear none p.len true stagingChunks with
    | none =>
      let s := s.each (List.range (2 * p.len)) fun s i => match (ls[i]?).join with
        | some d => s.writeLine (p.near * 2 + i) d
        | none => s
      ((s.bump cntInt 3 p.len).post 0x0B03 [], true)
    | some a =>
      let s := s.takeNear a p.len
      let s := s.each (List.range (2 * p.len)) fun s i => match (ls[i]?).join with
        | some d => s.writeLine (a * 2 + i) d
        | none => s
      let s := (s.freeNear p.near).setPme page { p with near := a } false
      ((s.bump cntInt 3 p.len).post 0x0B03 [], true)

/-- A page is wholly lost: it is poisoned with a syndrome and its chunks released (Table 5-2). -/
def State.losePage (s : State) (page synd : Nat) : State :=
  let p := s.pme page
  let s := (s.dropNear page).clearPage page
  let s := (s.branWatch p.acct fun s => s.setPme page { p with st := .poisoned, near := 0, far := 0, len := 0 } false).poisonPageEntry page synd
  if hasFar p then s.freeFar p.far p.len else s

/-- How a recovery ended: nothing to recover from, the data is readable now, a pull-through runs, the twin's lines are being
fetched, or a slot is needed first. -/
inductive Recov where
  | none
  | now
  | pull
  | twin
  | slot
  deriving DecidableEq, Repr

/-- Recover a page whose near husk has an uncorrectable line from the first source that exists (R399). -/
def State.recover (s : State) (page cls : Nat) : State × Recov :=
  let p := s.pme page
  if p.st == .both && !s.farPending page && (s.move page).isNone then
    let s := (s.suggestRun p).dropNear page
    let s := s.setPme page { p with st := .far, near := 0 } false
    ((s.startPull page cls).uncorrNear page outRefetched, .pull)
  else if p.prot = 2 ∧ s.twinLive ∧ s.ownPage page then
    if (s.slotsOf page).any Slot.fills then (s, .twin)
    else if s.slotFree false || (s.openSlot page false).isSome then (((s.suggestRun p).fetchTwin page).uncorrNear page outTwin, .twin)
    else (s.closeOldest, .slot)
  else if p.prot = 1 then
    let (s, ok) := s.fromParity page
    if ok then (s.uncorrNear page outRebuilt, .now) else (s.uncorrNear page outPoisoned, .none)
  else
    let s := s.uncorrNear page outPoisoned
    (match s.huskLine p 0 with
     | .uncorr => s.losePage page (if (s.chan (chanOf p.near)).st == 2 then 8 else 1)
     | _ => s, .none)

/-! ## Recode (R161, Table 4-12) -/

/-- The whole stored husk of a page when every line of it reads. -/
def State.wholeHusk (s : State) (p : Pme) : Option Bytes :=
  match joinLines ((List.range (2 * p.len)).map fun i => s.huskLine p i) with
  | .clean d _ => some d
  | _ => none

/-- Does a page's near husk have an uncorrectable line? -/
def State.hasUncorr (s : State) (p : Pme) : Bool := (List.range (2 * p.len)).any fun i => s.huskLine p i == .uncorr

/-- What a recode of a page starts from. -/
def State.baseOf (s : State) (page : Nat) : Base :=
  let p := s.pmeOf page
  match p.st with
  | .poisoned => .lost (s.pageSynd page)
  | .unwritten => .zero
  | .virt => .zero
  | _ => match s.nearGlume p with
    | some x => .husk x
    | none => .lost 1

/-- SEQ of the husk that a slot is recoded into: the one its close marker stamped, else the next (R125, R160). -/
def State.slotSeq (s : State) (page : Nat) (x : Slot) : Nat := if x.twin && x.seq != 0 then x.seq else nextSeq (s.pmeOf page).seq

/-- The counters and events of the reads and decodes of a recode (Table 4-12 steps 2 to 4). -/
def State.noteGrains (s : State) (page : Nat) (ins : List GIn) : State :=
  let s := s.corrected (sumOf ins GIn.fixed)
  let s := s.each ((List.range 16).filterMap fun g => ((ins[g]?).bind GIn.fail).map fun f => (g, f)) fun s q => s.decFail page q.1 q.2.1 q.2.2
  let pw := (ins.filter fun i => i.fixed != 0 && i.mask != 0).length
  if pw = 0 then s else (s.bump cntInt 2 pw).post 0x0B01 []

/-- A husk passed the capacity test and is to be stored: grains copied, and a fallback page (R143, R167). -/
def State.noteHusk (s : State) (h : Husk) : State :=
  let s := s.bump cntHsk 5 h.copied
  if h.fallback then (s.bump cntHsk 1 1).post 0x0504 [] else s

/-- Abandon a recode for want of capacity (chapter 2): the slot's lines are dropped and poisoned 0x0B. The writes of the slot have completed before
(R36); a durable one has not, and the manual does not say what becomes of it: its far condition is never met and it does not complete (DESIGN
CHOICE, log entry 94). -/
def State.capExhausted (s : State) (page : Nat) (x : Slot) : State :=
  let s := s.freeSlot x.id
  let s := s.each (keys x.lines) fun s j => s.poisonLine (page * 64 + j) 0x0B false
  ((s.bump cntSpc 3 1).intr 0x300028 4).post 0x030B []

/-- Is a syndrome that the list holds for a line cleared by the writes of a slot (Table 12-1, "Cleared by")? -/
def clearsLine (plain : Bool) (x : Slot) (j synd : Nat) : Bool :=
  let line := x.whole j
  let grain := (List.range 4).all fun i => x.whole (4 * (j / 4) + i)
  if synd = 1 ∨ synd = 9 then (if plain then line else grain)
  else if synd = 6 ∨ synd = 8 then x.wholePage
  else if synd = 0x0B then (x.line j).mask != 0
  else line

/-- The poison list after a recode stored a slot's lines: entries cleared, a partial write onto a listed line becomes 0x07, and the
rebuilt lines are listed, those with 0x07 last. -/
def State.recodePoison (s : State) (page : Nat) (x : Slot) (h : Husk) : State :=
  let s := if h.poison.isEmpty && (s.plistPage page).isNone then s else s.plistDrop fun q => q.page && q.addr == page
  let s := s.each (s.pagePoison page) fun s q =>
    if clearsLine (h.cls == 0) x q.1 q.2 then s.clearLine (page * 64 + q.1)
    else if (x.line q.1).mask != 0 then s.poisonLine (page * 64 + q.1) 7 false
    else s
  s.each (h.poison.filter (fun q => q.2 != 7) ++ h.poison.filter (fun q => q.2 == 7)) fun s q => s.poisonLine (page * 64 + q.1) q.2 false

/-- Send the close marker of a mirrored page's slot to the twin (R160). -/
def State.sendClose (s : State) (page seq : Nat) : State :=
  s.emit (.msg .close { dst := Fin.ofNat 64 (twinOf s.me), src := Fin.ofNat 64 s.me, label := 7, holder := 0, tag := 0, cxl := 0, synd := 0,
                        addr := pageSa page, data := fit 32 (toLe 4 seq) })

/-- Store a built husk: chunks written, page map entry updated, old chunks released, journal record sent (Table 4-12 steps 7 and 8,
Table 5-2). `durable` pages are also appended to the host band and enter state both. False when no free chunks are left. -/
def State.storeHusk (s : State) (page : Nat) (h : Husk) (id : Nat) (durable : Bool) : State × Bool :=
  let p := s.pmeOf page
  let prefer := if hasNear p then some (chanOf p.near) else none
  match s.findNear prefer h.chunks (p.prot == 1) stagingChunks with
  | none => (s.noSpace, false)
  | some a =>
    let (s, far) := if durable then
        s.farAppend false { id := id, page := page, far := 0, why := 1, t0 := s.now, old := p.far, oldLen := if hasFar p then p.len else 0,
                              bytes := h.bytes }
      else (s, some 0)
    match far with
    | none => (s.noSpace, false)
    | some far =>
      let s := s.takeNear a h.chunks
      let s := s.writeHusk a h.bytes h.raw
      let s := if p.prot = 1 then s.applyDeltas a h.chunks else s
      let s := if hasNear p then s.freeNear p.near else s
      let xt := s.extent page
      let p' : Pme := { p with st := if durable then .both else .near, len := h.chunks, near := a, far := far, seq := h.seq, mat := h.mat,
                               cls := match xt with | some x => x.cls | none => p.cls,
                               slot := h.slot, gen := h.gen }
      let s := s.branWatch p.acct fun s => s.setPme page p' durable
      let s := if hasFar p && !durable then s.freeFar p.far p.len else s
      (s.checkMark, true)

end Sys2Proof.Machine
end

