-- ==== Sys2Proof/Machine/Route.lean ====
section
/-! DEFINITION. Routes over the torus (spec/09_hedgerow.md R301, R316 to R319): neighbours, the directions a source chooses, usable routes, and
the channel of a hop. Ports 0 to 5 are X+, X−, Y+, Y−, Z+ and Z−; dimension d has ports 2 d and 2 d + 1. -/

namespace Sys2Proof.Machine

open Sys2Proof

/-- Ring size of a dimension. -/
def State.ringSize (s : State) (d : Nat) : Nat := if d < 2 then 4 else max s.hdg.formZ 1

/-- Coordinate of a module in a dimension. -/
def coordD (m d : Nat) : Nat := if d = 0 then coordX m else if d = 1 then coordY m else coordZ m

/-- A module with one coordinate replaced. -/
def withCoord (m d c : Nat) : Nat :=
  if d = 0 then c + 4 * coordY m + 16 * coordZ m else if d = 1 then coordX m + 4 * c + 16 * coordZ m else coordX m + 4 * coordY m + 16 * c

/-- The module that a port of a module leads to (R301). -/
def State.neighbour (s : State) (m p : Nat) : Nat :=
  let n := s.ringSize (p / 2)
  withCoord m (p / 2) (if p % 2 = 0 then (coordD m (p / 2) + 1) % n else (coordD m (p / 2) + n - 1) % n)

/-- Does a hop from a module over a port cross the wrap link of its ring (R319)? -/
def State.wraps (s : State) (m p : Nat) : Bool :=
  if p % 2 = 0 then coordD m (p / 2) + 1 == s.ringSize (p / 2) else coordD m (p / 2) == 0

/-- Is the link of a module's port up, as far as is known here? -/
def State.linkUp (s : State) (m p : Nat) : Bool :=
  !s.hdg.linksDown.contains (m, p) && !s.hdg.linksDown.contains (s.neighbour m p, p ^^^ 1)

/-- Are k hops from a module over one of its ports usable: every link and module live (R317)? -/
def State.usable (s : State) (p : Nat) : Nat → Nat → Bool
  | _, 0 => true
  | m, k + 1 => s.linkUp m p && s.isLive (s.neighbour m p) && s.usable p (s.neighbour m p) k

/-- Distance in a dimension (R316). -/
def State.dist (s : State) (a b d : Nat) : Nat :=
  (coordD b d + s.ringSize d - coordD a d) % s.ringSize d

/-- The direction that a source takes in a dimension from a module, where it has one: minimal unless that is not usable; `half` is its
choice for half a ring (true minus). The answer is true for minus. -/
def State.dirOf (s : State) (m dst d : Nat) (half : Bool) : Option Bool :=
  let n := s.ringSize d
  let k := s.dist m dst d
  if k = 0 then some false
  else
    let first := if 2 * k = n then half else decide (n < 2 * k)
    let hops (minus : Bool) : Nat := if minus then n - k else k
    let ok (minus : Bool) : Bool := s.usable (2 * d + if minus then 1 else 0) m (hops minus)
    if ok first then some first else if ok (!first) then some (!first) else none

/-- The directions of a route under an order of the dimensions, as the DIRS field (X in bit 2), when each dimension has one. -/
def State.dirsBy (s : State) (order : List Nat) (m dst : Nat) (half : Nat → Bool) : Option Nat :=
  (order.foldl (fun acc d => match acc with
    | none => none
    | some (at_, dirs) => match s.dirOf at_ dst d (half d) with
      | none => none
      | some minus => some (withCoord at_ d (coordD dst d), dirs + if minus then 2 ^ (2 - d) else 0)) (some (m, 0))).map Prod.snd

/-- The order and directions that this module, as the source, fixes for a destination: XYZ (0) where usable, else ZYX (1) (R316, R317). -/
def State.routeTo (s : State) (dst : Nat) (half : Nat → Bool) : Option (Nat × Nat) :=
  match s.dirsBy [0, 1, 2] s.me dst half with
  | some dirs => some (0, dirs)
  | none => (s.dirsBy [2, 1, 0] s.me dst half).map fun dirs => (1, dirs)

/-- Can a message reach a module: it is live and a usable route to it exists (R317)? -/
def State.canRoute (s : State) (m : Nat) : Bool :=
  m == s.me || (s.isLive m && (s.routeTo m fun _ => false).isSome)

/-- HDG_REACH: the modules that a usable route leads to. -/
def State.reachMask (s : State) : Nat :=
  if !s.hdg.formed then 0 else sumOf ((List.range s.hdg.size).filter s.canRoute) fun m => 2 ^ m

/-- The port and dateline bit of the next hop of a message at a module, from its order and directions; `came` is the dimension and dateline
bit that it arrived with (R319). None at the destination. -/
def State.nextHop (s : State) (m dst ord dirs : Nat) (came : Option (Nat × Nat)) : Option (Nat × Nat) :=
  match (if ord = 0 then [0, 1, 2] else [2, 1, 0]).find? fun d => coordD m d != coordD dst d with
  | none => none
  | some d =>
    let p := 2 * d + (if dirs.testBit (2 - d) then 1 else 0)
    let dl := match came with
      | some (d', b) => if d' = d then b else 0
      | none => 0
    some (p, if s.wraps m p then 1 else dl)

/-! ## Splits (R318) -/

/-- The split of a destination and dimension, 8 until the first is set. -/
def State.splitOf (s : State) (req : Bool) (dst d : Nat) : Nat :=
  (look (if req then s.hdg.reqSplits else s.hdg.splits) (dst * 4 + d)).getD 8

/-- Credits that a port's channels hold. -/
def HPort.credit (x : HPort) : Nat := x.credits.foldl (· + ·) 0

/-- The direction over half a ring: of a REQ or SNP message by bits [9:6] of its address; of an RSP or SYS message by the credits of the two
ports, within a split that allows both (true minus). -/
def State.halfDir (s : State) (dst : Nat) (req : Bool) (addr d : Nat) : Bool :=
  let k := s.splitOf req dst d
  if req then decide (k ≤ addr / 64 % 16)
  else if k = 0 then true
  else if k = 16 then false
  else
    let c (p : Nat) : Nat := (look s.hdg.ports p).elim 0 HPort.credit
    decide (c (2 * d) < c (2 * d + 1))

end Sys2Proof.Machine
end

