-- ==== Sys2Proof/Machine/Directory.lean ====
section
/-! DEFINITION. The coherence directory (spec/03_coherence.md R92 to R110): entries, allocation and set overflow, snoops and their
trackers, owner-lost lines. The requests themselves are in Sys2Proof/Machine/Home.lean. -/

namespace Sys2Proof.Machine

open Sys2Proof

/-! ## Addressing (R94) and the entry layout (Table 3-1) -/

def dirTag (l : Nat) : Nat := l / 2 ^ 18 % 2 ^ 26
def dirSet (l : Nat) : Nat := dirTag l % 6 * 262144 + l % 2 ^ 18

/-- The 64 bits of an entry. -/
def entBits (e : DirEnt) : Nat := e.tag * 2 ^ 38 + e.st * 2 ^ 36 + e.form * 2 ^ 35 + e.count * 2 ^ 32 + e.holders

/-- Holders of an entry in pointer form. -/
def ptrs (e : DirEnt) : List Nat := if e.form = 0 then ([e.holders % 4096, e.holders / 4096 % 4096].take e.count) else []

/-- An entry in pointer form. -/
def ptrEnt (tag st : Nat) (hs : List Nat) : DirEnt :=
  ⟨tag, st, 0, hs.length, (hs[0]?).getD 0 + 4096 * (hs[1]?).getD 0⟩

/-- Coarse bit of a holder: its module pair. -/
def pairBit (h : Nat) : Nat := 2 ^ (holderMod h / 2)

/-- Is a holder covered by an entry? -/
def covers (e : DirEnt) (h : Nat) : Bool := if e.form = 0 then (ptrs e).contains h else e.holders &&& pairBit h != 0

/-- Add a shared holder, converting to coarse form at the third (R97). A coarse entry counts a holder only when it sets its pair's bit (log
entry 89). -/
def addShared (e : DirEnt) (q : Nat) : DirEnt :=
  if covers e q then { e with st := 1 }
  else if e.form = 1 then { e with st := 1, count := min (e.count + 1) 7, holders := e.holders ||| pairBit q }
  else if e.count < 2 then ptrEnt e.tag 1 (ptrs e ++ [q])
  else { e with st := 1, form := 1, count := 3, holders := (ptrs e ++ [q]).foldl (fun a h => a ||| pairBit h) 0 }

/-- An entry without a holder: none when no pointer remains; a coarse entry keeps its bits. -/
def dropHolder (e : DirEnt) (h : Nat) : Option DirEnt :=
  if e.form = 1 then some e
  else
    let hs := (ptrs e).filter (· != h)
    if hs.isEmpty then none else some (ptrEnt e.tag (if e.st = 2 then 2 else 1) hs)

/-- An entry in pending state keeps the holders that owe a snoop response (R98), in coarse form the pairs of their modules. -/
def pendEnt (e : DirEnt) (hs : List Nat) : DirEnt :=
  if e.form = 0 then ptrEnt e.tag 3 hs
  else { e with st := 3, count := min hs.length 7, holders := hs.foldl (fun a h => a ||| pairBit h) 0 }

/-- The entry of a line: in its set, or moved to the victim buffer. -/
def State.dirEnt (s : State) (l : Nat) : Option DirEnt :=
  match ((look s.dir.sets (dirSet l)).getD []).find? fun e => e.tag == dirTag l with
  | some e => some e
  | none => (s.dir.vbuf.find? fun v => v.1 == l).map Prod.snd

/-- Put a line's entry in front of its set: it is the most recently used. -/
def State.dirPut (s : State) (l : Nat) (e : DirEnt) : State :=
  let ws := (look s.dir.sets (dirSet l)).getD []
  s.onDir fun d => { d with sets := put d.sets (dirSet l) (e :: ws.filter fun x => x.tag != e.tag) }

/-- Free a line's entry. -/
def State.dirDel (s : State) (l : Nat) : State :=
  let ws := ((look s.dir.sets (dirSet l)).getD []).filter fun x => x.tag != dirTag l
  s.onDir fun d => { d with sets := if ws.isEmpty then del d.sets (dirSet l) else put d.sets (dirSet l) ws,
                            vbuf := d.vbuf.filter fun v => v.1 != l }

/-- Change a line's entry where it stands, in its set or in the victim buffer. -/
def State.dirMod (s : State) (l : Nat) (f : DirEnt → DirEnt) : State :=
  s.onDir fun d => { d with sets := upd d.sets (dirSet l) fun ws => replaceFirst (fun x => x.tag == dirTag l) f ws,
                            vbuf := replaceFirst (fun v => v.1 == l) (fun v => (v.1, f v.2)) d.vbuf }

/-- Write or free. -/
def State.dirPutOpt (s : State) (l : Nat) : Option DirEnt → State
  | some e => s.dirPut l e
  | none => s.dirDel l

/-- Valid entries. -/
def State.dirValid (s : State) : Nat := sumOf (vals s.dir.sets) List.length

/-- The held-page mark of a mirrored shared page (R331): set when the directory first gains a holder in it. -/
def State.markHeld (s : State) (l : Nat) : State :=
  let page := l / 64
  match s.extent page with
  | some x =>
    if x.prot = 2 ∧ ¬ s.hdg.heldMarks.contains page then
      ({ s with hdg := { s.hdg with heldMarks := addNew s.hdg.heldMarks page } }).toTwin (.held page true) false
    else s
  | none => s

/-! ## Snoops (R98, R101) -/

/-- The LDs on some modules that are bound to a lease naming an extent: this module's by its own leases, another's as its portal has
reported them (log entry 12). -/
def State.ldsOn (s : State) (ms : List Nat) (e : Nat) : List Nat :=
  ms.flatMap fun m =>
    if m = s.me then (s.boundLds e).map (m * 64 + ·)
    else (s.spc.bound.filter fun b => b.1 == e && holderMod b.2 == m).map Prod.snd

/-- The holders that a snoop on an entry goes to, but for one (R97, R101). -/
def State.snoopTargets (s : State) (l : Nat) (e : DirEnt) (but : Nat) : List Nat :=
  (if e.form = 0 then ptrs e else s.ldsOn ((List.range 64).filter fun m => e.holders.testBit (m / 2)) (l / 2 ^ 24)).filter (· != but)

/-- Send a message into the fabric. -/
def State.send (s : State) (op : MOp) (dst label holder tag cxl synd addr : Nat) (data : Bytes) : State :=
  s.emit (.msg op { dst := Fin.ofNat 64 dst, src := Fin.ofNat 64 s.me, label := Fin.ofNat 8 label, holder := holder, tag := tag,
                    cxl := cxl, synd := synd, addr := addr, data := data })

/-- Opcode of a snoop. -/
def snpOp : SnpKind → MOp
  | .inv => .snpinv
  | .data => .snpdata
  | .cur => .snpcur

/-- Send one snoop of n lines to a holder: out of this module's host port, or to the holder's portal. -/
def State.sendSnoop (s : State) (k : SnpKind) (l n h : Nat) : State :=
  let s := s.bump cntDir 0 1
  if holderMod h = s.me then s.emit (.snoop (holderLd h) k l n)
  else s.send (snpOp k) (holderMod h) 0 h 0 0 0 (l * 64 + (if n = 4 then 2 else 0)) []

/-- Snoop trackers in use: those of requests (R98). -/
def State.trkUsed (s : State) : Nat := (s.dir.trk.filter fun t => t.req.isSome).length
def State.trkFull (s : State) : Bool := decide (s.trkUsed ≥ 2048)

/-- Snoop the holders of a line for a request, a victim, or a sweep. -/
def State.snoop (s : State) (k : SnpKind) (l : Nat) (req : Option Nat) (hs : List Nat) (victim excl : Bool) : State :=
  let t : Trk := { line := l, req := req, owed := hs, kept := [], t0 := s.now, kind := k, victim := victim, excl := excl }
  let s := s.onDir fun d => { d with trk := d.trk ++ [t] }
  s.each hs fun s h => s.sendSnoop k l 1 h

/-- Mark a line's entry pending. -/
def State.dirPend (s : State) (l : Nat) : State :=
  match s.dirEnt l with
  | some e => s.dirPut l { e with st := 3 }
  | none => s

/-! ## Allocation and set overflow (R105, R106) -/

/-- A line address from a set's tag and low bits. -/
def lineOf (tag low : Nat) : Nat := tag * 2 ^ 18 + low

/-- Allocate a line's entry, moving the least recently used way that is not pending to the victim buffer when the set is full:
false when the request must wait. -/
def State.dirAlloc (s : State) (l : Nat) (e : DirEnt) : State × Bool :=
  let ws := (look s.dir.sets (dirSet l)).getD []
  if ws.length < 16 then ((s.dirPut l e).markHeld l, true)
  else
    match (ws.reverse.find? fun x => x.st != 3) with
    | none => (s, false)
    | some v =>
      if s.dir.vbuf.length ≥ 64 then ((s.intr 0x400028 4).post 0x0403 [], false)
      else
        let vl := lineOf v.tag (l % 2 ^ 18)
        let hs := s.snoopTargets vl v 4096
        let s := (s.bump cntDir 1 1).post 0x0400 []
        let s := s.dirDel vl
        let s := if hs.isEmpty then s else
          (s.onDir fun d => { d with vbuf := d.vbuf ++ [(vl, pendEnt v hs)] }).snoop .inv vl none hs true (v.st == 2)
        ((s.dirPut l e).markHeld l, true)

/-! ## Owner lost (R103, R109) -/

/-- Capture a holder whose lines are lost (DIR_LOST_CAP): cause 0 unresponsive, 1 its lease left ACTIVE. -/
def State.lostCap (s : State) (h cause : Nat) : State :=
  if (s.reg 0x400040).testBit 63 then s else (s.setReg 0x400040 (2 ^ 63 + cause * 2 ^ 61 + h % 4096)).setReg 0x400048 0

/-- A line becomes owner lost: its slot bytes are gone, it is poisoned 0x02, its entry freed, counted, posted and captured. -/
def State.ownerLost (s : State) (l h : Nat) : State :=
  let page := l / 64
  let j := l % 64
  let s := s.dirDel l
  let s := s.onHusk fun b => { b with slots := b.slots.map fun x =>
    if x.page = page then
      let y := x.line j
      { x with lines := if y.hmask = 0 then del x.lines j else put x.lines j { y with mask := 0, data := zeros 64 } }
    else x }
  let s := (s.poisonLine l 2 false).bump cntDir 2 1
  let s := (s.intr 0x400028 0).postFor (s.ldsOfBoth (l * 64) h) 0x0402 [(8, l * 64), (2, h)]
  let c := s.reg 0x400040
  if c.testBit 63 && !c.testBit 62 then (s.setReg 0x400040 (c + 2 ^ 62)).setReg 0x400048 (l % 2 ^ 44) else s

/-- Every line of the directory with its address. -/
def State.dirLines (s : State) : List (Nat × DirEnt) :=
  s.dir.sets.flatMap fun b => b.2.map fun e => (lineOf e.tag (b.1 % 2 ^ 18), e)

end Sys2Proof.Machine
end

