-- ==== Sys2Proof/Machine/Grant.lean ====
section
/-! DEFINITION. Arbitration (spec/10_qos.md R349 to R351, Table 10-3) among requests that wait for one thing, and the husk lanes
(spec/04_husk_compression.md R154 to R157): the choice of a lane for a grain, its queue, and the work that the lanes do as time passes. -/

namespace Sys2Proof.Machine

open Sys2Proof

/-! ## What an arbiter knows of a request -/

/-- The holder that a holder's work is metered under: its own, or the module entity (R344). -/
def meterHolder (h : Nat) : Nat := if h < 4096 then h else moduleHolder

/-- The holder that a request is metered under: its own, that of the LD whose command ring it serves (R281), or the module entity. -/
def State.payer (s : State) (r : Req) : Nat :=
  match r.src with
  | .ring ld _ _ => s.holderOf ld
  | _ => meterHolder r.holder

/-- Class of a request: the class that its holder's label map gives its label (R341), the label itself for the module's own. -/
def State.clsOf (s : State) (r : Req) : Nat :=
  match r.src with
  | .host ld _ => s.classOf ld r.label
  | .uio ld _ => s.classOf ld r.label
  | .ring ld _ _ => s.classOf ld r.label
  | .cmd ld => s.classOf ld r.label
  | .ctx n _ => match look s.tlr.ctxs n with
    | some x => match x.ld with
      | some d => s.classOfHolder (x.portal * 64 + d) r.label
      | none => r.label
    | none => r.label
  | _ => if r.holder < 4096 then s.classOfHolder r.holder r.label else r.label

/-- Urgency of a real-time master: 0 calm, 1 watch, 2 urgent, 3 panic (R351). Masters 0 to 5 are the Hedgerow ports, 6 to 9 the flash
groups, 10 to 13 the read return buffers of the host ports. -/
def State.urgOf (s : State) (i : Nat) : Nat := (look s.qos.urg i).getD 0

/-- Urgency of the master that carries a request: the read return buffer of its host port for a host's read (R351). -/
def State.reqUrg (s : State) (r : Req) : Nat :=
  if r.op != .rd then 0
  else match r.src with
    | .host ld _ => s.urgOf (10 + ld / 16)
    | .uio ld _ => s.urgOf (10 + ld / 16)
    | _ => 0

/-- The tier of Table 10-3 from an urgency and an effective rank; at watch a master takes rank 1 (R350). -/
def tierOf (urg rank : Nat) : Nat := if urg = 3 then 1 else if urg = 2 then 2 else if urg = 1 then 3 else 2 + rank

/-- The tier of a request at an arbiter that serves a resource: within its reservation it has the rank that its class had when it arrived (R350; chapter
10, case 'When class parameters change while requests wait'). -/
def State.reqTier (s : State) (res : Nat) (r : Req) : Nat :=
  tierOf (s.reqUrg r) (if s.within (s.payer r) (s.clsOf r) res then r.par.rank else 4)

/-- A request's deadline at an arbiter: its arrival there plus the latency target that its class had then; a class without one has none (R350). -/
def Req.deadline (r : Req) : Option Nat := if r.par.target = 0 then none else some (r.t0 + 10 * r.par.target)

/-- Is it a class-7 request of the module entity (R349)? -/
def State.isClass7 (s : State) (r : Req) : Bool := decide (r.holder ≥ 4096) && s.clsOf r == 7

/-- The entity and class that the weighted round robin serves (Table 10-3, order 6). -/
def State.wrrKey (s : State) (r : Req) : Nat := s.payer r * 8 + s.clsOf r

/-! ## One grant -/

/-- The earlier of two deadlines, the first on a tie. -/
def dlBefore : Option Nat → Option Nat → Bool
  | some a, some b => decide (a < b)
  | some _, none => true
  | none, _ => false

/-- The request with the earliest deadline, the first in arrival order among equals. -/
def earliest : List Req → Option Req
  | [] => none
  | r :: t => match earliest t with
    | none => some r
    | some q => if dlBefore q.deadline r.deadline then some q else some r

/-- The turns that a class has left in the present round of an arbiter. -/
def State.turns (s : State) (a : Arb) (r : Req) : Nat :=
  (look a.wrr (s.wrrKey r)).getD (s.classP (s.payer r) (s.clsOf r)).weight

/-- The request that an arbiter grants next by Table 10-3; `hit` is the channel's preference within a tier (R368). -/
def State.pickByTier (s : State) (res : Nat) (hit : Req → Bool) (a : Arb) (l : List Req) : Option Req :=
  match (l.map (s.reqTier res)).min? with
  | none => none
  | some t =>
    let l := l.filter fun r => s.reqTier res r == t
    let l := if l.any hit then l.filter hit else l
    if t ≤ 2 then l.head?
    else if t ≤ 5 then earliest l
    else match l.find? fun r => decide (0 < s.turns a r) with
      | some r => some r
      | none => l.head?

/-- The request that an arbiter grants next: a waiting class-7 request of the module entity when 63 grants have passed it by and no
panic request waits, else by tier (R349). -/
def State.grantOne (s : State) (res : Nat) (hit : Req → Bool) (a : Arb) (l : List Req) : Option Req :=
  if decide (63 ≤ a.since7) && !l.any (fun r => s.reqUrg r == 3) then
    match l.find? s.isClass7 with
    | some r => some r
    | none => s.pickByTier res hit a l
  else s.pickByTier res hit a l

/-- An arbiter's counts after a grant among requests: the one-in-64 count rests while a panic request waits; a class that took its last
turn of a round waits for the next. -/
def State.afterGrant (s : State) (res : Nat) (a : Arb) (l : List Req) (r : Req) : Arb :=
  { since7 := if s.isClass7 r || !l.any s.isClass7 then 0 else if l.any (fun q => s.reqUrg q == 3) then a.since7 else a.since7 + 1,
    wrr := if s.reqTier res r < 6 then a.wrr
           else if 0 < s.turns a r then put a.wrr (s.wrrKey r) (s.turns a r - 1)
           else [(s.wrrKey r, (s.classP (s.payer r) (s.clsOf r)).weight - 1)] }

/-- The first request of each line in a list: later ones to a line follow it (R41). -/
def lineHeads (l : List Req) : List Req := l.filter fun r => ((l.takeWhile fun q => q.id != r.id).all fun q => q.sa / 64 != r.sa / 64)

/-- The counts of an arbiter: DRAM channel n is number n, the culm 96, husk-lane dispatch 97, the read queue of die d 128 + d. -/
def State.arb (s : State) (n : Nat) : Arb := (look s.qos.arbs n).getD ⟨0, []⟩

/-- Is the row of a chunk open in its bank (R367)? -/
def Chan.rowOpen (c : Chan) (ranks k : Nat) : Bool := look c.openRows (rankOf ranks k * 16 + bankOf k) == some (rowOf ranks k)

/-- Does a request's near husk lie in an open row of its channel (R368)? -/
def State.rowHit (s : State) (r : Req) : Bool :=
  let p := s.pme (saPage r.sa)
  hasNear p && (s.chan (chanOf p.near)).rowOpen s.ranks (chunkIdx p.near)

/-- The bank of a request's near husk in its channel. -/
def State.bankKey (s : State) (r : Req) : Nat := let k := chunkIdx (s.pme (saPage r.sa)).near; rankOf s.ranks k * 16 + bankOf k

/-- Does a waiting request of a list want another row of a request's bank (R367)? -/
def State.otherRow (s : State) (l : List Req) (r : Req) : Bool :=
  l.any fun q => hasNear (s.pme (saPage q.sa)) && s.bankKey q == s.bankKey r && !s.rowHit q

/-- The preference of channel n's controller within a tier: a hit on an open row, but after 16 hits while another row of the bank is wanted (R367,
R368). Other arbiters have none. -/
def State.prefers (s : State) (n : Nat) (l : List Req) (r : Req) : Bool :=
  decide (n < 96) && s.rowHit r && !(s.otherRow l r && decide (16 ≤ (look (s.chan n).hits (s.bankKey r)).getD 0))

/-! ## Husk lanes (R154 to R157) -/

/-- The lanes of a kind: 20 to 31 serve the lossless classes, 0 to 19 the others (R154). -/
def hskLanes (lossless : Bool) : List Nat := if lossless then (List.range 12).map (· + 20) else List.range 20

/-- Host bytes and grains that wait in a lane. -/
def Lane.pending (x : Lane) : Nat := sumOf x.work Prod.fst
def Lane.queued (x : Lane) : Nat := x.work.length

/-- The lane that a grain of work goes to: the enabled one of its kind with the least pending host bytes and room in its queue of 256; a
share-reduced lane takes part only while every other enabled one holds at least 192 grains (R156, R157). -/
def State.pickLane (s : State) (lossless : Bool) : Option Nat :=
  let on := (hskLanes lossless).filter fun n => !s.laneDis n
  let whole := on.filter fun n => !(s.lane n).reduced
  let cand := if whole.all fun n => decide (192 ≤ (s.lane n).queued) then on else whole
  argMin (fun n => (s.lane n).pending) (cand.filter fun n => decide ((s.lane n).queued < 256))

/-- Time that a lane takes for host bytes of a class, in 1/960 ns at the nominal corner (Table 4-10): C-GEN, C-EXP, and the fixed rates. -/
def laneCost (cls bytes : Nat) (encode : Bool) : Nat :=
  bytes * (if cls = 4 then (if encode then 120 else 60) else if isLossless cls then (if encode then 48 else 24)
    else if encode then 20 else 15)

/-- Give a grain of work to a lane of the kind it needs; none when every queue of the kind is full or no lane of it is enabled. -/
def State.toLane (s : State) (lossless : Bool) (bytes cost : Nat) : Option State :=
  (s.pickLane lossless).map fun n =>
    s.onHusk fun h => { h with lanes := put h.lanes n (let x := s.lane n; { x with work := x.work ++ [(bytes, 65536 * cost)] }) }

/-- Give n grains of work to lanes, or none of them. -/
def State.toLanes (s : State) (lossless : Bool) (bytes cost : Nat) : Nat → Option State
  | 0 => some s
  | n + 1 => (s.toLane lossless bytes cost).bind fun s => s.toLanes lossless bytes cost n

/-- Work of a lane over a time: its queue goes down from the front. -/
def workFor : Nat → List (Nat × Nat) → List (Nat × Nat)
  | _, [] => []
  | t, (b, c) :: l => if c ≤ t then workFor (t - c) l else (b, c - t) :: l

/-- A nanosecond of the lanes: each works at its rate, at the throttle's sixteenths, a share-reduced one at its ratio (R43, R416). A disabled
lane finishes its queue (R157). -/
def State.drainLanes (s : State) : State :=
  if s.husk.lanes.all fun e => e.2.work.isEmpty then s
  else s.onHusk fun h => { h with lanes := h.lanes.map fun e =>
    (e.1, { e.2 with work := workFor (960 * (if e.2.reduced then e.2.ratio else 4096) * s.pwr.throttle) e.2.work }) }

end Sys2Proof.Machine
end

