-- ==== Sys2Proof/Machine/Home.lean ====
section
/-! DEFINITION. Requests at their page home (spec/01_architecture.md R27 to R42, spec/03_coherence.md R99 to R109): answering, reading
a line, storing a write, the directory step, snoop answers, and where a request goes when its page home is elsewhere or absent. -/

namespace Sys2Proof.Machine

open Sys2Proof

/-! ## Requests -/

def State.req (s : State) (id : Nat) : Option Req := s.reqs.find? fun r => r.id == id
def State.modReq (s : State) (id : Nat) (f : Req → Req) : State := { s with reqs := replaceFirst (fun r => r.id == id) f s.reqs }
def State.dropReq (s : State) (id : Nat) : State := { s with reqs := removeFirst (fun r => r.id == id) s.reqs }

/-- Make a request wait. -/
def State.await (s : State) (id : Nat) (w : Wait) : State := s.modReq id fun r => { r with waits := [w] }

/-- Page and line of a request. -/
def Req.page (r : Req) : Nat := saPage r.sa
def Req.line (r : Req) : Nat := saLine r.sa

/-- META of an answer: 0 Cmp, 1 Cmp-S, 2 Cmp-E (R99). -/
def cmpOf : MetaV → Nat
  | .invalid => 0
  | .shared => 1
  | .any => 2

/-- META of a request (CXL's meta values; PRESUMED, log entry 24). -/
def metaCode : MetaV → Nat
  | .invalid => 0
  | .any => 2
  | .shared => 3
def metaOf (n : Nat) : MetaV := if n = 2 then .any else if n = 3 then .shared else .invalid

/-! ## Answers -/

/-- A line of an operation of a tiller context is done: data kept, poison noted (chapter 7, case 'When a space read returns poison'). -/
def State.ctxLine (s : State) (n k line : Nat) (d : Bytes) (synd : Nat) (rd : Bool) : State :=
  match look s.tlr.ctxs n with
  | none => s
  | some x =>
    let ops := x.ops.map fun o => if o.id = k then
        { o with left := o.left - 1, lines := if rd then put o.lines line (if synd = 0 then d else zeros 64) else o.lines,
                 ps := o.ps || (rd && synd != 0) } else o
    let first := rd && synd != 0 && ((x.words[4]?).getD 0) == 0#64
    let words := if first then x.words.set 4 (BitVec.ofNat 64 (synd * 2 ^ 56 + line % 2 ^ 44)) else x.words
    let words := if rd && synd != 0 then words.set 0 ((words[0]?).getD 0 ||| 16#64) else words
    let fin := ops.any fun o => o.id == k && o.left == 0
    let sync := ops.any fun o => o.id == k && o.kind == 0
    let x := { x with ops := ops, words := words }
    let x := if rd && synd != 0 then { x with bufSynd := if sync then synd else x.bufSynd } else x
    let x := if rd && synd != 0 && !sync && x.late.isNone && ((words[1]?).getD 0).getLsbD 4 then
        { x with late := (ops.find? fun o => o.id == k).map fun o => (0x0A, synd, line * 64, o.info.headD 0) } else x
    let x := if fin && sync then
        { x with wait := .run, buf := ((ops.find? fun o => o.id == k).map AOp.lines).getD [], ops := ops.filter fun o => o.id != k }
      else if fin && (ops.any fun o => o.id == k && o.kind == 9) then { x with ops := ops.filter fun o => o.id != k }
      else x
    s.onTlr fun t => { t with ctxs := put t.ctxs n x }

/-- A ring's descriptor arrived, or its completion was written. -/
def State.ringLine (s : State) (ld r idx : Nat) (d : Bytes) (rd : Bool) : State :=
  if rd then s.onTlr fun t => { t with rings := upd t.rings (ld * 4 + r) fun x => { x with fetched := put x.fetched idx d } }
  else s

/-- A line just written at its page home is poisoned instead: its slot bytes are dropped and it takes the syndrome (R405). -/
def State.poisonWritten (s : State) (l synd : Nat) : State :=
  if !s.homes (l / 64) then s
  else
    let s := s.onHusk fun h => { h with slots := (h.slots.map fun x =>
      if x.page = l / 64 then { x with lines := del x.lines (l % 64) } else x).filter fun x => x.page != l / 64 || !x.lines.isEmpty }
    s.poisonLine l synd false

/-- A line of a mover: kept with its job; mover 16 is the recovery of a page from the twin, which fills the page's own slot. -/
def State.moverLine (s : State) (m : Nat) (r : Req) (d : Bytes) (synd : Nat) : State :=
  if m = 16 then
    let page := r.page
    let j := lineIdx r.sa
    match s.husk.slots.find? (fun x => x.page == page && x.fills) with
    | none => s
    | some x =>
      let l := x.line j
      let l' : SLine := { l with mask := fullMask, data := mergeBytes l.mask l.data (if synd = 0 then d else zeros 64) }
      let s := s.modSlot x.id fun y => { y with lines := put y.lines j l' }
      let s := if synd = 0 ∨ l.mask = fullMask then s else s.poisonLine r.line (if l.mask = 0 then synd else 7) false
      match s.slotById x.id with
      | some y => if y.wholePage then s.modSlot x.id fun z => { z with ph := .closed, bg := false } else s
      | none => s
  else
    match look s.integ.movers m with
    | none => s
    | some x =>
      let set (s : State) (x : Mover) : State := s.onInt fun i => { i with movers := put i.movers m x }
      if r.op = .rd then set s { x with phase := 2, hold := d, synd := synd }
      else
        let s := set s { x with phase := 0, done := x.done + 1, hold := [] }
        if x.phase = 4 then s.poisonWritten r.line x.synd else s

/-- Answer a request and forget it: data or completion to its issuer, with a syndrome (R56, R99, R315, R481). -/
def State.answer (s : State) (r : Req) (d : Bytes) (synd : Nat) : State :=
  let s := s.dropReq r.id
  let rd := r.op == .rd
  let d := if synd = 0 then d else zeros 64
  match r.src with
  | .host ld tag =>
    if r.dropped then s.bump cntHp 4 1
    else
      let h := s.holderOf ld
      let c := s.classOf ld r.label
      let ns := s.now - r.tAcc
      let s := s.finished h c ns
      let s := if rd then s.grant h c (ld / 16) 64 else s
      if rd then s.emit (.data ld tag synd (cmpOf r.mv) (s.devLoad h c ns) d) else s.emit (.cmp ld tag synd (s.devLoad h c ns))
  | .uio ld tag => if r.dropped then s.bump cntHp 4 1 else s.emit (.uio ld tag (if synd = 0 then 0 else 1) (if rd then d else []))
  | .peer m tag =>
    if m ≥ 64 then s
    else if rd then s.send .data m r.label r.holder tag (cmpOf r.mv) synd r.sa d else s.send .cmp m r.label r.holder tag 0 synd r.sa []
  | .ctx n k => s.ctxLine n k r.line d synd rd
  | .gate _ => s
  | .ring ld q i => s.ringLine ld q i d rd
  | .mover m => s.moverLine m r d synd
  | .cmd ld => if r.dropped then s else s.emit (.mbox ld 0 [])

/-- One condition of a stored write is met; with none left the write completes (R36, Table 1-6). -/
def State.settle (s : State) (id : Nat) (p : Wait → Bool) : State :=
  match s.req id with
  | none => s
  | some r =>
    let w := removeFirst p r.waits
    let s := s.modReq id fun q => { q with waits := w }
    if r.stored && r.op != .rd && w.isEmpty then s.answer r [] 0 else s

/-! ## Doze and Idle (R494, R497) -/

/-- A request of any kind: Idle ends at once; Doze starts to end. -/
def State.awake (s : State) : State :=
  if s.pwr.state = 1 then s.onPwr fun p => { p with state := 0, lastActive := s.now }
  else if s.pwr.state = 2 then s.onPwr fun p => { p with state := 4, lastActive := s.now }
  else s.onPwr fun p => { p with lastActive := s.now }

/-- Must a request be held until Doze exit or a warm reset completes (R498, R501, R506)? -/
def State.dozeHolds (s : State) : Bool := s.pwr.state == 2 || s.pwr.state == 4 || s.warming

/-! ## Reading a line (R33, R41, R163, R187, R380, R394 to R399) -/

/-- How a line reads: bytes with a syndrome, or what the read must wait for. -/
inductive RdRes where
  | data (d : Bytes) (synd : Nat)
  | wait (w : Wait)
  deriving DecidableEq, Repr

/-- The stored line j of a page with a near husk, once recovery has had its turn. -/
def State.storedLine (s : State) (page j cls : Nat) : State × RdRes :=
  let p := s.pme page
  let n := chanOf p.near
  if s.masked n (chunkIdx p.near) then
    ((s.intrDrc n 4).post 0x0A07 [], .data (zeros 64) 1)
  else
    let go (s : State) (p : Pme) : GrainRes :=
      if s.isPlain p then s.plainLine page p j
      else match s.nearGrain page p (j / 4) false with
        | .ok d pl f => .ok ((d.drop (64 * (j % 4))).take 64) pl f
        | b => b
    let fin (s : State) (r : GrainRes) : State × RdRes :=
      match r with
      | .ok d _ f => (s.corrected f, .data d 0)
      | .bad y c => (if y = 9 && decide (c ≤ 4) then s.decFail page (j / 4) 9 c else if c = 5 ∧ ¬ s.isPlain p then s.decFail page (j / 4) 1 5 else s,
                     .data (zeros 64) y)
    match go s p with
    | .bad 1 5 =>
      let (s, rc) := s.recover page cls
      match rc with
      | .now => fin s (go s (s.pme page))
      | .pull => (s, .wait .pull)
      | .twin => (s, .wait .recode)
      | .slot => (s, .wait .slot)
      | .none => if (s.pme page).st == .poisoned then (s, .data (zeros 64) (s.pageSynd page)) else fin s (.bad 1 5)
    | r => fin s r

/-- Read line j of a page at its home: slots over the stored husk. `cls` is the class of the read (R185). -/
def State.readLine (s : State) (page j cls : Nat) : State × RdRes :=
  let (m, d) := s.slotLine page j
  let lay (r : State × RdRes) : State × RdRes :=
    match r with
    | (s, .data b 0) => (s, .data (mergeBytes m d b) 0)
    | r => r
  if m = fullMask then (s, .data d 0)
  else if (s.slotsOf page).any Slot.fills && !(hasNear (s.pme page)) then (s, .wait .recode)
  else if s.recoding page then (s, .wait .recode)
  else
    match s.plistLine (page * 64 + j) with
    | some y => (s, .data (zeros 64) y)
    | none =>
      let p := s.pmeOf page
      match p.st with
      | .unwritten => lay (s, .data (zeros 64) 0)
      | .virt => lay (s, .data (zeros 64) 0)
      | .poisoned => (s, .data (zeros 64) (s.pageSynd page))
      | .promoting => (s, .wait .pull)
      | .far =>
        (s.needPull page cls, .wait .pull)
      | _ => lay (s.storedLine page j cls)

/-! ## V-LR pages (R145, R146, R297, R298) -/

/-- A number of the module contexts 4,032 to 4,095 that neither the policy sheaf nor an expansion holds (R271, R298). -/
def State.modCtx (s : State) : Option Nat :=
  ((List.range 64).map (· + 4032)).find? fun c => s.tlr.polCtx != some c && (look s.tlr.expanding c).isNone

/-- Is a page being expanded? -/
def State.expands (s : State) (page : Nat) : Bool := (vals s.tlr.expanding).contains page

/-- An expansion takes a module context. -/
def State.expandIn (s : State) (c page : Nat) : State := s.onTlr fun t => { t with expanding := put t.expanding c page }

/-- A read of a V-LR page that is not materialised: its expansion starts, or waits in the queue; with the queue full the read waits for an
entry (R297, R298). -/
def State.wantExpansion (s : State) (page : Nat) : State :=
  if s.tlr.expq.contains page || s.expands page then s
  else match s.modCtx with
    | some c => s.expandIn c page
    | none =>
      if s.tlr.expq.length < 4096 then ((s.onTlr fun t => { t with expq := t.expq ++ [page] }).bump cntTlr 6 1).post 0x0809 []
      else s

/-! ## Directory step (Table 3-2) -/

/-- What the directory decides for a request: go on, or wait for the line or for room. -/
inductive DirOut where
  | go
  | pend
  | res
  deriving DecidableEq, Repr

/-- A request must wait for a tracker, a way or the victim buffer (R98, R106). -/
def State.dirWait (s : State) : State := s.bump cntDir 4 1

/-- The directory step of a read (Table 3-2). An RdI of the exclusive holder itself is served and leaves the entry as it is, and an RdI does not
count as a use of its entry (log entry 89). -/
def State.dirRead (s : State) (r : Req) : State × DirOut :=
  let l := r.line
  let q := r.holder
  let kind : SnpKind := match r.mv with
    | .invalid => .cur
    | .shared => .data
    | .any => .inv
  let ask (s : State) (k : SnpKind) (hs : List Nat) (e : DirEnt) : State × DirOut :=
    if s.trkFull then (s.dirWait, .res) else (((s.dirPut l (pendEnt e hs)).snoop k l (some r.id) hs false (e.st == 2)), .pend)
  match s.dirEnt l with
  | none =>
    if r.mv = .invalid then (s, .go)
    else
      let (s, ok) := s.dirAlloc l (ptrEnt (dirTag l) (if r.mv = .any then 2 else 1) [q])
      if ok then (s, .go) else (s.dirWait, .res)
  | some e =>
    if e.st = 3 then (s, .pend)
    else if e.st = 1 then
      match r.mv with
      | .invalid => (s, .go)
      | .shared => (s.dirPut l (addShared e q), .go)
      | .any =>
        let hs := s.snoopTargets l e q
        if hs.isEmpty then (s.dirPut l (ptrEnt e.tag 2 [q]), .go) else ask s .inv hs e
    else if covers e q then
      match r.mv with
      | .invalid => (s, .go)
      | .shared => (s.dirPut l (ptrEnt e.tag 1 [q]), .go)
      | .any => (s.dirPut l e, .go)
    else ask s kind (ptrs e) e

/-- The entry after a write from W (Table 3-2): false when an entry must wait for room. -/
def State.dirAfterWrite (s : State) (l w : Nat) (mv : MetaV) : State × Bool :=
  match mv with
  | .invalid => (s.dirDel l, true)
  | _ =>
    let e := ptrEnt (dirTag l) (if mv = .any then 2 else 1) [w]
    match s.dirEnt l with
    | some _ => (s.dirPut l e, true)
    | none => s.dirAlloc l e

/-! ## Storing a write (R36, R38, R104, R158, R332) -/

/-- Send an accepted line of a mirrored page to the twin, with a TAG unique among those outstanding (R332). -/
def State.sendMirror (s : State) (r : Req) : State × Option Nat :=
  if s.twinLive then
    let used := s.reqs.filterMap fun q => if q.waits.contains .mirror then some q.mirrorTag else none
    let tag := (firstFrom 65536 (r.id % 65536) fun t => !used.contains t).getD 0
    (s.send .mirror (twinOf s.me) r.label r.holder tag (if r.mask = fullMask then 0 else 1) 0 r.sa
      (if r.mask = fullMask then r.data else toLe 8 r.mask ++ zeros 24 ++ r.data), some tag)
  else
    -- the twin is absent: completed without its condition, the page marked for resynchronisation (chapter 9)
    (s.onHdg fun h => { h with resync := addNew h.resync r.page }, none)

/-- The bytes of a stored write have a slot: its further conditions are noted, and with none it completes. -/
def State.accepted (s : State) (r : Req) (slot : Nat) (snoop : Bool) : State :=
  let x := s.extent r.page
  let mirrored := match x with
    | some e => e.prot == 2
    | none => false
  let (s, tag) := if mirrored && s.ownPage r.page then s.sendMirror r else
    if mirrored then (s.onHdg fun h => { h with resync := addNew h.resync r.page }, none) else (s, none)
  let w := (if snoop then [Wait.snoop] else []) ++ (if tag.isSome then [Wait.mirror] else [])
    ++ (if s.durablePage r.page then [Wait.far] else [])
  let r := { r with stored := true, slot := slot, mirrorTag := tag.getD 0, waits := w, t0 := s.now }
  let s := s.modReq r.id fun _ => r
  if w.isEmpty then s.answer r [] 0 else s

/-- A CONSUMER word written on the gate page of a running schedule moves its consumer (R199). -/
def State.noteConsumer (s : State) (r : Req) : State :=
  if lineIdx r.sa = 0 ∧ r.mask % 256 ≠ 0 ∧ s.tier.scheds.any (fun e => e.2.st == 1 && e.2.gatePage == r.page) then
    s.consumeWord r.page (le ((s.slotLine r.page 0).2.take 8))
  else s

/-- Store a write whose line no other holder has, or hide it while the holders are snooped. A write of no byte enters no slot (R158). -/
def State.storeWrite (s : State) (r : Req) (hidden : Bool) : State :=
  if r.mask = 0 then
    (if hidden then s.modReq r.id fun q => { q with stored := true, waits := [.snoop] } else s.answer r [] 0)
  else
  let (s, slot) := s.slotStore r.page (lineIdx r.sa) r.mask r.data hidden false
  if slot = 0 then (s.slotWait).await r.id .slot
  else
    let s := s.accepted r slot hidden
    if hidden then s else s.noteConsumer r

/-- SETG at its page home (R260): the word after the operation, from the line as it reads. -/
def atomResult (op : Nat) (old v : Nat) : Nat :=
  if op = 1 then (old + v) % 2 ^ 64 else if op = 2 then old ||| v else if op = 3 then max old v else v

/-! ## Serving a request -/

/-- Does a wait keep a request at this page home before it is served? -/
def homeWait : Wait → Bool
  | .snoop => true
  | .dir => true
  | .pull => true
  | .slot => true
  | .recode => true
  | .vlr => true
  | .order => true
  | .lane => true
  | .chan _ => true
  | _ => false

/-- Is a request a snoop's written-back line that waits for a slot (R103)? -/
def Req.isWbk (r : Req) : Bool := r.src == .peer 64 0 && r.op == .wr

/-- Is a request accepted into a slot, so that later ones to its line see its bytes or its pending entry (R41, R104)? -/
def Req.accepted (r : Req) : Bool := r.stored && r.op != .rd

/-- Is an earlier request to the same line still to be served here (R41, R100; log entry 88)? -/
def State.behind (s : State) (r : Req) : Bool :=
  (s.reqs.takeWhile fun q => q.id != r.id).any fun q => q.line == r.line && !q.accepted && q.waits.any homeWait

/-- Hold a request at its line; one of a holder that owes a snoop answer for it is a conflict, counted (chapter 3, case 'When a snooped holder
requests the same line'). -/
def State.hold (s : State) (r : Req) (w : Wait) : State :=
  (if s.dir.trk.any (fun t => t.line == r.line && t.owed.contains r.holder) then s.bump cntDir 3 1 else s).await r.id w

/-- Does the extent of a page have its lines tracked? -/
def State.tracked (s : State) (page : Nat) : Bool := match s.extent page with
  | some x => x.kind == .shared
  | none => false

/-- Is a mirrored page read-only here: this part lacks quorum and the twin is outside it, or this module only holds the twin's copy
(Table 9-10)? -/
def State.readOnly (s : State) (page : Nat) : Bool :=
  match s.extent page with
  | some x => !s.hdg.bench && s.hdg.formed && x.prot == 2 && !s.hdg.quorum && !(s.isLive (twinOf (s.pageHome page)) && s.isLive (s.pageHome page))
  | none => false

/-- Meter the read of a line from a near husk (Table 10-2): the stored lines of the glume and of what holds the line, and the host
bytes that the lane decodes. -/
def State.meterRead (s : State) (r : Req) (cls : Nat) : State :=
  let p := s.pme r.page
  let h := s.payer r
  if !hasNear p || (s.slotLine r.page (lineIdx r.sa)).1 == fullMask then s
  else if s.isPlain p then ((s.readLines [p.near * 2, p.near * 2 + 1 + lineIdx r.sa]).meter h cls 8 128).meter h cls 9 64
  else
    let g := lineIdx r.sa / 4
    match s.nearGlume p with
    | none => s.meter h cls 8 64
    | some x =>
      let b := x.startOf g * 16 / 64
      let n := (x.endOf g * 16 + 63) / 64 - b
      let s := s.readLines (p.near * 2 :: (List.range n).map fun i => p.near * 2 + 1 + b + i)
      let s := s.meter h cls 8 (64 + 64 * n)
      if isLossless p.cls && !x.fallback then s.meter h cls 11 (if p.cls = 4 then 640 else 256) else s.meter h cls 9 256

/-- Does a read take bytes of its page's near husk? -/
def State.readsNear (s : State) (r : Req) : Bool :=
  hasNear (s.pme r.page) && (s.slotLine r.page (lineIdx r.sa)).1 != fullMask && (s.plistLine r.line).isNone

/-- The channel that a read of a near husk must wait for: it retrains or is reset (Table 11-4, R508), or a forced refresh holds the husk's rank
(R375, R377). -/
def State.chanWait (s : State) (r : Req) : Option Wait :=
  let p := s.pme r.page
  let n := chanOf p.near
  let rank := rankOf s.ranks (chunkIdx p.near)
  if s.readsNear r && ((s.chan n).st == 1 || (s.chan n).st == 4 || (s.chan n).owed rank == 9) then some (.chan n) else none

/-- Give the grain that a read decodes to a husk lane: none while every queue of its kind is full (R156). A P-RAW line passes through a lane
by itself. -/
def State.readLane (s : State) (r : Req) : Option State :=
  let p := s.pme r.page
  if !s.readsNear r then some s
  else if s.isPlain p then s.toLane false 64 (laneCost 0 64 false)
  else
    let cls := if (s.nearGlume p).any Glume.fallback then 0 else p.cls
    s.toLane (isLossless cls) 256 (laneCost cls 256 false)

/-- The read part of serving, past the directory. -/
def State.serveRead (s : State) (r : Req) (cls : Nat) : State :=
  let park (s : State) (w : Wait) : State := s.modReq r.id fun q => { q with waits := [w], stored := true }
  match s.chanWait r with
  | some w => park s w
  | none =>
    match s.readLane r with
    | none => park s .lane
    | some t =>
      let (t, res) := (t.meterRead r cls).readLine r.page (lineIdx r.sa) cls
      match res with
      | .wait w =>
        let s := ((s.meterRead r cls).readLine r.page (lineIdx r.sa) cls).1
        -- a pull-through stands in its die's queue with the rank of the read that caused it (R209)
        let s := s.onTier fun t => { t with moves := upd t.moves r.page fun m => if m.holder = moduleHolder then { m with holder := s.payer r } else m }
        park s w
      | .data d y => t.answer r d y

/-- The write part of serving. SETG replaces its operand by the line's new word, which it computes from the line once every other holder has
given it up (R260). A write whose meta value is Invalid takes the write row of Table 3-2 also from a holder, where the evict row would do as
well (log entry 89). -/
def State.serveWrite (s : State) (r : Req) : State :=
  let fromReads (s : State) : State × Option Req :=
    if r.op = .atom then
      let (s, res) := s.readLine r.page (lineIdx r.sa) 7
      match res with
      | .wait w => (s.await r.id w, none)
      | .data d y =>
        let off := r.sa % 64 / 8 * 8
        let v := if y = 0 then leAt d off 8 else 0
        let nv := atomResult (byteAt r.data 0) v (leAt r.data 8 8)
        (s, some { r with mask := 255 * 2 ^ off, data := zeros off ++ toLe 8 nv ++ zeros (56 - off) })
    else (s, some r)
  let store (s : State) : State :=
    match fromReads s with
    | (s, none) => s
    | (s, some r) =>
      if !s.tracked r.page then s.storeWrite r false
      else
        let (s, ok) := s.dirAfterWrite r.line r.holder r.mv
        if ok then s.storeWrite r false else (s.dirWait).await r.id .dir
  if !s.tracked r.page then store s
  else
    match s.dirEnt r.line with
    | none => store s
    | some e =>
      if e.st = 3 then s.hold r .snoop
      else
        let hs := s.snoopTargets r.line e r.holder
        if hs.isEmpty then store s
        else if s.trkFull then (s.dirWait).await r.id .dir
        else if r.op = .atom then ((s.dirPut r.line (pendEnt e hs)).snoop .inv r.line (some r.id) hs false (e.st == 2)).await r.id .snoop
        else if (s.openSlot r.page false).isNone && !s.slotFree false then (s.slotWait).await r.id .slot
          else (((s.dirPut r.line (pendEnt e hs)).snoop .inv r.line (some r.id) hs false (e.st == 2))).storeWrite r true

/-- META of a request in a message: its meta value, or 1 for a request that no LD makes and that holds nothing (log entry 32). -/
def reqMeta (r : Req) : Nat := if r.holder ≥ 4096 then 1 else metaCode r.mv

/-- Forward a request of a re-spread page that has moved to the new member, which answers the issuer (R90). -/
def State.forward (s : State) (r : Req) (m : Nat) : State :=
  let s := s.dropReq r.id
  let src := match r.src with
    | .peer q t => (q, t)
    | _ => (s.me, r.id % 65536)
  let s := match r.src with
    | .peer _ _ => s
    | _ => { s with reqs := s.reqs ++ [{ r with waits := [.remote m] }] }
  match r.op with
  | .rd => s.emit (.msg .rd { dst := Fin.ofNat 64 m, src := Fin.ofNat 64 src.1, label := Fin.ofNat 8 r.label, holder := r.holder, tag := src.2,
                              cxl := reqMeta r, synd := 0, addr := r.sa, data := [] })
  | .wr =>
    let full := r.mask == fullMask
    let d := if full then r.data else toLe 8 r.mask ++ zeros 24 ++ r.data
    let g : Msg := ⟨Fin.ofNat 64 m, Fin.ofNat 64 src.1, Fin.ofNat 8 r.label, r.holder, src.2, reqMeta r, 0, r.sa, d⟩
    s.emit (.msg (if full then MOp.wr else MOp.wrp) g)
  | .atom => s.emit (.msg .atom { dst := Fin.ofNat 64 m, src := Fin.ofNat 64 src.1, label := Fin.ofNat 8 r.label, holder := r.holder, tag := src.2,
                                  cxl := reqMeta r, synd := 0, addr := r.sa, data := r.data })
  | .evict => s.emit (.copy m (.evict r.line r.holder))

/-- A request whose page home is outside this module's part (Table 9-10): poison 0x05, or dropped and counted. -/
def State.homeAbsent (s : State) (r : Req) : State :=
  if r.op = .evict then s.dropReq r.id
  else if r.op = .rd then s.answer r [] 5 else (s.bump cntHdg 1 1).answer r [] 0

/-- The module that holds a page moved to the new member of a re-spread: that member, or for a mirrored page its twin while it is absent (R91,
Table 9-10). -/
def State.movedHolder (s : State) (page new : Nat) : Option Nat :=
  if s.canRoute new then some new
  else if s.mirrored page && s.hdg.quorum && s.canRoute (twinOf new) then some (twinOf new)
  else none

/-- The re-spread of a page's extent that moves its slot away from this module, or from the absent partner for which it acts, whose replica tells what
has moved (R91). -/
def State.respreadOf (s : State) (page : Nat) : Option Respread :=
  let rec_ := match s.extent page with
    | some x => if x.respread.any fun q : Respread => s.hdg.acting.contains q.old then look s.hdg.replica.extents (extOf page) else some x
    | none => none
  match rec_ with
  | some x => match x.respread with
    | some q => if (q.old = s.me ∨ s.hdg.acting.contains q.old) ∧ spreadSlot (extOf page) (pageIdx page) x.spread.length = q.slot then some q else none
    | none => none
  | none => none

/-- An evict at the page home (Table 3-2): it waits for a pending entry; a holder in pointer form leaves the entry, a coarse one keeps its
bits. -/
def State.serveEvict (s : State) (r : Req) : State :=
  match s.dirEnt r.line with
  | none => s.dropReq r.id
  | some e =>
    if e.st = 3 then s.hold r .snoop
    else if e.form = 1 || !covers e r.holder then s.dropReq r.id
    else (s.dropReq r.id).dirPutOpt r.line (dropHolder e r.holder)

/-- Is a page of a V-LR extent, which is read-only (R144)? -/
def State.isVlr (s : State) (page : Nat) : Bool := (s.extent page).any fun x => x.cls == 12

/-- A write to a V-LR page is dropped, counted and posted (R144). -/
def State.vlrDrop (s : State) : State := (s.bump cntHsk 4 1).post 0x0505 []

/-- Past the re-spread: V-LR, order, directory, then the line. -/
def State.serveHere (s : State) (r : Req) (cls : Nat) (rd vlr : Bool) : State :=
  if vlr && (s.pmeOf r.page).st == .virt then
    match s.extent r.page with
    | some x => if x.vlr.isNone then (s.countAccess r.page).answer r (zeros 64) 0
                else (s.wantExpansion r.page).await r.id .vlr
    | none => s.answer r (zeros 64) 0
  else if r.isWbk then s.storeWrite r false
  else if s.behind r then s.hold r .order
  else if r.op = .evict then s.serveEvict r
  else if rd then
    let (s, o) := if r.stored || !s.tracked r.page then (s, DirOut.go) else s.dirRead r
    match o with
    | .go => s.serveRead r cls
    | .pend => s.hold r .snoop
    | .res => s.await r.id .dir
  else s.serveWrite r

/-- Serve a request at its page home, or make it wait. `cls` is its QoS class. -/
def State.serveAt (s : State) (r : Req) (cls : Nat) : State :=
  let page := r.page
  let rd := r.op == .rd
  let wr := r.op == .wr || r.op == .atom
  let vlr := s.isVlr page
  if s.dozeHolds then s.awake.await r.id .doze
  else if s.hdg.takeover.contains (s.pageHome page) || s.hdg.twinMarks.contains page then s.await r.id .takeover
  else if wr && s.readOnly page then ((s.bump cntHdg 2 1).post 0x020B []).answer r [] 0
  else
    let s := s.pmeCache page
    if vlr && wr then s.vlrDrop.answer r [] 0
    else
      match s.respreadOf page with
      | some q =>
        if q.moved.contains (pageIdx page) then
          (match s.movedHolder page q.new with
           | some m => if m = s.me then s.serveHere r cls rd vlr else s.forward r m
           | none => s.homeAbsent r)
        else if (s.move page).any fun m => m.kind == 3 then s.await r.id .respread
        else s.serveHere r cls rd vlr
      | none => s.serveHere r cls rd vlr
/-- Serve one request, if it still waits. -/
def State.serveOne (s : State) (id : Nat) : State :=
  match s.req id with
  | none => s
  | some r => if r.accepted then s else s.serveAt { r with waits := [] } (s.clsOf r)

/-- Does a request wait for w? -/
def waitsFor (w : Wait) (r : Req) : Bool := r.waits.contains w

/-- Serve, in arrival order, the requests that are held behind another of their line (R41, R100). -/
def State.serveLine (s : State) (l : Nat) : State :=
  s.each ((s.reqs.filter fun r => r.line == l && waitsFor .order r).map Req.id) fun s i => s.serveOne i

/-- Serve the request of a number, if it still waits; once it is out of the way, those behind it on its line follow. -/
def State.serve (s : State) (id : Nat) : State :=
  match s.req id with
  | none => s
  | some r =>
    let s := s.serveOne id
    if (s.req id).all Req.accepted then s.serveLine r.line else s

/-- An arbiter grants the waiting requests of some numbers one after the other, each by what the grants before it left: buckets, open rows and
counts (R348, R349, R367, R368). -/
def State.grantEach (arb res : Nat) (p : Req → Bool) : Nat → List Nat → State → State
  | 0, _, s => s
  | f + 1, ids, s =>
    let l := lineHeads (s.reqs.filter fun r => ids.contains r.id && p r && !r.accepted)
    match s.grantOne res (s.prefers arb l) (s.arb arb) l with
    | none => s
    | some r =>
      let s := s.onQos fun x => { x with arbs := put x.arbs arb (s.afterGrant res (s.arb arb) l r) }
      State.grantEach arb res p f (ids.filter (· != r.id)) (s.serve r.id)

/-- Serve the requests that wait for something, in the order in which an arbiter of a resource grants them. -/
def State.wakeAt (s : State) (arb res : Nat) (p : Req → Bool) : State :=
  let ids := (s.reqs.filter fun r => p r && !r.accepted).map Req.id
  if ids.length < 2 then s.each ids fun s i => s.serve i else State.grantEach arb res p ids.length ids s

/-- Serve the requests that wait for something: what frees them together meets next at the culm, which grants by Table 10-3 (R349). -/
def State.wake (s : State) (p : Req → Bool) : State := s.wakeAt 96 8 p

/-- The requests that wait at a channel are granted again: open rows first within a tier (R349, R368). -/
def State.chanGo (s : State) (n : Nat) : State := s.wakeAt n 8 (waitsFor (.chan n))

/-- The requests held at a channel that is retired complete with poison, syndrome 0x08 (chapter 11, case 'When retraining finds no working
setting'). -/
def State.chanFail (s : State) (n : Nat) : State :=
  s.each (s.reqs.filter (waitsFor (.chan n))) fun s r => (s.answer r [] 8).serveLine r.line

/-- Wake the requests of a page that wait for w. -/
def State.wakePage (s : State) (page : Nat) (w : Wait) : State := s.wake fun r => r.page == page && waitsFor w r

/-! ## Accepting a request (R41, R42, R178, Table 9-10) -/

/-- A new request with the next number. -/
def State.newReq (s : State) (src : Src) (op : ROp) (sa label holder : Nat) (mv : MetaV) (mask : Nat) (d : Bytes) : State × Req :=
  let i := s.nextId + 1
  let r : Req := { id := i, src := src, op := op, sa := sa, label := label, holder := holder, mv := mv, mask := mask, data := d, t0 := s.now, tAcc := s.now,
                   waits := [], stored := false, slot := 0, mirrorTag := 0, dropped := false, par := ClassP.std }
  let r := { r with par := s.classP (s.payer r) (s.clsOf r) }
  ({ s with nextId := i, reqs := s.reqs ++ [r] }, r)

/-- A request at its page home, counted as an access when it is a host's, a tiller's or a gate write (R178). -/
def State.atHome (s : State) (r : Req) (counted : Bool) : State :=
  let s := if counted then s.countAccess r.page else s
  s.serve r.id

/-- The request as a message. -/
def State.sendReq (s : State) (r : Req) (m : Nat) : State :=
  match r.op with
  | .rd => s.send .rd m r.label r.holder (r.id % 65536) (reqMeta r) 0 r.sa []
  | .wr => if r.mask = fullMask then s.send .wr m r.label r.holder (r.id % 65536) (reqMeta r) 0 r.sa r.data
           else s.send .wrp m r.label r.holder (r.id % 65536) (reqMeta r) 0 r.sa (toLe 8 r.mask ++ zeros 24 ++ r.data)
  | .atom => s.send .atom m r.label r.holder (r.id % 65536) (reqMeta r) 0 r.sa r.data
  | .evict => (s.dropReq r.id).emit (.copy m (.evict r.line r.holder))

/-- Is an earlier request to the same line held for the same member (R42)? -/
def State.paceBehind (s : State) (r : Req) (m : Nat) : Bool :=
  (s.reqs.takeWhile fun q => q.id != r.id).any fun q => q.line == r.line && q.waits.contains (Wait.pace m)

/-- Send a request to another module's page home (R56, R315); to a slow member of the extent's spread set it is held beyond
INT_CFG.PACE_OUT outstanding (R418). -/
def State.toRemote (s : State) (r : Req) (m : Nat) : State :=
  let e := extOf r.page
  if s.paceBehind r m || (s.integ.spreadSlow.contains (e, m)
      && decide ((s.reqs.filter fun q => extOf q.page == e && q.waits.contains (Wait.remote m)).length ≥ s.fld 0xC00008 41 32)) then
    s.await r.id (.pace m)
  else (s.modReq r.id fun q => { q with waits := [.remote m], t0 := s.now }).sendReq r m

/-- A request to a slow member was answered: those held for it are tried again, in arrival order, each extent up to its bound. -/
def State.paceNext (s : State) (m : Nat) : State :=
  s.each (s.reqs.filter fun q => q.waits.contains (Wait.pace m)) fun s r => s.toRemote { r with waits := [] } m

/-- Route an accepted request to its page home (R45, R50, R317, R333, R337, Table 9-10). Of a slot that is being re-spread that is the old member, for
the portal of the new member too (R90). -/
def State.route (s : State) (r : Req) (counted : Bool) : State :=
  let page := r.page
  let h := s.pageHome page
  let t := twinOf h
  if s.homes page && !(h != s.me && s.movedHere page) then s.atHome r counted
  else if s.mirrored page && (s.hdg.takeover.contains h || s.reqs.any fun q => q.page == page && q.waits.contains .takeover) then
    s.modReq r.id fun q => { q with waits := [.takeover], t0 := s.now }
  else if h = s.me then s.toRemote r t
  else if s.canRoute h then s.toRemote r h
  else if !s.mirrored page then s.homeAbsent r
  else if s.hdg.quorum || r.op == ROp.rd || r.op == ROp.evict then
    (if t = s.me then s.atHome r counted else if s.canRoute t then s.toRemote r t else s.homeAbsent r)
  else if s.canRoute t then ((s.bump cntHdg 2 1).post 0x020B []).answer r [] 0
  else s.homeAbsent r

/-- Send on, in arrival order, the requests that a takeover or a timeout held (R333, R335). -/
def State.reroute (s : State) (p : Req → Bool) : State :=
  let rs := s.reqs.filter fun r => p r && waitsFor .takeover r
  let s := s.each rs fun s r => s.modReq r.id fun q => { q with waits := [] }
  s.each rs fun s r => s.route { r with waits := [] } false

/-- Accept a request into the module and route it. -/
def State.accept (s : State) (src : Src) (op : ROp) (sa label holder : Nat) (mv : MetaV) (mask : Nat) (d : Bytes) : State :=
  let (s, r) := s.awake.newReq src op sa label holder mv mask d
  s.route r true

/-- An evict of a line by a holder, on its way to the page home; nobody waits for an answer. -/
def State.evictLine (s : State) (sa holder : Nat) : State :=
  let (s, r) := s.awake.newReq (.peer 64 0) .evict sa 7 holder .invalid 0 []
  s.route r false

/-! ## Snoop answers (R99, R102 to R104) -/

/-- The entry after the answers to a request's snoops (Table 3-2). Holders kept shared stand in `kept`, one kept exclusive as h + 65536. -/
def State.dirResolve (s : State) (t : Trk) (r : Req) : State :=
  let l := t.line
  let tag := dirTag l
  if r.op != .rd then (s.dirAfterWrite l r.holder r.mv).1
  else match t.kind with
    | .inv => s.dirPut l (ptrEnt tag 2 [r.holder])
    | .data =>
      let e := ptrEnt tag 1 [r.holder]
      s.dirPut l ((t.kept.map (· % 65536)).foldl addShared e)
    | .cur =>
      match t.kept with
      | [] => s.dirDel l
      | h :: _ => s.dirPut l (ptrEnt tag (if h ≥ 65536 then 2 else 1) [h % 65536])

/-- Show the hidden bytes of a line (R104). -/
def State.reveal (s : State) (page j : Nat) : State :=
  s.onHusk fun h => { h with slots := h.slots.map fun x =>
    if x.page = page && (x.line j).hmask != 0 then { x with lines := put x.lines j (x.line j).reveal } else x }

/-! ## Pages of a takeover (R334) -/

/-- Lines of a page left with no waiting snoop: a takeover or a re-spread page is free of them. -/
def State.pageSnooped (s : State) (page : Nat) : Bool := !(s.dir.trk.any fun t => t.line / 64 == page)

/-- A takeover of a module's pages completes with its last marked page: HDG_INT_STATUS.TAKEOVER and event 0x0206 (R333, Table 9-9). -/
def State.takeoverDone (s : State) (m : Nat) : State :=
  if s.hdg.acting.contains m && !(s.hdg.twinMarks.any fun p => s.pageHome p == m) then
    (s.intr 0x200028 4).post 0x0206 [(1, m), (4, (s.now - (look s.hdg.absentAt m).getD s.now) / 10 ^ 6)]
  else s

/-- A marked page is released once no block snoop of it is outstanding: its held requests are served. -/
def State.releaseTaken (s : State) (page : Nat) : State :=
  if s.hdg.twinMarks.contains page && s.pageSnooped page then
    let s := s.onHdg fun h => { h with twinMarks := h.twinMarks.filter (· != page) }
    (s.reroute fun r => r.page == page).takeoverDone (s.pageHome page)
  else s

/-- Every answer of a tracker has come: the entry is updated, the request goes on, and those behind it follow (R100). A write's bytes become
visible and its entry leaves pending state then, whether or not its other conditions of Table 1-6 are met (log entry 89). -/
def State.trkDone (s : State) (t : Trk) : State :=
  let s := s.onDir fun d => { d with trk := removeFirst (· == t) d.trk }
  let l := t.line
  let s := match t.req with
    | some id =>
      match s.req id with
      | some r =>
        let s := s.dirResolve t r
        if r.op = ROp.rd then (s.modReq id fun q => { q with stored := true, waits := [] }).serve id
        else if !r.stored then (s.modReq id fun q => { q with waits := [] }).serve id
        else
          let s := (s.reveal (l / 64) (l % 64)).noteConsumer r
          s.settle id fun w => w == Wait.snoop
      | none => s.dirDel l
    | none =>
      if t.victim then s.onDir fun d => { d with vbuf := d.vbuf.filter fun v => v.1 != l }
      else
        match s.dirEnt l with
        | some e => if e.st = 3 then s.dirPutOpt l (if (ptrs e).isEmpty && e.form == 0 then none else some { e with st := 1 }) else s
        | none => s
  (s.wake fun r => r.line == l && (waitsFor .snoop r || waitsFor .order r)).releaseTaken (l / 64)

/-- Store a snoop's written-back bytes: under the hidden bytes of the request, over what the slot shows (R103). A write-back that
finds no FREE slot waits as a request of its own, and one to a V-LR page is dropped as any write to it (R144). -/
def State.storeWbk (s : State) (l : Nat) (d : Bytes) : State :=
  let page := l / 64
  let j := l % 64
  if s.isVlr page then s.vlrDrop
  else match s.husk.slots.find? (fun x => x.page == page && (x.line j).hmask != 0) with
  | some x => s.modSlot x.id fun y => { y with lines := put y.lines j ((y.line j).store false fullMask d) }
  | none =>
    let (s, slot) := s.slotStore page j fullMask d false false
    if slot != 0 then s
    else
      let (s, r) := (s.slotWait).newReq (.peer 64 0) .wr (l * 64) 7 4096 .invalid fullMask d
      let s := { s with reqs := r :: s.reqs.filter fun q => q.id != r.id }
      s.await r.id .slot

/-- Does a written-back line wait for a slot (R103)? -/
def State.wbkWaits (s : State) (l : Nat) : Bool := s.reqs.any fun r => r.line == l && r.isWbk && waitsFor .slot r

/-- Is a snoop of a line to a holder outstanding, from a holder that is not marked unresponsive? -/
def State.owes (s : State) (l h : Nat) : Bool :=
  !s.dir.unresp.contains h && s.dir.trk.any fun t => t.line == l && t.owed.contains h

/-- One line's answer: the holder no longer owes it. -/
def State.snoopAnswer (s : State) (l h : Nat) (a : SnpRsp) : State :=
  if !s.owes l h then s.bump cntDir 5 1
  else
    match s.dir.trk.find? (fun t => t.line == l && t.owed.contains h) with
    | none => s
    | some t =>
      let t' : Trk := { t with owed := t.owed.filter (· != h),
                               kept := match a with
                                 | .i => t.kept
                                 | .s => t.kept ++ [h]
                                 | .e => t.kept ++ [h + 65536] }
      let s := s.onDir fun d => { d with trk := replaceFirst (· == t) (fun _ => t') d.trk }
      -- a pending entry keeps the holders that still owe an answer (R98); a sweep's snoop takes the holder off the entry
      let s := if t.req.isSome || t.victim then s.dirMod l fun e => pendEnt e t'.owed
        else
          match s.dirEnt l with
          | some e => match dropHolder e h with
            | some e' => s.dirPut l { e' with st := e.st }
            | none => s.dirPut l { e with count := 0, holders := 0 }
          | none => s
      if t'.owed.isEmpty && !s.wbkWaits l then s.trkDone t' else s

/-- A written-back line has entered its slot: the snoop whose answers have all come ends (R103, Table 3-3). -/
def State.wbkStored (s : State) (l : Nat) : State :=
  if s.wbkWaits l then s
  else match s.dir.trk.find? (fun t => t.line == l && t.owed.isEmpty) with
    | some t => s.trkDone t
    | none => s

end Sys2Proof.Machine
end

