-- ==== Sys2Proof/Machine/Portal.lean ====
section
/-! DEFINITION. The portal: hedge decode and the no-lease path (spec/02_memory_space.md R52 to R57), host reads and writes, clean evicts,
UIO requests (R481), and the commit of host windows (R478). -/

namespace Sys2Proof.Machine

open Sys2Proof

/-! ## Hedge decode (R53) -/

/-- Is a host port up (HP_PORT_STAT.STATE)? -/
def State.portUp (s : State) (p : Nat) : Bool := (look s.host.ports p).any fun x => x.st == 2

/-- May an LD send requests now: its port is up and the module takes requests (R221)? -/
def State.hostOpen (s : State) (ld : Nat) : Bool := s.serving && s.portUp (ld / 16)

/-- Does a window hold an address? Its size is 8 × span. -/
def Window.holds (w : Window) (hpa : Nat) : Bool := decide (w.base ≤ hpa ∧ hpa < w.base + 8 * 2 ^ w.k)

/-- The window of an LD whose committed decoder range holds an address. -/
def State.windowOf (s : State) (ld hpa : Nat) : Option Nat :=
  (List.range 8).find? fun w => (look s.spc.windows (ld * 8 + w)).any fun x => x.holds hpa

/-- What the hedge table makes of an address: window, label and byte offset in the window without the label. -/
def State.hedgeParts (s : State) (ld hpa : Nat) : Option (Nat × Nat × Nat) :=
  match s.windowOf ld hpa with
  | none => none
  | some w =>
    match look s.spc.windows (ld * 8 + w) with
    | none => none
    | some x => some (w, bits (hpa - x.base) (x.k + 2) x.k, (hpa - x.base) % 2 ^ x.k)

/-- The extent that a window maps at an offset. -/
def State.slotExt (s : State) (ld w woff : Nat) : Option Nat :=
  match look s.spc.slots (ld * 8 + w) with
  | some m => look m (woff / 2 ^ 30)
  | none => none

/-- The lease bound to a window of an LD, with its handle. -/
def State.leaseAt (s : State) (ld w : Nat) : Option (Nat × Lease) :=
  s.spc.leases.find? fun l => l.2.ld == some ld && l.2.window == w

/-- Is an extent draining from some lease? -/
def State.drainingExt (s : State) (e : Nat) : Bool := s.spc.drains.any fun d => d.exts.contains e

/-- May a request of an LD use the extent of a slot: its lease is ACTIVE with the right, the extent is not draining from it, and no write
goes to a published extent? Right 0 is read, 1 write. -/
def State.granted (s : State) (ld w e right : Nat) : Bool :=
  match s.leaseAt ld w with
  | none => false
  | some (h, l) =>
    l.st == .active && l.rights.testBit right && !(s.spc.drains.any fun d => d.handle == h && d.exts.contains e) &&
      (match look s.spc.extents e with
       | some x => !(right == 1 && x.kind == .published)
       | none => false)

/-- A decoded request: label and space address. -/
def State.hedge (s : State) (ld hpa right : Nat) : Option (Nat × Nat) :=
  match s.hedgeParts ld hpa with
  | none => none
  | some (w, label, woff) =>
    match s.slotExt ld w woff with
    | none => none
    | some e => if s.granted ld w e right then some (label, e * 2 ^ 30 + woff % 2 ^ 30) else none

/-- Is a dropped write counted in SPC_CNT_REVDROP: its extent is draining, or the lease of its window is in DRAINING or GRACE? -/
def State.revDrop (s : State) (ld hpa : Nat) : Bool :=
  match s.hedgeParts ld hpa with
  | none => false
  | some (w, _, woff) =>
    (s.slotExt ld w woff).any (fun e => s.drainingExt e) ||
      (match s.leaseAt ld w with
       | some (_, l) => l.st == .draining || l.st == .grace
       | none => false)

/-- The no-lease path: counted and posted; a write is dropped (chapter 2, case 'When a request has no lease'). -/
def State.noLease (s : State) (ld hpa : Nat) (write : Bool) : State :=
  let s := if write then s.bump cntSpc (if s.revDrop ld hpa then 1 else 0) 1 else s
  s.postFor [ld] 0x0307 []

/-- The kind of the extent of a space address. -/
def State.kindAt (s : State) (sa : Nat) : Kind := match look s.spc.extents (sa / 2 ^ 30) with
  | some x => x.kind
  | none => .priv

/-- The META that a request carries: only shared coherent extents have coherence state. -/
def State.metaAt (s : State) (sa : Nat) (mv : MetaV) : MetaV := if s.kindAt sa = .shared then mv else .invalid

/-- Bytes that a mask writes. -/
def maskBytes (m : Nat) : Nat := ((List.range 64).filter fun i => m.testBit i).length

/-- Must the port refuse a request outside an IDE stream (R433)? -/
def State.ideRefuses (s : State) (ld : Nat) (ide : Bool) : Bool := (s.reg 0xD00008).testBit (ld / 16) && !ide

/-! ## Host requests -/

/-- HOST_READ (R27, R53): a read of an LD, decoded and served from the page home, or poisoned 0x04 on the no-lease path. -/
def execHostRead (ld : Fin 64) (hpa : Nat) (mv : MetaV) (tag : Nat) (ide : Bool) (s : State) : Outcome :=
  .next (
    if !s.hostOpen ld then s
    else if s.ideRefuses ld ide then (s.bump cntSec 0 1).emit (.unsupported ld tag)
    else
      match s.hedge ld hpa 0 with
      | none => (s.awake.noLease ld hpa false).emit (.data ld tag 4 0 0 (zeros 64))
      | some (label, sa) =>
        let s := s.demand (s.holderOf ld) (s.classOf ld label) (ld.val / 16) 64
        let s := s.consumeRead (saPage sa) label ld
        s.accept (.host ld tag) .rd (sa / 64 * 64) label (s.holderOf ld) (s.metaAt sa mv) 0 [])

/-- A write-back of a line that the holder owes a snoop answer for (R103, R312): to the line's home, and completed. -/
def State.ownWbk (s : State) (ld l : Nat) (d : Bytes) : State :=
  match s.dir.owed.find? (fun o => o.1 == ld && o.2.1 == l) with
  | some o => s.send .wbk o.2.2.1 0 (s.holderOf ld) o.2.2.2 0 0 (l * 64) d
  | none => s.storeWbk l d

/-- Does an LD owe a snoop answer for a line, to this home or another? -/
def State.ldOwes (s : State) (ld l : Nat) : Bool := s.owes l (s.holderOf ld) || s.dir.owed.any fun o => o.1 == ld && o.2.1 == l

/-- The line that an address maps to while its slot is mapped, whatever the state of the lease. -/
def State.mappedLine (s : State) (ld hpa : Nat) : Option Nat :=
  match s.hedgeParts ld hpa with
  | none => none
  | some (w, _, woff) => (s.slotExt ld w woff).map fun e => saLine (e * 2 ^ 30 + woff % 2 ^ 30)

/-- The line of a write that answers a snoop under a lease that no longer serves requests (R103; log entry 49). -/
def State.lateWbk (s : State) (ld hpa : Nat) : Option Nat := (s.mappedLine ld hpa).filter fun l => s.ldOwes ld l

/-- HOST_WRITE (R36, R53, R103): a write of an LD, decoded and stored at the page home, dropped on the no-lease path, or a write-back. -/
def execHostWrite (ld : Fin 64) (hpa : Nat) (mv : MetaV) (tag : Nat) (mask : BitVec 64) (data : Bytes) (ide : Bool) (s : State) : Outcome :=
  .next (
    if !s.hostOpen ld then s
    else if s.ideRefuses ld ide then (s.bump cntSec 0 1).emit (.unsupported ld tag)
    else
      match s.hedge ld hpa 1 with
      | none =>
        (match s.lateWbk ld hpa with
         | some l => s.awake.ownWbk ld l (fit 64 data)
         | none => s.awake.noLease ld hpa true).emit (.cmp ld tag 0 0)
      | some (label, sa) =>
        if s.ldOwes ld (saLine sa) then (s.awake.ownWbk ld (saLine sa) (fit 64 data)).emit (.cmp ld tag 0 0)
        else
          let s := s.meter (s.holderOf ld) (s.classOf ld label) (4 + ld.val / 16) (maskBytes mask.toNat)
          s.accept (.host ld tag) .wr (sa / 64 * 64) label (s.holderOf ld) (s.metaAt sa mv) mask.toNat (fit 64 data))

/-- HOST_CLEAN_EVICT (Table 3-2): an evict of a line of a shared coherent extent goes to its page home, where it waits for a pending entry. -/
def execHostCleanEvict (ld : Fin 64) (hpa : Nat) (s : State) : Outcome :=
  .next (
    if !s.hostOpen ld then s
    else
      match s.hedge ld hpa 0 with
      | none => s
      | some (_, sa) =>
        if s.kindAt sa = .shared then s.evictLine (sa / 64 * 64) (s.holderOf ld) else s.awake)

/-- UIO_REQUEST (R481): counted, decoded as a request of the LD; a read is an RdI and a write comes from a holder that holds nothing. -/
def execUioRequest (ld : Fin 64) (hpa : Nat) (write : Bool) (tag : Nat) (mask : BitVec 64) (data : Bytes) (s : State) : Outcome :=
  .next (
    if !s.hostOpen ld then s
    else
      let s := s.bump cntHp 1 1
      match s.hedge ld hpa (if write then 1 else 0) with
      | none => (s.awake.noLease ld hpa write).emit (if write then .uio ld tag 0 [] else .uio ld tag 1 (zeros 64))
      | some (label, sa) =>
        let c := s.classOf ld label
        if write then (s.meter (s.holderOf ld) c (4 + ld.val / 16) (maskBytes mask.toNat)).accept (.uio ld tag) .wr (sa / 64 * 64) label 4096
          .invalid mask.toNat (fit 64 data)
        else ((s.meter (s.holderOf ld) c (ld.val / 16) 64).consumeRead (saPage sa) label ld).accept (.uio ld tag) .rd (sa / 64 * 64) label 4096 .invalid 0 [])

/-! ## Windows (R52, R57, R478) -/

/-- The span of a window size, as its log2, when the size and base keep R52: 8 × a power of two from 1 GiB to 64 TiB, aligned. -/
def spanOf (base size : Nat) : Option Nat :=
  ((List.range 17).map (· + 30)).find? fun k => size == 8 * 2 ^ k && base % (8 * 2 ^ k) == 0

/-- Spans of all windows of the module but one. -/
def State.spanSum (s : State) (but : Nat) : Nat := sumOf (s.spc.windows.filter fun w => w.1 != but) fun w => 2 ^ w.2.k

/-- HDM_DECODER_COMMIT (R478): window i of an LD is committed, or the commit is refused and reported. -/
def execHdmDecoderCommit (ld : Fin 64) (i : Fin 8) (base : Nat) (size : Nat) (s : State) : Outcome :=
  .next (
    if !s.hostOpen ld then s
    else
      let key := ld.val * 8 + i.val
      match spanOf base size with
      | some k =>
        if s.spanSum key + 2 ^ k ≤ 2 ^ 47 then s.awake.onSpc fun c => { c with windows := put c.windows key ⟨base, k⟩ }
        else (s.awake.intr 0x100028 2).postFor [ld] 0x0103 [(1, ld), (1, i)]
      | none => (s.awake.intr 0x100028 2).postFor [ld] 0x0103 [(1, ld), (1, i)])

end Sys2Proof.Machine
end

