-- ==== Sys2Proof/Machine/Mbox.lean ====
section
/-! DEFINITION. Mailboxes and the CCI (spec/16_host_interface.md R482 to R485, R491; spec/13_security.md R430): who may issue a command,
in which session, its answer, and background commands. The numbers of the CXL return codes are log entry 25. -/

namespace Sys2Proof.Machine

open Sys2Proof

/-! ## Return codes (CXL 3.1; log entry 25) -/

def rcSuccess : Nat := 0
def rcBackground : Nat := 1
def rcInvalidInput : Nat := 2
def rcUnsupported : Nat := 3
def rcBusy : Nat := 6
def rcInvalidAddr : Nat := 15
def rcAborted : Nat := 18
def rcFwTransfer : Nat := 8
def rcFwOrder : Nat := 9
def rcFwAuth : Nat := 10
def rcInvalidSlot : Nat := 11
def rcInvalidHandle : Nat := 14

/-! ## The envelope -/

/-- The mailbox's number: an LD's number, 64 for the fabric manager's CCI. -/
def whoOf : Issuer → Nat
  | .ld m => m.val
  | .fm => 64

/-- The issuing LD of a command; 64 for the fabric manager. -/
def mbWho (x : Mbx) : Nat := whoOf x.issuer
def mbFm (x : Mbx) : Bool := x.issuer == .fm

/-- Fields of a command's input. -/
def mb8 (x : Mbx) (i : Nat) : Nat := leAt x.data i 1
def mb16 (x : Mbx) (i : Nat) : Nat := leAt x.data i 2
def mb32 (x : Mbx) (i : Nat) : Nat := leAt x.data i 4
def mb64 (x : Mbx) (i : Nat) : Nat := leAt x.data i 8

/-- Does a command travel in an established SPDM session of its issuer? -/
def State.inSession (s : State) (x : Mbx) : Bool :=
  match x.sess with
  | some i => look s.sec.sessions (mbWho x * 2 + i.val) == some 2
  | none => false

/-- The session number of a command. -/
def mbSess (x : Mbx) : Nat := match x.sess with
  | some i => i.val
  | none => 0

/-- Answer a command: return code and output bytes. -/
def State.reply (s : State) (x : Mbx) (rc : Nat) (out : Bytes) : State := s.emit (.mbox (mbWho x) rc out)

/-- Answer a decided vendor command with its vendor status alone. -/
def State.status (s : State) (x : Mbx) (st : Nat) : State := s.reply x rcSuccess (toLe 1 st)

/-- Answer a decided vendor command with status 0 and its further output from byte 1 on. -/
def State.okOut (s : State) (x : Mbx) (out : Bytes) : State := s.reply x rcSuccess (0 :: out)

/-- Who may issue a command. -/
inductive By where
  | any
  | ld
  | fm
  deriving DecidableEq, Repr

/-- Can the issuer reach the module: an LD through its host port, the fabric manager through the sideband, also on a
module that is not fit (R511)? -/
def State.reaches (s : State) (x : Mbx) : Bool :=
  match x.issuer with
  | .ld m => s.hostOpen m && s.pwr.boot.isNone
  | .fm => (s.serving && s.pwr.boot.isNone) || (s.pwr.on && s.pwr.resetN && s.pwr.flush.isNone && !s.pwr.fit)

/-- A mailbox command ends Idle (R494); Doze is left by the commands and requests of chapter 17 only. -/
def State.unidle (s : State) : State := if s.pwr.state = 1 then s.awake else s.onPwr fun p => { p with lastActive := s.now }

/-- Run a command: counted; refused with status 0x08 when its issuer may not issue it, when the fabric manager is outside a session
(R491), or when it must be a secured message and is not (R430); Invalid Input when its input is shorter than it needs (R484). -/
def State.command (s : State) (x : Mbx) (by_ : By) (secure : Bool) (need : Nat) (f : State → State) : State :=
  if !s.reaches x then s
  else
    let s := (s.unidle).bump cntHp 2 1
    if (by_ == .fm && !mbFm x) || (by_ == .ld && mbFm x) then s.status x 8
    else if secure && !s.inSession x then (s.bump cntSec 3 1).status x 8
    else if mbFm x && !s.inSession x then s.status x 8
    else if x.data.length < need then s.reply x rcInvalidInput []
    else f s

/-- A standard command, which has no vendor status: from an issuer that may not send it, Unsupported. -/
def State.stdCommand (s : State) (x : Mbx) (by_ : By) (need : Nat) (f : State → State) : State :=
  if !s.reaches x then s
  else
    let s := (s.unidle).bump cntHp 2 1
    if (by_ == .fm && !mbFm x) || (by_ == .ld && mbFm x) then s.reply x rcUnsupported []
    else if mbFm x && !s.inSession x then s.reply x rcUnsupported []
    else if x.data.length < need then s.reply x rcInvalidInput []
    else f s

/-! ## Background commands (R482) -/

/-- Is a background command running on a mailbox? -/
def State.bgBusy (s : State) (who : Nat) : Bool := (look s.host.bg who).any fun b => b.running

/-- Start a background command of a mailbox and answer that it runs. -/
def State.startBg (s : State) (x : Mbx) (opcode : Nat) : State :=
  (s.onHost fun h => { h with bg := put h.bg (mbWho x) ⟨opcode, true, 0, []⟩ }).reply x rcBackground [0]

/-- End the background command of a mailbox with its return code and output; of one that an LD reset has cut off (opcode 0) nothing is kept. -/
def State.endBg (s : State) (who rc : Nat) (out : Bytes) : State :=
  s.onHost fun h => { h with bg := upd h.bg who fun b => if b.running then
    (if b.opcode = 0 then ⟨0, false, 0, []⟩ else { b with running := false, rc := rc, out := out }) else b }

/-- Run a background command: Busy while another runs on the mailbox. -/
def State.bgCommand (s : State) (x : Mbx) (f : State → State) : State := if s.bgBusy (mbWho x) then s.reply x rcBusy [] else f s

/-! ## What a command names -/

/-- Is a run of pages inside extents that the leases of an LD name with a right (0 read, 1 write) while ACTIVE? -/
def State.leasedPages (s : State) (ld first count right : Nat) : Bool :=
  decide (0 < count) && (List.range ((first + count - 1) / 2 ^ 18 - first / 2 ^ 18 + 1)).all fun i =>
    s.spc.leases.any fun l => l.2.ld == some ld && l.2.st == .active && l.2.rights.testBit right
      && l.2.exts.any (fun e => e.1 == first / 2 ^ 18 + i)

end Sys2Proof.Machine
end

