-- ==== Sys2Proof/Machine/Slots.lean ====
section
/-! DEFINITION. Merge-buffer slots and the recode of a page (spec/04_husk_compression.md R158 to R162), and moves that waited for near
space. -/

namespace Sys2Proof.Machine

open Sys2Proof

/-! ## Placement requests and TIER_MOVE that wait for moves -/

/-- Report the runs whose pages are all carried out or refused (R192): a DONE record, the answer to a PLACE message, or the end of a
background command. -/
def State.flushRuns (s : State) : State :=
  let fin := s.tier.runs.filter fun r => r.wait.isEmpty && r.away.isEmpty
  (s.onTier fun t => { t with runs := t.runs.filter fun r => !r.wait.isEmpty || !r.away.isEmpty }).each fin fun s r =>
    match r.who with
    | some w => s.endBg w rcSuccess (toLe 4 0 ++ toLe 4 r.done)
    | none =>
      match r.peer with
      | some (m, tag) => s.send .cmp m 7 4096 tag 0 0 0 []
      | none => s.hook (hookRec 3 r.acct r.op 0 (s.tier.epoch % 2 ^ 32) r.tag 0 0 0 0 r.done r.refused)

/-- The move of a page ended, carried out or not. -/
def State.runEnded (s : State) (page : Nat) (ok : Bool) : State :=
  let f (r : MoveRun) : MoveRun :=
    if r.wait.contains page then
      { r with wait := r.wait.filter (· != page), done := r.done + (if ok then 1 else 0), refused := r.refused + (if ok then 0 else 1) }
    else r
  (s.onTier fun t => { t with runs := t.runs.map f }).flushRuns

/-! ## Relocation (R175, R176, R409) -/

/-- Start the relocation of a page's near husk: state retired source. Without free chunks, or while a recode or a move holds the page, it does
not start yet and is tried again when space is free (R176). -/
def State.startReloc (s : State) (page : Nat) : State :=
  let p := s.pme page
  if (p.st == .near || p.st == .both) && (s.move page).isNone && !s.recoding page then
    match s.findNear none p.len (p.prot == 1) stagingChunks with
    | some a =>
      ((s.setPme page { p with st := .retired, prev := p.st } false).takeNear a p.len).setMove page (some { Move.mk0 2 7 s.now with near := a })
    | none => s.noSpace
  else s

/-- Relocate every page whose near husk touches a retired unit of a channel that is up, or lies in a stripe region whose parity channel is
not (R402, R409). -/
def State.leaveRetired (s : State) : State :=
  if s.near.retired.isEmpty then s
  else s.each s.tier.pmes fun s e =>
    let n := chanOf e.2.near
    let k := chunkIdx e.2.near
    if (e.2.st == .near || e.2.st == .both) && s.chanUp n
        && (s.touchesRetired n k e.2.len || (s.inStripe n k && !s.chanUp (parityChan n k))) then s.startReloc e.1 else s

/-! ## Near space that became free -/

/-- Give near chunks to the moves that wait for them, in page order (chapter 5, case 'When no page is evictable and space is
needed'). A move that waited for a recode which left the page near is over. -/
def State.retryMoves (s : State) : State :=
  let s := s.leaveRetired
  s.each (s.tier.moves.filter fun m => m.2.waitSpace && m.2.kind == 0) fun s m =>
    let p := s.pmeOf m.1
    if p.st != .far then (s.setMove m.1 none).runEnded m.1 (hasNear p)
    else if s.recoding m.1 && !m.2.pull then s
    else if (s.findNear none p.len (p.prot == 1) (if m.2.pull then 0 else stagingChunks)).isSome then s.movePlace m.1 m.2
    else s

/-! ## Twin slots (R158, R312, R332) -/

/-- Mask and bytes of a write as WR or MIRROR with LEN 2 carry it, or as WRP or MIRROR with LEN 3 (Table 9-6). -/
def lineBody (d : Bytes) : Nat × Bytes := if d.length > 64 then (leAt d 0 8, fit 64 (d.drop 32)) else (fullMask, fit 64 d)

/-- A mirrored line enters a twin slot of its page and is acknowledged; false when no twin slot is FREE. -/
def State.mirrorIn (s : State) (m : Msg) : State × Bool :=
  let (k, d) := lineBody m.data
  let (s, slot) := s.slotStore (saPage m.addr) (lineIdx m.addr) k d false true
  if slot = 0 then (s, false) else (s.send .mack m.src m.label m.holder m.tag 0 0 m.addr [], true)

/-- A close marker: the twin slot of its page closes and takes the SEQ that it carries. -/
def State.closeIn (s : State) (m : Msg) : State :=
  match s.openSlot (saPage m.addr) true with
  | some x => s.modSlot x.id fun y => { y with ph := .closed, seq := leAt m.data 0 4 }
  | none => s

/-- Is a mirror message a close marker: no line in it (Table 9-6)? -/
def isClose (m : Msg) : Bool := decide (m.data.length < 64)

/-- MIRROR messages that wait for a twin slot enter in arrival order while there is one, and the close markers among them take effect. -/
def State.mirrorPump (s : State) : Nat → State
  | 0 => s
  | f + 1 =>
    match s.hdg.mirrorQ with
    | [] => s
    | m :: t =>
      let (s', ok) := if isClose m then (s.closeIn m, true) else s.mirrorIn m
      if ok then (s'.onHdg fun h => { h with mirrorQ := t }).mirrorPump f else s

/-! ## Closing (Table 4-11) -/

/-- Time after which a slot of a page closes: WIN_NS, or DUR_NS for a durable extent. -/
def State.slotWindow (s : State) (page : Nat) : Nat := if s.durablePage page then s.fld 0x500010 45 32 else s.fld 0x500010 26 7

/-- MB_SLOT_WINDOW_EXPIRE (R159): the OPEN slot of a page, other than a twin copy's, closes once its window has passed. -/
def execMbSlotWindowExpire (page : Nat) (s : State) : Outcome :=
  .next (
    match s.openSlot page false with
    | some x => if s.now ≥ x.tFirst + s.slotWindow page ∧ ¬ x.lines.isEmpty ∧ ¬ x.bg then s.closeSlot x.id else s
    | none => s)

/-- MB_WRITE_SLOT_WAIT_END (chapter 4, case 'When a write finds no FREE merge-buffer slot'): the write of a number is accepted once a slot
can take it. -/
def execMbWriteSlotWaitEnd (r : Nat) (s : State) : Outcome :=
  .next (
    match s.req r with
    | some q => if waitsFor .slot q && (s.slotFree false || (s.openSlot q.page false).isSome) then (s.serve r).wbkStored q.line else s
    | none => s)

/-! ## Recode -/

/-- The first closed slot of a page. -/
def State.closedSlot (s : State) (page : Nat) : Option Slot := s.husk.slots.find? fun x => x.page == page && x.ph == .closed

/-- Does a slot still hide bytes of a write whose snoops are out (R104)? -/
def Slot.hides (x : Slot) : Bool := x.lines.any fun l => l.2.hmask != 0

/-- A page has its recode's chunks: a far page is pulled through; with an uncorrectable line it is recovered first, and a whole husk whose HCRC
does not match poisons the page (R123). True when the recode may go on now. -/
def State.readyBase (s : State) (page : Nat) (x : Slot) : State × Bool :=
  let p := s.pmeOf page
  if x.wholePage then (s, true)
  else if p.st == .far || p.st == .promoting then (s.needPull page 7, false)
  else if !hasNear p then (s, true)
  else
    let (s, rc) := if s.hasUncorr p then s.recover page 7 else (s, .now)
    match rc with
    | .pull => (s, false)
    | .twin => (s, false)
    | .slot => (s, false)
    | _ =>
      match s.wholeHusk (s.pmeOf page) with
      | some b => if hasNear (s.pmeOf page) && !hcrcOk b then ((s.hcrcFail page).losePage page 1, true) else (s, true)
      | none => (s, true)

/-- Give the grains of a recode to husk lanes: a decode for each that is neither copied nor written whole, by the old husk's class, and an encode
for each that is not copied (R154, R156); none while the lanes have no room. -/
def State.recodeLanes (s : State) (base : Base) (e : EncP) (h : Husk) (ins : List GIn) : Option State :=
  let dec := (ins.filter fun i => i.copy.isNone && i.mask != 2 ^ 256 - 1).length
  let enc := (ins.filter fun i => i.copy.isNone).length
  let s := match base with
    | .husk x => let c := if x.fallback then 0 else x.cls
                 s.toLanes (isLossless c) 256 (laneCost c 256 false) dec
    | _ => some s
  let c := if h.fallback then 0 else e.cls
  s.bind fun s => s.toLanes (isLossless c) 256 (laneCost c 256 true) enc

/-- Build the husk of a RECODING slot, once the lanes take its grains, with the capacity test (Table 4-12 steps 3 to 6; R81). -/
def State.recodeGo (s : State) (page : Nat) (x : Slot) (xt : Extent) : State :=
  let p := s.pmeOf page
  let base := s.baseOf page
  let e := s.encOf xt
  let (h, ins) := s.buildHusk page p base e x.lines (s.slotSeq page x)
  match s.recodeLanes base e h ins with
  | none => s
  | some s =>
    let s := s.noteGrains page ins
    let t : Int := (h.chunks : Int) - xt.d
    if isLossless xt.cls && !s.capacityOk page (s.pmeOf page) t then
      ((s.capExhausted page x).wakePage page .recode).wakePage page .respread
    else (s.noteHusk h).modSlot x.id fun y => { y with built := some h }

/-- The RECODING slot of a page whose husk is not built yet. -/
def State.unbuiltSlot (s : State) (page : Nat) : Option Slot :=
  s.husk.slots.find? fun x => x.page == page && x.ph == .recoding && x.built.isNone

/-- A RECODING slot goes on once its page's bytes are there (Table 4-12 step 2). -/
def State.recodeTry (s : State) (page : Nat) : State :=
  match s.unbuiltSlot page with
  | none => s
  | some x =>
    match s.extent page with
    | none => (s.freeSlot x.id).mirrorPump s.hdg.mirrorQ.length
    | some xt =>
      let (s, ok) := s.readyBase page x
      if ok then s.recodeGo page x xt else s

/-- SLOT_RECODE_START (R160, R161): the closed slot of a page becomes RECODING once earlier recodes and moves of the page have finished and nothing
of it is hidden; a mirrored page's twin is told to close its slot now, with the new SEQ, so that both slots hold the same lines (DESIGN CHOICE,
log entry 95); and the recode goes on with step 2. -/
def execSlotRecodeStart (page : Nat) (s : State) : Outcome :=
  .next (
    match s.closedSlot page with
    | none => s.recodeTry page
    | some x =>
      if s.recoding page || (s.move page).any (fun m => !m.waitSpace) || x.hides then s.recodeTry page
      else
        let s := s.modSlot x.id fun y => { y with ph := .recoding }
        let s := if s.mirrored page && s.twinLive && !x.twin && s.ownPage page then s.sendClose page (s.slotSeq page x) else s
        s.recodeTry page)

/-- The recodes that wait for their page's bytes or for room in the lanes go on. -/
def State.recodesGo (s : State) : State :=
  s.each ((s.husk.slots.filter fun x => x.ph == .recoding && x.built.isNone).map Slot.page) fun s p => s.recodeTry p

/-- The writes that a recoded durable slot holds now also wait for the journal row of the record just entered (R212). -/
def State.durWaits (s : State) (slot : Nat) : State :=
  let n := s.far.jrnlNext - 1
  { s with reqs := s.reqs.map fun r => if r.slot = slot && r.waits.contains .far then { r with waits := r.waits ++ [.jrnl n] } else r }

/-- The recode of a page ended: the RECODE commands that wait for it go on, and end when no page is left (R165). -/
def State.bgRecoded (s : State) (page : Nat) : State :=
  let jobs := s.husk.bgJobs.map fun j => if j.2.2.1.contains page then (j.1, j.2.1, j.2.2.1.filter (· != page), j.2.2.2.1 + 1, j.2.2.2.2) else j
  let s := s.onHusk fun h => { h with bgJobs := jobs.filter (fun j => !j.2.2.1.isEmpty), bgWant := h.bgWant.filter (· != page) }
  s.each (jobs.filter fun j => j.2.2.1.isEmpty) fun s j =>
    ((s.endBg j.1 0 (zeros 4 ++ toLe 4 j.2.2.2.1 ++ toLe 4 j.2.2.2.2)).intr 0x500028 4).post 0x0508 []

/-- RECODE_WRITE_DONE (R38, R161, Table 5-2): the new husk of a page is stored, the poison list brought up to it, the slot freed. It waits
while no chunks are free; a background recode's far write waits for the governor as well (R216). -/
def execRecodeWriteDone (page : Nat) (s : State) : Outcome :=
  .next (
    match s.husk.slots.find? (fun x => x.page == page && x.ph == .recoding) with
    | none => s
    | some x =>
      match x.built with
      | none => s
      | some h =>
        let dur := s.durablePage page && !x.twin
        if dur && x.bg && decide (s.govLevel ≤ 0) then s
        else
        let was := s.pmeOf page
        let (s, ok) := s.storeHusk page h x.id dur
        if !ok then s
        else
          let s := (s.recodePoison page x h).freeSlot x.id
          let s := if was.st == .poisoned then s.plistDrop fun q => q.page && q.addr == page else s
          let s := (s.bump cntHsk 0 1)
          let s := if dur then s.durWaits x.id else s
          ((((s.wakePage page .recode).wakePage page .pull).bgRecoded page).retryMoves).mirrorPump s.hdg.mirrorQ.length)

end Sys2Proof.Machine
end

