-- ==== Sys2Proof/Machine/Tier.lean ====
section
/-! DEFINITION. Tiering (spec/05_tiering_streaming.md): pull-throughs, promotions, demotions, relocations and eviction, epochs and the
age walker, placement requests, stream schedules, and the tiering commands. -/

namespace Sys2Proof.Machine

open Sys2Proof

/-! ## Promotion (R175, R186, R187) -/

/-- Request a promotion of a page (R175, R176, R189): starts one for a far page, merges into a running one, ends a demotion. True
when the page is near or will be. -/
def State.promote (s : State) (page cls : Nat) : State × Bool :=
  let p := s.pmeOf page
  match p.st with
  | .far =>
    if (s.move page).isSome then (s.bump cntTier 7 1, true)
    else if s.recoding page then (s.setMove page (some { Move.mk0 0 cls s.now with waitSpace := true }), true)
    else (s.movePlace page (Move.mk0 0 cls s.now), true)
  | .promoting => (s.bump cntTier 7 1, true)
  | .demoting =>
    match s.move page with
    | some m =>
      let e := s.tier.epoch % 256
      if s.progIssued page m then ((s.setMove page (some { m with revoked := true })).setPme page { p with age := e } false, true)
      else
        let s := match s.itemOf page with
          | some (r, it) => (s.setRow r ((s.rowOf r).filter fun i => i.page != page || i.why != 0)).dropFar it.far (it.bytes.length / 128)
          | none => s
        let s := s.onFar fun f => { f with paced := f.paced.filter (· != page) }
        let s := (s.setMove page none).bump cntTier 6 1
        ((s.setPme page { p with st := .near, far := 0, age := e } false).runEnded page false, true)
    | none => (s, true)
  | .near => (s, true)
  | .both => (s, true)
  | .retired => (s, true)
  | _ => (s, false)

/-- Copy the far husk of a promoting page into its near chunks: the page enters state both. A staged pull-through returns its lines and
gives its chunks back, and the page stays far. -/
def State.finishPromotion (s : State) (page : Nat) (m : Move) : State :=
  let p := s.pmeOf page
  let s := s.writeHusk m.near (s.farBytes page m.far p.len) []
  if m.staged then
    let s := (s.setMove page none).putPme page { p with st := .both, near := m.near }
    let s := (s.wakePage page .pull).recodeTry page
    let q := s.pme page
    let s := if q.st = .both ∧ q.near = m.near then s.putPme page { q with st := .far, near := 0 } else s
    ((s.freeNear m.near).checkMark.retryMoves).runEnded page false
  else
    let s := (s.setMove page none).setPme page { p with st := .both, near := m.near } false
    let s := (((s.bump cntTier 0 1).chargeMove p.acct p.len).wakePage page .pull).recodeTry page
    s.runEnded page true

/-- PULL_THROUGH_DONE (R187): the far husk read for a pull-through is stored near and the reads that wait are served. -/
def execPullThroughDone (page : Nat) (s : State) : Outcome :=
  .next (
    match s.move page with
    | some m => if m.kind = 0 ∧ m.pull ∧ m.done ∧ ¬ m.waitSpace then s.finishPromotion page m else s
    | none => s)

/-- PROMOTION_DONE (R175): the copy of a promotion that no read started is complete. -/
def execPromotionDone (page : Nat) (s : State) : Outcome :=
  .next (
    match s.move page with
    | some m => if m.kind = 0 ∧ ¬ m.pull ∧ m.done ∧ ¬ m.waitSpace then s.finishPromotion page m else s
    | none => s)

/-- FAR_DL_US and PT_BOUND_US in ns. -/
def State.farDl (s : State) : Nat := s.fld 0x600008 47 33 * 1000
def State.ptBound (s : State) : Nat := s.fld 0x600008 32 22 * 1000

/-- PULL_THROUGH_RAISE (R188): at half of FAR_DL_US the read goes to the head of its die's queue. -/
def execPullThroughRaise (page : Nat) (s : State) : Outcome :=
  .next (
    match s.move page with
    | some m => if m.kind = 0 ∧ m.pull ∧ ¬ m.done ∧ ¬ m.raised ∧ s.now ≥ m.t0 + s.farDl / 2 then s.setMove page (some { m with raised := true }) else s
    | none => s)

/-- PULL_THROUGH_DL_MISS (R188): at FAR_DL_US the miss is counted and posted, once; the read is still served. -/
def execPullThroughDlMiss (page : Nat) (s : State) : Outcome :=
  .next (
    match s.move page with
    | some m =>
      if m.kind = 0 ∧ m.pull ∧ ¬ m.missed ∧ s.now ≥ m.t0 + s.farDl then
        (((s.setMove page (some { m with missed := true })).bump cntTier 4 1).intr 0x600028 2).postFor (s.ldsOfAddr (pageSa page)) 0x0603 [(8, pageSa page), (8, s.now - m.t0)]
      else s
    | none => s)

/-- The running schedule whose layers hold a page. -/
def State.schedOf (s : State) (page : Nat) : Option Nat :=
  (s.tier.scheds.find? fun e => e.2.st == 1 && e.2.entries.any fun x => decide (x.1 ≤ page ∧ page < x.1 + x.2.1)).map Prod.fst

/-- STREAM_PT_BOUND_EXPIRE (R188, case 'When a stream-window page is read before it is resident'): the read of a number returns poison
0x03 while the pull-through goes on. -/
def execStreamPtBoundExpire (r : Nat) (s : State) : Outcome :=
  .next (
    match s.req r with
    | none => s
    | some q =>
      match s.move q.page with
      | some m =>
        if waitsFor .pull q ∧ q.op = .rd ∧ m.kind = 0 ∧ m.pull ∧ m.stream ∧ s.now ≥ m.t0 + s.ptBound then
          (((s.answer q [] 3).bump cntTier 5 1).intr 0x600028 4).postFor (s.ldsOfAddr (pageSa q.page)) 0x0605 [(8, pageSa q.page), (1, (s.schedOf q.page).getD 0)]
        else s
      | none => s)

/-! ## Demotion (R175, R182, R183) -/

/-- Hand the husk of a demoting page to the host band; with no band free it waits with the paced writes. -/
def State.issueDemote (s : State) (page : Nat) : State :=
  let p := s.pme page
  let b := (List.range (2 * p.len)).flatMap fun i => match s.huskLine p i with
    | .clean d _ => d
    | .poisoned d _ => d
    | .uncorr => zeros 64
  let (s, a) := s.farAppend false { id := 0, page := page, far := 0, why := 0, t0 := s.now, old := 0, oldLen := 0, bytes := b }
  match a with
  | none => s.onFar fun f => { f with paced := addNew f.paced page }
  | some a =>
    let s := s.onFar fun f => { f with paced := f.paced.filter (· != page) }
    (s.setPme page { p with far := a } false).onTier fun t => { t with moves := upd t.moves page fun m => { m with issued := true, far := a } }

/-- Start the demotion of a near page: uncorrectable data is recovered first (R404), poison is kept, and a paced demotion waits for the
governor (R216). -/
def State.startDemote (s : State) (page cls : Nat) (paced : Bool) : State :=
  let (s, ok) := if s.hasUncorr (s.pme page) then
      let (s, rc) := s.recover page cls
      match rc with
      | .now => (s, true)
      | .none => (if hasNear (s.pme page) then s.losePage page 1 else s, false)
      | _ => (s, false)
    else (s, true)
  if !ok then s.runEnded page false
  else
    let s := s.carryPoison page
    let p := s.pme page
    let s := (s.setMove page (some (Move.mk0 1 cls s.now))).setPme page { p with st := .demoting, far := 0 } false
    if paced && decide (s.govLevel ≤ 0) then s.onFar fun f => { f with paced := addNew f.paced page } else s.issueDemote page

/-- DEMOTION_DONE (R175): the far program of a demotion is done; the page is far, or both after a promotion request. -/
def execDemotionDone (page : Nat) (s : State) : Outcome :=
  .next (
    match s.move page with
    | none => s
    | some m =>
      if m.kind = 1 ∧ m.issued ∧ ¬ s.farPending page then
        let p := s.pme page
        let s := s.setMove page none
        if m.revoked then
          (((s.setPme page { p with st := .both } false).bump cntTier 6 1).chargeMove p.acct p.len).runEnded page false
        else
          let s := (s.dropNear page).setPme page { p with st := .far, near := 0 } false
          let s := (s.bump cntTier 1 1).chargeMove p.acct p.len
          (s.retryMoves).runEnded page true
      else s)

/-! ## Relocation (R175, R409) -/

/-- The lines of a husk on their way to new chunks: an uncorrectable line comes from parity, or goes on in poison form. -/
def State.relocLine (s : State) (p : Pme) (i : Nat) : Bytes :=
  match s.huskLine p i with
  | .clean d _ => encLine d none
  | .poisoned d y => encLine d (some y)
  | .uncorr => match (if p.prot = 1 then s.rebuildLine (p.near * 2 + i) else none) with
    | some w => w
    | none => encLine (zeros 64) (some 1)

/-- RELOCATION_DONE (R175): the husk of a retired-source page is in its new chunks and NEAR is updated. -/
def execRelocationDone (page : Nat) (s : State) : Outcome :=
  .next (
    match s.move page with
    | none => s
    | some m =>
      let p := s.pme page
      if m.kind ≠ 2 ∨ p.st ≠ .retired then s
      else
        let bad := s.hasUncorr p
        let s := if bad then s.uncorrNear page (if p.prot = 1 then outRebuilt else outPoisoned) else s
        let ls := (List.range (2 * p.len)).map fun i => s.relocLine p i
        let s := s.each (List.range (2 * p.len)) fun s i => s.writeLine (m.near * 2 + i) ((ls[i]?).getD blankLine)
        let s := (s.freeNear p.near).setMove page none
        let s := (s.setPme page { p with st := p.prev, near := m.near } false).chargeMove p.acct p.len
        (s.checkMark.retryMoves).runEnded page true)

/-! ## Epochs, the age walker and eviction (R177 to R183) -/

/-- EPOCH_BOUNDARY (R177, R192): at the end of the epoch E advances and the hook records are posted; a new length takes effect. In the boot of a cold
or module reset no epoch ends: E is set to 0 at its step 7, or at its end in bench mode; over a warm reset it keeps counting. -/
def execEpochBoundary (s : State) : Outcome :=
  .next (
    if s.pwr.on && (s.pwr.boot.isNone || s.pwr.last == 2) && decide (s.now ≥ s.tier.epochAt + s.tier.epochMs * 1000000) then
      let s := s.onTier fun t => { t with epoch := (t.epoch + 1) % 2 ^ 32, epochAt := t.epochAt + t.epochMs * 1000000,
                                          epochMs := s.fld 0x600008 57 48, missed := [] }
      let s := s.hookSpace 0
      if s.nearFree < s.lowMark then s.hookSpace 2 else s
    else s)

/-- Order of eviction (R181): decreasing effective age, then state both, then the lower effective counter. -/
def State.evictKey (s : State) (page : Nat) : Nat :=
  let p := s.pme page
  (128 - s.effAge p) * 1024 + (if p.st = .both then 0 else 512) + s.effCount p

/-- AGE_WALKER_VISIT (R179): an old page's age is held at 128, and the candidate list takes the page when it is evictable. -/
def execAgeWalkerVisit (page : Nat) (s : State) : Outcome :=
  .next (
    let p := s.pme page
    if !hasNear p then s
    else
      let s := if s.elapsed p ≥ 128 then s.setPme page { p with age := (s.tier.epoch % 256 + 128) % 256, cnt := 0 } false else s
      let c := s.tier.cand.filter fun q => q != page && s.evictable q (s.pme q)
      let c := if s.evictable page (s.pme page) then c ++ [page] else c
      let c := if c.length ≤ 4096 then c
        else match argMin (fun q => 2 ^ 20 - s.evictKey q) c with
          | some w => c.filter (· != w)
          | none => c
      s.onTier fun t => { t with cand := c })

/-- The candidate that eviction takes next. -/
def State.nextVictim (s : State) : Option Nat := argMin s.evictKey (s.tier.cand.filter fun q => s.evictable q (s.pme q))

/-- Release the husk of a materialised V-LR page: it is virtual again (Table 5-2). -/
def State.dropVirtual (s : State) (page : Nat) : State :=
  let p := s.pme page
  ((s.dropNear page).clearPage page).setPme page { p with st := .virt, near := 0, far := 0, len := 0, mat := false, seq := p.seq } false

/-- Evict a page: a both page loses its near copy, a V-LR page becomes virtual, another near page is demoted, paced unless the free
space is below half of LOW (R183). -/
def State.evict (s : State) (page : Nat) : State :=
  let p := s.pme page
  let s := s.onTier fun t => { t with cand := t.cand.filter (· != page) }
  if p.st = .both then (s.discardNear page).retryMoves
  else if p.cls = 12 then ((s.dropVirtual page).bump cntTier 2 1).retryMoves
  else s.startDemote page 7 (decide (s.nearFree ≥ s.lowMark / 2))

/-- Eviction demotions that wait for the governor go on while free space is below half of LOW (R183). -/
def State.urgentDemote (s : State) : State :=
  if s.nearFree ≥ s.lowMark / 2 then s
  else s.each (s.far.paced.filter fun p => (s.move p).any fun m => m.kind == 1 && m.cls == 7 && !s.tier.runs.any fun r => r.wait.contains p)
    fun s p => s.issueDemote p

/-- EVICTION_PAGE (R180, R181, R183): while eviction runs, the next candidate is evicted. -/
def execEvictionPage (page : Nat) (s : State) : Outcome :=
  .next (if s.tier.evicting && s.nextVictim == some page && !s.recoding page then (s.evict page).urgentDemote else s)

/-! ## Placement requests (R193) -/

/-- Is a page one that placement may act on: homed here and not of a V-LR extent? -/
def State.placeable (s : State) (page : Nat) : Bool :=
  s.homes page && match s.extent page with
    | some x => x.cls != 12
    | none => false

/-- States with a written husk that can be kept near. -/
def pinnable : PState → Bool
  | .near => true
  | .far => true
  | .both => true
  | .promoting => true
  | .demoting => true
  | .retired => true
  | _ => false

/-- Pin a page for an account, promoting it when it is not near: false when the floor does not admit it (R184). -/
def State.pinPage (s : State) (page acct cls : Nat) : State × Bool :=
  let p := s.pmeOf page
  if (look s.tier.pins page).isSome then (s, true)
  else if !pinnable p.st || decide (s.pinnedOf acct + p.len > (s.acct acct).floor) then (s, false)
  else
    let s := s.onTier fun t => { t with pins := put t.pins page acct }
    (if p.st = .far ∨ p.st = .promoting ∨ p.st = .demoting then (s.promote page cls).1 else s, true)

/-- One page of a placement request: 0 refused, 1 carried out, 2 being moved. -/
def State.placePage (s : State) (op cls page : Nat) : State × Nat :=
  let p := s.pmeOf page
  if !s.placeable page then (s, 0)
  else if op = 1 then
    match p.st with
    | .far => ((s.promote page cls).1, 2)
    | .promoting => ((s.promote page cls).1, 2)
    | .demoting =>
      let s := (s.promote page cls).1
      (s, if (s.pme page).st == .near then 1 else 2)
    | _ => (s, 0)
  else if op = 2 then
    if p.st = .promoting then (s.bump cntTier 6 1, 0)
    else if p.st == .near && !s.isPinned page && (s.move page).isNone && !s.recoding page then (s.startDemote page cls true, 2)
    else (s, 0)
  else if op = 3 then
    if p.st == .both && !s.isPinned page && (s.move page).isNone && !s.farPending page then (s.discardNear page, 1) else (s, 0)
  else if op = 4 then
    let (s, ok) := s.pinPage page p.acct cls
    (s, if ok then 1 else 0)
  else if op = 5 then
    if (look s.tier.pins page).isSome then (s.onTier fun t => { t with pins := del t.pins page }, 1) else (s, 0)
  else (s, 0)

/-- Carry out a placement request page by page and note what still moves. -/
def State.runPlace (s : State) (q : PlaceReq) (who : Option Nat) : State :=
  let pages := (List.range q.count).map (· + q.first)
  let r := pages.foldl (fun (acc : State × MoveRun) page =>
    if extOf page ≠ extOf q.first then (acc.1, { acc.2 with refused := acc.2.refused + 1 })
    else
      let (s, k) := acc.1.placePage q.op q.cls page
      (s, if k = 0 then { acc.2 with refused := acc.2.refused + 1 }
          else if k = 1 then { acc.2 with done := acc.2.done + 1 }
          else if (s.move page).isSome then { acc.2 with wait := acc.2.wait ++ [page] }
          else { acc.2 with refused := acc.2.refused + 1 }))
    (s, { op := q.op, acct := (s.pmeOf q.first).acct, tag := q.tag, done := 0, refused := 0, wait := [], peer := q.peer, who := who, away := [] })
  (r.1.onTier fun t => { t with runs := t.runs ++ [r.2] }).flushRuns

/-- A placement request enters the port, or waits in arrival order while the port holds 1,024 requests (R193). -/
def State.placeEnter (s : State) (q : PlaceReq) : State :=
  s.onTier fun t => if t.placeQ.length < 1024 && t.placeWait.isEmpty then { t with placeQ := t.placeQ ++ [q] }
                    else { t with placeWait := t.placeWait ++ [q] }

/-- The request at the head of the placement port, when it has an op, is carried out, and one that waited for the port enters it. -/
def State.placeHead (s : State) (op : Nat) : State :=
  match s.tier.placeQ with
  | q :: rest =>
    if q.op = op then
      (s.onTier fun t => { t with placeQ := rest ++ t.placeWait.take (1024 - rest.length), placeWait := t.placeWait.drop (1024 - rest.length) }).runPlace q none
    else s
  | [] => s

/-- PLACE_PROMOTE (R193). -/
def execPlacePromote (s : State) : Outcome := .next (s.placeHead 1)
/-- PLACE_DEMOTE (R193). -/
def execPlaceDemote (s : State) : Outcome := .next (s.placeHead 2)
/-- PLACE_DISCARD (R193). -/
def execPlaceDiscard (s : State) : Outcome := .next (s.placeHead 3)
/-- PLACE_PIN (R184, R193). -/
def execPlacePin (s : State) : Outcome := .next (s.placeHead 4)
/-- PLACE_UNPIN (R193). -/
def execPlaceUnpin (s : State) : Outcome := .next (s.placeHead 5)

/-! ## Pins and moves by command (R184, R202) -/

/-- A run of pages that a command names. -/
def pagesOf (first count : Nat) : List Nat := (List.range count).map (· + first)

/-- May the issuer of a command name a run of pages: the fabric manager, or an LD whose leases name them with a right? -/
def State.mayName (s : State) (x : Mbx) (first count right : Nat) : Bool :=
  match x.issuer with
  | .fm => true
  | .ld m => s.leasedPages m first count right

/-- Send a placement request for one page to its home, another module (Table 5-4): the message's TAG and the module. -/
def State.placeAway (s : State) (op cls page : Nat) : State × (Nat × Nat) :=
  let n := s.nextId + 1
  let m := s.pageHome page
  (({ s with nextId := n }).send .place m cls 4096 (n % 65536) 0 0 (pageSa page)
    (toLe 1 op ++ toLe 1 cls ++ toLe 2 1 ++ toLe 4 n ++ toLe 8 page ++ zeros 16), (n % 65536, m))

/-- Send a command's placement requests for pages of other modules: how many of them take effect there (log entry 15), and the messages. -/
def State.placeAll (s : State) (op cls : Nat) (l : List Nat) : State × Nat × List (Nat × Nat) :=
  l.foldl (fun acc page =>
    let ok := Config.peerAdmits acc.1.draws
    let (s, t) := acc.1.drew.placeAway op cls page
    (s, acc.2.1 + (if ok then 1 else 0), acc.2.2 ++ [t])) (s, 0, [])

/-- The pages of a run that another module homes and that can be reached there. -/
def State.awayPages (s : State) (first count : Nat) : List Nat := (pagesOf first count).filter fun p => !s.homes p && s.canRoute (s.pageHome p)

/-- PAGE_PIN (R184): every page within the account's floor is pinned, or none; far pages are promoted in class 7. Pages of other modules are
pinned by their homes. -/
def execPagePin (x : Mbx) (s : State) : Outcome :=
  .next (s.command x .any false 12 fun s =>
    let first := mb64 x 0 % 2 ^ 38
    let n := mb32 x 8
    if n = 0 then s.status x 9
    else if !s.mayName x first n 0 then s.status x 8
    else
      let ps := (pagesOf first n).filter fun p => s.homes p && pinnable (s.pmeOf p).st
      let new := ps.filter fun p => (look s.tier.pins p).isNone
      let accts := (new.map fun p => (s.pmeOf p).acct).eraseDups
      let fits := accts.all fun a =>
        decide (s.pinnedOf a + sumOf (new.filter fun p => (s.pmeOf p).acct == a) (fun p => (s.pmeOf p).len) ≤ (s.acct a).floor)
      if !fits then s.status x 0x22
      else
        let s := s.each new fun s p => (s.pinPage p (s.pmeOf p).acct 7).1
        let (s, k, _) := s.placeAll 4 7 (s.awayPages first n)
        s.okOut x (zeros 3 ++ toLe 4 (ps.length + k)))

/-- PAGE_UNPIN (R202). -/
def execPageUnpin (x : Mbx) (s : State) : Outcome :=
  .next (s.command x .any false 12 fun s =>
    let first := mb64 x 0 % 2 ^ 38
    let n := mb32 x 8
    if n = 0 then s.status x 9
    else if !s.mayName x first n 0 then s.status x 8
    else
      let ps := (pagesOf first n).filter fun p => (look s.tier.pins p).isSome
      let (s, k, _) := (s.onTier fun t => { t with pins := t.pins.filter fun e => !ps.contains e.1 }).placeAll 5 7 (s.awayPages first n)
      s.okOut x (zeros 3 ++ toLe 4 (ps.length + k)))

/-- TIER_MOVE (R202): the pages are promoted or demoted as a background command, those of other modules by their homes. -/
def State.tierMove (s : State) (x : Mbx) (op : Nat) : State :=
  s.command x .any false 20 fun s =>
    let first := mb64 x 8 % 2 ^ 38
    let n := mb32 x 16
    if mb8 x 4 ≠ op ∨ mb8 x 5 > 7 ∨ n = 0 then s.status x 9
    else if !s.mayName x first n 1 then s.status x 8
    else s.bgCommand x fun s =>
      let s := s.startBg x 0xC306
      let (s, k, away) := s.placeAll op (mb8 x 5) (s.awayPages first n)
      let r := ((pagesOf first n).filter s.homes).foldl (fun (acc : State × MoveRun) page =>
        let (s, k) := acc.1.placePage op (mb8 x 5) page
        (s, if k = 1 then { acc.2 with done := acc.2.done + 1 }
            else if k = 2 && (s.move page).isSome then { acc.2 with wait := acc.2.wait ++ [page] }
            else acc.2))
        (s, { op := op, acct := 0, tag := 0, done := k, refused := 0, wait := [], peer := none, who := some (mbWho x), away := away })
      (r.1.onTier fun t => { t with runs := t.runs ++ [r.2] }).flushRuns

/-- TIER_MOVE with op 1 PROMOTE (R202). -/
def execTierMovePromote (x : Mbx) (s : State) : Outcome := .next (s.tierMove x 1)
/-- TIER_MOVE with op 2 DEMOTE (R202). -/
def execTierMoveDemote (x : Mbx) (s : State) : Outcome := .next (s.tierMove x 2)

/-! ## Stream schedules (R196 to R201) -/

/-- Layer entries of a schedule image: first page, count, layer. -/
def schedEntries (b : Bytes) : List (Nat × Nat × Nat) :=
  (List.range (leAt b 24 4)).map fun i => (leAt b (64 + 16 * i) 8 % 2 ^ 38, leAt b (72 + 16 * i) 4, leAt b (76 + 16 * i) 2)

/-- Does a run of layer indices never decrease? -/
def rises : List Nat → Bool
  | a :: b :: t => decide (a ≤ b) && rises (b :: t)
  | _ => true

/-- Does an image keep Table 5-5 and Table 5-6? -/
def schedOk (b : Bytes) : Bool :=
  let n := leAt b 24 4
  let layers := leAt b 4 2
  decide (64 ≤ b.length) && byteAt b 0 == 1 && decide (1 ≤ byteAt b 1 ∧ byteAt b 1 ≤ 8) && decide (byteAt b 1 ≤ byteAt b 2 ∧ byteAt b 2 ≤ 8)
    && decide (byteAt b 3 < 8) && decide (1 ≤ layers ∧ layers ≤ 4096) && decide (byteAt b 6 ≤ 7) && decide (1 ≤ n ∧ n ≤ 16384)
    && (b.drop 28).take 36 == zeros 36 && decide (leAt b 8 8 < 2 ^ 38) && b.length == 64 + 16 * n
    && (schedEntries b).all (fun e => decide (1 ≤ e.2.1 ∧ e.2.1 ≤ 16777216) && decide (e.2.2 < layers))
    && (List.range n).all (fun i => leAt b (64 + 16 * i) 8 < 2 ^ 38 && leAt b (78 + 16 * i) 2 == 0)
    && rises ((schedEntries b).map fun e => e.2.2)

/-- A free schedule index. -/
def State.freeSched (s : State) : Option Nat := (List.range 32).find? fun i => !(look s.tier.scheds i).any fun c => c.st == 1

/-- STREAM_START (R197): the schedule of a loaded kind 3 sheaf starts on this module. -/
def execStreamStart (x : Mbx) (s : State) : Outcome :=
  .next (s.command x .ld false 4 fun s =>
    let ld := mbWho x
    match look s.tlr.sheaves (mb32 x 0) with
    | none => s.status x 0x21
    | some f =>
      if f.kind ≠ 3 ∨ f.unloading then s.status x 0x21
      else
        let b := f.image
        let gate := leAt b 8 8 % 2 ^ 38
        let gateOk := s.homes gate && s.leasedPages ld gate 1 1 && s.kindAt (pageSa gate) == .shared
        if !schedOk b || !((schedEntries b).all fun e => s.leasedPages ld e.1 e.2.1 0) || !gateOk then s.status x 0x21
        else
          let acct := (s.extent gate).elim 0 fun e => e.acct
          let budget := leAt b 16 8
          if s.pinnedOf acct + budget > (s.acct acct).floor then s.status x 0x22
          else match s.freeSched with
            | none => s.status x 0x20
            | some i =>
              let c : Sched := { st := 1, ld := ld, sheaf := mb32 x 0, lead := byteAt b 1, leadMin := byteAt b 1, leadMax := byteAt b 2,
                                 flags := byteAt b 3, layers := leAt b 4 2, label := byteAt b 6, drop := byteAt b 7, gatePage := gate,
                                 budget := budget, pass := 0, c := 0, resident := 0, resValid := false, late := 0, onTime := 0,
                                 started := [], gated := [], pinned := [], placed := [], entries := schedEntries b, acct := acct }
              let s := (s.onTier fun t => { t with scheds := put t.scheds i c }).post 0x0608 [(1, i)]
              s.okOut x (zeros 3 ++ [BitVec.ofNat 8 i]))

/-- May the issuer act on a schedule: the starting LD or the fabric manager? -/
def mayStream (x : Mbx) (c : Sched) : Bool := mbFm x || c.ld == mbWho x

/-- STREAM_STOP (R202): a running schedule stops and its pins are released. -/
def execStreamStop (x : Mbx) (s : State) : Outcome :=
  .next (s.command x .any false 5 fun s =>
    match look s.tier.scheds (mb8 x 4) with
    | none => s.status x 9
    | some c =>
      if !mayStream x c then s.status x 8
      else if c.st = 1 then (s.endSched (mb8 x 4) 2).status x 0
      else s.status x 0)

/-- TIER_STRM_STAT of a schedule. -/
def strmStat (c : Sched) : Nat :=
  c.st * 2 ^ 62 + c.lead * 2 ^ 58 + c.pass % 65536 * 2 ^ 32 + c.c % 4096 * 2 ^ 16 + c.resident % 4096

/-- STREAM_QUERY (R202). -/
def execStreamQuery (x : Mbx) (s : State) : Outcome :=
  .next (s.command x .any false 5 fun s =>
    match look s.tier.scheds (mb8 x 4) with
    | none => s.status x 9
    | some c => if !mayStream x c then s.status x 8 else s.okOut x (zeros 7 ++ toLe 8 (strmStat c) ++ toLe 4 c.late))

/-- Near chunks of a layer: by the page map for a page homed here, by its extent's D for a page of another module, whose length is not known
here (log entry 90). -/
def State.layerChunks (s : State) (c : Sched) (k : Nat) : Nat :=
  sumOf (c.layerPages (c.layerOf k)) fun p => if s.homes p then (s.pmeOf p).len else (s.extent p).elim 33 Extent.d

/-- The next layer, counted over the passes, that a schedule has not started. -/
def nextLayer (c : Sched) : Nat := max c.abs (c.started.foldl (fun a k => max a (k + 1)) 0)

/-- Is layer k within the lead and the pin budget (R198)? -/
def State.layerFits (s : State) (c : Sched) (k : Nat) : Bool :=
  decide (k ≤ c.abs + c.lead) && (c.flags.testBit 0 || decide (k < c.layers)) &&
    decide (sumOf ((List.range (k + 1 - c.abs)).map (· + c.abs)) (s.layerChunks c) ≤ c.budget)

/-- Ask a page's home, another module, to pin a page for schedule i and to promote it (Table 5-4, opcode PLACE; R196, R198). -/
def State.placeRemote (s : State) (i k page cls : Nat) : State :=
  let (s, t) := (s.emit (.copy (s.pageHome page) (.pin page (s.me * 32 + i) true false))).placeAway 1 cls page
  s.modSched i fun c => { c with placed := c.placed ++ [(k, t)] }

/-- STREAM_LAYER_PROMOTE (R198): a schedule starts promoting the next layer, each page in its consumer label's class. -/
def execStreamLayerPromote (i : Fin 32) (s : State) : Outcome :=
  .next (
    match look s.tier.scheds i with
    | none => s
    | some c =>
      let k := nextLayer c
      if c.st ≠ 1 ∨ s.pwr.state ≥ 2 ∨ ¬ s.layerFits c k then s
      else
        let cls := s.classOf c.ld c.label
        let s := s.modSched i fun c => { c with started := c.started ++ [k], pinned := c.pinned ++ [k] }
        s.each (c.layerPages (c.layerOf k)) fun s p =>
          if s.homes p then (s.promote p cls).1 else s.placeRemote i k p cls)

/-- Is every page of a layer resident? Pages of other modules are once their PLACE messages are answered; an unwritten page needs no
husk. -/
def State.layerResident (s : State) (c : Sched) (k : Nat) : Bool :=
  (c.layerPages (c.layerOf k)).all (fun p => !s.homes p || hasNear (s.pmeOf p) || (s.pmeOf p).st == .unwritten)
    && !(c.placed.any fun e => e.1 == k)

/-- A home write of the module to its gate page (R200): one 64-bit word, class 7, snooped as any write. -/
def State.gateWrite (s : State) (page word v : Nat) : State :=
  let (s, r) := s.newReq (.gate 0) .wr (pageSa page + word * 8 / 64 * 64) 7 4096 .invalid (255 * 2 ^ (word * 8 % 64))
    (zeros (word * 8 % 64) ++ toLe 8 v ++ zeros (56 - word * 8 % 64))
  s.atHome r true

/-- The highest layer h, counted over the passes, with the consumer's layer to h all gated. -/
def highGated (c : Sched) : Option Nat :=
  let n := ((List.range (c.lead + 2)).takeWhile fun d => c.gated.contains (c.abs + d)).length
  if n = 0 then none else some (c.abs + n - 1)

/-- STREAM_LAYER_RESIDENT (R200): the gate word of a started layer and RESIDENT are written, and the gate source is raised. -/
def execStreamLayerResident (i : Fin 32) (layer : Nat) (s : State) : Outcome :=
  .next (
    match look s.tier.scheds i with
    | none => s
    | some c =>
      if c.st ≠ 1 ∨ ¬ c.started.contains layer ∨ c.gated.contains layer ∨ ¬ s.layerResident c layer then s
      else
        let j := c.layerOf layer
        let pass := layer / max c.layers 1
        let s := s.gateWrite c.gatePage (8 + j % 504) (2 ^ 63 + pass % 65536 * 2 ^ 32 + j)
        let s := s.modSched i fun c => { c with gated := c.gated ++ [layer] }
        match look s.tier.scheds i with
        | none => s
        | some c =>
          let s := match highGated c with
            | some h =>
              let s := s.modSched i fun c => { c with resident := c.layerOf h, resValid := true }
              s.gateWrite c.gatePage 1 (2 ^ 63 + h / max c.layers 1 % 65536 * 2 ^ 32 + c.layerOf h)
            | none => s
          if c.flags.testBit 2 then s.edge (385 + i.val) c.ld else s)

end Sys2Proof.Machine
end

