-- ==== Sys2Proof/Machine/FarTier.lean ====
section
/-! DEFINITION. The far tier (spec/06_far_tier.md): far reads, row programs and the durable window, program and erase failures, die
retirement, background copies, band erase, the governor, the journal checkpoint, and the far-tier commands. -/

namespace Sys2Proof.Machine

open Sys2Proof

/-! ## Unrecoverable far husks (chapter 6, case 'When a far husk cannot be recovered') -/

/-- The journal record number of the change just entered. -/
def State.lastJrnl (s : State) : Nat := s.far.jrnlNext - 1

/-- A far husk is lost: a far page is poisoned, a both page keeps its near husk, which a durable extent programs again. -/
def State.farLost (s : State) (page : Nat) : State :=
  let p := s.pmeOf page
  let near := hasNear p
  let s := (s.bump cntFar 0 1).intr 0x700028 4
  let s := s.intError 0x0706 1 (pageSa page) [(8, pageSa page), (1, if near then 1 else 0)]
  if near then
    if s.durablePage page then
      let b := (s.wholeHusk p).getD (zeros (128 * p.len))
      (s.farAppend false { id := 0, page := page, far := 0, why := 3, t0 := s.now, old := p.far, oldLen := p.len, bytes := b }).1
    else (s.setPme page { p with st := .near, far := 0 } false).freeFar p.far p.len
  else
    let s := match s.move page with
      | some m => if m.kind = 0 ∧ ¬ m.waitSpace then (s.freeNear m.near).checkMark else s
      | none => s
    let s := (s.setMove page none).clearPage page
    let s := (s.branWatch p.acct fun s => s.setPme page { p with st := .poisoned, near := 0, far := 0, len := 0 } false).poisonPageEntry page 1
    let s := s.freeFar p.far p.len
    (s.wakePage page .pull).runEnded page false

/-! ## Reads (R209, R210, R218) -/

/-- The physical block of a band on a channel (R207): the spare block it has taken there, else the one of a new module (log entry 9). -/
def State.blockOf (s : State) (b chan : Nat) : Nat := (look (s.band b).blocks chan).getD (Config.bandBlock b chan)

/-- Queue a band for relocation (Table 6-3). -/
def State.queueBand (s : State) (b : Nat) : State := s.onFar fun f => { f with queue := addNew f.queue b }

/-- Fewer data bytes than granted (chapter 6, case 'When retirements leave less capacity than is granted'). -/
def State.farCapacity (s : State) : Nat :=
  s.userChunks - s.userChunks * ((List.range s.dieCount).filter fun n => (s.die n).st = 1 ∨ (s.die n).st = 2).length / (max s.dieCount 1)

/-- Charges of all accounts on this module. -/
def State.chargedAll (s : State) : Nat := sumOf s.spc.extents fun e => e.2.charge

/-- Is the far tier short of what is granted? -/
def State.capShort (s : State) : Bool := decide (s.farCapacity < s.chargedAll + s.emergSize)

/-- Fewer than two good dies are left on a die index: no stripe row fits there, and its bands are RETIRED once they are free (R206, R207, R218). -/
def State.indexGone (s : State) (d : Nat) : Bool := decide ((s.chansFor d).length < 2)

/-- The FREE bands of a die index that is gone become RETIRED. -/
def State.retireBands (s : State) (d : Nat) : State :=
  if !s.indexGone d then s
  else s.each ((List.range s.bandCount).filter fun b => dieIdx b == d && (s.band b).st == 0 && !s.reservedBand b) fun s b =>
    s.mapBand b fun x => { x with st := 3 }

/-- Retire a die, by the hardware (an integrity error, R412) or by command: every band that uses it is queued for rebuild (R218). -/
def State.retireDie (s : State) (n : Nat) (hw : Bool) : State :=
  if (s.die n).st = 1 ∨ (s.die n).st = 2 then s
  else
    let before := s
    let bands := (List.range s.bandCount).filter fun b => dieIdx b == n / 24 && ((s.band b).st == 1 || (s.band b).st == 2)
    let s := (s.setDie n fun d => { d with st := if bands.isEmpty then 2 else 1 }).intr 0x700028 3
    let s := s.addChaff ⟨6, n % 24, n / 24, 0, 0, 0, 0, if hw then 2 else 1⟩
    let s := if hw then s.intError 0x0704 0 0 [] else s.post 0x0704 []
    let s := (s.each bands fun s b => s.queueBand b).retireBands (n / 24)
    let s := if bands.isEmpty then s.post 0x0705 [] else s
    let s := if s.capShort then (s.intr 0x700028 6).post 0x070B [] else s
    s.rescaled before

/-- A far husk is read: one more read of each block that holds part of it; a block's count at RD_THRESH or above queues its band
for relocation (Table 6-3). -/
def State.noteRead (s : State) (a len : Nat) : State :=
  let b := farBand a
  let at0 := s.fld 0x700008 42 24
  s.each (addNew [s.chanOfChunk a] (s.chanOfChunk (a + len - 1))) fun s c =>
    let n := (look (s.band b).reads c).getD 0 + 1
    let s := s.setBand b fun x => { x with reads := put x.reads c n }
    if decide (n ≥ at0) && !s.far.queue.contains b then (s.queueBand b).post 0x0701 [] else s

/-- Does a row lie in a run of 64 consecutive rows of its band that are all in a list (R218)? -/
def rowRun (l : List Nat) (r : Nat) : Bool :=
  (List.range 64).any fun i => decide (i ≤ r % 1024 ∧ r % 1024 + 63 - i < 1024) && (List.range 64).all fun k => l.contains (r - i + k)

/-- The read of a row of a die needed parity rebuild, or did not; 64 consecutive rows that need it retire the die (R218). -/
def State.noteRebuild (s : State) (a : Nat) (needed : Bool) : State :=
  let n := s.dieOfChunk a
  let r := farBand a * 1024 + s.rowOfChunk a
  let s := s.setDie n fun d => { d with rebuilt := if needed then addNew d.rebuilt r else d.rebuilt.filter (· != r) }
  if needed && rowRun (s.die n).rebuilt r then s.retireDie n true else s

/-- The rows of a die whose read of a codeword at a far address was rebuilt from parity, or not (R218). -/
def State.noteCw (s : State) (c : Nat × FarRes) : State :=
  if c.2 = .lost then s else s.noteRebuild c.1 (c.2 == .parity && !s.dieGone c.1)

/-- What a far read of a husk leaves (R210): its blocks' read counts; a codeword of a good die that hard decisions did not decode queues the
band, counts, and posts event 0x0709 (chapter 6, case 'When a read needs soft decoding'); rebuilt rows are noted. -/
def State.afterRead (s : State) (a len : Nat) (res : List FarRes) : State :=
  let l := s.cwResults a len res
  let s := s.noteRead a len
  let s := if l.any fun c => c.2 != .hard && !s.dieGone c.1 then ((s.bump cntFar 3 1).queueBand (farBand a)).post 0x0709 [] else s
  s.each l fun s c => s.noteCw c

/-- Is a codeword of a husk lost? -/
def State.cwLost (s : State) (a len : Nat) (res : List FarRes) : Bool := (s.cwResults a len res).any fun c => c.2 == .lost

/-! ## Die queues (R209, R350) -/

/-- The row that a die is programming, as 1,024 × band + row: the first complete row with a husk in a band on the die. -/
def State.progOn (s : State) (n : Nat) : Option Nat :=
  let on (i : RowItem) : Bool := dieIdx (farBand i.far) == n / 24 && (s.band (farBand i.far)).chans.contains (n % 24)
  let key (i : RowItem) : Nat := farBand i.far * 1024 + i.lastRow (rowChunks (s.band (farBand i.far)).width)
  match s.far.row.find? (fun i => on i && s.rowFull false i) with
  | some i => some (key i)
  | none => (s.far.relocRow.find? (fun i => on i && s.rowFull true i)).map key

/-- The reads that wait at a die: the pages whose far husk begins there and is not in the controller's buffer (log entry 91). -/
def State.dieQueue (s : State) (n : Nat) : List (Nat × Move) :=
  s.tier.moves.filter fun e =>
    e.2.kind == 0 && !e.2.waitSpace && !e.2.done && (s.inBuffer e.1 e.2.far).isNone && s.dieOfChunk e.2.far == n

/-- The page that a die serves now. -/
def State.dieServes (s : State) (n : Nat) : Option Nat :=
  (s.die n).read.bind fun page => if (s.dieQueue n).any (fun e => e.1 == page) then some page else none

/-- The read that a die takes next: a raised one, the oldest first; the oldest of class 7 when 63 reads have passed it by (R349); else by effective
rank, then age. -/
def State.nextRead (s : State) (n : Nat) : Option (Nat × Move) :=
  let l := s.dieQueue n
  let oldest (l : List (Nat × Move)) : Option (Nat × Move) := argMin (fun e => e.2.t0) l
  match oldest (l.filter fun e => e.2.raised) with
  | some e => some e
  | none =>
    let c7 := l.filter fun e => e.2.cls == 7 && e.2.holder == moduleHolder
    if 63 ≤ (s.arb (128 + n)).since7 && !c7.isEmpty then oldest c7
    else
      let rank (e : Nat × Move) : Nat := s.effRank e.2.holder e.2.cls 13
      match (l.map rank).min? with
      | some k => oldest (l.filter fun e => rank e == k)
      | none => none

/-- A die that serves no read takes the next one. While it programs a row only a raised read starts, which suspends the program, once. -/
def State.dieGo (s : State) (n : Nat) : State :=
  if (s.dieServes n).isSome then s
  else match s.nextRead n with
    | none => if (s.die n).read.isNone then s else s.setDie n fun d => { d with read := none }
    | some (page, m) =>
      let c7 (e : Nat × Move) : Bool := e.2.cls == 7 && e.2.holder == moduleHolder
      let start (s : State) : State :=
        let k := if c7 (page, m) || !(s.dieQueue n).any c7 then 0 else (s.arb (128 + n)).since7 + 1
        (s.setDie n fun d => { d with read := some page }).onQos fun q => { q with arbs := put q.arbs (128 + n) ⟨k, (s.arb (128 + n)).wrr⟩ }
      match s.progOn n with
      | none => start s
      | some k => if m.raised && (s.die n).susp != some k then start (s.setDie n fun d => { d with susp := some k }) else s

/-- The dies that hold reads take their next ones. -/
def State.diesGo (s : State) : State :=
  s.each ((s.tier.moves.filter fun e => e.2.kind == 0 && !e.2.waitSpace && !e.2.done).map fun e => s.dieOfChunk e.2.far).eraseDups fun s n => s.dieGo n

/-- Does a die of a band serve a read? The band's programs wait for it. -/
def State.bandServes (s : State) (b : Nat) : Bool := (s.band b).chans.any fun c => (s.dieServes (dieIdx b * 24 + c)).isSome

/-- The husk that a promotion has read is checked by HCRC (R123, R210). -/
def State.checkRead (s : State) (page : Nat) (m : Move) : State :=
  if hcrcOk (s.farBytes page m.far (s.pmeOf page).len) then s.setMove page (some { m with done := true }) else (s.hcrcFail page).farLost page

/-- FAR_READ_DONE (R208 to R210): the far read of a promoting page, the one that its die serves, ends; `res` says how each of its codewords was
obtained, in address order. With a codeword lost the husk is lost; else HCRC is checked. A husk in the controller's buffer needs no read. -/
def execFarReadDone (page : Nat) (res : List FarRes) (s : State) : Outcome :=
  .next (
    match s.move page with
    | none => s
    | some m =>
      let p := s.pmeOf page
      if m.kind ≠ 0 ∨ m.waitSpace ∨ m.done then s
      else if (s.inBuffer page m.far).isSome then s.checkRead page m
      else
        let n := s.dieOfChunk m.far
        let s := s.dieGo n
        if s.dieServes n ≠ some page then s
        else
          let lost := s.cwLost m.far p.len res
          let s := (s.setDie n fun d => { d with read := none }).afterRead m.far p.len res
          (if lost then s.farLost page else s.checkRead page m).dieGo n)

/-! ## Programs (R211, R212) -/

/-- What follows the program of a husk (R212, R213, Table 5-2): a durable write meets one condition, and only then are the far chunks of the husk
that it replaced released, so that a loss of power before it leaves them (R40); a copy updates FAR unless the page has changed; a lost far copy
is replaced. -/
def State.itemDone (s : State) (it : RowItem) : State :=
  let n := it.bytes.length / 128
  if it.why = 0 then s
  else if it.why = 1 then
    let s := if it.oldLen = 0 then s else s.freeFar it.old it.oldLen
    s.each ((s.reqs.filter fun r => r.slot == it.id && waitsFor .far r).map Req.id) fun s i => s.settle i fun w => w == Wait.far
  else
    let p := s.pmeOf it.page
    if hasFar p && p.far == it.old then (s.setPme it.page { p with far := it.far } (it.why == 3)).freeFar it.old it.oldLen
    else (if it.why = 2 then s.bump cntFar 1 1 else s).dropFar it.far n

/-- The rows up to the one that ends an item are programmed: every husk that ends in them is stored with its parity, and the rows not programmed
before, padding with them, draw the governor's bucket. -/
def State.programRows (s : State) (reloc : Bool) (it : RowItem) : State :=
  let rc := rowChunks (s.band (farBand it.far)).width
  let ends (i : RowItem) : Bool := farBand i.far == farBand it.far && decide (i.lastRow rc ≤ it.lastRow rc)
  let done := (s.rowOf reloc).filter ends
  let rows := it.lastRow rc + 1 - (s.band (farBand it.far)).prog
  let s := s.setRow reloc ((s.rowOf reloc).filter fun i => !ends i)
  let s := s.each done fun s i => s.farWrite i.far i.bytes
  let s := s.setBand (farBand it.far) fun b => { b with prog := b.prog + rows }
  let s := s.onFar fun f => { f with bytesDone := f.bytesDone + sumOf done (fun i => i.bytes.length),
                                     dies := f.dies.map fun d => if d.1 / 24 = dieIdx (farBand it.far) then (d.1, { d.2 with susp := none }) else d }
  let s := s.govProgram (rows * rc * 128)
  s.each done fun s i => s.itemDone i

/-- Records of a journal row: 64 KiB on each of 23 dies, at 64 bytes a record (log entry 36). -/
def jrnlRow : Nat := 23552

/-- The metadata journal's records that are programmed become durable up to number n; the writes that wait for them go on. -/
def State.jrnlProgram (s : State) (n : Nat) : State :=
  let pad := max s.far.jrnlDone (min n s.far.jrnlPad)
  let rows := (pad - s.far.jrnlDone + jrnlRow - 1) / jrnlRow + (n - pad + jrnlRow - 1) / jrnlRow
  let s := (s.onFar fun f => { f with jrnlDone := max f.jrnlDone n, jrnlSafe := max f.jrnlSafe n, jrnlWin := if n + 1 < f.jrnlNext then f.jrnlWin else none }).govProgram
    (rows * (23 * 65536))
  s.each ((s.reqs.filter fun r => r.waits.any fun w => match w with | .jrnl k => decide (k ≤ n) | _ => false).map Req.id) fun s i =>
    s.settle i fun w => match w with
      | .jrnl k => decide (k ≤ n)
      | _ => false

/-- The last record of the journal rows that are complete, or closed with padding by DUR_WIN_EXPIRE: rows are counted from the last one that padding
closed. -/
def State.jrnlReady (s : State) : Nat := s.far.jrnlPad + (s.far.jrnlNext - 1 - s.far.jrnlPad) / jrnlRow * jrnlRow

/-- FAR_ROW_PROGRAM_DONE (R209, R211, R212): the program of the row that ends a page's husk, or of the journal row, is done. It is not done while a
die of the row serves a read. -/
def execFarRowProgramDone (page : Nat) (journal : Bool) (s : State) : Outcome :=
  .next (
    if journal then
      if s.jrnlReady > s.far.jrnlDone then s.jrnlProgram s.jrnlReady else s
    else
      match s.itemOf page with
      | none => s
      | some (r, it) => if s.rowFull r it && !s.bandServes (farBand it.far) then s.programRows r it else s)

/-- DUR_WIN_US in ns. -/
def State.durWin (s : State) : Nat := s.fld 0x700008 62 53 * 1000

/-- DUR_WIN_EXPIRE (R212): a data row with a durable husk, or the journal row with a durable record, is closed with padding. -/
def execDurWinExpire (page : Nat) (journal : Bool) (s : State) : Outcome :=
  .next (
    if journal then
      match s.far.jrnlWin with
      | some t => if s.now ≥ t + s.durWin then (s.onFar fun f => { f with jrnlWin := none, jrnlPad := f.jrnlNext - 1 }).bump cntFar 4 1 else s
      | none => s
    else
      match s.itemOf page with
      | none => s
      | some (r, it) => if it.why = 1 ∧ s.now ≥ it.t0 + s.durWin ∧ ¬ s.rowFull r it then s.padRow r else s)

/-- A block of a die is retired (chapter 6, case 'When a program or an erase fails'): one spare fewer, or the die is retired. -/
def State.blockRetire (s : State) (chan die band : Nat) : State :=
  let n := die * 24 + chan
  let block := s.blockOf band chan
  let s := (s.intr 0x700028 2).intError 0x0703 0 (band * 2 ^ 24) [(1, chan), (1, die), (4, block)]
  let s := s.addChaff ⟨5, chan, die, 0, block % 2 ^ 32, 0, 0, 2⟩
  let spare := Config.spareBlock n (s.die n).spares
  let s := s.mapBand band fun b => { b with blocks := put b.blocks chan spare, reads := del b.reads chan }
  if (s.die n).spares ≤ 1 then (s.setDie n fun d => { d with spares := 0 }).retireDie n true
  else s.setDie n fun d => { d with spares := d.spares - 1 }

/-- Bytes of a band's programmed rows that a channel's block holds, parity units left out (R206). -/
def dataOn (x : Band) (b chan : Nat) : Nat := ((List.range x.prog).filter fun r => x.chans.getD ((b + r) % (x.width + 1)) 0 != chan).length * 65536

/-- FAR_PROGRAM_FAIL (R212, R215): the block is retired; its rows move to a spare block and the row is programmed again from the buffer, and what both
program, parity left out, draws the governor's bucket. -/
def execFarProgramFail (chan : Fin 24) (die : Fin 4) (band : Nat) (s : State) : Outcome :=
  .next (if band < s.bandCount ∧ dieIdx band = die.val ∧ (s.band band).st = 1 then
      (s.blockRetire chan die band).govProgram (dataOn (s.band band) band chan + rowChunks (s.band band).width * 128)
    else s)

/-- FAR_ERASE_FAIL (R212): the block is retired and the band takes a spare block before it opens. -/
def execFarEraseFail (chan : Fin 24) (band : Nat) (s : State) : Outcome :=
  .next (if band < s.bandCount ∧ (s.band band).st = 0 then s.blockRetire chan (dieIdx band) band else s)

/-! ## Background work (R213, R214) -/

/-- GC_LOW, GC_HIGH and GC_CRIT. -/
def State.gcLow (s : State) : Nat := s.fld 0x700008 15 8
def State.gcHigh (s : State) : Nat := s.fld 0x700008 23 16
def State.gcCrit (s : State) : Nat := s.fld 0x700008 7 0

/-- CLOSED bands. -/
def State.closedBands (s : State) : List Nat := (s.far.bands.filter fun b => b.2.st == 2).map Prod.fst

/-- The victim of garbage collection: fewest valid chunks, then the lower erase count. -/
def State.gcVictim (s : State) : Option Nat := argMin (fun b => (s.band b).valid * 2 ^ 32 + (s.band b).erase) s.closedBands

/-- The victim of static wear levelling: the CLOSED band of least erase count, while the spread of erase counts exceeds WL_DELTA. -/
def State.wearVictim (s : State) : Option Nat :=
  let e := s.closedBands.map fun b => (s.band b).erase
  if e.foldl max 0 - e.foldl min (e.foldl max 0) > s.fld 0x700008 52 43 then argMin (fun b => (s.band b).erase) s.closedBands else none

/-- Does background work copy husks out of a band now? Paced work waits for the governor. -/
def State.copiesBand (s : State) (b : Nat) : Bool :=
  let collecting := s.far.collecting || decide (s.freeBands < s.gcLow)
  let calm := decide (s.govLevel > 0)
  s.far.queue.contains b || (collecting && s.gcVictim == some b && (calm || decide (s.freeBands < s.gcCrit)))
    || (s.wearVictim == some b && calm)

/-- How each codeword of a husk is obtained by the read of a background copy: a free value for each (log entry 91). -/
def State.copyRead (s : State) (a len : Nat) : List FarRes :=
  (codewords a len).zipIdx.map fun c =>
    match Config.codewordRead s.draws c.2 % 4 with
    | 0 => .hard
    | 1 => .soft
    | 2 => .parity
    | _ => .lost

/-- The far husk of a page is read for a copy and appended to the relocation band; a lost one, or one whose HCRC does not match, is
unrecoverable (R210, R213). -/
def State.copyHusk (s : State) (page : Nat) : State :=
  let p := s.pmeOf page
  let res := s.copyRead p.far p.len
  let lost := s.cwLost p.far p.len res
  let d := s.farHusk p.far p.len
  let s := s.drew.afterRead p.far p.len res
  if lost then s.farLost page
  else if !hcrcOk d then (s.hcrcFail page).farLost page
  else (s.farAppend true { id := 0, page := page, far := 0, why := 2, t0 := s.now, old := p.far, oldLen := p.len, bytes := d }).1

/-- GC_BAND_COPY (R210, R213): the husk of a page whose far copy lies in a victim band is read and copied to the relocation band. -/
def execGcBandCopy (page : Nat) (s : State) : Outcome :=
  .next (
    let p := s.pmeOf page
    let b := farBand p.far
    let free := s.freeBands
    let s := s.onFar fun f => { f with collecting := if free ≥ s.gcHigh then false else f.collecting || decide (free < s.gcLow) }
    if hasFar p && !s.farPending page && s.copiesBand b then
      let s := if free < s.gcCrit && !s.far.crit then ((s.onFar fun f => { f with crit := true }).intr 0x700028 0).post 0x0700 []
        else if free ≥ s.gcCrit then s.onFar fun f => { f with crit := false } else s
      let s := if s.wearVictim = some b then s.post 0x0702 [] else s
      s.copyHusk page
    else s)

/-- Is a read of a band in flight: a promotion reading its far husk from it? -/
def State.bandRead (s : State) (b : Nat) : Bool :=
  s.tier.moves.any fun m => m.2.kind == 0 && !m.2.waitSpace && farBand m.2.far == b

/-- BAND_ERASE (R214): a CLOSED band with no valid chunk, no read in flight and durable records is erased; a die whose bands are all
copied is retired for good. -/
def execBandErase (band : Nat) (s : State) : Outcome :=
  .next (
    if (s.band band).st = 2 ∧ (s.band band).valid = 0 ∧ ¬ s.bandRead band ∧ s.far.jrnlDone ≥ (s.band band).freedBy then
      let first := band * 2 ^ 24
      let s := s.onFar fun f => { f with flash := f.flash.filter (fun c => decide (c.1 < first ∨ first + 2 ^ 24 ≤ c.1)),
                                         parity := f.parity.filter (fun c => c.1 / 2 ^ 19 != band), queue := f.queue.filter (· != band) }
      let s := s.mapBand band fun b => { b with st := if s.indexGone (dieIdx band) then 3 else 0, erase := b.erase + 1, valid := 0, reads := [], prog := 0 }
      let s := s.onFar fun f => { f with dies := f.dies.map fun d => (d.1, { d.2 with rebuilt := d.2.rebuilt.filter fun r => r / 1024 != band }) }
      let busy (n : Nat) : Bool := s.far.queue.any fun b => dieIdx b == n / 24
      s.each ((List.range s.dieCount).filter fun n => (s.die n).st == 1 && !busy n) fun s n => 
        let s := (s.setDie n fun d => { d with st := 2 }).post 0x0705 []
        match s.far.rebuildBg with
        | some (k, w) => if k = n then (s.onFar fun f => { f with rebuildBg := none }).endBg w rcSuccess [0] else s
        | none => s
    else s)

/-! ## Governor (R215, R216) -/

/-- GOVERNOR_REFILL (R183, R215, R216): while the level is above zero the paced writes that wait go on, in order; below half of LOW the eviction
demotions do whatever the level. -/
def execGovernorRefill (s : State) : Outcome :=
  .next (
    let s := s.urgentDemote
    if s.govLevel > 0 then
      s.each s.far.paced fun s page =>
        match s.move page with
        | some m => if m.kind = 1 ∧ ¬ m.issued then s.issueDemote page else s.onFar fun f => { f with paced := f.paced.filter (· != page) }
        | none => s.onFar fun f => { f with paced := f.paced.filter (· != page) }
    else s)

/-! ## Journal (R220) -/

/-- Records that fill the 256 MiB ring, at 64 bytes a record (log entry 36). -/
def jrnlRing : Nat := 4194304

/-- The metadata as the module holds it now: far-tier page map entries, extents, leases, accounts, chaff, poison of far pages, held marks,
wrapped key slots and the block map. -/
def State.metaNow (s : State) : MetaSnap :=
  { pmes := s.tier.pmes.filter fun e => hasFar e.2 || e.2.st == .poisoned || e.2.st == .promoting,
    extents := s.spc.extents, leases := s.spc.leases, accts := s.spc.accts, chaff := s.integ.chaff,
    plist := s.integ.plist.filter fun p => p.page || hasFar (s.pme (p.addr / 64)), held := s.hdg.heldMarks,
    keys := s.sec.wrapped, bands := s.far.bands }

/-- Does a husk of a durable write wait for its program? The page map names it already. -/
def State.durPends (s : State) : Bool := s.far.row.any fun i => i.why == 1

/-- JOURNAL_CHECKPOINT (R220): with half the ring used the metadata is written to the system bands and the journal freed; not while the page map
names a husk that is not programmed yet, so that the checkpoint names none. -/
def execJournalCheckpoint (s : State) : Outcome :=
  .next (
    if s.far.jrnl.length * 2 ≥ jrnlRing ∧ ¬ s.durPends then
      let n := s.far.jrnlNext - 1
      ((s.onFar fun f => { f with ckpt := s.metaNow, jrnl := [], jrnlPad := n }).jrnlProgram n).govProgram (Config.value s.draws) |>.drew
    else s)

/-! ## Commands (R223) -/

/-- Erase counts of the bands. -/
def State.eraseCounts (s : State) : List Nat := (List.range s.bandCount).map fun b => (s.band b).erase

/-- FAR_WEAR_QUERY (R223): mean and maximum erase count, life used against 3,000 cycles, bytes programmed. -/
def execFarWearQuery (x : Mbx) (s : State) : Outcome :=
  .next (s.command x .fm false 0 fun s =>
    let e := s.eraseCounts
    let mean := e.foldl (· + ·) 0 / (max e.length 1)
    s.okOut x (zeros 3 ++ toLe 2 mean ++ toLe 2 (e.foldl max 0) ++ toLe 2 (mean * 1000 / 3000) ++ zeros 6 ++ toLe 8 s.far.bytesDone))

/-- FAR_DIE_RETIRE (R223): a die is retired, unless it already is or four dies are. -/
def execFarDieRetire (x : Mbx) (s : State) : Outcome :=
  .next (s.command x .fm false 6 fun s =>
    let n := mb8 x 5 * 24 + mb8 x 4
    let gone := ((List.range s.dieCount).filter fun d => (s.die d).st = 1 ∨ (s.die d).st = 2).length
    if mb8 x 4 ≥ 24 ∨ n ≥ s.dieCount then s.status x 9
    else if (s.die n).st = 1 ∨ (s.die n).st = 2 then s.status x 0x30
    else if gone ≥ 4 then s.status x 0x31
    else s.bgCommand x fun s =>
      let s := (s.startBg x 0xC401).retireDie n false
      if (s.die n).st = 2 then s.endBg (mbWho x) rcSuccess [0] else s.onFar fun f => { f with rebuildBg := some (n, mbWho x) })

end Sys2Proof.Machine
end

