-- ==== Sys2Proof/Machine/LeaseBase.lean ====
section
/-! DEFINITION. What leases and extents need in common (spec/02_memory_space.md): charges and admission, key slots of a charge, drains,
orphaning, the holder sweeps that follow, and the reclaim of an extent. -/

namespace Sys2Proof.Machine

open Sys2Proof

/-! ## Charges (R75 to R82) -/

/-- Pages of an extent that a module holds as page home (R49 to R51). -/
def pagesAt (e : Nat) (x : Extent) (m : Nat) : Nat :=
  if x.spread.isEmpty then (if homeOf e = m then 2 ^ 18 else 0)
  else if x.spread.contains m then 2 ^ 18 / x.spread.length else 0

/-- Charge of an extent to a module (R77, R78): its pages, and the mirrored pages of its twin. -/
def chargeAt (e : Nat) (x : Extent) (m : Nat) : Nat :=
  chargeOf x.cls x.elem (bxK x.bxk) x.d * (pagesAt e x m + (if x.prot = 2 then pagesAt e x (twinOf m) else 0))

/-- Modules that an extent is charged to or that hold pages of it. -/
def modulesOf (e : Nat) (x : Extent) : List Nat :=
  let hs := if x.spread.isEmpty then [homeOf e] else x.spread
  if x.prot = 2 then hs.foldl (fun l m => addNew l (twinOf m)) hs else hs

/-- G of an account: the charge of its extents on this module. -/
def State.granted_ (s : State) (a : Nat) : Nat := sumOf s.spc.extents fun e => if e.2.acct = a then e.2.charge else 0

/-- The free pool in chunks (SPC_POOL.FREE): the grantable pool less all charges, 0 while the far tier is short (chapter 6). -/
def State.freePool (s : State) : Nat := if s.capShort then 0 else s.userChunks - s.emergSize - s.chargedAll

/-- Page-map entries in use on this module and the most it has (R169). -/
def State.mapUsed (s : State) : Nat := sumOf s.spc.extents fun e => pagesAt e.1 e.2 s.me
def State.mapCap (s : State) : Nat := (if s.isB then 12288 else 6144) * 2 ^ 18

/-- Local extent indices of a module (R47). -/
def State.localCap (s : State) : Nat := if s.isB then 12288 else 6144

/-- Does this module admit a charge for an account (R79)? -/
def State.admits (s : State) (a n : Nat) : Bool :=
  decide (s.granted_ a + (s.acct a).z + n ≤ (s.acct a).b ∨ n = 0) && decide (n ≤ s.freePool)

/-- Key slot state. -/
def State.keySt (s : State) (k : Nat) : Nat := (look s.sec.keys k).elim 0 fun x => x.st

/-- Status with which the key slot of a charge refuses it: 0x81 while RETIRING (R427), 0x80 when it must be generated and the entropy
source has failed. -/
def State.keyRefuses (s : State) (k : Nat) : Option Nat :=
  if s.keySt k = 2 then some 0x81 else if s.keySt k = 0 && !s.sec.entropyOk then some 0x80 else none

/-- Generate the key slot that a charge needs, unless it is ACTIVE (R422, Table 13-1). The wrapped slot enters the metadata journal
(R425). -/
def State.needKey (s : State) (k : Nat) : State :=
  if s.keySt k ≠ 0 then s
  else
    let mat := Config.random s.draws % 2 ^ 512
    let s := s.drew.onSec fun c => { c with keys := put c.keys k ⟨1, mat⟩, wrapped := put c.wrapped k mat }
    ((s.toMeta (.key k (some mat)) false).bump cntSec 2 1).post 0x0C00 []

/-- Is a journal record the wrapped form of a key slot? -/
def recOfKey (k : Nat) (r : JRec) : Bool :=
  match r.kind with
  | .key n _ => n == k
  | _ => false

/-- Overwrite the wrapped form of a key slot wherever it is kept, and journal that the slot is empty (chapter 13). -/
def State.unwrapNever (s : State) (k : Nat) : State :=
  let s := s.onFar fun f => { f with jrnl := f.jrnl.filter (fun r => !recOfKey k r), ckpt := { f.ckpt with keys := del f.ckpt.keys k } }
  (s.onSec fun c => { c with wrapped := del c.wrapped k }).toMeta (.key k none) false

/-- Destroy a key slot: it becomes EMPTY (Table 13-1). -/
def State.dropKey (s : State) (k : Nat) : State := (s.onSec fun c => { c with keys := del c.keys k }).unwrapNever k

/-- Does an extent of this module use a key slot? -/
def State.usesKey (s : State) (k : Nat) : Bool :=
  s.spc.extents.any fun e => keySlotOf e.2 == k && (modulesOf e.1 e.2).contains s.me

/-! ## Answers that wait for the twin (R72) -/

/-- Answer once the twin has acknowledged the journal records entered so far; at once without a live twin. -/
def State.replyAfter (s : State) (o : Out) : State :=
  if s.twinLive && decide (s.hdg.jacked < s.hdg.jseq) then s.onHdg fun h => { h with replies := h.replies ++ [(s.hdg.jseq, o)] }
  else s.emit o

/-- Answer a decided command with status 0 and further output after its journal records are acknowledged. -/
def State.okAfter (s : State) (x : Mbx) (out : Bytes) : State := s.replyAfter (.mbox (mbWho x) rcSuccess (0 :: out))

/-- Answer once every other live member holds what this command copied to it: each is asked after the copies, on the same link, and says so. -/
def State.replyHeld (s : State) (flip : Bool) (o : Out) : State :=
  if s.peers.isEmpty then s.replyAfter o
  else
    let n := s.nextId + 1
    let s := { s with nextId := n }.emits (s.peers.map fun m => Out.copy m (.sync n))
    s.onHdg fun h => { h with syncs := h.syncs ++ [⟨n, s.peers, flip, o⟩] }

/-- Answer a decided command with status 0 and further output once every other live member holds what it copied to it. -/
def State.okHeld (s : State) (x : Mbx) (out : Bytes) : State := s.replyHeld false (.mbox (mbWho x) rcSuccess (0 :: out))

/-- PUB_FLIP has taken effect everywhere. -/
def State.flipEnd (s : State) : State := (s.intr 0x400028 3).post 0x0406 []

/-- A member holds what it was sent, or has left: the answers that waited for it last are given. -/
def State.syncedBy (s : State) (m : Nat) (p : Sync → Bool) : State :=
  let step (y : Sync) : Sync := if p y then { y with left := y.left.filter (· != m) } else y
  let l := s.hdg.syncs.map step
  let s := s.onHdg fun h => { h with syncs := l.filter fun y => !y.left.isEmpty }
  s.each (l.filter fun y => y.left.isEmpty) fun s y => (if y.flip then s.flipEnd else s).replyAfter y.out

/-- Send the answers whose records are acknowledged, or all of them when the twin is not live. -/
def State.flushReplies (s : State) : State :=
  let due (r : Nat × Out) : Bool := !s.twinLive || decide (r.1 ≤ s.hdg.jacked)
  let go := s.hdg.replies.filter due
  (s.onHdg fun h => { h with replies := h.replies.filter fun r => !due r }).emits (go.map Prod.snd)

/-! ## Copies to other modules -/

/-- Send a COPY to a module. -/
def State.copyTo (s : State) (m : Nat) (b : CopyBody) : State := s.emit (.copy m b)

/-- Send a COPY to some modules, this one left out. -/
def State.copyAll (s : State) (ms : List Nat) (b : CopyBody) : State := s.each (ms.filter (· != s.me)) fun s m => s.copyTo m b

/-! ## Hedge slots (R54) -/

/-- Slots of a window. -/
def State.slotCount (s : State) (ld w : Nat) : Nat := match look s.spc.windows (ld * 8 + w) with
  | some x => 2 ^ (x.k - 30)
  | none => 0

/-- Map a slot. -/
def State.mapSlot (s : State) (ld w slot e : Nat) : State :=
  s.onSpc fun p => { p with slots := put p.slots (ld * 8 + w) (put ((look p.slots (ld * 8 + w)).getD []) slot e) }

/-- Unmap the slots of a window that a test names. -/
def State.unmapSlots (s : State) (ld w : Nat) (p : Nat → Nat → Bool) : State :=
  match look s.spc.slots (ld * 8 + w) with
  | none => s
  | some m =>
    let m := m.filter fun q => !p q.1 q.2
    s.onSpc fun c => { c with slots := if m.isEmpty then del c.slots (ld * 8 + w) else put c.slots (ld * 8 + w) m }

/-- The first n unmapped slots of a window, those it has. -/
def State.freeSlots (s : State) (ld w n : Nat) : List Nat :=
  let m := (look s.spc.slots (ld * 8 + w)).getD []
  ((List.range (min (s.slotCount ld w) (m.length + n))).filter fun i => (look m i).isNone).take n

/-! ## Reclaim (R74, chapter 2, case 'When an extent is reclaimed') -/

/-- Drop the moves, slots, waiting rows and pins of a page, and release its chunks. -/
def State.wipePage (s : State) (page : Nat) : State :=
  let p := s.pme page
  let s := match s.move page with
    | some m => if m.kind = 0 && !m.waitSpace then s.freeNear m.near else s
    | none => s
  let s := if hasNear p && p.st != .promoting then s.freeNear p.near else s
  let s := if hasFar p then s.freeFarAt p.far p.len s.far.jrnlNext else s
  let s := s.each ((s.far.row ++ s.far.relocRow).filter fun i => i.page == page) fun s i =>
    if i.why = 1 then (if i.oldLen = 0 then s else s.freeFarAt i.old i.oldLen s.far.jrnlNext) else s.dropFar i.far (i.bytes.length / 128)
  let s := s.onFar fun f => { f with row := f.row.filter (fun i => i.page != page), relocRow := f.relocRow.filter (fun i => i.page != page),
                                     paced := f.paced.filter (· != page) }
  let s := s.onTier fun t => { t with moves := del t.moves page, pins := del t.pins page, cand := t.cand.filter (· != page),
                                      missed := t.missed.filter (· != page) }
  let s := s.onHusk fun h => { h with slots := h.slots.filter fun x => x.page != page }
  (s.clearPage page).checkMark

/-- A page becomes unwritten (virtual in a V-LR extent): nothing of it is kept and the media is not touched; it leaves O (R81). -/
def State.unwrite (s : State) (page : Nat) : State :=
  s.branWatch (s.pme page).acct fun s =>
    let s := s.wipePage page
    let f := s.freshPme page
    (s.setPme page f false).onTier fun t => { t with pmes := del t.pmes page }

/-- Pages of an extent that this module has entries of. -/
def State.pagesOfExt (s : State) (e : Nat) : List Nat := (keys s.tier.pmes).filter fun p => extOf p == e

/-- Discard the materialised pages of a V-LR extent here and abandon its expansions (R146, R166). -/
def State.discardVlr (s : State) (e : Nat) : State :=
  let s := s.each ((s.pagesOfExt e).filter fun p => (s.pme p).st != .virt) fun s p => s.dropVirtual p
  s.onTlr fun t => { t with expq := t.expq.filter (fun p => extOf p != e), expanding := t.expanding.filter (fun p => extOf p.2 != e) }

/-- Extents that a factor matrix of so many elements lies in. -/
def factorExts (base elems size : Nat) : Nat × Nat := (base / 2 ^ 30, (base + elems * size - 1) / 2 ^ 30)

/-- Does a binding read an extent? -/
def vlrReads (v : Vlr) (uSize vSize e : Nat) : Bool :=
  let (a, b) := factorExts v.u (v.m * v.r) uSize
  let (c, d) := factorExts v.v (v.r * v.n) vSize
  decide (a ≤ e ∧ e ≤ b) || decide (c ≤ e ∧ e ≤ d)

/-- Host element size of an extent's data. -/
def State.extSize (s : State) (e : Nat) : Nat := match look s.spc.extents e with
  | some x => elemBytes x.elem
  | none => 4

/-- Unbind the V-LR extents bound to an extent that is about to be reclaimed (chapter 4, case 'When a factor extent is reclaimed').
Reads that wait for an expansion go on as reads of an unbound extent. -/
def State.unbindFrom (s : State) (e : Nat) : State :=
  s.each s.spc.extents fun s q =>
    match q.2.vlr with
    | none => s
    | some v =>
      if vlrReads v (s.extSize (v.u / 2 ^ 30)) (s.extSize (v.v / 2 ^ 30)) e then
        let s := s.discardVlr q.1
        let s := s.setExtent q.1 (some { q.2 with vlr := none })
        let s := (s.intr 0x500028 6).post 0x0509 [(4, q.1), (4, e)]
        s.wake fun r => extOf r.page == q.1 && waitsFor .vlr r
      else s

/-- The schedules that read an extent fault (R199). -/
def State.faultScheds (s : State) (e : Nat) : State :=
  s.each (keys s.tier.scheds) fun s i =>
    match look s.tier.scheds i with
    | some c =>
      let hit := c.gatePage / 2 ^ 18 == e ||
        c.entries.any fun q => decide (q.1 / 2 ^ 18 ≤ e ∧ e ≤ (q.1 + q.2.1 - 1) / 2 ^ 18)
      if c.st = 1 && hit then s.endSched i 3 else s
    | none => s

/-- Reclaim an extent on this module: its pages unwritten, chunks and charge returned, directory entries freed, the key slot it was the
last to use emptied, event 0x0304. -/
def State.reclaimHere (s : State) (e : Nat) : State :=
  match look s.spc.extents e with
  | none => s
  | some x =>
    let s := (s.unbindFrom e).faultScheds e
    let s := s.each (s.pagesOfExt e) fun s p => s.unwrite p
    let s := s.onTlr fun t => { t with expq := t.expq.filter (fun p => extOf p != e), expanding := t.expanding.filter (fun p => extOf p.2 != e) }
    let s := s.onHusk fun h => { h with slots := h.slots.filter (fun y => extOf y.page != e), bgWant := h.bgWant.filter (fun p => extOf p != e) }
    let s := s.plistDrop fun p => extOf (poisonPage p) == e
    let s := s.onDir fun d =>
      let keep (l : Nat) : Bool := l / 2 ^ 24 != e
      { d with sets := (d.sets.map fun b => (b.1, b.2.filter fun t => keep (lineOf t.tag (b.1 % 2 ^ 18)))).filter fun b => !b.2.isEmpty,
               vbuf := d.vbuf.filter (fun v => keep v.1), trk := d.trk.filter fun t => keep t.line }
    let s := s.onHdg fun h => { h with heldMarks := h.heldMarks.filter (fun p => extOf p != e), resync := h.resync.filter (fun p => extOf p != e) }
    let s := s.setExtent e none
    let k := keySlotOf x
    let s := if s.keySt k = 1 && !s.usesKey k then s.dropKey k else s
    (s.post 0x0304 []).retryMoves

/-- An extent that no lease names any more is reclaimed: every live module is told, since any may hold pages or the record of it. -/
def State.reclaim (s : State) (e : Nat) : State := (s.copyAll s.peers (.extent e none)).reclaimHere e

/-- The record of an extent without one of the leases that name it. -/
def withoutName (x : Extent) (h : Nat) : Extent := { x with namers := x.namers.filter (· != h) }

/-- A lease stops naming an extent of the absent partner: its record is kept here (R330), and with no other lease naming it the extent is reclaimed;
the partner learns of it when it is back. -/
def State.unnameReplica (s : State) (e h : Nat) : State :=
  match look s.hdg.replica.extents e with
  | none => s
  | some x =>
    if (withoutName x h).namers.isEmpty then
      (s.onHdg fun q => { q with replica := { q.replica with extents := del q.replica.extents e }, reclaimed := addNew q.reclaimed e }).reclaim e
    else s.onHdg fun q => { q with replica := { q.replica with extents := put q.replica.extents e (withoutName x h) } }

/-- The module that keeps the record of an extent homed elsewhere: its home, or while that is absent the home's twin. -/
def State.keeper (s : State) (e : Nat) : Nat := if s.isLive (homeOf e) then homeOf e else twinOf (homeOf e)

/-- A lease stops naming an extent: the home module reclaims it when no other lease names it (R74), its twin while it is absent; another portal
forgets it. -/
def State.unname (s : State) (e h : Nat) : State :=
  match look s.spc.extents e with
  | none => s
  | some x =>
    if homeOf e = s.me then
      if (withoutName x h).namers.isEmpty then s.reclaim e else s.setExtent e (some (withoutName x h))
    else
      let drop := (withoutName x h).namers.isEmpty && !(modulesOf e x).contains s.me
      let s := s.setExtent e (if drop then none else some (withoutName x h))
      if s.keeper e = s.me then s.unnameReplica e h else s.copyTo (s.keeper e) (.names e h false)

/-! ## Holders that leave (chapter 3, case 'When a holder's lease leaves ACTIVE') -/

/-- Start a holder sweep (R110). -/
def State.startSweep (s : State) (h : Nat) : State := s.onDir fun d => { d with sweepBusy := true, sweepHolder := h }

/-- Back-invalidate the lines that a holder holds in some extents at this page home. -/
def State.sweepHere (s : State) (h : Nat) (es : List Nat) : State :=
  let ls := s.dirLines.filter fun l => es.contains (l.1 / 2 ^ 24) && covers l.2 h && l.2.st != 3
  let s := s.startSweep h
  s.each ls fun s l => (s.dirPend l.1).snoop .inv l.1 none [h] false (l.2.st == 2)

/-- The lines of a holder whose caches are lost, at this page home: those held exclusive are owner lost, the shared ones dropped. -/
def State.loseHere (s : State) (h : Nat) (es : List Nat) (cause : Nat) : State :=
  let ls := s.dirLines.filter fun l => es.contains (l.1 / 2 ^ 24) && l.2.form == 0 && (ptrs l.2).contains h && l.2.st != 3
  let s := s.startSweep h
  let s := if ls.any fun l => l.2.st == 2 then s.lostCap h cause else s
  s.each ls fun s l => if l.2.st = 2 then s.ownerLost l.1 h else s.dirPutOpt l.1 (dropHolder l.2 h)

/-- The holder of a lease leaves ACTIVE: every page home of the lease's shared coherent extents empties it of their lines; `lost` when
its caches did not survive. -/
def State.holderLeaves (s : State) (h : Nat) (es : List Nat) (lost : Bool) : State :=
  let shared := es.filter fun e => (look s.spc.extents e).any fun x => x.kind == .shared
  if shared.isEmpty then s
  else
    let ms := (shared.foldl (fun l e => match look s.spc.extents e with
      | some x => (if x.spread.isEmpty then [homeOf e] else x.spread).foldl addNew l
      | none => l) [])
    let s := s.copyAll (ms.filter fun m => !s.hdg.bench && s.isLive m) (.sweep h shared lost)
    if ms.contains s.me then (if lost then s.loseHere h shared 1 else s.sweepHere h shared) else s

/-! ## Drains (R68, R69) -/

/-- Requests of an LD in some extents that are not answered. -/
def State.inFlight (s : State) (ld : Nat) (es : List Nat) : List Req :=
  s.reqs.filter fun r => es.contains (extOf r.page) &&
    match r.src with
    | .host d _ => d == ld
    | .uio d _ => d == ld
    | .cmd d => d == ld
    | .ring d _ _ => d == ld
    | .ctx n _ => (look s.tlr.ctxs n).any fun c => c.ld == some ld && c.portal == s.me
    | _ => false

/-- SPC_CFG.DRAIN_US and DEF_DUR. -/
def State.drainUs (s : State) : Nat := s.fld 0x300008 31 16
def State.defDur (s : State) : Nat := s.fld 0x300008 41 32

/-- Start a drain of some extents of a lease. -/
def State.startDrain (s : State) (h : Nat) (l : Lease) (es : List Nat) (bound : Nat) (whole : Bool) : State :=
  let s := (s.onSpc fun p => { p with drains := p.drains ++ [⟨h, l.ld, es, bound, whole⟩] }).tellSheaves h
  match l.ld with
  | some d => s.holderLeaves (s.holderOf d) es false
  | none => s

/-! ## Keys that leave use (R426) and the erase of an account -/

/-- A key slot leaves use: its key is destroyed and the slot is RETIRING (Table 13-1). -/
def State.retireKey (s : State) (k : Nat) : State :=
  if s.keySt k ≠ 1 then s else (s.onSec fun c => { c with keys := put c.keys k ⟨2, 0⟩ }).unwrapNever k

/-- The class-7 work of a retirement: a page that names a RETIRING slot is marked unwritten (Table 13-1). -/
def State.keysGo (s : State) : State :=
  if s.sec.keys.all fun k => k.2.st != 2 then s
  else match s.tier.pmes.find? fun e => (s.extent e.1).any fun x => s.keySt (keySlotOf x) == 2 with
    | some e => s.unwrite e.1
    | none => s

/-- Does a drain of an account's leases run here? -/
def State.acctDrains (s : State) (a : Nat) : Bool :=
  s.spc.leases.any fun l => l.2.acct == a && (l.2.st == .draining || l.2.st == .grace)

/-- Retire both slots of an account on this module. -/
def State.eraseKeys (s : State) (a : Nat) : State := (s.retireKey a).retireKey (256 + a)

/-- The erases whose drains have all ended: every member retires the slots, the command ends and event 0x0C02 is posted; a member that was asked
answers that its drains have ended. -/
def State.eraseCheck (s : State) : State :=
  s.each s.sec.erasing fun s e =>
    if s.acctDrains e.acct || !e.left.isEmpty then s
    else
      let s := s.onSec fun c => { c with erasing := removeFirst (· == e) c.erasing }
      match e.who with
      | some w => (((s.copyAll s.peers (.erase e.acct 2)).eraseKeys e.acct).endBg w rcSuccess [0]).post 0x0C02 []
      | none => s.copyTo e.src (.erase e.acct 1)

/-- A lease closes: its window is unmapped, it leaves the table, and each extent that no other lease names is reclaimed. -/
def State.closeLease (s : State) (h : Nat) : State :=
  match look s.spc.leases h with
  | none => s
  | some l =>
    let s := match l.ld with
      | some d => s.unmapSlots d l.window fun _ _ => true
      | none => s
    let s := s.onSpc fun p => { p with drains := p.drains.filter fun d => d.handle != h }
    let s := s.setLease h none
    (s.each ((l.exts.map Prod.fst).eraseDups) fun s e => s.unname e h).eraseCheck

/-- A drain ends: the lease closes, or the drained extents' slots are unmapped and the extents leave the lease; one that has moved to another portal
left them behind (R69). -/
def State.endDrain (s : State) (d : Drain) : State :=
  if d.whole then s.closeLease d.handle
  else
    let s := s.onSpc fun p => { p with drains := removeFirst (· == d) p.drains }
    match look s.spc.leases d.handle with
    | none => s.each d.exts fun s e => s.unname e d.handle
    | some l =>
      let s := match l.ld with
        | some ld => s.unmapSlots ld l.window fun _ e => d.exts.contains e
        | none => s
      let s := s.setLease d.handle (some { l with exts := l.exts.filter fun e => !d.exts.contains e.1 })
      s.each d.exts fun s e => s.unname e d.handle

/-- The requests still outstanding when a drain's bound expires complete with poison 0x04 and are counted and posted. -/
def State.stragglers (s : State) (d : Drain) : State :=
  match d.ld with
  | none => s
  | some ld =>
    let rs := s.inFlight ld d.exts
    if rs.isEmpty then s
    else
      let s := s.each rs fun s r => (s.answer r [] 4).bump cntSpc 2 1
      (s.intr 0x300028 1).postFor [ld] 0x0306 [(4, rs.length)]

/-! ## Orphans -/

/-- An ACTIVE lease loses its binding (Table 2-4); `lost` when the LD's caches did not survive. -/
def State.orphan (s : State) (h : Nat) (lost : Bool) : State :=
  match look s.spc.leases h with
  | none => s
  | some l =>
    match l.st, l.ld with
    | .active, some d =>
      let s := s.unmapSlots d l.window fun _ _ => true
      let s := s.setLease h (some { l with st := .orphan, ld := none, lastLd := d })
      let s := s.postFor [d] 0x0302 []
      s.holderLeaves (s.holderOf d) (l.exts.map Prod.fst) lost
    | _, _ => s

/-- The leases of an LD that a test names are orphaned. -/
def State.orphanLd (s : State) (ld : Nat) (p : Lease → Bool) (lost : Bool) : State :=
  s.each ((s.spc.leases.filter fun l => l.2.ld == some ld && p l.2).map Prod.fst) fun s h => s.orphan h lost

end Sys2Proof.Machine
end

