-- ==== Sys2Proof/Machine/Lease.lean ====
section
/-! DEFINITION. Leases and accounts (spec/02_memory_space.md R62 to R87, R537): grant, renew, release, attach, query, revoke, the account
commands, the lease page, and the timers of a lease. -/

namespace Sys2Proof.Machine

open Sys2Proof

/-! ## Grants (R79, R84, Table 2-8, Table 2-9) -/

/-- An extent request of Table 2-9. -/
structure GReq where
  exist : Option Nat
  kind : Nat
  cls : Nat
  prot : Nat
  durable : Bool
  d : Nat
  layout : Nat
  home : Nat
  bxk : Nat
  stoch : Bool
  elem : Nat
  run : Nat
  deriving DecidableEq, Repr

/-- Members of a layout: 1 local, else 4, 8 or 16. -/
def layoutSize (l : Nat) : Nat := if l = 0 then 1 else 2 ^ (l + 1)

/-- Read extent request i; a field out of range answers status 0x09. -/
def readGReq (x : Mbx) (i : Nat) : Except Nat GReq :=
  let o := 16 + 16 * i
  let num := mb32 x o
  let b5 := mb8 x (o + 5)
  let b9 := mb8 x (o + 9)
  let r : GReq := { exist := if num = 0xFFFFFFFF then none else some num, kind := mb8 x (o + 4), cls := b5 % 16, prot := b5 / 16 % 4,
                    durable := b5.testBit 6, d := mb8 x (o + 6), layout := mb8 x (o + 7), home := mb8 x (o + 8), bxk := b9 % 8,
                    stoch := b9.testBit 3, elem := b9 / 16, run := mb16 x (o + 10) }
  let bad := (r.exist.any fun e => decide (e ≥ 2 ^ 20)) || decide (r.kind > 2) || decide (r.prot > 2) || b5.testBit 7 || decide (r.layout > 3)
    || (decide (r.home ≥ 64) && r.home != 0xFF) || decide (r.bxk > 4) || decide (r.run = 0 ∨ r.run > 16384)
    || (r.exist.isSome && r.run != 1) || mb32 x (o + 12) != 0
    || (if isLossless r.cls then decide (r.d = 0 ∨ r.d > 33) else decide (r.d ≠ 0))
  if bad then .error 9 else .ok r

/-- The n extent requests of a command, none when a field of one is out of range. -/
def readGReqs (x : Mbx) (n : Nat) : Option (List GReq) :=
  (List.range n).foldr (fun i acc => match readGReq x i, acc with
    | .ok r, some l => some (r :: l)
    | _, _ => none) (some [])

/-- Kind of a code. -/
def kindOf (n : Nat) : Kind := if n = 0 then .priv else if n = 1 then .shared else .published
def kindCode : Kind → Nat
  | .priv => 0
  | .shared => 1
  | .published => 2

/-- A new extent of a request (R61, R148). -/
def GReq.extent (r : GReq) (acct : Nat) (spread : List Nat) (h : Nat) : Extent :=
  { kind := kindOf r.kind, cls := r.cls, prot := r.prot, durable := r.durable, layout := r.layout, spread := spread, acct := acct, d := r.d,
    bxk := r.bxk, stoch := r.stoch, elem := r.elem, tslot := if r.cls = 2 then 1 else if r.cls = 3 then 2 else 0, charge := 0, vlr := none,
    respread := none, serving := true, namers := [h] }

/-- A grant being admitted: new extents, extents to name in grant order, charges by module, and page-map entries here. -/
structure Plan where
  fresh : List (Nat × Extent)
  order : List Nat
  load : FMap Nat
  map : Nat
  deriving DecidableEq, Repr

/-- Charge planned for a module. -/
def Plan.at (p : Plan) (m : Nat) : Nat := (look p.load m).getD 0

/-- Free pool of a live module as far as it is known here: that of another module is left open (log entry 15). -/
def State.poolAt (s : State) (m : Nat) : Nat := if m = s.me then s.freePool else Config.peerAnswer (s.draws + m) % 2 ^ 40

/-- Does a module admit a planned charge? Another module's answer is left open. -/
def State.admitsAt (s : State) (a m n : Nat) : Bool := if m = s.me then s.admits a n else Config.peerAdmits (s.draws + m) || n == 0

/-- Status with which another module refuses its share: budget or pool, lossless privilege, entropy, or a retiring key slot; which one is
left open. -/
def State.peerStatus (s : State) (m : Nat) : Nat := ([1, 2, 0x80, 0x81][Config.peerAnswer (s.draws + 64 + m) % 4]?).getD 1

/-- The modules of this part that may hold a new extent: all live ones, for a mirrored extent those whose twin is live (R84). -/
def State.homesFor (s : State) (prot : Nat) : List Nat :=
  if s.hdg.bench then [s.me] else s.hdg.live.filter fun m => prot != 2 || s.isLive (twinOf m)

/-- Place one new extent of a request: its number and record, or a status. -/
def State.placeExtent (s : State) (a h : Nat) (r : GReq) (p : Plan) : Except Nat (Nat × Extent) :=
  let ms := s.homesFor r.prot
  let n := layoutSize r.layout
  let share := chargeOf r.cls r.elem (bxK r.bxk) r.d * (2 ^ 18 / n)
  let mirrors (c : Nat) : Bool := r.prot != 2 || s.admitsAt a (twinOf c) (p.at (twinOf c) + share)
  let home := if r.home = 0xFF then argMin (fun m => 2 ^ 41 - (s.poolAt m - p.at m)) (ms.filter mirrors) else ms.find? (· == r.home)
  match home with
  | none => .error (if ms.isEmpty || r.home != 0xFF then 7 else 1)
  | some m =>
    let cands := ms.filter fun c => c != m && s.admitsAt a c (p.at c + share) && mirrors c
    let start := Config.pick s.draws
    let others := (List.range cands.length).filterMap fun i => cands[(start + i) % cands.length]?
    let spread := if n = 1 then [] else m :: others.take (n - 1)
    if n ≠ 1 ∧ spread.length < n then .error (if ms.length < n then 7 else 1)
    else
      let taken (i : Nat) : Bool := (look s.spc.extents (m * 2 ^ 14 + i)).isSome || p.fresh.any (fun e => e.1 == m * 2 ^ 14 + i)
      match firstFrom s.localCap (Config.pick (s.draws + 1)) fun i => !taken i with
      | none => .error 1
      | some i => .ok (m * 2 ^ 14 + i, r.extent a spread h)

/-- Add a new extent to a plan. -/
def State.planNew (s : State) (a h : Nat) (r : GReq) (p : Plan) : Except Nat Plan :=
  match s.placeExtent a h r p with
  | .error st => .error st
  | .ok (e, x) =>
    let load := (modulesOf e x).foldl (fun l m => put l m ((look l m).getD 0 + chargeAt e x m)) p.load
    .ok { fresh := p.fresh ++ [(e, x)], order := p.order ++ [e], load := load, map := p.map + pagesAt e x s.me }

/-- Add n new extents. -/
def State.planRun (s : State) (a h : Nat) (r : GReq) : Nat → Plan → Except Nat Plan
  | 0, p => .ok p
  | n + 1, p => match s.planNew a h r p with
    | .error st => .error st
    | .ok p => s.planRun a h r n p

/-- Add a request: join an existing shared coherent or published extent of the account, or new extents. A published extent comes only
from PUB_BUILD (R111). The record of an extent homed elsewhere has been asked for by now; with its home absent the request is refused with 0x07. -/
def State.planReq (s : State) (a h : Nat) (r : GReq) (p : Plan) : Except Nat Plan :=
  match r.exist with
  | some e =>
    match look s.spc.extents e with
    | none => .error (if homeOf e = s.me || s.isLive (homeOf e) then 3 else 7)
    | some x => if homeOf e ≠ s.me ∧ !s.isLive (homeOf e) then .error 7 else if x.kind ≠ kindOf r.kind ∨ x.acct ≠ a ∨ x.kind = .priv ∨ !x.serving then .error 3 else .ok { p with order := p.order ++ [e] }
  | none =>
    if r.kind = 2 ∨ !classElemOk r.cls r.elem then .error 3
    else if s.hdg.bench ∧ (r.layout ≠ 0 ∨ r.prot = 2 ∨ (r.home ≠ 0 ∧ r.home ≠ 0xFF)) then .error 7
    else if !s.hdg.bench ∧ r.layout ≠ 0 ∧ !s.hdg.quorum then .error 7
    else if r.home ≠ 0xFF ∧ !(s.homesFor r.prot).contains r.home then .error 7
    else s.planRun a h r r.run p

/-- Plan every request of a grant. -/
def State.planAll (s : State) (a h : Nat) : List GReq → Plan → Except Nat Plan
  | [], p => .ok p
  | r :: t, p => match s.planReq a h r p with
    | .error st => .error st
    | .ok p => s.planAll a h t p

/-- The extents of a plan whose key slot is not usable here, as a status. -/
def State.planKeys (s : State) (p : Plan) : Option Nat :=
  (p.fresh.filterMap fun e => if (modulesOf e.1 e.2).contains s.me then s.keyRefuses (keySlotOf e.2) else none).head?

/-- Admit a plan as a whole (R79, R80, R170, R427). -/
def State.admitPlan (s : State) (a : Nat) (p : Plan) : Option Nat :=
  let lossless := p.fresh.any fun e => isLossless e.2.cls
  let here := p.fresh.any fun e => (modulesOf e.1 e.2).contains s.me
  if lossless && here && !(s.acct a).lossless then some 2
  else if decide (p.map + s.mapUsed > s.mapCap) then some 1
  else match p.load.find? (fun l => !s.admitsAt a l.1 l.2) with
  | some l => some (if l.1 = s.me then 1 else s.peerStatus l.1)
  | none => s.planKeys p

/-- Carry out a plan: extents recorded, charged, keyed, and copied to the modules that hold them. -/
def State.doPlan (s : State) (h : Nat) (p : Plan) : State :=
  let s := s.each p.fresh fun s e =>
    let x := { e.2 with charge := chargeAt e.1 e.2 s.me }
    let s := if (modulesOf e.1 x).contains s.me then s.needKey (keySlotOf x) else s
    let s := s.setExtent e.1 (some x)
    s.copyAll (addNew (modulesOf e.1 x) (homeOf e.1)) (.extent e.1 (some e.2))
  s.each (p.order.filter fun e => !p.fresh.any fun q => q.1 == e) fun s e =>
    match look s.spc.extents e with
    | none => s
    | some x =>
      let s := s.setExtent e (some { x with namers := addNew x.namers h })
      if homeOf e = s.me then s else s.copyTo (homeOf e) (.names e h true)

/-- Does a lease have a handle, as far as is known here? -/
def State.handleUsed (s : State) (h : Nat) : Bool :=
  (look s.spc.leases h).isSome || s.spc.extents.any fun e => e.2.namers.contains h

/-- A lease handle not in use. A handle names a lease at every portal (R72), so this module's index stands in bits 31 to 26 of the handles that it gives
(DESIGN CHOICE, log entry 96); the rest is left open. -/
def State.newHandle (s : State) : Nat :=
  let n := s.spc.leases.length + (sumOf s.spc.extents fun e => e.2.namers.length) + 1
  ((List.range n).map fun i => s.me * 2 ^ 26 + 1 + (Config.pick (s.draws + 2) + i) % (2 ^ 26 - 1)).find? (fun h => !s.handleUsed h) |>.getD 0

/-- Output of LEASE_GRANT and LEASE_ATTACH from byte 1 on. -/
def leaseOut (h n token slot : Nat) : Bytes := zeros 3 ++ toLe 4 h ++ toLe 4 n ++ zeros 4 ++ toLe 16 token ++ toLe 2 slot

/-- The unresponsive mark of an LD is cleared when a lease is bound to it (chapter 3). -/
def State.respond (s : State) (holder : Nat) : State := s.onDir fun d => { d with unresp := d.unresp.filter (· != holder) }

/-- Map extents into free slots of a window: the pairs of extent and slot. -/
def State.fill (s : State) (ld w : Nat) (es : List Nat) : State × List (Nat × Nat) :=
  let ps := es.zip (s.freeSlots ld w es.length)
  (s.each ps fun s p => s.mapSlot ld w p.2 p.1, ps)

/-- Is a holder in an account's member list (R87)? -/
def State.memberOf (s : State) (a holder : Nat) : Bool := (s.acct a).members.contains holder

/-- Has this module joined a space, or does it run in bench mode? -/
def State.formedOrBench (s : State) : Bool := s.hdg.formed || s.hdg.bench

/-- Commands that wait for extents' records. -/
def askGrant : Nat := 0
def askRespread : Nat := 1
def askBuild : Nat := 2
def askTrain : Nat := 3
def askBind : Nat := 4
def askRecode : Nat := 5
def askVlr : Nat := 6
def askDiscard : Nat := 7
def askSheaf : Nat := 8
def askMover : Nat := 9

/-- The extents of a list whose records must be asked for: not held here, not asked for by this command before, and homed on another live module. -/
def State.extNeed (s : State) (asked es : List Nat) : List Nat :=
  es.eraseDups.filter fun e =>
    decide (e < 2 ^ 20) && !asked.contains e && (look s.spc.extents e).isNone && homeOf e != s.me && s.isLive (homeOf e)

/-- Run what needs the records of some extents: at once when they are known here or homed here; else their homes are asked first, and the command is
taken up again when they have answered (Table 2-9; log entry 97). -/
def State.withExts (s : State) (cmd : Nat) (x : Mbx) (asked es : List Nat) (f : State → State) : State :=
  let need := s.extNeed asked es
  if need.isEmpty then f s
  else (s.emits (need.map fun e => Out.copy (homeOf e) (.ask e))).onSpc fun p => { p with asks := p.asks ++ [⟨cmd, x, asked ++ need, need⟩] }

/-- Decide a LEASE_GRANT whose extent requests are read: `ext` names the lease to extend. A grant that extends a lease posts event 0x0300 as one that
creates it does (log entry 98). -/
def State.grantDo (s : State) (x : Mbx) (rs : List GReq) (ext : Option (Nat × Lease)) : State :=
  let ld := mbWho x
  let a := mb8 x 0
  let w := mb8 x 1
  let h := match ext with
    | some e => e.1
    | none => s.newHandle
  match s.planAll a h rs { fresh := [], order := [], load := [], map := 0 } with
  | .error st => s.status x st
  | .ok p =>
    if (s.freeSlots ld w p.order.length).length < p.order.length then s.status x 6
    else match s.admitPlan a p with
    | some st => s.status x st
    | none =>
      let rnd := Config.random s.draws % 2 ^ 128
      let s := { s with draws := s.draws + 128 }
      let s := s.doPlan h p
      let (s, ps) := s.fill ld w p.order
      let l : Lease := match ext with
        | some (_, l) => { l with exts := l.exts ++ ps }
        | none =>
          let dur := if mb16 x 2 = 0 then s.defDur else mb16 x 2
          { acct := a, ld := some ld, lastLd := ld, window := w, sess := mbSess x, rights := mb8 x 4 % 8, dur := dur,
            deadline := s.now + dur * 10 ^ 9, token := rnd, st := .active, graceEnd := 0, exts := ps, quarter := false }
      let s := (s.setLease h (some l)).respond (s.holderOf ld)
      let s := s.postFor [ld] 0x0300 []
      s.okAfter x (leaseOut h p.order.length l.token ((ps.map Prod.snd).headD 0))

/-- May an LD's window take a new lease: committed, holding no lease that is not CLOSED, and named by no attach that other modules answer (R64)? -/
def State.windowFree (s : State) (ld w : Nat) : Bool :=
  decide (w < 8) && (look s.spc.windows (ld * 8 + w)).isSome && (s.leaseAt ld w).isNone
    && !s.spc.attaching.any fun a => a.ld == ld && a.window == w

/-- Decide a LEASE_GRANT, the records of the extents that it joins being known. -/
def State.grantNow (s : State) (x : Mbx) (rs : List GReq) : State :=
  let ld := mbWho x
  let a := mb8 x 0
  let w := mb8 x 1
  if mb32 x 8 ≠ 0 then
    match look s.spc.leases (mb32 x 8) with
    | none => s.status x 4
    | some l =>
      if l.st ≠ .active ∨ l.ld ≠ some ld then s.status x 4
      else if l.acct ≠ a ∨ l.window ≠ w ∨ l.rights ≠ mb8 x 4 then s.status x 9
      else s.grantDo x rs (some (mb32 x 8, l))
  else if mb16 x 2 > 600 then s.status x 9
  else if !s.windowFree ld w then s.status x 6
  else s.grantDo x rs none

/-- Decide a LEASE_GRANT; `asked` names the extents asked for already; the records that it needs may still be asked for. -/
def State.grantCmd (s : State) (x : Mbx) (asked : List Nat) : State :=
  let n := mb8 x 5
  if x.data.length < 16 + 16 * n then s.reply x rcInvalidInput []
  else if n = 0 ∨ n > 64 ∨ mb16 x 6 ≠ 0 ∨ mb32 x 12 ≠ 0 ∨ mb8 x 4 ≥ 8 then s.status x 9
  else if !s.memberOf (mb8 x 0) (s.holderOf (mbWho x)) then s.status x 8
  else if !s.formedOrBench then s.status x 7
  else
    match readGReqs x n with
    | none => s.status x 9
    | some rs => s.withExts askGrant x asked (rs.filterMap GReq.exist) fun s => s.grantNow x rs

/-- LEASE_GRANT (R62 to R64, R79, R80, R83, R84, R87, R537). -/
def execLeaseGrant (x : Mbx) (s : State) : Outcome := .next (s.command x .ld true 16 fun s => s.grantCmd x [])

/-! ## Renewal (R70, R71) -/

/-- Renew a lease that is ACTIVE before its deadline. -/
def State.renew (s : State) (h : Nat) (l : Lease) (dur : Nat) : State :=
  s.setLease h (some { l with dur := dur, deadline := s.now + dur * 10 ^ 9, quarter := false })

/-- LEASE_RENEW (R63, R70). -/
def execLeaseRenew (x : Mbx) (s : State) : Outcome :=
  .next (s.command x .ld true 6 fun s =>
    if mb16 x 4 > 600 then s.status x 9
    else match look s.spc.leases (mb32 x 0) with
    | none => s.status x 4
    | some l =>
      if l.ld ≠ some (mbWho x) ∨ l.st ≠ .active ∨ s.now ≥ l.deadline then s.status x 4
      else (s.renew (mb32 x 0) l (if mb16 x 4 = 0 then l.dur else mb16 x 4)).okAfter x [])

/-- SPC_HB_WRITE (R71): a write to a window's lease page renews the ACTIVE lease in the window; after its deadline, or without one, it is
ignored. -/
def execSpcHbWrite (ld : Fin 64) (w : Fin 8) (_off : Fin 512) (_v : Word) (s : State) : Outcome :=
  .next (
    if !s.hostOpen ld then s
    else match s.leaseAt ld w with
    | some (h, l) => if l.st = .active ∧ s.now < l.deadline then s.renew h l l.dur else s
    | none => s)

/-! ## Release and revocation (R69, R74) -/

/-- Extents of a lease in some slots; count 0 names all. -/
def namedExts (l : Lease) (first count : Nat) : List Nat :=
  if count = 0 then (l.exts.map Prod.fst).eraseDups
  else ((l.exts.filter fun e => decide (first ≤ e.2 ∧ e.2 < first + count)).map Prod.fst).eraseDups

/-- Drain named extents from a lease in ACTIVE or ORPHAN: all of them make it DRAINING. -/
def State.drainNamed (s : State) (h : Nat) (l : Lease) (es : List Nat) (bound : Nat) : State :=
  let whole := l.exts.all fun e => es.contains e.1
  let es := es.filter fun e => whole || !(s.spc.drains.any fun d => d.handle == h && d.exts.contains e)
  let s := if whole then
      (s.setLease h (some { l with st := .draining })).onSpc fun p => { p with drains := p.drains.filter fun d => d.handle != h }
    else s
  if es.isEmpty && !whole then s else s.startDrain h l es bound whole

/-- LEASE_RELEASE (R69). -/
def execLeaseRelease (x : Mbx) (s : State) : Outcome :=
  .next (s.command x .ld true 8 fun s =>
    match look s.spc.leases (mb32 x 0) with
    | none => s.status x 4
    | some l =>
      if l.ld ≠ some (mbWho x) ∨ l.st ≠ .active then s.status x 4
      else
        let es := namedExts l (mb16 x 4) (mb16 x 6)
        if es.isEmpty ∧ mb16 x 6 ≠ 0 then s.status x 9
        else (s.drainNamed (mb32 x 0) l es (s.now + s.drainUs * 1000)).okAfter x [])

/-- Revoke extents of a lease of this module: event 0x0305, source 194, and the drain (R69, R85). -/
def State.revoke (s : State) (h : Nat) (l : Lease) (es : List Nat) (boundUs : Nat) : State :=
  let s := s.postFor l.ld.toList 0x0305 []
  let s := match l.ld with
    | some d => s.edge 194 d
    | none => s
  let s := s.each es fun s e => s.faultScheds e
  s.drainNamed h l es (s.now + (if boundUs = 0 then s.drainUs else boundUs) * 1000)

/-- Revoke every lease of an account that is ACTIVE or ORPHAN here (R426). -/
def State.revokeAcct (s : State) (a : Nat) : State :=
  s.each (s.spc.leases.filter fun l => l.2.acct == a && (l.2.st == .active || l.2.st == .orphan)) fun s l =>
    s.revoke l.1 l.2 (namedExts l.2 0 0) 0

/-- LEASE_REVOKE (R69): on this module's lease, or through the portal it names, whose answer is left open (log entry 15). -/
def execLeaseRevoke (x : Mbx) (s : State) : Outcome :=
  .next (s.command x .fm true 16 fun s =>
    let b := mb32 x 12
    let m := mb8 x 8
    if b ≠ 0 ∧ (b < 100 ∨ b > 50000) then s.status x 9
    else if m ≠ s.me then
      if m < 64 ∧ s.isLive m then
        let s := s.copyTo m (.revoke (mb32 x 0) (mb16 x 4) (mb16 x 6) b)
        s.drew.status x (if Config.peerAdmits s.draws then 0 else 4)
      else s.status x 7
    else match look s.spc.leases (mb32 x 0) with
    | none => s.status x 4
    | some l =>
      if l.st ≠ .active ∧ l.st ≠ .orphan then s.status x 4
      else
        let es := namedExts l (mb16 x 4) (mb16 x 6)
        if es.isEmpty ∧ mb16 x 6 ≠ 0 then s.status x 9
        else (s.revoke (mb32 x 0) l es b).okAfter x [])

/-! ## Attach (R64, R65, R67, R72, R87) -/

/-- A refused token: counted, posted, and added to the LD's run of refusals; the eighth starts the lockout. -/
def State.tokenRefused (s : State) (ld : Nat) (counts : Bool) : State :=
  let s := (s.bump cntSpc 4 1).postFor [ld] 0x030C []
  if !counts then s
  else
    let n := (look s.spc.tokRun ld).getD 0 + 1
    s.onSpc fun p => if n ≥ 8 then { p with tokRun := del p.tokRun ld, tokLock := put p.tokLock ld (s.now + 10 ^ 9) }
                     else { p with tokRun := put p.tokRun ld n }

/-- Does a token open a lease (chapter 2, case 'When a token is presented wrongly'; R70 for the deadline)? The status, 0 when it does. -/
def State.tokenStatus (s : State) (l : Lease) (token acct : Nat) : Nat :=
  if (l.st ≠ .active ∧ l.st ≠ .orphan) ∨ l.acct ≠ acct ∨ l.token ≠ token then 5
  else if s.now ≥ l.deadline then 4
  else 0

/-- Bind a lease to an LD, window and session; its window is filled again from slot 0, in grant order (R54). -/
def State.bind (s : State) (h : Nat) (l : Lease) (ld w sess : Nat) : State × Nat × Nat :=
  let s := match l.ld with
    | some d => s.unmapSlots d l.window fun _ _ => true
    | none => s
  let s := s.onSpc fun p => { p with tokRun := del p.tokRun ld }
  let (s, ps) := s.fill ld w (l.exts.map Prod.fst)
  let s := s.setLease h (some { l with ld := some ld, lastLd := ld, window := w, sess := sess, st := .active, exts := ps,
                                       deadline := s.now + l.dur * 10 ^ 9, quarter := false })
  ((s.respond (s.holderOf ld)).postFor [ld] 0x0301 [], ps.length, (ps.map Prod.snd).headD 0)

/-- May a window take a lease: committed, not bound to another lease or awaited by an attach of one, and with a slot for every extent? -/
def State.windowFor (s : State) (ld w h n : Nat) : Bool :=
  decide (w < 8) && (look s.spc.windows (ld * 8 + w)).isSome && decide (n ≤ s.slotCount ld w) && ((s.leaseAt ld w).all fun l => l.1 == h)
    && s.spc.attaching.all fun a => a.ld != ld || a.window != w || a.handle == h

/-- The lease that a token may open here: of this module, or of the absent partner by its replica (R72, R330). -/
def State.leaseFor (s : State) (h : Nat) : Option Lease :=
  match look s.spc.leases h with
  | some l => some l
  | none => if s.isLive (twinOf s.me) then none else look s.hdg.replica.leases h

/-- The record of an extent: this module's, or the absent partner's by its replica. -/
def State.extentFor (s : State) (e : Nat) : Option Extent :=
  match look s.spc.extents e with
  | some x => some x
  | none => if s.isLive (twinOf s.me) then none else look s.hdg.replica.extents e

/-- A lease of the absent partner that is attached here becomes this module's, with the records of its extents (R72, R330). -/
def State.adoptLease (s : State) (h : Nat) (l : Lease) : State :=
  if (look s.spc.leases h).isSome then s
  else
    let s := s.each ((l.exts.map Prod.fst).eraseDups) fun s e =>
      match look s.spc.extents e, s.extentFor e with
      | none, some x => s.setExtent e (some { x with charge := chargeAt e x s.me })
      | _, _ => s
    s.onHdg fun q => { q with replica := { q.replica with leases := del q.replica.leases h } }

/-- LEASE_ATTACH (R65, R72): of a lease of this module, or of its absent partner by the replica, at once; of another, once the other modules have
answered. A lease that has reached CLOSED is in no table any more: its handle answers 0x04 and is no refused token (log entry 98). -/
def execLeaseAttach (x : Mbx) (s : State) : Outcome :=
  .next (s.command x .ld true 32 fun s =>
    let ld := mbWho x
    let h := mb32 x 0
    let a := mb8 x 4
    let w := mb8 x 5
    let token := leAt x.data 16 16
    if (look s.spc.tokLock ld).isSome then (s.tokenRefused ld false).status x 5
    else if !s.memberOf a (s.holderOf ld) then s.status x 8
    else match s.leaseFor h with
    | some l =>
      let st := s.tokenStatus l token a
      if st = 5 then (s.tokenRefused ld true).status x 5
      else if st ≠ 0 then s.status x st
      else if !s.windowFor ld w h l.exts.length then s.status x 6
      else
        let mine := (look s.spc.leases h).isSome
        let s := s.adoptLease h l
        let l : Lease := if mine then l else { l with ld := none }
        let lost := l.ld.isSome && l.ld != some ld
        let s := if lost then s.holderLeaves (s.holderOf (l.ld.getD 0)) (l.exts.map Prod.fst) false else s
        let (s, n, slot) := s.bind h l ld w (mbSess x)
        s.okAfter x (leaseOut h n l.token slot)
    | none =>
      if !s.windowFor ld w h 0 then s.status x 6
      else if s.peers.isEmpty then s.status x 4
      else
        let s := s.copyAll s.peers (.token h token a (s.slotCount ld w))
        s.onSpc fun p => { p with attaching := p.attaching ++ [⟨ld, h, w, mbSess x, s.peers, false⟩] })

/-- TOKEN_LOCKOUT_END (R67): a second after the eighth refusal the lockout ends. -/
def execTokenLockoutEnd (ld : Fin 64) (s : State) : Outcome :=
  .next (match look s.spc.tokLock ld with
    | some t => if s.now ≥ t then s.onSpc fun p => { p with tokLock := del p.tokLock ld, tokRun := del p.tokRun ld } else s
    | none => s)

/-! ## Query (Table 2-11 to Table 2-13) -/

/-- State code of a lease (Table 2-12). -/
def leaseCode : LeaseState → Nat
  | .active => 1
  | .orphan => 2
  | .draining => 3
  | .grace => 4
  | .closed => 0

/-- End of the time that a lease reports: deadline, end of grace, or drain bound. -/
def State.leaseUntil (s : State) (h : Nat) (l : Lease) : Nat :=
  match l.st with
  | .active => l.deadline
  | .orphan => l.deadline
  | .grace => l.graceEnd
  | .draining => match s.spc.drains.find? (fun d => d.handle == h) with
    | some d => d.bound
    | none => s.now
  | .closed => s.now

/-- Table 2-13. -/
def State.extRecord (s : State) (h : Nat) (e slot : Nat) : Bytes :=
  match s.extentFor e with
  | none => fit 32 (toLe 4 e)
  | some x =>
    let run := if s.spc.drains.any (fun d => d.handle == h && d.exts.contains e) then 1 else if x.respread.isSome then 2 else 0
    let set := if x.spread.isEmpty then [homeOf e] else x.spread
    toLe 4 e ++ toLe 1 (kindCode x.kind) ++ toLe 1 (x.cls + 16 * x.prot + (if x.durable then 64 else 0)) ++ toLe 1 x.d ++ toLe 1 x.layout
      ++ toLe 1 (x.bxk + (if x.stoch then 8 else 0) + 16 * x.elem) ++ toLe 1 run ++ toLe 2 slot ++ zeros 4
      ++ (set.map (fun m => BitVec.ofNat 8 m) ++ List.replicate 16 (BitVec.ofNat 8 255)).take 16

/-- LEASE_QUERY (Table 2-12). The fabric manager's query of a lease of the absent partner is answered from the replica (R330); of another lease that
this module does not hold, from its portal, which is left open (log entry 15). -/
def execLeaseQuery (x : Mbx) (s : State) : Outcome :=
  .next (s.command x .any false 16 fun s =>
    let n := mb16 x 12
    let ld := mbWho x
    let found : Option (Nat × Lease) :=
      if mb32 x 0 ≠ 0 then (s.leaseFor (mb32 x 0)).map fun l => (mb32 x 0, l)
      else if mbFm x then none else s.leaseAt ld (mb8 x 4)
    if n = 0 ∨ n > 1024 ∨ (mb32 x 0 = 0 ∧ mb8 x 4 ≥ 8) ∨ leAt x.data 5 3 ≠ 0 ∨ mb16 x 14 ≠ 0 then s.status x 9
    else match found with
    | none =>
      if mbFm x ∧ mb32 x 0 ≠ 0 ∧ !s.peers.isEmpty ∧ Config.peerAdmits s.draws then
        s.drew.okOut x ((List.range (31 + 32 * n)).map fun i => Config.answerByte s.draws i)
      else s.drew.status x 4
    | some (h, l) =>
      if !mbFm x ∧ l.ld ≠ some ld ∧ !(l.ld.isNone ∧ l.lastLd = ld) then s.status x 4
      else
        let es := (l.exts.drop (mb32 x 8)).take n
        s.okOut x (toLe 1 (leaseCode l.st) ++ toLe 1 (if l.ld.isSome then l.window else 255) ++ toLe 1 l.rights ++ toLe 1 l.acct ++ zeros 1
          ++ toLe 2 (match l.ld with | some d => s.holderOf d | none => 0xFFFF) ++ toLe 4 h
          ++ toLe 4 ((s.leaseUntil h l - s.now) / 10 ^ 6) ++ toLe 2 l.dur ++ zeros 2 ++ toLe 4 l.exts.length ++ toLe 2 es.length ++ zeros 6
          ++ es.flatMap fun e => s.extRecord h e.1 e.2))

/-! ## Accounts (R75, R86) -/

/-- ACCOUNT_SET (Table 2-14). -/
def execAccountSet (x : Mbx) (s : State) : Outcome :=
  .next (s.command x .fm true 24 fun s =>
    let a := mb8 x 0
    let m := if mb8 x 1 = 0xFF then s.me else mb8 x 1
    let b := mb64 x 8
    let z := mb64 x 16
    if mb8 x 2 ≥ 2 ∨ leAt x.data 3 5 ≠ 0 ∨ b ≥ 2 ^ 40 ∨ z ≥ 2 ^ 40 then s.status x 9
    else if m = s.me then
      if s.granted_ a + z > b then s.status x 1
      else (s.branWatch a fun s => s.setAcct a { s.acct a with b := b, z := z, lossless := (mb8 x 2).testBit 0 }).okAfter x []
    else if m ≥ 64 ∨ !s.isLive m then s.status x 7
    else
      let s := s.copyTo m (.account a { b := b, z := z, lossless := (mb8 x 2).testBit 0, members := [], floor := 0, moved := 0 })
      s.drew.status x (if Config.peerAdmits s.draws then 0 else 1))

/-- A signed number as 64 bits. -/
def toLeI (v : Int) : Bytes := toLe 8 ((v % 2 ^ 64).toNat)

/-- Bran level (R81) and free budget (R82) of an account. -/
def State.branLevel (s : State) (a : Nat) : Int := if s.overage a ≤ 0 then ((s.acct a).z : Int) else (s.acct a).z - s.overage a
def State.freeBudget (s : State) (a : Nat) : Int :=
  let f : Int := (s.acct a).b - s.granted_ a - (s.acct a).z
  if s.overage a < 0 then f - s.overage a else f

/-- ACCOUNT_QUERY (Table 2-15); another module's figures are left open (log entry 15). -/
def execAccountQuery (x : Mbx) (s : State) : Outcome :=
  .next (s.command x .fm false 2 fun s =>
    let a := mb8 x 0
    let m := if mb8 x 1 = 0xFF then s.me else mb8 x 1
    let c := s.acct a
    if m = s.me then
      s.okOut x (toLe 1 (if c.lossless then 1 else 0) ++ toLe 1 (s.keySt a) ++ toLe 1 (s.keySt (256 + a)) ++ toLe 2 a ++ toLe 2 c.members.length
        ++ toLe 8 c.b ++ toLe 8 c.z ++ toLe 8 (s.granted_ a) ++ toLeI (s.overage a) ++ toLeI (s.branLevel a) ++ toLeI (s.freeBudget a)
        ++ toLe 8 (s.acctNear a))
    else if m ≥ 64 ∨ !s.isLive m then s.status x 7
    else s.drew.okOut x ((List.range 63).map fun i => Config.answerByte s.draws i))

/-- ACCOUNT_BIND (R86, R87): its checks, then the change of the member list, which every live member holds before the command completes; an op that is neither 1 nor 2 is refused with status 0x09. -/
def State.bindAcct (s : State) (x : Mbx) : State :=
  s.command x .fm true 16 fun s =>
    let op := mb8 x 1
    let a := mb8 x 0
    let h := mb16 x 2
    let c := s.acct a
    if (op ≠ 1 ∧ op ≠ 2) ∨ h ≥ 4096 ∨ leAt x.data 4 12 ≠ 0 then s.status x 9
    else
      let ms := if op = 1 then addNew c.members h else c.members.filter (· != h)
      if op = 1 ∧ !c.members.contains h ∧ (c.members.length ≥ 256 ∨ ((vals s.spc.accts).filter fun y => y.members.contains h).length ≥ 8) then
        s.status x 10
      else
        let out := zeros 3 ++ toLe 2 ms.length
        if ms = c.members then s.okAfter x out else ((s.setAcct a { c with members := ms }).copyAll s.peers (.members a ms)).okHeld x out

/-- ACCOUNT_BIND with op 1, add (R86). -/
def execAccountBindAdd (x : Mbx) (s : State) : Outcome := .next (s.bindAcct x)

/-- ACCOUNT_BIND with op 2, remove (R86, R87). -/
def execAccountBindRemove (x : Mbx) (s : State) : Outcome := .next (s.bindAcct x)

/-! ## Timers -/

/-- LEASE_QUARTER_LEFT (R85): once, when a quarter of the duration is left. -/
def execLeaseQuarterLeft (h : Nat) (s : State) : Outcome :=
  .next (if s.pwr.boot.isSome then s else match look s.spc.leases h with
    | some l =>
      match l.ld with
      | some d =>
        if l.st = .active ∧ !l.quarter ∧ (l.deadline - s.now) * 4 ≤ l.dur * 10 ^ 9 then
          (s.onSpc fun p => { p with leases := put p.leases h { l with quarter := true } }).edge 193 d
        else s
      | none => s
    | none => s)

/-- LEASE_TIMER_EXPIRE (R68, R70): the deadline has passed: GRACE, in which the token opens nothing (R67), and the drain starts. The record keeps the
token, since a lease that a reset finds in GRACE is recovered in ORPHAN for its holder to attach (R73). No lease ends while the module boots. -/
def execLeaseTimerExpire (h : Nat) (s : State) : Outcome :=
  .next (if s.pwr.boot.isSome then s else match look s.spc.leases h with
    | some l =>
      if (l.st = .active ∨ l.st = .orphan) ∧ s.now ≥ l.deadline then
        let g := s.now + 5 * 10 ^ 9
        let s := s.setLease h (some { l with st := .grace, graceEnd := g })
        let s := (s.intr 0x300028 0).postFor l.ld.toList 0x0303 []
        let s := s.onSpc fun p => { p with drains := p.drains.filter fun d => d.handle != h }
        s.startDrain h l ((l.exts.map Prod.fst).eraseDups) g true
      else s
    | none => s)

/-- LEASE_GRACE_EXPIRE (R68): 5 s of GRACE have passed; requests still outstanding end as when a drain's bound expires. -/
def execLeaseGraceExpire (h : Nat) (s : State) : Outcome :=
  .next (if s.pwr.boot.isSome then s else match look s.spc.leases h with
    | some l =>
      if l.st = .grace ∧ s.now ≥ l.graceEnd then
        let s := s.each (s.spc.drains.filter fun d => d.handle == h) fun s d => s.stragglers d
        s.closeLease h
      else s
    | none => s)

/-- Is a lease in GRACE, which closes at the end of its grace and not with its drain? -/
def State.inGrace (s : State) (h : Nat) : Bool := (look s.spc.leases h).any fun l => l.st == .grace

/-- No request of a drain's LD is outstanding in its extents. -/
def State.drained (s : State) (d : Drain) : Bool := match d.ld with
  | some ld => (s.inFlight ld d.exts).isEmpty
  | none => true

/-- LEASE_DRAIN_END (R68, R69): a drain of the lease has no request left. -/
def execLeaseDrainEnd (h : Nat) (s : State) : Outcome :=
  .next (if s.inGrace h then s else
    match s.spc.drains.find? (fun d => d.handle == h && s.drained d) with
    | some d => s.endDrain d
    | none => s)

/-- DRAIN_BOUND_EXPIRE (R68): the bound of a drain of the lease has passed. -/
def execDrainBoundExpire (h : Nat) (s : State) : Outcome :=
  .next (if s.inGrace h then s else
    match s.spc.drains.find? (fun d => d.handle == h && decide (d.bound ≤ s.now)) with
    | some d => (s.stragglers d).endDrain d
    | none => s)

end Sys2Proof.Machine
end

