-- ==== Sys2Proof/Machine/Pages.lean ====
section
/-! DEFINITION. Whole pages in decoded form, as modules and engines copy them (spec/13_security.md R424): reading all 64 lines of a page at
its home, and storing a copied page as a husk under the module's own key slot. -/

namespace Sys2Proof.Machine

open Sys2Proof

/-- A grain of a page's far husk, decoded. -/
def State.farGrain (s : State) (page : Nat) (p : Pme) (g : Nat) : GrainRes :=
  let b := s.farBytes page p.far p.len
  let x := Glume.parse (b.take 64)
  s.decodeGrain page x g ((b.drop (64 + 16 * x.startOf g)).take (16 * (x.endOf g - x.startOf g))) true 0

/-- Stored line j of a page, whichever copy it has: bytes and syndrome. -/
def State.storedData (s : State) (page j : Nat) : Bytes × Nat :=
  let p := s.pmeOf page
  let fin (r : GrainRes) : Bytes × Nat := match r with
    | .ok d _ _ => ((d.drop (64 * (j % 4))).take 64, 0)
    | .bad y _ => (zeros 64, y)
  match p.st with
  | .unwritten => (zeros 64, 0)
  | .virt => (zeros 64, 0)
  | .poisoned => (zeros 64, s.pageSynd page)
  | _ =>
    if hasNear p && p.st != .promoting then
      if s.isPlain p then
        match s.plainLine page p j with
        | .ok d _ _ => (d, 0)
        | .bad y _ => (zeros 64, y)
      else fin (s.nearGrain page p (j / 4) true)
    else fin (s.farGrain page p (j / 4))

/-- Line j of a page as a reader at its home would get it: slot bytes over the stored line. -/
def State.lineData (s : State) (page j : Nat) : Bytes × Nat :=
  let (m, d) := s.slotLine page j
  if m = fullMask then (d, 0)
  else match s.plistLine (page * 64 + j) with
  | some y => (zeros 64, y)
  | none =>
    match s.storedData page j with
    | (b, 0) => (mergeBytes m d b, 0)
    | r => r

/-- The 64 lines of a page. -/
def State.pageData (s : State) (page : Nat) : List (Bytes × Nat) := (List.range 64).map fun j => s.lineData page j

/-- The lines of a page that read as poison. -/
def poisonOf (l : List (Bytes × Nat)) : List (Nat × Nat) :=
  (List.range 64).filterMap fun j => match l[j]? with
    | some (_, 0) => none
    | some (_, y) => some (j, y)
    | none => none

/-- A page as a COPY body: an unwritten page as its map entry alone, a poisoned page with its syndrome. -/
def State.pageBody (s : State) (page : Nat) : CopyBody :=
  let p := s.pmeOf page
  let written := (s.slotsOf page).any fun x => !x.lines.isEmpty
  if !written && (p.st == .unwritten || p.st == .virt) then .page page .unwritten p.seq 0 [] []
  else if !written && p.st == .poisoned then .page page .poisoned p.seq (s.pageSynd page) [] []
  else
    let l := s.pageData page
    .page page .near p.seq 0 (l.flatMap Prod.fst) (poisonOf l)

/-- Full lines of a page's bytes. -/
def fullLines (d : Bytes) : FMap SLine :=
  (List.range 64).map fun j => (j, { mask := fullMask, data := fit 64 (d.drop (64 * j)), hmask := 0, hdata := [] })

/-- Store the decoded bytes of a page as its husk, encoded in its extent's class under this module's key slot, with its poisoned lines: false
when no chunks are free or the lanes have no room. A materialised V-LR page is not kept in the far tier (R146). -/
def State.storePage (s : State) (page seq : Nat) (d : Bytes) (poison : List (Nat × Nat)) : State × Bool :=
  match s.extent page with
  | none => (s, true)
  | some xt =>
    let s := (s.pmeOf page).st == .poisoned |> fun b => if b then s.clearPage page else s
    let e := s.encOf xt
    let (h, ins) := s.buildHusk page (s.pmeOf page) .zero e (fullLines d) seq
    let (t, ok) := match s.recodeLanes .zero e h ins with
      | some s => s.storeHusk page h 0 (xt.durable && xt.cls != 12)
      | none => (s, false)
    if !ok then (t, false)
    else
      let s := (t.noteHusk h).plistDrop fun p => poisonPage p == page
      (s.each poison fun s q => s.poisonLine (page * 64 + q.1) q.2 false, true)

/-- Take a page copied from another module. -/
def State.takePage (s : State) (page : Nat) (st : PState) (seq synd : Nat) (d : Bytes) (poison : List (Nat × Nat)) : State × Bool :=
  match st with
  | .unwritten => (s.unwrite page, true)
  | .poisoned =>
    let s := s.unwrite page
    ((s.setPme page { s.freshPme page with st := .poisoned, seq := seq } false).poisonPageEntry page synd, true)
  | _ => s.storePage page seq d poison

end Sys2Proof.Machine
end

