-- ==== Sys2Proof/Machine/Respread.lean ====
section
/-! DEFINITION. Re-spreading an extent (spec/02_memory_space.md R88 to R91): the command, the moves of a slot's pages from the old member to
the new one, and the switch of the portals. -/

namespace Sys2Proof.Machine

open Sys2Proof

/-- Charge per page of an extent. -/
def perPage (x : Extent) : Nat := chargeOf x.cls x.elem (bxK x.bxk) x.d

/-- Pages of one slot of a spread set. -/
def slotPages (x : Extent) : Nat := 2 ^ 18 / x.spread.length

/-- The charge of an extent to this module while a re-spread may run: the new member, and its twin for a mirrored extent, are charged the
whole slot from the start, and the old ones no longer for the pages moved (R77, R78, R88, R89). -/
def State.chargeNow (s : State) (e : Nat) (x : Extent) : Nat :=
  let base := chargeAt e x s.me
  match x.respread with
  | none => base
  | some q =>
    let here (m : Nat) : Nat := (if m = s.me then 1 else 0) + (if x.prot = 2 ∧ twinOf m = s.me then 1 else 0)
    base + perPage x * slotPages x * here q.new - perPage x * q.moved.length * here q.old

/-- Record an extent with the charge it places here. -/
def State.putExtent (s : State) (e : Nat) (x : Extent) : State := s.setExtent e (some { x with charge := s.chargeNow e x })

/-- Does the new member, when it is this module, admit a slot? Another module's answer is left open (log entry 15). -/
def State.admitsSlot (s : State) (m : Nat) (x : Extent) (map : Nat) : Bool :=
  if m = s.me then s.admits x.acct (perPage x * slotPages x) && decide (s.mapUsed + map ≤ s.mapCap)
  else Config.peerAdmits (s.draws + m)

/-- Status with which a new member refuses a slot's charge: budget or pool, or its key slot, when another module decides; which one is left open. -/
def State.slotStatus (s : State) (m : Nat) : Nat := ([1, 0x80, 0x81][Config.peerAnswer (s.draws + 64 + m) % 3]?).getD 1

/-- Decide an EXTENT_RESPREAD (R88), the record of the extent being known; an extent that nobody knows is not spread. A mirrored extent whose new
member has no live twin is refused with 0x01: that twin does not admit the mirror charge (DESIGN CHOICE, log entry 98). -/
def State.respreadNow (s : State) (x : Mbx) : State :=
    let e := mb32 x 0
    let old := mb8 x 4
    let new := mb8 x 5
    match look s.spc.extents e with
    | none => s.status x (if homeOf e = s.me || s.isLive (homeOf e) then 3 else 7)
    | some xt =>
      if xt.spread.isEmpty ∨ !xt.spread.contains old ∨ xt.spread.contains new ∨ xt.respread.isSome then s.status x 3
      else if old ≥ 64 ∨ new ≥ 64 ∨ !s.isLive old ∨ !s.isLive new then s.status x 7
      else if !s.admitsSlot new xt (slotPages xt) ∨ (xt.prot = 2 ∧ (!s.isLive (twinOf new) ∨ !s.admitsSlot (twinOf new) xt 0)) then
        s.status x (if new = s.me ∨ s.admitsSlot new xt (slotPages xt) then 1 else s.slotStatus new)
      else
        let here := new == s.me || (xt.prot == 2 && twinOf new == s.me)
        match (if here then s.keyRefuses (keySlotOf xt) else none) with
        | some st => s.status x st
        | none =>
          let s := { s with draws := s.draws + 128 }
          let s := if here then s.needKey (keySlotOf xt) else s
          let xt := { xt with respread := some ⟨xt.spread.idxOf old, old, new, [], false⟩ }
          let s := (s.putExtent e xt).copyAll s.peers (.extent e (some xt))
          let s := s.onSpc fun p => { p with respreadBg := put p.respreadBg e (mbWho x) }
          (s.post 0x030D [(4, e), (1, old), (1, new)]).startBg x 0xC00A

/-- Decide an EXTENT_RESPREAD; `asked` names the extents asked for already; the record of an extent homed elsewhere may still be asked for. -/
def State.respreadCmd (s : State) (x : Mbx) (asked : List Nat) : State :=
  if mb32 x 0 ≥ 2 ^ 20 ∨ leAt x.data 6 10 ≠ 0 then s.status x 9
  else s.bgCommand x fun s => s.withExts askRespread x asked [mb32 x 0] fun s => s.respreadNow x

/-- EXTENT_RESPREAD (R88). -/
def execExtentRespread (x : Mbx) (s : State) : Outcome := .next (s.command x .fm true 16 fun s => s.respreadCmd x [])

/-- The k-th page index of a slot of an extent, ascending: each group of n consecutive pages holds one (R50, R51). -/
def slotPage (e slot n k : Nat) : Nat := ((List.range n).map (· + k * n)).find? (fun p => spreadSlot e p n == slot) |>.getD 0

/-- The re-spread that moves a page away from this module now: both members live (R91), the page the next of its slot. -/
def State.respreadNext (s : State) (e page : Nat) : Option (Extent × Respread) :=
  match look s.spc.extents e with
  | none => none
  | some x =>
    match x.respread with
    | none => none
    | some q =>
      if q.old = s.me ∧ !q.done ∧ extOf page = e ∧ s.isLive q.old ∧ s.isLive q.new ∧
          pageIdx page = slotPage e q.slot x.spread.length q.moved.length then some (x, q) else none

/-- Snoop every tracked line of a page, by blocks of 4 lines (R89 step 2). -/
def State.snoopPage (s : State) (page : Nat) : State :=
  let ls := s.dirLines.filter fun l => l.1 / 64 == page && l.2.st != 3
  let ts := ls.map fun l => (l.1, s.snoopTargets l.1 l.2 4096, l.2.st == 2)
  let s := s.each ts fun s t =>
    (s.dirPend t.1).onDir fun d => { d with trk := d.trk ++ [⟨t.1, none, t.2.1, [], s.now, .inv, false, t.2.2⟩] }
  s.each ((List.range 16).flatMap fun g => ((ts.filter fun t => t.1 % 64 / 4 == g).flatMap fun t => t.2.1).eraseDups.map fun h => (g, h))
    fun s q => s.sendSnoop .inv (page * 64 + 4 * q.1) 4 q.2

/-- RESPREAD_PAGE_MOVE (R89 steps 1 to 3): the page's token is taken; once no slot of the page is in use its tracked lines are snooped, and once none of
them is left its contents go to the new member. -/
def execRespreadPageMove (e page : Nat) (s : State) : Outcome :=
  .next (
    match s.respreadNext e page with
    | none => s
    | some (_, q) =>
      let go (s : State) (m : Move) : State :=
        if m.issued ∨ !s.pageSnooped page then s
        else (s.copyTo q.new (s.pageBody page)).setMove page (some { m with issued := true })
      match s.move page with
      | some m =>
        if m.kind ≠ 3 then s
        else if !m.waitSpace then go s m
        else if !(s.slotsOf page).isEmpty then s
        else
          let m : Move := { m with waitSpace := false }
          go ((s.setMove page (some m)).snoopPage page) m
      | none =>
        let m := Move.mk0 3 7 s.now
        if !(s.slotsOf page).isEmpty then s.setMove page (some { m with waitSpace := true })
        else go ((s.setMove page (some m)).snoopPage page) m)

/-- The last page of a slot has moved: every live member gets the new spread set (R90). -/
def State.respreadSend (s : State) (e : Nat) : State :=
  match look s.spc.extents e with
  | some x =>
    match x.respread with
    | some q =>
      if q.moved.length < slotPages x then s
      else
        let x := { x with respread := some { q with done := true } }
        (s.putExtent e x).copyAll s.peers (.extent e (some { x with respread := some { q with done := true, moved := [] } }))
    | none => s
  | none => s

/-- This module's twin releases its mirror copy of a page that has moved away: it takes the page as unwritten, by a copy that is newer (R89 step 5). -/
def State.dropMirror (s : State) (page : Nat) (x : Extent) (seq : Nat) : State :=
  if x.prot = 2 && s.twinLive then s.copyTo (twinOf s.me) (.page page .unwritten (nextSeq seq) 0 [] []) else s

/-- RESPREAD_PAGE_MOVED (R89 steps 4 and 5): the new member, and its twin for a mirrored extent, hold the page. -/
def execRespreadPageMoved (e page : Nat) (s : State) : Outcome :=
  .next (
    match s.respreadNext e page, s.move page with
    | some (x, q), some m =>
      if m.kind ≠ 3 ∨ !m.issued then s
      else
        let s := (s.dropMirror page x (s.pmeOf page).seq).unwrite page
        let s := s.putExtent e { x with respread := some { q with moved := q.moved ++ [pageIdx page] } }
        ((s.wakePage page .respread).respreadSend e).retryMoves
    | _, _ => s)

/-- The old or the new member of a re-spread left: a move that runs here is given up, to restart at step 1 when both are live again; the requests that it
held are served (R91). -/
def State.respreadPause (s : State) (m : Nat) : State :=
  s.each (s.tier.moves.filter fun e => e.2.kind == 3 && (s.respreadOf e.1).any fun q => q.new == m) fun s e =>
    (s.setMove e.1 none).wakePage e.1 .respread

/-- Is the request one of this portal or of its own engines? -/
def Req.own (r : Req) : Bool := match r.src with
  | .peer _ _ => false
  | _ => true

/-- Is a request of this portal for an extent outstanding at the old member of its re-spread? -/
def State.atOld (s : State) (e : Nat) (x : Extent) (q : Respread) (r : Req) : Bool :=
  extOf r.page == e && r.own && (waitsFor (.remote q.old) r || (q.old == s.me && spreadSlot e (pageIdx r.page) x.spread.length == q.slot))

/-- RESPREAD_PORTAL_SWITCH (R90): with no request for the extent outstanding at the old member, this portal sends the slot's requests to the new
member. The command completes with the switch of the module that runs it, which does not see those of the other portals (DESIGN CHOICE, log
entry 98). -/
def execRespreadPortalSwitch (e : Nat) (s : State) : Outcome :=
  .next (
    match look s.spc.extents e with
    | none => s
    | some x =>
      match x.respread with
      | none => s
      | some q =>
        if !q.done ∨ s.reqs.any (s.atOld e x q) then s
        else
          let s := s.putExtent e { x with spread := x.spread.set q.slot q.new, respread := none }
          match look s.spc.respreadBg e with
          | none => s
          | some who =>
            let s := s.onSpc fun p => { p with respreadBg := del p.respreadBg e }
            let n := slotPages x
            (s.endBg who rcSuccess (zeros 4 ++ toLe 4 n)).post 0x030E [(4, e), (4, n)])

end Sys2Proof.Machine
end

