-- ==== Sys2Proof/Machine/DirCmd.lean ====
section
/-! DEFINITION. Commands of the coherence directory (spec/03_coherence.md): waits that end, holders that do not answer, sweeps, host snoop
responses, version flips and their old extents, DIR_QUERY. -/

namespace Sys2Proof.Machine

open Sys2Proof

/-- DIRECTORY_WAIT_END (R98, R106): a request that waited for a tracker, a way or the victim buffer proceeds once it can. -/
def execDirectoryWaitEnd (r : Nat) (s : State) : Outcome :=
  .next (match s.req r with
    | none => s
    | some q =>
      if !waitsFor .dir q then s
      else
        let s' := s.serve r
        if (s'.req r).any fun q => waitsFor .dir q then s else s')

/-! ## A holder that does not answer (chapter 3) -/

/-- Revoke extents from the leases of a holder of this module, as LEASE_REVOKE does. -/
def State.revokeHolder (s : State) (holder : Nat) (es : List Nat) : State :=
  s.each (s.spc.leases.filter fun l => l.2.ld == some (holderLd holder) && l.2.st == .active) fun s l =>
    let hit := ((l.2.exts.map Prod.fst).eraseDups).filter fun e => es.contains e
    if hit.isEmpty then s else s.revoke l.1 l.2 hit 0

/-- Every answer that a tracker waits for from a holder counts as BIRspI without data. A line that the holder held exclusive is owner lost:
its entry is freed and the waiting read returns poison. -/
def State.giveUp (s : State) (holder : Nat) (t : Trk) : State :=
  let t' : Trk := { t with owed := t.owed.filter (· != holder) }
  if t.excl then
    let s := s.onDir fun d => { d with trk := replaceFirst (· == t) (fun _ => t') d.trk }
    let s := s.ownerLost t.line holder
    match t.req.bind s.req with
    | some r =>
      if r.op = ROp.rd then
        let s := s.onDir fun d => { d with trk := removeFirst (· == t') d.trk }
        let s := (s.modReq r.id fun q => { q with stored := true, waits := [] }).serve r.id
        s.wake fun q => q.line == t.line && (waitsFor .snoop q || waitsFor .order q)
      else s.trkDone t'
    | none => if t'.owed.isEmpty then s.trkDone t' else s
  else s.snoopAnswer t.line holder .i

/-- SNOOP_TIMEOUT (chapter 3, case 'When a holder does not answer a snoop'). A holder that carries the mark already is given up again, without
another event or revocation. -/
def execSnoopTimeout (holder : Nat) (s : State) : Outcome :=
  .next (
    let owing := s.dir.trk.filter fun t => t.owed.contains holder
    if !owing.any (fun t => decide (t.t0 + 50000000 ≤ s.now)) then s
    else
      let first := !s.dir.unresp.contains holder
      let mine := s.dirLines.filter fun l => l.2.form == 0 && l.2.st != 3 && (ptrs l.2).contains holder
      let es := ((mine.map Prod.fst ++ owing.map Trk.line).map fun l => l / 2 ^ 24).eraseDups
      let s := if first then ((s.intr 0x400028 1).postFor (s.ldsOfHolder holder) 0x0401 [(2, holder)]).lostCap holder 0 else s
      let s := s.each owing fun s t => (s.respond holder).giveUp holder t
      let s := s.onDir fun d => { d with unresp := addNew d.unresp holder }
      let s := s.each mine fun s l => if l.2.st = 2 then s.ownerLost l.1 holder else s.dirPutOpt l.1 (dropHolder l.2 holder)
      if !first then s
      else if holderMod holder = s.me then s.revokeHolder holder es
      else if s.isLive (holderMod holder) then s.copyTo (holderMod holder) (.revokeHolder holder es) else s)

/-- The marked pages homed here in which the directory holds no entry. -/
def State.markless (s : State) : List Nat :=
  s.hdg.heldMarks.filter fun p => s.homes p && (List.range 64).all fun j => (s.dirEnt (p * 64 + j)).isNone

/-- The held-page marks of pages in which a sweep found no holder are cleared and journalled (R331). -/
def State.clearMarks (s : State) : State :=
  s.each s.markless fun s p => (s.onHdg fun h => { h with heldMarks := h.heldMarks.filter (· != p) }).toTwin (.held p false) false

/-- HOLDER_SWEEP_DONE (R110, R331). -/
def execHolderSweepDone (s : State) : Outcome :=
  .next (if !s.dir.sweepBusy then s
    else (((s.onDir fun d => { d with sweepBusy := false }).clearMarks).intr 0x400028 2).post 0x0404 [])

/-! ## Host snoop responses (R99, R103) -/

/-- State a BIRsp carries in META (log entry 24). -/
def rspCode : SnpRsp → Nat
  | .i => 0
  | .s => 1
  | .e => 2
def rspOf (n : Nat) : SnpRsp := if n = 0 then .i else if n = 1 then .s else .e

/-- HOST_BIRSP (R99, R103): for each line, with the write-back of the first when it comes with the response: to the home that sent the
snoop, or applied here. -/
def execHostBirsp (ld : Fin 64) (line : Nat) (lines : Nat) (rsp : SnpRsp) (wb : Option Bytes) (s : State) : Outcome :=
  .next (
    if !s.portUp (ld / 16) then s
    else s.each (List.range lines) fun s i =>
      let l := line + i
      let h := s.holderOf ld
      let data := if i = 0 then wb else none
      match s.dir.owed.find? (fun o => o.1 == ld.val && o.2.1 == l) with
      | some o =>
        let s := match data with
          | some d => s.send .wbk o.2.2.1 0 h o.2.2.2 0 0 (l * 64) (fit 64 d)
          | none => s
        let s := s.send .birsp o.2.2.1 0 h o.2.2.2 (rspCode rsp) 0 (l * 64) []
        s.onDir fun d => { d with owed := removeFirst (· == o) d.owed }
      | none =>
        let s := match data with
          | some d => if s.owes l h then s.storeWbk l (fit 64 d) else s.bump cntDir 5 1
          | none => s
        s.snoopAnswer l h rsp)

/-! ## Flips (R112 to R115) -/

/-- Rebind a V-LR factor address after a flip. -/
def flipAddr (pairs : List (Nat × Nat)) (a : Nat) : Nat := match pairs.find? (fun p => p.1 == a / 2 ^ 30) with
  | some p => p.2 * 2 ^ 30 + a % 2 ^ 30
  | none => a

/-- Switch every hedge slot and lease of this module from old to new extents, rebind V-LR extents and discard their materialised pages. -/
def State.flip (s : State) (pairs : List (Nat × Nat)) : State :=
  let newOf (e : Nat) : Nat := match pairs.find? (fun p => p.1 == e) with
    | some p => p.2
    | none => e
  let s := s.onSpc fun p => { p with slots := p.slots.map fun w => (w.1, w.2.map fun q => (q.1, newOf q.2)) }
  let s := s.each (s.spc.leases.filter fun l => l.2.exts.any fun e => newOf e.1 != e.1) fun s l =>
    s.setLease l.1 (some { l.2 with exts := l.2.exts.map fun e => (newOf e.1, e.2) })
  let s := s.each pairs fun s p =>
    match look s.spc.extents p.1, look s.spc.extents p.2 with
    | some o, n =>
      let s := s.setExtent p.1 (some { o with serving := false, namers := [] })
      let s := if homeOf p.1 = s.me then s.onSpc fun q => { q with flipLeft := put q.flipLeft p.1 (addNew s.peers s.me) } else s
      match n with
      | some n => s.setExtent p.2 (some { n with namers := o.namers.foldl addNew n.namers })
      | none => s
    | none, _ => s
  s.each s.spc.extents fun s e =>
    match e.2.vlr with
    | none => s
    | some v =>
      let v' : Vlr := { v with u := flipAddr pairs v.u, v := flipAddr pairs v.v }
      if v' = v then s
      else
        let waiting := s.tlr.expq ++ vals s.tlr.expanding
        let s := (s.discardVlr e.1).setExtent e.1 (some { e.2 with vlr := some v' })
        -- reads that wait on a page are served from its new expansion
        s.each (waiting.filter fun p => extOf p == e.1) fun s p => s.wantExpansion p

/-- May one published extent take the place of another: both serve, of one account, class and element (R112)? -/
def State.flipPair (s : State) (p : Nat × Nat) : Bool :=
  match look s.spc.extents p.1, look s.spc.extents p.2 with
  | some o, some w => o.kind == .published && w.kind == .published && o.acct == w.acct && o.cls == w.cls && o.elem == w.elem
      && o.serving && w.serving && p.1 != p.2
  | _, _ => false

/-- PUB_FLIP (R112): every portal switches, with the records of the new extents at hand, before the command completes. -/
def execPubFlip (x : Mbx) (s : State) : Outcome :=
  .next (s.command x .any false 8 fun s =>
    let n := mb16 x 0
    if x.data.length < 8 + 8 * n then s.reply x rcInvalidInput []
    else if n = 0 ∨ n > 4096 then s.status x 9
    else
      let pairs := (List.range n).map fun i => (mb32 x (8 + 8 * i), mb32 x (12 + 8 * i))
      let acct := (look s.spc.extents (pairs.headD (0, 0)).1).elim 0 fun o => o.acct
      let may (e : Nat) : Bool := s.spc.leases.any fun l => l.2.ld == some (mbWho x) && l.2.st == .active && l.2.rights.testBit 2
        && l.2.exts.any fun q => q.1 == e
      if !mbFm x ∧ !pairs.all (fun p => may p.1) then s.status x 8
      else if !s.formedOrBench ∨ (!s.hdg.bench ∧ !s.hdg.quorum) then s.status x 7
      else if !pairs.all s.flipPair ∨ !pairs.all (fun p => (look s.spc.extents p.1).any fun o => o.acct == acct)
          ∨ (pairs.map Prod.fst).eraseDups.length ≠ n ∨ (pairs.map Prod.snd).any (fun e => (pairs.map Prod.fst).contains e) then s.status x 3
      else
        let recs := (pairs.map Prod.snd).filterMap fun e => (look s.spc.extents e).map fun n => (e, n)
        let s := (s.flip pairs).copyAll s.peers (.flip pairs recs)
        (if s.peers.isEmpty then s.flipEnd else s).replyHeld true (.mbox (mbWho x) rcSuccess [0]))

/-- A module has no request outstanding on an extent that a flip replaced: the home reclaims it once none has (R113). -/
def State.flipDrained (s : State) (e m : Nat) : State :=
  match look s.spc.flipLeft e with
  | none => s
  | some l =>
    let l := l.filter (· != m)
    if l.isEmpty then (s.onSpc fun p => { p with flipLeft := del p.flipLeft e }).reclaim e
    else s.onSpc fun p => { p with flipLeft := put p.flipLeft e l }

/-- PUB_OLD_RECLAIM (R113): an extent that a flip replaced is reclaimed once the requests accepted against it have completed: each module tells the home
when it has none left, and the home reclaims the extent everywhere. -/
def execPubOldReclaim (e : Nat) (s : State) : Outcome :=
  .next (match look s.spc.extents e with
    | some x =>
      if x.serving ∨ s.reqs.any (fun r => extOf r.page == e) then s
      else if homeOf e = s.me then s.flipDrained e s.me
      else if s.isLive (homeOf e) then s.copyTo (homeOf e) (.drained e) else s
    | none => s)

/-- DIR_QUERY (R115): the entry of a line homed here; that of a line homed elsewhere is left open (log entry 15). -/
def execDirQuery (x : Mbx) (s : State) : Outcome :=
  .next (s.command x .fm false 8 fun s =>
    let l := mb64 x 0
    if l ≥ 2 ^ 44 then s.status x 9
    else if s.homes (l / 64) then s.okOut x (zeros 7 ++ toLe 8 ((s.dirEnt l).elim 0 entBits))
    else if s.isLive (s.pageHome (l / 64)) then s.drew.okOut x (zeros 7 ++ toLe 8 (Config.peerAnswer s.draws % 2 ^ 64))
    else s.status x 7)

end Sys2Proof.Machine
end

