-- ==== Sys2Proof/Machine/Esu.lean ====
section
/-! DEFINITION. The event steering unit (spec/14_event_steering.md R439 to R458): sources, coalescing, delivery, claims and
completions, MSI-X, and the part of an LD reset that it carries out. -/

namespace Sys2Proof.Machine

open Sys2Proof

/-! ## Sources -/

/-- The directed sources, which are the edge sources (R440, R446). -/
def directed (n : Nat) : Bool := n == 193 || n == 194 || n == 705 || n == 865 || decide (385 ≤ n ∧ n ≤ 416)

/-- Is a status register's enabled bit set? The status is at `off`, its enable register at `off + 8`. -/
def State.line (s : State) (off : Nat) : Bool := s.reg off &&& s.reg (off + 8) != 0

/-- The input of a level source (R85, R116, R167, R203, R224, R300, R340, R359, R389, R420, R438, R458, R474, R493, R519). -/
def State.level (s : State) (n : Nat) : Bool :=
  if n = 64 then s.line 0x100028
  else if n = 128 then s.line 0x200028
  else if n = 192 then s.line 0x300028
  else if n = 256 then s.line 0x400028
  else if n = 320 then s.line 0x500028
  else if n = 384 then s.line 0x600028
  else if n = 448 then s.line 0x700028
  else if 512 ≤ n ∧ n < 704 then
    (if n % 2 = 0 then match look s.tlr.tillers ((n - 512) / 2) with
      | some t => !t.sig.isEmpty
      | none => false
     else s.line (0x800028 + 0x4000 * ((n - 512) / 2)))
  else if n = 704 then s.line 0xA00028
  else if 768 ≤ n ∧ n < 864 then s.line (0xB00028 + 0x1000 * (n - 768))
  else if n = 864 then s.line 0xC00028
  else if n = 928 then s.line 0xD00028
  else if n = 992 then s.line 0xE00028
  else if n = 1000 then s.line 0xF00028
  else if n = 1008 then s.line 0x1000028
  else if n = 1016 then s.line 0x1100028
  else false

/-- Key of a source instance. -/
def srcKey (n ld : Nat) : Nat := n * 64 + (if directed n then ld else 0)

/-- No bit set. -/
def EsuBits.zero : EsuBits := ⟨false, false, false, false, false⟩

/-- Bits of an instance. -/
def State.srcBits (s : State) (n ld : Nat) : EsuBits := (look s.esu.srcs (srcKey n ld)).getD EsuBits.zero

/-- Write the bits of an instance. -/
def State.setBits (s : State) (n ld : Nat) (b : EsuBits) : State :=
  s.onEsu fun e => { e with srcs := put e.srcs (srcKey n ld) b }

/-- The control register of a source. -/
def State.srcCtl (s : State) (n : Nat) : Nat := s.reg (0xE02000 + 8 * n)

/-- EN, PRIO, GROUP, VEC and TARGET of a control value. -/
def ctlEn (v : Nat) : Bool := v.testBit 58
def ctlPrio (v : Nat) : Nat := bits v 51 48
def ctlGroup (v : Nat) : Nat := bits v 45 40
def ctlVec (v : Nat) : Nat := bits v 36 32
def ctlTarget (v : Nat) : Nat := bits v 6 0

/-- The target an instance is routed to (R444 to R446). -/
def State.targetOf (s : State) (n ld : Nat) : Nat := if directed n then 4 + ld else ctlTarget (s.srcCtl n)

/-- Threshold and stack of a target. -/
def State.thresh (s : State) (t : Nat) : Nat := (look s.esu.thresh t).getD 0
def State.stackOf (s : State) (t : Nat) : List (Nat × Nat) := (look s.esu.stack t).getD []

/-- Is an instance deliverable to its target (R447)? -/
def State.deliverable (s : State) (n ld : Nat) : Bool :=
  let b := s.srcBits n ld
  let c := s.srcCtl n
  let t := s.targetOf n ld
  b.pend && ctlEn c && b.rel && !b.active && decide (t ≤ 67) && decide (s.thresh t < ctlPrio c)
    && decide ((s.stackOf t).length < 16)

/-! ## Delivery (R448, R449) -/

/-- Send a vector of an LD, or hold it in the pending bit array while it is masked; nothing while MSI-X is disabled. -/
def State.msix (s : State) (ld vec : Nat) : State :=
  if !s.esu.msixEn.contains ld then s
  else if s.esu.msixFm.contains ld || !((look s.esu.msixUnmask ld).getD 0).testBit vec then
    s.onEsu fun e => { e with msixPend := put e.msixPend ld (((look e.msixPend ld).getD 0) ||| 2 ^ vec) }
  else s.emit (.msix ld vec)

/-- Is any source deliverable to a target? -/
def State.anyFor (s : State) (t : Nat) : Bool :=
  (keys s.esu.srcs).any fun k => s.targetOf (k / 64) (k % 64) == t && s.deliverable (k / 64) (k % 64)

/-- The request line of each management core follows whether a source is deliverable to its target (R448, R453). -/
def State.esuLines (s : State) : State :=
  s.each (List.range 4) fun s t =>
    let on := s.anyFor t
    if on = s.esu.lines.contains t then s
    else (s.onEsu fun e => { e with lines := if on then addNew e.lines t else e.lines.filter (· != t) }).emit (.line t on)

/-- Evaluate every instance: one message each time a source becomes deliverable to an LD target, and the cores' request lines. -/
def State.esuEval (s : State) : State :=
  State.esuLines <| s.each (keys s.esu.srcs) fun s k =>
    let n := k / 64
    let ld := k % 64
    let d := s.deliverable n ld
    let b := s.srcBits n ld
    if d = b.told then s
    else
      let s := s.setBits n ld { b with told := d }
      let t := s.targetOf n ld
      if d && decide (4 ≤ t) then s.msix (t - 4) (ctlVec (s.srcCtl n)) else s

/-- A group fires: every pending source of it is released, its count and timer reset (R451). -/
def State.esuFire (s : State) (g : Nat) : State :=
  let s := s.onEsu fun e => { e with grps := del e.grps g }
  s.each (keys s.esu.srcs) fun s k =>
    let n := k / 64
    let ld := k % 64
    let b := s.srcBits n ld
    if b.pend && ctlGroup (s.srcCtl n) == g then s.setBits n ld { b with rel := true } else s

/-- An arrival of a group's source (R451). -/
def State.esuArrival (s : State) (g : Nat) : State :=
  let (c, t) := (look s.esu.grps g).getD (0, s.now)
  let s := s.onEsu fun e => { e with grps := put e.grps g (c + 1, t) }
  if c + 1 ≥ s.fld (0xE01000 + 8 * g) 7 0 then s.esuFire g else s

/-- An instance becomes pending: released at once in group 0, an arrival of its group when enabled (R450, R451). -/
def State.esuPend (s : State) (n ld : Nat) : State :=
  let b := s.srcBits n ld
  let c := s.srcCtl n
  let g := ctlGroup c
  let s := s.setBits n ld { b with pend := true, rel := decide (g = 0) }
  if g ≠ 0 && ctlEn c then s.esuArrival g else s

/-! ## The rows of the unit -/

/-- Does a view reach a target window (chapter 14, below Table 14-4)? -/
def seesTarget (v : View) (t : Nat) : Bool :=
  match v with
  | .fm => true
  | .core => true
  | .ld m => t == 4 + m.val

/-- ESU_EDGE_ARRIVE (R441): the edge held in the latch is taken. Without an edge in the latch nothing happens. -/
def execEsuEdgeArrive (n : Fin 1024) (ld : Fin 64) (s : State) : Outcome :=
  .next (if s.esu.latch.contains (n.val, ld.val) then
    let s := s.onEsu fun e => { e with latch := removeFirst (· == (n.val, ld.val)) e.latch }
    if (s.srcBits n ld).pend then s.bump cntEsu 2 1 else (s.esuPend n ld).esuEval
  else s)

/-- Sample a level source (R442). -/
def State.esuSample (s : State) (n : Nat) : State :=
  let i := s.level n
  let b := s.srcBits n 0
  if i then
    let s := s.setBits n 0 { b with input := true }
    if b.active || b.pend then s else s.esuPend n 0
  else s.setBits n 0 { b with input := false, pend := false, rel := false }

/-- ESU_LEVEL_CHANGE (R442): a level source's input is sampled after it changed. -/
def execEsuLevelChange (n : Fin 1024) (s : State) : Outcome :=
  .next (if directed n || s.level n == (s.srcBits n 0).input then s else (s.esuSample n).esuEval)

/-- ESU_GROUP_TIMER_EXPIRE (R451). -/
def execEsuGroupTimerExpire (g : Fin 64) (s : State) : Outcome :=
  .next (match look s.esu.grps g with
    | some (_, t) =>
      if g.val ≠ 0 && decide (t + 1000 * s.fld (0xE01000 + 8 * g) 37 24 ≤ s.now) then (s.esuFire g).esuEval else s
    | none => s)

/-- The best deliverable source of a target: the highest priority, the lowest number among equals (R452). -/
def State.bestFor (s : State) (t : Nat) : Option Nat :=
  let cands := ((keys s.esu.srcs).filter fun k => s.targetOf (k / 64) (k % 64) == t && s.deliverable (k / 64) (k % 64)).map (· / 64)
  (argMin (fun n => (15 - ctlPrio (s.srcCtl n)) * 1024 + n) cands)

/-- ESU_CLAIM_READ (R452, R453): the value read is sent to the reader. -/
def execEsuClaimRead (view : View) (t : Fin 68) (s : State) : Outcome :=
  .next (if !s.viewOpen view then s else if !seesTarget view t then s.emit (.claim t 0)
  else if (s.stackOf t).length ≥ 16 then
    (((s.bump cntEsu 5 1).intr 0xE00028 2).post 0x0D03 [(1, t.val)]).emit (.claim t 0)
  else
    match s.bestFor t with
    | none => (((s.bump cntEsu 0 1).intr 0xE00028 0).post 0x0D01 [(1, t.val)]).emit (.claim t 0)
    | some n =>
      let ld := t.val - 4
      let b := s.srcBits n ld
      let s := s.setBits n ld { b with active := true, pend := false, rel := false }
      let s := s.onEsu fun e =>
        { e with stack := put e.stack t ((s.thresh t, n) :: s.stackOf t), thresh := put e.thresh t (ctlPrio (s.srcCtl n)) }
      ((s.bump cntEsu 3 1).esuEval).emit (.claim t n))

/-- ESU_COMPLETE_WRITE (R454, R455). -/
def execEsuCompleteWrite (view : View) (t : Fin 68) (v : Word) (s : State) : Outcome :=
  .next (if !s.viewOpen view || !seesTarget view t then s
  else
    let n := v.toNat % 1024
    let bad := ((s.bump cntEsu 1 1).intr 0xE00028 1).post 0x0D00 [(1, t.val), (2, n)]
    match s.stackOf t with
    | [] => bad
    | (th, top) :: rest =>
      if top ≠ n then bad
      else
        let ld := t.val - 4
        let b := s.srcBits n ld
        let s := s.setBits n ld { b with active := false }
        let s := s.onEsu fun e => { e with stack := put e.stack t rest, thresh := put e.thresh t th }
        (if directed n then s else s.esuSample n).esuEval)

/-- ESU_THRESH_WRITE (R456). -/
def execEsuThreshWrite (view : View) (t : Fin 68) (v : Word) (s : State) : Outcome :=
  .next (if s.viewOpen view && seesTarget view t then (s.onEsu fun e => { e with thresh := put e.thresh t (v.toNat % 16) }).esuEval else s)

/-- The writable bits of ESU_SRC. -/
def srcMask : Nat := 2 ^ 58 + 15 * 2 ^ 48 + 63 * 2 ^ 40 + 31 * 2 ^ 32 + 127

/-- A write of an ESU_SRC_n by the module's own views: the new control, and what it makes of pending sources. -/
def State.srcWritten (s : State) (n : Nat) (v : Word) : State :=
  let old := s.srcCtl n
  let new := v.toNat &&& srcMask
  let s := s.setReg (0xE02000 + 8 * n) new
  let s := s.each ((keys s.esu.srcs).filter fun k => k / 64 == n) fun s k =>
    let b := s.srcBits n (k % 64)
    let s := if ctlTarget old ≠ ctlTarget new ∧ ¬ directed n then s.setBits n (k % 64) { b with told := false } else s
    if !b.pend || b.rel then s
    else if ctlGroup new = 0 then s.setBits n (k % 64) { s.srcBits n (k % 64) with rel := true }
    else if ctlEn new && !ctlEn old then s.esuArrival (ctlGroup new) else s
  s.esuEval

/-- ESU_SRC_WRITE (R451): an LD's view holds the register read only. -/
def execEsuSrcWrite (view : View) (n : Fin 1024) (v : Word) (s : State) : Outcome :=
  .next (if !s.viewOpen view then s else match view with
  | .ld _ => s
  | _ => s.srcWritten n v)

/-- MSIX_VECTOR_UNMASK (R449): a write of an LD's MSI-X Enable, Function Mask and vector mask bits (1 masked). -/
def execMsixVectorUnmask (ld : Fin 64) (en : Bool) (fmask : Bool) (vmask : BitVec 32) (s : State) : Outcome :=
  .next (
    let was := s.esu.msixEn.contains ld
    let s := s.onEsu fun e =>
      { e with msixEn := if en then addNew e.msixEn ld else e.msixEn.filter (· != ld.val),
               msixFm := if fmask then addNew e.msixFm ld else e.msixFm.filter (· != ld.val),
               msixUnmask := put e.msixUnmask ld (2 ^ 32 - 1 - vmask.toNat) }
    let s := if en && !was then
        s.each ((keys s.esu.srcs).filter fun k => s.targetOf (k / 64) (k % 64) == 4 + ld.val && s.deliverable (k / 64) (k % 64))
          fun s k => s.msix ld (ctlVec (s.srcCtl (k / 64)))
      else s
    let pend := (look s.esu.msixPend ld).getD 0
    if en && !fmask then
      let go := (List.range 32).filter fun v => pend.testBit v && !vmask.getLsbD v
      let s := s.onEsu fun e => { e with msixPend := put e.msixPend ld (pend &&& vmask.toNat) }
      s.each go fun s v => s.emit (.msix ld v)
    else s)

/-! ## Reset of an LD (Table 14-3, steps 1 and 6) -/

/-- Step 1: pending and active bits of the sources routed to the LD's target are cleared and counted, the stack emptied, the
threshold zeroed. -/
def State.esuResetLd (s : State) (m : Nat) : State :=
  let t := 4 + m
  let ks := (keys s.esu.srcs).filter fun k => s.targetOf (k / 64) (k % 64) == t
  let n := sumOf ks fun k => let b := s.srcBits (k / 64) (k % 64); (if b.pend then 1 else 0) + (if b.active then 1 else 0)
  let s := s.each ks fun s k => s.setBits (k / 64) (k % 64) { s.srcBits (k / 64) (k % 64) with pend := false, active := false, rel := false, told := false }
  let s := s.onEsu fun e =>
    { e with stack := del e.stack t, thresh := del e.thresh t, latch := e.latch.filter fun p => p.2 != m }
  (s.bump cntEsu 4 n).postFor [m] 0x0D02 [(1, m), (4, n)]

/-- Step 6: level sources routed to the target are sampled again. -/
def State.esuResample (s : State) (m : Nat) : State :=
  (s.each ((List.range 1024).filter fun n => !directed n && s.targetOf n 0 == 4 + m) fun s n =>
    s.esuSample n).esuEval

end Sys2Proof.Machine
end

