-- ==== Sys2Proof/Machine/Operands.lean ====
section
/-! DEFINITION. Operand forms of the Ralath instructions (spec/07_ralath_isa.md): the five word formats (Tables 7-3 to 7-7), the registers of
a context, condition codes (Table 7-9), element types (Table 7-10) and the elements of vector registers, scratch bytes, sheaf images. -/

namespace Sys2Proof.Machine

open Sys2Proof

/-! ## Fields of an instruction word (R229) -/

/-- Bits hi down to lo of a word. -/
def wf (w : Word) (hi lo : Nat) : Nat := bits w.toNat hi lo

/-- The major opcode. -/
def majorOf (w : Word) : Nat := wf w 63 58

/-- Guard fields PG and PN of formats S, V, X and C. -/
def pgOf (w : Word) : Nat := wf w 57 55
def pnOf (w : Word) : Bool := w.toNat.testBit 54

/-- A sign-extended 32-bit immediate, as an integer and as 64 bits. -/
def imm32 (w : Word) : Int := sext 32 (wf w 31 0)
def imm64 (w : Word) : BitVec 64 := BitVec.ofInt 64 (imm32 w)

/-! ## Registers (R225) -/

/-- Register s[n]; s0 reads as zero. -/
def Ctx.sreg (x : Ctx) (n : Nat) : BitVec 64 := if n = 0 then 0 else (x.s[n]?).getD 0

/-- Write s[n]; a write to s0 is discarded. -/
def Ctx.setS (x : Ctx) (n : Nat) (v : BitVec 64) : Ctx := if n = 0 then x else { x with s := x.s.set n v }

/-- Register a[n]. -/
def Ctx.areg (x : Ctx) (n : Nat) : BitVec 64 := (x.a[n]?).getD 0
def Ctx.setA (x : Ctx) (n : Nat) (v : BitVec 64) : Ctx := { x with a := x.a.set n v }

/-- Predicate p[n]; p0 reads as all ones. -/
def Ctx.pred (x : Ctx) (n : Nat) : BitVec 512 := if n = 0 then BitVec.allOnes 512 else (x.p[n]?).getD 0

/-- Write p[n]; a write to p0 is discarded. -/
def Ctx.setP (x : Ctx) (n : Nat) (v : BitVec 512) : Ctx := if n = 0 then x else { x with p := x.p.set n v }

/-- Vector register v[n]. -/
def Ctx.vreg (x : Ctx) (n : Nat) : Nat := ((x.v[n]?).getD 0).toNat
def Ctx.setV (x : Ctx) (n : Nat) (v : Nat) : Ctx := { x with v := x.v.set n (BitVec.ofNat 2048 v) }

/-- Tile t[n]. -/
def Tile.zero : Tile := ⟨0, List.replicate 128 0⟩
def Ctx.tile (x : Ctx) (n : Nat) : Tile := (x.t[n]?).getD Tile.zero
def Ctx.setT (x : Ctx) (n : Nat) (v : Tile) : Ctx := { x with t := x.t.set n v }

/-- A context word by its index. -/
def Ctx.word (x : Ctx) (n : Nat) : BitVec 64 := (x.words[n]?).getD 0
def Ctx.setW (x : Ctx) (n : Nat) (v : BitVec 64) : Ctx := { x with words := x.words.set n v }

/-- Is the guard of a word true (R230)? -/
def Ctx.guard (x : Ctx) (w : Word) : Bool := (x.pred (pgOf w)).getLsbD 0 != pnOf w

/-- Is element i active under a word's mask (R230)? -/
def Ctx.active (x : Ctx) (w : Word) (i : Nat) : Bool := (x.pred (pgOf w)).getLsbD i != pnOf w

/-! ## Format S -/

/-- A scalar register operand: an s-register, or an a-register below 16; none for a number that names no register. -/
def Ctx.sa (x : Ctx) (isA : Bool) (n : Nat) : Option (BitVec 64) :=
  if isA then (if n < 16 then some (x.areg n) else none) else some (x.sreg n)

/-- Write a scalar destination. -/
def Ctx.setSa (x : Ctx) (isA : Bool) (n : Nat) (v : BitVec 64) : Ctx := if isA then x.setA n v else x.setS n v

/-- Operand A, operand B and the destination of format S; none when a field is not legal: an a-register above 15, or a nonzero field that is
not used (R229). -/
def Ctx.opS (x : Ctx) (w : Word) : Option (BitVec 64 × BitVec 64 × Bool × Nat) :=
  let i := w.toNat.testBit 53
  let fd := w.toNat.testBit 48
  let sd := wf w 46 42
  if fd ∧ sd ≥ 16 then none
  else if (if i then wf w 36 32 else wf w 31 0) ≠ 0 then none
  else (x.sa (w.toNat.testBit 47) (wf w 41 37)).map fun a => (a, if i then imm64 w else x.sreg (wf w 36 32), fd, sd)

/-! ## Condition codes (Table 7-9) -/

/-- A cc B under a condition code, none for a code that is not listed. -/
def condOf (cc : Nat) (a b : BitVec 64) : Option Bool :=
  if cc = 0 then some (a == b)
  else if cc = 1 then some (a != b)
  else if cc = 2 then some (a.slt b)
  else if cc = 3 then some (b.sle a)
  else if cc = 4 then some (a.sle b)
  else if cc = 5 then some (b.slt a)
  else if cc = 6 then some (a.ult b)
  else if cc = 7 then some (b.ule a)
  else if cc = 8 then some (a.ule b)
  else if cc = 9 then some (b.ult a)
  else none

/-! ## Element types (Table 7-10) -/

/-- Width of an element; for BX the k of a code. -/
def etWidth (et kc : Nat) : Nat :=
  if et = 0 ∨ et = 13 then 32
  else if et = 1 ∨ et = 2 then 16
  else if et = 7 ∨ et = 8 then 6
  else if et = 9 ∨ et = 12 then 4
  else if et = 14 then bxK kc
  else 8

/-- Is a type a block type, and its block size? -/
def etBlock (et : Nat) : Nat := if 5 ≤ et ∧ et ≤ 10 then 32 else if et = 14 then 16 else 0

/-- Elements of a vector register. -/
def etCount (et kc : Nat) : Nat :=
  if et = 14 then 16 * (2048 / (16 * bxK kc)) else if et = 7 ∨ et = 8 then 320 else 2048 / etWidth et kc

/-- Is a type one of the integer types? -/
def etInt (et : Nat) : Bool := et == 11 || et == 12 || et == 13

/-- The floating format of a plain type. -/
def etFmt (et : Nat) : Option Fmt :=
  if et = 0 then some fp32
  else if et = 1 then some bf16
  else if et = 2 then some fp16
  else if et = 3 then some e4m3
  else if et = 4 then some e5m2
  else none

/-- Is a type code a type, with its k code? Only BX uses a k code, 0 to 4. -/
def etOk (et kc : Nat) : Bool := decide (et < 15) && (if et = 14 then decide (kc ≤ 4) else kc == 0)

/-- Element i of a register's value. -/
def elemAt (w v i : Nat) : Nat := v / 2 ^ (w * i) % 2 ^ w

/-- The elements of a register's value. -/
def elemsOf (w n v : Nat) : List Nat := (List.range n).map (elemAt w v)

/-- A register's value from elements; bits above the last are zero (R236). -/
def packElems (w : Nat) (es : List Nat) : Nat := es.foldr (fun e a => e % 2 ^ w + 2 ^ w * a) 0

/-- Scale byte of a block in a half of a scale register (R236). -/
def scaleAt (v half j : Nat) : Nat := elemAt 8 v (32 * half + j)

/-- The value of an element of a type with its block's scale byte (R243, R244). -/
def elemVal (et kc scale e : Nat) : Val :=
  match etFmt et with
  | some f => f.decode e
  | none =>
    if et = 14 then bxVal (bxK kc) scale e
    else match mxOf et with
      | some t => mxVal t scale e
      | none => Val.ofInt (sext (etWidth et kc) e) 0 false

/-- Is an element a signalling NaN of binary32, bfloat16 or binary16 (log entry 23)? -/
def elemSnan (et e : Nat) : Bool :=
  match etFmt et with
  | some f => decide (et < 3) && f.decode e == .nan && !e.testBit (f.mb - 1)
  | none => false

/-! ## Scratch (R227) -/

/-- A byte of scratch. -/
def Ctx.byte (x : Ctx) (i : Nat) : Byte := (look x.scratch i).getD 0

/-- Write a byte of scratch; a zero byte is not listed. -/
def Ctx.setByte (x : Ctx) (i : Nat) (b : Byte) : Ctx := { x with scratch := if b = 0 then del x.scratch i else put x.scratch i b }

/-- n bytes of scratch from an address. -/
def Ctx.load (x : Ctx) (i n : Nat) : Bytes := (List.range n).map fun k => x.byte (i + k)

/-- Write bytes to scratch. -/
def Ctx.store (x : Ctx) (i : Nat) (d : Bytes) : Ctx :=
  (List.range d.length).foldl (fun x k => x.setByte (i + k) ((d[k]?).getD 0)) x

/-- Does an access lie in the window? -/
def Ctx.inWin (x : Ctx) (i n : Nat) : Bool := decide (i + n ≤ x.scratchLen)

/-! ## Sheaf images (Table 8-1, Table 8-2) -/

/-- Header fields of a policy or query sheaf: grant entries, code words, window, data length, entry PC. -/
def imgGrants (b : Bytes) : Nat := leAt b 2 2
def imgCode (b : Bytes) : Nat := leAt b 4 4
def imgWindow (b : Bytes) : Nat := leAt b 8 4
def imgData (b : Bytes) : Nat := leAt b 12 4
def imgEntry (b : Bytes) : Nat := leAt b 16 4

/-- Code word at a PC. -/
def imgWord (b : Bytes) (pc : Nat) : Word := BitVec.ofNat 64 (leAt b (64 + 16 * imgGrants b + 8 * pc) 8)

/-- Grant entry i: rights [0] read [1] write, first address, length. -/
def imgGrant (b : Bytes) (i : Nat) : Nat × Nat × Nat :=
  let q := leAt b (64 + 16 * i) 8
  (bits q 62 62 + 2 * bits q 63 63, bits q 49 0, leAt b (72 + 16 * i) 8)

/-- Data bytes, which open the window at context start (R269). -/
def imgBytes (b : Bytes) : Bytes := (b.drop (64 + 16 * imgGrants b + 8 * imgCode b)).take (imgData b)

end Sys2Proof.Machine
end

