-- ==== Sys2Proof/Machine/Flags.lean ====
section
/-! DEFINITION. Rounded results and the sticky flags of a context (spec/07_ralath_isa.md R237 to R244): one element of a floating or integer
operation, block-type destinations, the stochastic draws of an instruction, and FLAGS. -/

namespace Sys2Proof.Machine

open Sys2Proof

/-- Flag bits of FLAGS (Table 7-2). -/
def flagNX : Nat := 1
def flagUF : Nat := 2
def flagOF : Nat := 4
def flagIV : Nat := 8
def flagPS : Nat := 16

/-- The flags of a rounding with an invalid operation. -/
def flagsOf (f : RFlags) (iv : Bool) : Nat :=
  (if f.nx then flagNX else 0) + (if f.unf then flagUF else 0) + (if f.ovf then flagOF else 0) + (if iv then flagIV else 0)

/-- The rounding of a code (Table 7-11) with a 16-bit draw for the stochastic one. -/
def rndOf (rm u : Nat) : Rnd := if rm = 0 then .rne else if rm = 1 then .rtz else if rm = 2 then .stoch u else .rna

/-- An exact value rounded to a floating type: pattern and flags (R238 to R240). -/
def toFloat (f : Fmt) (sat : Bool) (rm u : Nat) (v : Val) (iv : Bool) : Nat × Nat :=
  let (p, fl) := f.encode sat (rndOf rm u) v
  (p, flagsOf fl (iv && v == .nan))

/-- An exact integer in w bits: clamped with OF when saturating, else wrapped (R240, R242). -/
def toIntW (w : Nat) (sat : Bool) (k : Int) : Nat × Nat :=
  let hi : Int := 2 ^ (w - 1) - 1
  let lo : Int := -(2 ^ (w - 1))
  if sat && decide (k > hi) then (unsext w hi, flagOF)
  else if sat && decide (k < lo) then (unsext w lo, flagOF)
  else (unsext w k, 0)

/-- A floating value converted to an integer of w bits: always saturating, NaN to 0 (R240). -/
def floatToInt (w rm u : Nat) (v : Val) : Nat × Nat :=
  let (k, iv, ov, nx) := v.toInt true w (rndOf rm u)
  (unsext w k, (if iv then flagIV else 0) + (if ov then flagOF else 0) + (if nx then flagNX else 0))

/-- OR of flags. -/
def orFlags (l : List Nat) : Nat := l.foldl (· ||| ·) 0

/-! ## Draws of an instruction (R241) -/

/-- The generator state of a context. -/
def Ctx.gen (x : Ctx) : Nat × Bool := ((x.word 5).toNat % 2 ^ 32, (x.word 5).getLsbD 32)

/-- A generator state as the SEED word. -/
def seedWord (g : Nat × Bool) : BitVec 64 := BitVec.ofNat 64 (g.1 + (if g.2 then 2 ^ 32 else 0))

/-- The draws for the active destination elements, in order: one draw for each element of a list of activities, 0 for the others, and the
generator after them. Without stochastic rounding nothing is drawn. -/
def drawsFor (rm : Nat) : List Bool → Nat × Bool → List Nat × (Nat × Bool)
  | [], g => ([], g)
  | a :: t, g =>
    if rm = 2 && a then
      let (u, g) := next16 g
      let (us, g) := drawsFor rm t g
      (u :: us, g)
    else
      let (us, g) := drawsFor rm t g
      (0 :: us, g)

/-! ## Block destinations (R244) -/

/-- One block of a block type from its values, with a rounding for each element: scale byte, element patterns, flags. -/
def blockTo (et kc rm : Nat) (us : List Nat) (vs : List Val) : Nat × List Nat × Nat :=
  let s := if et = 14 then bxScale vs else match mxOf et with
    | some t => mxScale t vs
    | none => 0
  let es := (List.range vs.length).map fun j =>
    let v := blockVal vs j
    let r := rndOf rm ((us[j]?).getD 0)
    if et = 14 then bxElem (bxK kc) s r v else match mxOf et with
      | some t => mxElem t s r v
      | none => (0, RFlags.none)
  (s, es.map Prod.fst, orFlags (es.map fun e => flagsOf e.2 false))

/-! ## FLAGS and CTRL (R242) -/

/-- The flags of an operation that a context traps on. -/
def Ctx.trapFlags (x : Ctx) (f : Nat) : Nat := f &&& ((x.word 1).toNat % 32)

/-- Add to the sticky flags. -/
def Ctx.addFlags (x : Ctx) (f : Nat) : Ctx := x.setW 0 (x.word 0 ||| BitVec.ofNat 64 f)

end Sys2Proof.Machine
end

