-- ==== Sys2Proof/Machine/Ctx.lean ====
section
/-! DEFINITION. A running context (spec/07_ralath_isa.md, spec/08_tiller_programs.md R251, R263, R268, R286 to R291): its identity, control
flow, traps, ends, completions, the issue of one instruction, grants, and space accesses. -/

namespace Sys2Proof.Machine

open Sys2Proof

/-- Put a context back. -/
def State.setCtx (s : State) (c : Nat) (x : Ctx) : State := s.onTlr fun t => { t with ctxs := put t.ctxs c x }

/-- CTXID of a context (Table 7-2): label, module index, tiller, context number. -/
def State.ctxId (s : State) (c : Nat) (x : Ctx) : Nat := x.label * 2 ^ 32 + s.me * 2 ^ 24 + x.tiller * 2 ^ 12 + c

/-- Address of a register of tiller n's window. -/
def tlrReg (n off : Nat) : Nat := 0x800000 + 0x4000 * n + off

/-! ## Tillers (R294, R295) -/

/-- The record of a tiller that nothing has changed. -/
def Tiller.blank : Tiller := { reduced := false, failed := false, ratio := 0, sig := [] }
def State.tiller (s : State) (n : Nat) : Tiller := (look s.tlr.tillers n).getD Tiller.blank
def State.setTiller (s : State) (n : Nat) (f : Tiller → Tiller) : State := s.onTlr fun t => { t with tillers := put t.tillers n (f (s.tiller n)) }

/-- Is a tiller disabled in TLR_DIS_LO or TLR_DIS_HI? -/
def State.tlrDis (s : State) (n : Nat) : Bool := if n < 64 then (s.reg 0x980018).testBit n else (s.reg 0x980020).testBit (n - 64)

/-- Is a tiller failed: disabled, or failed at start-up or run time? -/
def State.tlrBad (s : State) (n : Nat) : Bool := s.tlrDis n || (s.tiller n).failed

/-- The neighbour of a tiller: the next higher-numbered one, modulo 96, that is not failed; itself when it is not failed or none is left. -/
def State.tlrFor (s : State) (n : Nat) : Nat :=
  ((List.range 96).map fun i => (n + i) % 96).find? (fun k => !s.tlrBad k) |>.getD n

/-! ## Contexts as they start (R226, R228, R269, R272) -/

/-- The context words at start: SEED from CTXID[31:0], or 1, with HALF 0; K = 1, ORDER 0; the arguments. -/
def startWords (ctxid : Nat) (args : List Nat) : List (BitVec 64) :=
  let seed := if ctxid % 2 ^ 32 = 0 then 1 else ctxid % 2 ^ 32
  [0, 0, 0, 0, 0, BitVec.ofNat 64 seed, 1, 0, 0, 0, 0, 0, 0, 0, 0, 0] ++ (List.range 8).map fun i => BitVec.ofNat 64 ((args[i]?).getD 0)

/-- A context as it starts: registers, tiles, stacks and flags zero, the data bytes from scratch address 0 (R226, R269). -/
def freshCtx (q : Sheaf) (h tiller label : Nat) (ld : Option Nat) (portal desc member : Nat) (args : List Nat) (now : Nat) : Ctx :=
  let x : Ctx :=
    { s := List.replicate 32 0, a := List.replicate 16 0, p := List.replicate 8 0, v := List.replicate 16 0, t := List.replicate 4 Tile.zero,
      pc := imgEntry q.image, calls := [], loops := [], topk := ⟨1, []⟩, words := startWords 0 args, sheaf := h, tiller := tiller,
      resident := false, label := label, ld := ld, portal := portal, desc := desc, member := member, scratchLen := imgWindow q.image,
      scratch := [], ops := [], wait := .run, gateEnd := none, buf := [], bufSynd := 0, since := now, yielded := false, expired := false,
      late := none, ended := none }
  x.store 0 (imgBytes q.image)

/-- Space addresses of the hook ring, the producer word and the consumer word. -/
def State.hookBase (s : State) : Nat := (s.me * 2 ^ 14 + 0x3FFF) * 2 ^ 30
def State.prodAt (s : State) : Nat := s.hookBase + 32 * 4096
def State.consAt (s : State) : Nat := s.hookBase + 32 * 4096 + 8

/-- The context of the default policy sheaf: its code is the factory seed's and is not an image of the store; its window is the smallest one, and it waits
on the producer word (R195, R272; log entry 40). -/
def State.defaultPolicy (s : State) (c : Nat) : State :=
  let x := freshCtx ⟨1, [], none, [], false, []⟩ 0 (s.tlrFor (s.fld 0x980008 6 0)) 0 none s.me 0 0 [] s.now
  (s.setCtx c { x with words := startWords (s.ctxId c x) [s.hookBase, s.prodAt, s.consAt], scratchLen := 4096, wait := .gate s.prodAt 1 0 }).onTlr fun t =>
    { t with polCtx := some c }

/-! ## Control flow (R231, R257) -/

/-- The PC a signed target comes to: a target outside the 24 bits keeps a mark that lies outside every code. -/
def pcOf (k : Int) : Nat := if 0 ≤ k ∧ k < 2 ^ 24 then k.toNat else 2 ^ 24 + (k % 2 ^ 24).toNat

/-- The instruction after the one at e was reached in sequence: a loop that ends at e starts its next pass, or leaves the stack. The stack
holds start, end and passes left, the innermost first. -/
def seqFrom : List (Nat × Nat × Nat) → Nat → List (Nat × Nat × Nat) × Nat
  | [], e => ([], e + 1)
  | (a, b, n) :: t, e =>
    if b ≠ e then ((a, b, n) :: t, e + 1)
    else if n > 1 then ((a, b, n - 1) :: t, a)
    else seqFrom t e

/-- Go on after the instruction at e. -/
def Ctx.seq (x : Ctx) (e : Nat) : Ctx := { x with loops := (seqFrom x.loops e).1, pc := (seqFrom x.loops e).2 }

/-- Go on after the present instruction. -/
def Ctx.advance (x : Ctx) : Ctx := x.seq x.pc

/-- A branch: a loop that does not hold the target leaves the stack with those inside it. -/
def Ctx.jump (x : Ctx) (p : Nat) : Ctx :=
  { x with loops := (x.loops.reverse.takeWhile fun l => decide (l.1 ≤ p ∧ p ≤ l.2.1)).reverse, pc := p }

/-! ## Completion rings (R281, R286, R289) -/

/-- Registers of a ring in its LD's bank. -/
def rqReg (r off : Nat) : Nat := 0x990000 + 0x100 * r + off
def State.ringReg (s : State) (ld r off : Nat) : Nat := s.regB (1 + ld) (rqReg r off)

/-- A ring that nothing has used. -/
def Ring.blank : Ring :=
  { tail := 0, head := 0, asked := 0, fetched := [], err := false, waitCtx := false, cqHead := 0, cqTail := 0, phase := true, cqErr := false,
    cqWait := [], pend := 0, pendAt := 0, cancel := none }

/-- Ring r of an LD. -/
def State.ring (s : State) (ld r : Nat) : Ring := (look s.tlr.rings (ld * 4 + r)).getD Ring.blank
def State.setRing (s : State) (ld r : Nat) (f : Ring → Ring) : State :=
  s.onTlr fun t => { t with rings := put t.rings (ld * 4 + r) (f (s.ring ld r)) }

/-- Entries of the command ring and the completion ring. -/
def State.rqSize (s : State) (ld r : Nat) : Nat := 2 ^ (s.ringReg ld r 8 % 32)
def State.cqSize (s : State) (ld r : Nat) : Nat := 2 ^ (s.ringReg ld r 0x28 % 32)

/-- May a completion be written: the ring is enabled, not stopped and not full. -/
def State.cqOpen (s : State) (ld r : Nat) : Bool :=
  (s.ringReg ld r 0x28).testBit 63 && !(s.ring ld r).cqErr && ((s.ring ld r).cqTail + 1) % s.cqSize ld r != (s.ring ld r).cqHead

/-- The vector of a completion ring is sent and its pending count cleared (R289). -/
def State.cqFire (s : State) (ld r : Nat) : State :=
  (s.msix ld (bits (s.ringReg ld r 0x28) 52 48)).setRing ld r fun q => { q with pend := 0, pendAt := 0 }

/-- Count a completion with CI (R289). -/
def State.cqCount (s : State) (ld r : Nat) : State :=
  let s := s.setRing ld r fun q => { q with pend := q.pend + 1, pendAt := if q.pend = 0 then s.now else q.pendAt }
  if (s.ring ld r).pend ≥ bits (s.ringReg ld r 0x28) 47 40 then s.cqFire ld r else s

/-- A ring stops on the no-lease path (R281). -/
def State.ringStop (s : State) (ld : Nat) : State := s.postFor [ld] 0x0807 []

/-- A ring address decoded: the LD needs both rights on its extent (R281). -/
def State.ringHedge (s : State) (ld hpa : Nat) : Option (Nat × Nat) := if (s.hedge ld hpa 0).isSome then s.hedge ld hpa 1 else none

/-- Write a completion record at TAIL as a write of the LD, with the phase of this pass (R281, R286). -/
def State.cqWrite (s : State) (ld r : Nat) (d : Bytes) (ci : Bool) : State :=
  let q := s.ring ld r
  let d := d.set 6 (BitVec.ofNat 8 (r + if q.phase then 128 else 0))
  let hpa := s.ringReg ld r 0x20 / 4096 * 4096 + 64 * q.cqTail
  match s.ringHedge ld hpa with
  | none => ((s.noLease ld hpa true).ringStop ld).setRing ld r fun q => { q with cqErr := true }
  | some (label, sa) =>
    let t := (q.cqTail + 1) % s.cqSize ld r
    let s := s.setRing ld r fun q => { q with cqTail := t, phase := if t = 0 then !q.phase else q.phase }
    let s := s.accept (.ring ld r q.cqTail) .wr sa label 4096 .invalid fullMask d
    if ci then s.cqCount ld r else s

/-- Post a completion: written now, or kept on chip behind those that wait (at most 64); false when there is no room for it. -/
def State.cqPost (s : State) (ld r : Nat) (d : Bytes) (ci : Bool) : State × Bool :=
  if (s.ring ld r).cqWait.isEmpty && s.cqOpen ld r then (s.cqWrite ld r d ci, true)
  else if (s.ring ld r).cqWait.length < 64 then (s.setRing ld r fun q => { q with cqWait := q.cqWait ++ [(d, ci)] }, true)
  else (s, false)

/-- The bytes of a completion record but for its phase (Table 8-4). -/
def cqRec (tag status detail halted members ctxid trapinfo faultaddr ns s1 s2 : Nat) : Bytes :=
  toLe 4 tag ++ toLe 1 status ++ toLe 1 detail ++ [0, 0] ++ toLe 4 halted ++ toLe 4 members ++ toLe 8 ctxid ++ toLe 8 trapinfo ++
  toLe 8 faultaddr ++ toLe 8 ns ++ toLe 8 s1 ++ toLe 8 s2

/-- The completion of a START all of whose members have ended (R286, R287): the first status of 6, 5, 1, 2 and 0 that a member has. -/
def State.startRec (s : State) (d : DescLive) : Bytes :=
  let has (k : Nat) : Bool := d.ends.any fun e => e.status == k
  let st := if has 6 then 6 else if has 5 then 5 else if has 1 then 1 else if has 2 then 2 else 0
  let trap := d.ends.find? fun e => e.status == 1
  let first := d.ends.find? fun e => e.status != 0
  let zero := d.ends.find? fun e => e.idx == 0 && e.status == 0
  let f (o : Option MemberEnd) (g : MemberEnd → Nat) : Nat := (o.map g).getD 0
  cqRec (leAt d.raw 12 4) st (if st = 1 then f trap (fun e => e.trapinfo % 256) else 0) (d.ends.filter fun e => e.status == 0).length d.ends.length
    (f first MemberEnd.ctxid) (f trap MemberEnd.trapinfo) (f trap MemberEnd.faultaddr) (s.now - d.t0) (f zero MemberEnd.s1) (f zero MemberEnd.s2)

/-- Post the completion of a START when its last member has ended: false when there is no completion space for it. -/
def State.startPost (s : State) (i : Nat) : State × Bool :=
  match look s.tlr.descs i with
  | none => (s, true)
  | some d =>
    if !d.left.isEmpty then (s, true)
    else
      let (s, ok) := s.cqPost d.ld d.ring (s.startRec d) ((byteAt d.raw 1) % 2 == 1)
      if ok then (s.onTlr fun t => { t with descs := del t.descs i }, true) else (s, false)

/-! ## Ends of contexts (R262, R285, R290) -/

/-- A context that a CANCEL at the head of its ring ends is counted (R285). -/
def State.cancelCount (s : State) (ld r i : Nat) (e : MemberEnd) : State :=
  match (s.ring ld r).cancel with
  | some k => if k.1.contains i && e.status == 2 && e.live then s.setRing ld r fun q => { q with cancel := some (k.1, k.2 + 1) } else s
  | none => s

/-- A member of a descriptor of this portal ended: false when the end must wait for completion space (R286). -/
def State.memberEnded (s : State) (i : Nat) (e : MemberEnd) : State × Bool :=
  match look s.tlr.descs i with
  | none => (s, true)
  | some d =>
    let d' := { d with left := d.left.filter fun q => q.1 != e.idx, ends := d.ends ++ [e] }
    ((s.cancelCount d.ld d.ring i e).onTlr fun t => { t with descs := put t.descs i d' }).startPost i

/-- Is any context, on this module, of a sheaf live, or a member of a START that has begun waiting for one? -/
def State.sheafLive (s : State) (h : Nat) : Bool := (s.tlr.ctxs.any fun e => e.2.sheaf == h) || s.tlr.startQ.any fun w => w.sheaf == h

/-- The image of an unloading sheaf is freed when its last context ends (R270). -/
def State.sheafFree (s : State) (h : Nat) : State :=
  match look s.tlr.sheaves h with
  | some q => if q.unloading && !s.sheafLive h then (s.onTlr fun t => { t with sheaves := del t.sheaves h }).post 0x0801 [] else s
  | none => s

/-- The default policy sheaf becomes active because the policy sheaf's context ended (R274 and chapter 5, case 'When the policy sheaf
faults'). -/
def State.policyFault (s : State) (c : Nat) : State :=
  (((s.onTier fun t => { t with policy := 0 }).defaultPolicy c).intr 0x600028 6).post 0x0607 []

/-- A context is gone, its registers and window with it. -/
def State.ctxGone (s : State) (c : Nat) (x : Ctx) : State := (s.onTlr fun t => { t with ctxs := del t.ctxs c }).sheafFree x.sheaf

/-- A context ends and its registers and window are discarded. With no completion space its end waits (R286); one whose portal is another module
waits for its answer. -/
def State.ctxEnd (s : State) (c : Nat) (x : Ctx) (status : Nat) : State :=
  let e : MemberEnd := ⟨x.member, status, s.ctxId c x, (x.word 2).toNat, (x.word 3).toNat, (x.sreg 1).toNat, (x.sreg 2).toNat, true⟩
  if s.tlr.polCtx = some c then (s.ctxGone c x).policyFault c
  else if x.portal ≠ s.me then
    if s.isLive x.portal then (s.setCtx c { x with wait := .run, ended := some e }).copyTo x.portal (.ended x.desc e) else s.ctxGone c x
  else
    let (s, ok) := s.memberEnded x.desc e
    if ok then s.ctxGone c x else (s.setCtx c { x with wait := .run, ended := some e }).bump cntTlr 4 1

/-- The portal of a context that ended answers: its completion has its place, or its end waits, which is counted (R286). -/
def State.endAnswered (s : State) (src c : Nat) (ok : Bool) : State :=
  match look s.tlr.ctxs c with
  | some x => if x.ended.isNone || x.portal != src then s else if ok then s.ctxGone c x else s.bump cntTlr 4 1
  | none => s

/-- End the live contexts of a descriptor on this module as CANCEL does (R285). -/
def State.cancelDesc (s : State) (portal desc : Nat) : State :=
  s.each (s.tlr.ctxs.filter fun e => e.2.portal == portal && e.2.desc == desc && e.2.ended.isNone && s.tlr.polCtx != some e.1) fun s e =>
    match look s.tlr.ctxs e.1 with
    | some x => s.ctxEnd e.1 x 2
    | none => s

/-- Cancel the members of a descriptor of this portal, wherever they run. -/
def State.cancelAll (s : State) (desc : Nat) : State :=
  match look s.tlr.descs desc with
  | none => s
  | some d => (s.copyAll ((d.left.map Prod.snd).eraseDups.filter (· != s.me)) (.cancel desc)).cancelDesc s.me desc

/-- ABORT: the first trap of a descriptor cancels its other members (R290). -/
def State.abortOthers (s : State) (desc : Nat) : State :=
  match look s.tlr.descs desc with
  | none => s
  | some d => if (byteAt d.raw 1) / 2 % 2 = 1 then s.cancelAll desc else s

/-- Write the completions that wait on chip while the ring has room. -/
def State.cqDrain (s : State) (ld r : Nat) : State :=
  s.each (List.range 64) fun s _ =>
    match (s.ring ld r).cqWait with
    | (d, ci) :: t => if s.cqOpen ld r then (s.setRing ld r fun q => { q with cqWait := t }).cqWrite ld r d ci else s
    | [] => s

/-- A completion ring has room again: the records that wait on chip, then the ends that wait for completion space (R286). -/
def State.cqFlush (s : State) (ld r : Nat) : State :=
  let s := s.cqDrain ld r
  s.each (s.tlr.descs.filter fun e => e.2.ld == ld && e.2.ring == r && e.2.left.isEmpty) fun s e =>
    let (s, ok) := s.startPost e.1
    if !ok then s
    else
      let s := s.each (s.tlr.ctxs.filter fun y => y.2.portal == s.me && y.2.desc == e.1 && y.2.ended.isSome) fun s y => s.ctxGone y.1 y.2
      match e.2.ends.getLast? with
      | some q => if q.live && q.ctxid / 2 ^ 24 % 64 != s.me then s.copyTo (q.ctxid / 2 ^ 24 % 64) (.endAns (q.ctxid % 4096) true) else s
      | none => s

/-! ## Traps (R263, R290) -/

/-- TRAPINFO of a trap (Table 7-2). -/
def trapInfo (pc cause detail : Nat) (imprecise : Bool) : Nat :=
  detail % 2 ^ 16 * 2 ^ 48 + pc % 2 ^ 24 * 2 ^ 16 + (if imprecise then 256 else 0) + cause

/-- A context traps: recorded in its completion and in the capture of its tiller, counted, posted, and ended (R290). -/
def State.ctxTrap (s : State) (c : Nat) (x : Ctx) (pc cause detail addr : Nat) (imprecise : Bool) : State :=
  let ti := trapInfo pc cause detail imprecise
  let x := (x.setW 2 (BitVec.ofNat 64 ti)).setW 3 (BitVec.ofNat 64 addr)
  let cap := tlrReg x.tiller 0x40
  let s := if (s.reg cap).testBit 63 then s else s.setReg cap (2 ^ 63 + cause * 2 ^ 48 + s.ctxId c x)
  let s := ((s.intr (tlrReg x.tiller 0x28) 0).bump cntTlr 1 1).postFor (if s.me = x.portal then x.ld.toList else []) 0x0802 [(8, s.ctxId c x), (8, ti)]
  let s := s.ctxEnd c x 1
  if s.me = x.portal then s.abortOthers x.desc else s

/-! ## Issue of one instruction -/

/-- May a context issue: resident, not waiting, not ended? -/
def Ctx.ready (x : Ctx) : Bool := x.resident && x.wait == .run && x.ended.isNone

/-- Index of the 64-byte code line of a PC in an image. -/
def codeLine (b : Bytes) (pc : Nat) : Nat := (64 + 16 * imgGrants b + 8 * pc) / 64

/-- A code line that does not read: the context traps, and the line is repaired from the twin's image (R291). -/
def State.fetchBad (s : State) (c : Nat) (x : Ctx) (line synd : Nat) : State :=
  let s := s.ctxTrap c x x.pc 4 synd 0 false
  let s := s.onTlr fun t => { t with sheaves := upd t.sheaves x.sheaf fun q => { q with bad := q.bad.filter fun b => b.1 != line } }
  ((s.intr (tlrReg x.tiller 0x28) 3).bump cntTlr 5 1).drew.intError 0x0803 synd (Config.value s.draws) []

/-! ## The choice of a tiller (R277) -/

/-- Asynchronous operations outstanding. -/
def Ctx.asyncs (x : Ctx) : Nat := (x.ops.filter fun o => decide (1 ≤ o.kind ∧ o.kind ≤ 5)).length

/-- Class of a context's requests. -/
def State.ctxClass (s : State) (x : Ctx) : Nat := match x.ld with
  | some d => s.classOfHolder (x.portal * 64 + d) x.label
  | none => x.label

/-- Rank of a context (R277). -/
def State.ctxRank (s : State) (c : Nat) (x : Ctx) : Nat :=
  if s.tlr.polCtx = some c then 1
  else match x.ld with
    | some d => (s.classP (x.portal * 64 + d) (s.ctxClass x)).rank
    | none => 1

/-- Does the instruction at a context's PC wait: FENCE and HALT for operations outstanding (R253, R262), an asynchronous operation for one of 16 places
(R254), a PUT for its port (R193, R288), SIGNAL for its queue (R261)? Such a context is not ready to issue. -/
def State.stalls (s : State) (x : Ctx) : Bool :=
  match look s.tlr.sheaves x.sheaf with
  | none => true
  | some q =>
    let w := imgWord q.image x.pc
    let m := majorOf w
    let put (k : Bool) : Bool := m == 0x23 && (wf w 52 49 == 1) == k
    x.late.isNone && decide (x.pc < imgCode q.image) && x.guard w &&
      (((m == 0x31 || m == 0x33) && !x.ops.isEmpty) ||
       ((decide (0x20 ≤ m ∧ m ≤ 0x22) || put true) && decide (x.asyncs ≥ 16)) ||
       (m == 0x30 && decide ((s.tiller x.tiller).sig.length ≥ 16)) ||
       (put false && wf w 21 0 == 0 && decide (s.tier.placeQ.length ≥ 1024)) ||
       (put false && wf w 21 0 == 1 && (look s.tlr.descs x.desc).any fun d => decide ((s.ring d.ld d.ring).cqWait.length ≥ 64)))

/-- Is a context the one that its tiller issues from next: of best rank among those ready to issue, and among equals the next in turn after the one
that issued last (R277)? -/
def State.turnOf (s : State) (c : Nat) (x : Ctx) : Bool :=
  let last := (look s.tlr.turns x.tiller).getD 4095
  let after (k : Nat) : Nat := (k + 4095 - last) % 4096
  s.tlr.ctxs.all fun e => e.1 == c || e.2.tiller != x.tiller || !e.2.ready || s.stalls e.2 ||
    decide (s.ctxRank c x < s.ctxRank e.1 e.2 ∨ (s.ctxRank c x = s.ctxRank e.1 e.2 ∧ after c < after e.1))

/-- A context has issued. -/
def State.took (s : State) (c n : Nat) : State := s.onTlr fun t => { t with turns := put t.turns n c }

/-- Issue the instruction at a context's PC when its major opcode is one that `m` takes: an imprecise trap comes first, then the faults of the
fetch (R231, R263, R291). A context that may not issue, that its tiller does not choose (R277), or whose instruction is another, is left as it is; a
disabled or failed tiller issues nothing (R295). -/
def State.issue (s : State) (c : Nat) (m : Nat → Bool) (f : Ctx → Word → State) : State :=
  match look s.tlr.ctxs c with
  | none => s
  | some x =>
    if !x.ready || s.tlrBad x.tiller || !s.turnOf c x then s
    else
      match x.late with
      | some (cause, detail, addr, pc) => s.ctxTrap c x pc cause detail addr true
      | none =>
        match look s.tlr.sheaves x.sheaf with
        | none => s
        | some q =>
          if x.pc ≥ imgCode q.image then s.ctxTrap c x x.pc 3 0 0 false
          else
            match q.bad.find? fun b => b.1 == codeLine q.image x.pc with
            | some (l, y) => s.fetchBad c x l y
            | none =>
              let w := imgWord q.image x.pc
              if m (majorOf w) then (f x w).took c x.tiller else s

/-- What an instruction does that touches its context alone. -/
inductive Eff where
  /-- It is done: the context goes on in sequence. -/
  | next (x : Ctx)
  /-- It is done: the context goes on at a PC. -/
  | goto (x : Ctx) (pc : Nat)
  /-- It traps: cause, detail, fault address. -/
  | trap (cause detail addr : Nat)
  deriving DecidableEq, Repr

/-- An illegal instruction. -/
def Eff.illegal : Eff := .trap 1 0 0

/-- Carry out an effect. -/
def State.doEff (s : State) (c : Nat) (x : Ctx) : Eff → State
  | .next y => s.setCtx c y.advance
  | .goto y p => s.setCtx c (y.jump p)
  | .trap cause detail addr => s.ctxTrap c x x.pc cause detail addr false

/-- An instruction of a major opcode that touches its context alone. -/
def State.plainOp (s : State) (c major : Nat) (f : Ctx → Word → Eff) : State :=
  s.issue c (fun m => m == major) fun x w => s.doEff c x (f x w)

/-- Are the bits of a word outside a mask of used bits zero (R229)? -/
def onlyBits (w : Word) (mask : Nat) : Bool := w.toNat &&& (2 ^ 64 - 1 - mask) == 0

/-- A mask of bits hi down to lo. -/
def bm (hi lo : Nat) : Nat := 2 ^ (hi + 1) - 2 ^ lo

/-- Guarded: with a false guard the instruction takes one step and has no effect (R230). -/
def guarded (x : Ctx) (w : Word) (legal : Bool) (e : Eff) : Eff := if !legal then .illegal else if x.guard w then e else .next x

/-! ## Grants (R251, R268, R273) -/

/-- How an access is answered. -/
inductive Access where
  | ok
  | noLease
  | fault
  deriving DecidableEq, Repr

/-- The first of several answers that serves best: served, the no-lease path, a fault. -/
def Access.best (l : List Access) : Access := if l.contains .ok then .ok else if l.contains .noLease then .noLease else .fault

/-- A lease that a sheaf is bound to, with the extents that drain from it: of this portal, or as its own portal has told (R268). -/
def State.leaseView (s : State) (h : Nat) : Option (Lease × List Nat) :=
  match look s.spc.leases h with
  | some l => some (l, s.leaving h)
  | none => look s.spc.peerLeases h

/-- The state of the leases that covered a grant entry, for an access inside it (R268). -/
def State.grantState (s : State) (q : Sheaf) (hs : List Nat) (sa n : Nat) (right : Nat) : Access :=
  let es := extsOf sa n
  if q.owner.isNone then (if es.all fun e => (look s.spc.extents e).isSome then .ok else .fault)
  else if hs.any fun h => (s.leaseView h).isNone then .fault
  else
    let ls := hs.filterMap s.leaseView
    if !(es.all fun e => ls.any fun l => l.1.exts.any fun y => y.1 == e) then .fault
    else if ls.all (fun l => l.1.st == .active && !(es.any fun e => l.2.contains e)) && !(right == 2 && s.kindAt sa == .published) then .ok
    else .noLease

/-- May a context access n bytes with a right (1 read, 2 write)? -/
def State.access (s : State) (x : Ctx) (sa n right : Nat) : Access :=
  match look s.tlr.sheaves x.sheaf with
  | none => .fault
  | some q =>
    if sa + n > 2 ^ 50 ∨ n = 0 then .fault
    else
      Access.best ((List.range (imgGrants q.image)).map fun i =>
        let g := imgGrant q.image i
        if g.1 &&& right ≠ 0 ∧ g.2.1 ≤ sa ∧ sa + n ≤ g.2.1 + g.2.2 then s.grantState q ((q.leases[i]?).getD []) sa n right else .fault)

/-! ## The system extent (R272, R273) -/

/-- May the policy context read or write these bytes of the system extent? -/
def State.sysAccess (s : State) (c sa n right : Nat) : Bool :=
  s.tlr.polCtx == some c && (if right = 1 then decide (s.hookBase ≤ sa ∧ sa + n ≤ s.consAt) else decide (s.consAt ≤ sa ∧ sa + n ≤ s.consAt + 8))

/-- A byte of the hook ring: that of the last record of its place, taken or not, 0 before the first. -/
def State.hookByte (s : State) (o : Nat) : Byte :=
  let k := (o / 32 + 4096 - s.tier.hookCons % 4096) % 4096
  match s.tier.hooks[k]? with
  | some r => (r[o % 32]?).getD 0
  | none => (((look s.tier.hookOld (o / 32)).getD [])[o % 32]?).getD 0

/-- A line of the system extent. -/
def State.sysLine (s : State) (sa : Nat) : Bytes :=
  let o := sa / 64 * 64 - s.hookBase
  if o < 32 * 4096 then (List.range 64).map fun i => s.hookByte (o + i)
  else toLe 8 s.tier.hookProd ++ toLe 8 s.tier.hookCons ++ zeros 48

/-- The consumer word takes a value: the records before it are taken. -/
def State.setCons (s : State) (v : Nat) : State :=
  s.onTier fun t => { t with hooks := t.hooks.drop (v - t.hookCons), hookCons := v,
                             hookOld := (t.hooks.take (v - t.hookCons)).zipIdx.foldl (fun m r => put m ((t.hookCons + r.2) % 4096) r.1) t.hookOld }

/-! ## Space accesses (R252, R253) -/

/-- A read returned poison: PS set, the first one captured (chapter 7, case 'When a space read returns poison'). -/
def Ctx.poisoned (x : Ctx) (synd line : Nat) : Ctx :=
  let x := if x.word 4 = 0 then x.setW 4 (BitVec.ofNat 64 (synd * 2 ^ 56 + line % 2 ^ 44)) else x
  x.addFlags flagPS

/-- Does a context trap on poison? -/
def Ctx.trapsPoison (x : Ctx) : Bool := (x.word 1).getLsbD 4

/-- A write on the no-lease path (R268). -/
def State.dropWrite (s : State) : State := (s.bump cntSpc 0 1).post 0x0307 []

/-- May a context access n bytes with a right: by its sheaf's grant, or as the policy context in the system extent? -/
def State.reach (s : State) (c : Nat) (x : Ctx) (sa n right : Nat) : Access := if s.sysAccess c sa n right then .ok else s.access x sa n right

/-- Issue the request of one line of an operation of a context. -/
def State.ctxReq (s : State) (c k : Nat) (x : Ctx) (op : ROp) (sa mask : Nat) (d : Bytes) : State :=
  s.accept (.ctx c k) op sa x.label 4096 .invalid mask d

/-- What a synchronous read finds: the line, a wait, or a trap of the access. -/
inductive SyncRd where
  | line (d : Bytes) (synd : Nat)
  | wait
  | fault
  deriving DecidableEq, Repr

/-- A synchronous read of bytes that lie in one line (R253): the context waits until the line has come, and the instruction then takes it. -/
def State.syncRead (s : State) (c : Nat) (x : Ctx) (sa n : Nat) : State × SyncRd :=
  let took (s : State) : State × SyncRd :=
    match look s.tlr.ctxs c with
    | some y => match y.buf with
      | e :: _ => (s.setCtx c { y with buf := [], bufSynd := 0 }, .line e.2 y.bufSynd)
      | [] => (s, .wait)
    | none => (s, .wait)
  if !x.buf.isEmpty then took s
  else if s.sysAccess c sa n 1 then (s, .line (s.sysLine sa) 0)
  else
    match s.access x sa n 1 with
    | .fault => (s, .fault)
    | .noLease => ((s.post 0x0307 []).setCtx c (x.poisoned 4 (saLine sa)), .line (zeros 64) 4)
    | .ok =>
      let k := s.nextId + 1
      let o : AOp := { id := k, kind := 0, left := 1, dst := 0, lines := [], ps := false, info := [x.pc] }
      let s := ({ s with nextId := k }).setCtx c { x with ops := x.ops ++ [o], wait := .mem }
      took (s.ctxReq c k x .rd (sa / 64 * 64) 0 [])

/-- A store or SETG of a context: it completes under R36 while the context goes on (R253). -/
def State.asyncWrite (s : State) (c : Nat) (x : Ctx) (pc : Nat) (op : ROp) (sa mask : Nat) (d : Bytes) : State :=
  let k := s.nextId + 1
  let o : AOp := { id := k, kind := 9, left := 1, dst := 0, lines := [], ps := false, info := [pc] }
  (({ s with nextId := k }).setCtx c { x with ops := x.ops ++ [o] }).ctxReq c k x op sa mask d

/-- The context of a number after an operation, for the rest of its instruction. -/
def State.withCtx (s : State) (c : Nat) (f : Ctx → State) : State := match look s.tlr.ctxs c with
  | some x => f x
  | none => s

end Sys2Proof.Machine
end

