-- ==== Sys2Proof/Machine/Scalar.lean ====
section
/-! DEFINITION. Scalar instructions (spec/07_ralath_isa.md R233, R234, Table 7-8): arithmetic, compare, load immediate, scalar loads and
stores of scratch, the space and the context words. -/

namespace Sys2Proof.Machine

open Sys2Proof

/-! ## Arithmetic -/

/-- A scalar instruction D = f A B; `ok` says which FUNC codes it has (R229: FUNC is zero where no meaning is given). -/
def aluEff (ok : Nat → Bool) (f : Nat → BitVec 64 → BitVec 64 → BitVec 64) (x : Ctx) (w : Word) : Eff :=
  match x.opS w with
  | none => .illegal
  | some (a, b, fd, sd) => guarded x w (ok (wf w 52 49)) (.next (x.setSa fd sd (f (wf w 52 49) a b)))

/-- FUNC must be zero. -/
def func0 (n : Nat) : Bool := n == 0
/-- FUNC is 0 signed or 1 unsigned. -/
def func1 (n : Nat) : Bool := decide (n ≤ 1)

/-- High 64 bits of a product, signed or unsigned. -/
def mulHigh (u : Nat) (a b : BitVec 64) : BitVec 64 :=
  if u = 1 then BitVec.ofNat 64 (a.toNat * b.toNat / 2 ^ 64) else BitVec.ofInt 64 (a.toInt * b.toInt / 2 ^ 64)

/-- The smaller, or the larger, of two words, signed or unsigned. -/
def minOf (u : Nat) (a b : BitVec 64) : BitVec 64 := if u = 1 then (if a.ult b then a else b) else (if a.slt b then a else b)
def maxOf (u : Nat) (a b : BitVec 64) : BitVec 64 := if u = 1 then (if a.ult b then b else a) else (if a.slt b then b else a)

/-- ADD (Table 7-8). -/
def execAdd (c : Fin 4096) (s : State) : Outcome := .next (s.plainOp c 0x01 (aluEff func0 fun _ a b => a + b))
/-- SUB (Table 7-8). -/
def execSub (c : Fin 4096) (s : State) : Outcome := .next (s.plainOp c 0x02 (aluEff func0 fun _ a b => a - b))
/-- MUL (Table 7-8). -/
def execMul (c : Fin 4096) (s : State) : Outcome := .next (s.plainOp c 0x03 (aluEff func0 fun _ a b => a * b))
/-- MULH (Table 7-8). -/
def execMulh (c : Fin 4096) (s : State) : Outcome := .next (s.plainOp c 0x04 (aluEff func1 mulHigh))
/-- AND (Table 7-8). -/
def execAnd (c : Fin 4096) (s : State) : Outcome := .next (s.plainOp c 0x05 (aluEff func0 fun _ a b => a &&& b))
/-- OR (Table 7-8). -/
def execOr (c : Fin 4096) (s : State) : Outcome := .next (s.plainOp c 0x06 (aluEff func0 fun _ a b => a ||| b))
/-- XOR (Table 7-8). -/
def execXor (c : Fin 4096) (s : State) : Outcome := .next (s.plainOp c 0x07 (aluEff func0 fun _ a b => a ^^^ b))
/-- SHL (Table 7-8). -/
def execShl (c : Fin 4096) (s : State) : Outcome := .next (s.plainOp c 0x08 (aluEff func0 fun _ a b => a <<< (b.toNat % 64)))
/-- SHR (Table 7-8). -/
def execShr (c : Fin 4096) (s : State) : Outcome := .next (s.plainOp c 0x09 (aluEff func0 fun _ a b => a >>> (b.toNat % 64)))
/-- SAR (Table 7-8). -/
def execSar (c : Fin 4096) (s : State) : Outcome := .next (s.plainOp c 0x0A (aluEff func0 fun _ a b => a.sshiftRight (b.toNat % 64)))
/-- MIN (Table 7-8). -/
def execMin (c : Fin 4096) (s : State) : Outcome := .next (s.plainOp c 0x0B (aluEff func1 minOf))
/-- MAX (Table 7-8). -/
def execMax (c : Fin 4096) (s : State) : Outcome := .next (s.plainOp c 0x0C (aluEff func1 maxOf))

/-! ## Compare and load immediate -/

/-- The mask of the i for which A + i cc B (R233). -/
def cmpMask (cc : Nat) (a b : BitVec 64) : Nat → Nat
  | 0 => 0
  | n + 1 => cmpMask cc a b n + (if condOf cc (a + BitVec.ofNat 64 n) b = some true then 2 ^ n else 0)

/-- CMP.cc on a context (R233): FD 0, SD[4:3] zero. -/
def cmpEff (x : Ctx) (w : Word) : Eff :=
  match x.opS w with
  | none => .illegal
  | some (a, b, fd, sd) =>
    guarded x w ((condOf (wf w 52 49) a b).isSome && !fd && decide (sd < 8))
      (.next (x.setP sd (BitVec.ofNat 512 (cmpMask (wf w 52 49) a b 512))))

/-- CMP (R233). -/
def execCmp (c : Fin 4096) (s : State) : Outcome := .next (s.plainOp c 0x0D cmpEff)

/-- LI on a context: SA and SB are not used; I may be either value (log entry 41). -/
def liEff (x : Ctx) (w : Word) : Eff :=
  let fd := w.toNat.testBit 48
  let sd := wf w 46 42
  guarded x w (onlyBits w (bm 63 53 + bm 48 48 + bm 46 42 + bm 31 0) && !(fd && decide (sd ≥ 16))) (.next (x.setSa fd sd (imm64 w)))

/-- LI (Table 7-8). -/
def execLi (c : Fin 4096) (s : State) : Outcome := .next (s.plainOp c 0x0E liEff)

/-! ## Context words (R228, Table 7-2) -/

/-- A context word as LDS reads it; none for an index that is not in Table 7-2. -/
def State.ctxWord (s : State) (c : Nat) (x : Ctx) (i : Nat) : Option (BitVec 64) :=
  if i = 7 then some (BitVec.ofNat 64 s.now)
  else if i = 8 then some (BitVec.ofNat 64 (s.ctxId c x))
  else if i < 7 ∨ (16 ≤ i ∧ i < 24) then some (x.word i)
  else none

/-- A context after a write of a context word; none for a read-only word or a value it does not take (R228). -/
def Ctx.putWord (x : Ctx) (i : Nat) (v : BitVec 64) : Option Ctx :=
  if i = 0 then some (x.setW 0 (v &&& 31#64))
  else if i = 1 then (if v.toNat < 32 then some (x.setW 1 v) else none)
  else if i = 5 then
    let n := v.toNat % 2 ^ 33
    some (x.setW 5 (BitVec.ofNat 64 (if n % 2 ^ 32 = 0 then n + 1 else n)))
  else if i = 6 then
    let k := v.toNat % 2048
    if v.toNat = k + 65536 * bits v.toNat 16 16 ∧ 1 ≤ k ∧ k ≤ 1024 then some { x.setW 6 v with topk := ⟨k, []⟩ } else none
  else none

/-! ## Scalar loads and stores (R234) -/

/-- Size in bytes of an access. -/
def memSize (w : Word) : Nat := 2 ^ wf w 50 49

/-- Bytes as a register value, zero- or sign-extended. -/
def extendTo (sign : Bool) (d : Bytes) : BitVec 64 :=
  if sign then BitVec.ofInt 64 (sext (8 * d.length) (le d)) else BitVec.ofNat 64 (le d)

/-- The address of LDS and STS as an exact integer, none when a field is not legal: I and SB zero, registers that exist. -/
def Ctx.memAddr (x : Ctx) (w : Word) : Option (BitVec 64) :=
  let fd := w.toNat.testBit 48
  if w.toNat.testBit 53 ∨ wf w 36 32 ≠ 0 ∨ (fd ∧ wf w 46 42 ≥ 16) then none
  else (x.sa (w.toNat.testBit 47) (wf w 41 37)).map fun a => a + imm64 w

/-- A register of a scalar destination field. -/
def Ctx.getSa (x : Ctx) (isA : Bool) (n : Nat) : BitVec 64 := if isA then x.areg n else x.sreg n

/-- LDS of a context word. -/
def State.ldsWord (s : State) (c : Nat) (x : Ctx) (w : Word) (a : Nat) : Eff :=
  guarded x w (wf w 50 49 == 3) (match (if a % 8 = 0 then s.ctxWord c x (a / 8) else none) with
    | none => .illegal
    | some v => .next (x.setSa (w.toNat.testBit 48) (wf w 46 42) v))

/-- LDS of scratch. -/
def ldsScratch (x : Ctx) (w : Word) (a : Nat) : Eff :=
  let n := memSize w
  guarded x w true
    (if a % n ≠ 0 then .trap 7 0 a
     else if !x.inWin a n then .trap 6 0 a
     else .next (x.setSa (w.toNat.testBit 48) (wf w 46 42) (extendTo (w.toNat.testBit 51) (x.load a n))))

/-- LDS of the space. -/
def State.ldsSpace (s : State) (c : Nat) (x : Ctx) (w : Word) (a : Nat) : State :=
  let n := memSize w
  if !x.guard w then s.doEff c x (.next x)
  else if a % n ≠ 0 then s.doEff c x (.trap 7 0 a)
  else
    match s.syncRead c x a n with
    | (s, .wait) => s
    | (s, .fault) => s.doEff c x (.trap 5 1 a)
    | (s, .line d y) => s.withCtx c fun x =>
      if y ≠ 0 ∧ x.trapsPoison then s.doEff c x (.trap 0x0A y a)
      else s.doEff c x (.next (x.setSa (w.toNat.testBit 48) (wf w 46 42) (extendTo (w.toNat.testBit 51) ((d.drop (a % 64)).take n))))

/-- LDS (R234). -/
def execLds (c : Fin 4096) (s : State) : Outcome := .next (s.issue c (fun m => m == 0x0F) fun x w =>
  match x.memAddr w with
  | none => s.doEff c x .illegal
  | some a =>
    if w.toNat.testBit 52 then s.doEff c x (s.ldsWord c x w a.toNat)
    else if w.toNat.testBit 47 then s.ldsSpace c x w a.toNat
    else s.doEff c x (ldsScratch x w a.toNat))

/-- STS of a context word. -/
def stsWord (x : Ctx) (w : Word) (a : Nat) : Eff :=
  let v := x.getSa (w.toNat.testBit 48) (wf w 46 42)
  guarded x w (wf w 51 49 == 3) (match (if a % 8 = 0 ∧ a / 8 < 24 then x.putWord (a / 8) v else none) with
    | none => .illegal
    | some y => .next y)

/-- STS of scratch. -/
def stsScratch (x : Ctx) (w : Word) (a : Nat) : Eff :=
  let n := memSize w
  guarded x w true
    (if a % n ≠ 0 then .trap 7 0 a
     else if !x.inWin a n then .trap 6 0 a
     else .next (x.store a (toLe n (x.getSa (w.toNat.testBit 48) (wf w 46 42)).toNat)))

/-- STS of the space: a write of the line's bytes. -/
def State.stsSpace (s : State) (c : Nat) (x : Ctx) (w : Word) (a : Nat) : State :=
  let n := memSize w
  let d := toLe n (x.getSa (w.toNat.testBit 48) (wf w 46 42)).toNat
  if !x.guard w then s.doEff c x (.next x)
  else if a % n ≠ 0 then s.doEff c x (.trap 7 0 a)
  else if s.sysAccess c a n 2 then
    let o := a - s.consAt
    let w := toLe 8 s.tier.hookCons
    (s.setCons (le (w.take o ++ d ++ w.drop (o + n)))).setCtx c x.advance
  else
    match s.access x a n 2 with
    | .fault => s.doEff c x (.trap 5 2 a)
    | .noLease => s.dropWrite.doEff c x (.next x)
    | .ok =>
      let o := a % 64
      let y := x.advance
      s.asyncWrite c y x.pc .wr (a / 64 * 64) ((2 ^ n - 1) * 2 ^ o) (zeros o ++ d ++ zeros (64 - o - n))

/-- STS (R234). -/
def execSts (c : Fin 4096) (s : State) : Outcome := .next (s.issue c (fun m => m == 0x10) fun x w =>
  match x.memAddr w with
  | none => s.doEff c x .illegal
  | some a =>
    if w.toNat.testBit 52 then s.doEff c x (stsWord x w a.toNat)
    else if w.toNat.testBit 51 then s.doEff c x .illegal
    else if w.toNat.testBit 47 then s.stsSpace c x w a.toNat
    else s.doEff c x (stsScratch x w a.toNat))

end Sys2Proof.Machine
end

