-- ==== Sys2Proof/Machine/Vector.lean ====
section
/-! DEFINITION. Vector instructions (spec/07_ralath_isa.md R236 to R247, Tables 7-4, 7-10 to 7-12). -/

namespace Sys2Proof.Machine

open Sys2Proof

/-! ## Fields of format V (Table 7-4) -/

def vFunc (w : Word) : Nat := wf w 52 48
def vZm (w : Word) : Bool := w.toNat.testBit 53
def vD (w : Word) : Nat := wf w 47 44
def vA (w : Word) : Nat := wf w 43 40
def vB (w : Word) : Nat := wf w 39 36
def vC (w : Word) : Nat := wf w 35 32
def vEt (w : Word) : Nat := wf w 31 28
def vEtd (w : Word) : Nat := wf w 27 24
def vRm (w : Word) : Nat := wf w 23 22
def vSat (w : Word) : Bool := w.toNat.testBit 21
def vSs (w : Word) : Nat := wf w 20 16
def vImm (w : Word) : Nat := wf w 15 0

/-- MAJOR, PG and PN. -/
def vHead : Nat := bm 63 54

/-! ## VLD and VST -/

/-- A scratch access of VLD and VST: the address s[SS] + 64 × IMM, or the trap it takes. -/
def vecAddr (x : Ctx) (w : Word) (ok : Nat → Eff) : Eff :=
  let a := (x.sreg (vSs w) + BitVec.ofNat 64 (64 * vImm w)).toNat
  if a % 64 ≠ 0 then .trap 7 0 a else if !x.inWin a 256 then .trap 6 0 a else ok a

/-- Is the ET of VLD or VST legal: not reserved, and a block type only without a mask predicate? -/
def vecEtOk (w : Word) : Bool := decide (vEt w < 15) && !(etBlock (vEt w) != 0 && pgOf w != 0)

/-- Is a byte of a register inside an active element? For a block type every byte is, or none. -/
def byteActive (x : Ctx) (w : Word) (i : Nat) : Bool :=
  if etBlock (vEt w) ≠ 0 then x.active w 0
  else (List.range 8).any fun b => x.active w ((8 * i + b) / etWidth (vEt w) 0)

/-- VLD on a context. -/
def vldEff (x : Ctx) (w : Word) : Eff :=
  if !(onlyBits w (vHead + bm 53 53 + bm 47 44 + bm 31 28 + bm 20 0) && vecEtOk w) then .illegal
  else vecAddr x w fun a =>
    let old := x.vreg (vD w)
    let mem := le (x.load a 256)
    let act (b : Nat) : Bool := if etBlock (vEt w) ≠ 0 then x.active w 0 else x.active w (b / etWidth (vEt w) 0)
    let n := (List.range 2048).foldl (fun acc b =>
      acc + (if (if act b then mem.testBit b else !vZm w && old.testBit b) then 2 ^ b else 0)) 0
    .next (x.setV (vD w) n)

/-- VLD (chapter 7, 'Vector instructions'). -/
def execVld (c : Fin 4096) (s : State) : Outcome := .next (s.plainOp c 0x11 vldEff)

/-- VST on a context: the bits of active elements alone are written. -/
def vstEff (x : Ctx) (w : Word) : Eff :=
  if !(onlyBits w (vHead + bm 47 44 + bm 31 28 + bm 20 0) && vecEtOk w) then .illegal
  else vecAddr x w fun a =>
    let v := x.vreg (vD w)
    let act (b : Nat) : Bool := if etBlock (vEt w) ≠ 0 then x.active w 0 else x.active w (b / etWidth (vEt w) 0)
    let d := (x.load a 256).zipIdx.map fun p =>
      BitVec.ofNat 8 ((List.range 8).foldl (fun acc b =>
        acc + (if (if act (8 * p.2 + b) then v.testBit (8 * p.2 + b) else p.1.toNat.testBit b) then 2 ^ b else 0)) 0)
    .next (x.store a d)

/-- VST (chapter 7, 'Vector instructions'). -/
def execVst (c : Fin 4096) (s : State) : Outcome := .next (s.plainOp c 0x12 vstEff)

/-! ## Writing a destination -/

/-- A context with the results of an operation: the write, the sticky flags, and the generator after the draws of a stochastic rounding. -/
def committed (x : Ctx) (flags : Nat) (g : Nat × Bool) (rm : Nat) (write : Ctx → Ctx) : Ctx :=
  let y := (write x).addFlags flags
  if rm = 2 then y.setW 5 (seedWord g) else y

/-- Commit results: an enabled flag traps before anything is written (R242); else the register, the sticky flags and the generator change. -/
def commit (x : Ctx) (flags : Nat) (g : Nat × Bool) (rm : Nat) (write : Ctx → Ctx) : Eff :=
  if x.trapFlags flags ≠ 0 then .trap 9 flags 0 else .next (committed x flags g rm write)

/-- The rounding of a destination: an integer type draws nothing. -/
def elemRm (w : Word) : Nat := if etInt (vEtd w) then 0 else vRm w

/-- Results of a plain elementwise operation: n destination elements of width wd, each its pattern and flags, where `f i u` gives element i's
from its draw; and the generator after the draws (R241). -/
def elemRun (x : Ctx) (w : Word) (n wd : Nat) (f : Nat → Nat → Nat × Nat) : List (Nat × Nat) × (Nat × Bool) :=
  let (us, g) := drawsFor (elemRm w) ((List.range n).map (x.active w)) x.gen
  ((List.range n).map fun i => if x.active w i then f i ((us[i]?).getD 0) else (if vZm w then 0 else elemAt wd (x.vreg (vD w)) i, 0), g)

/-- A plain elementwise operation. -/
def elementwise (x : Ctx) (w : Word) (n wd : Nat) (f : Nat → Nat → Nat × Nat) : Eff :=
  let r := elemRun x w n wd f
  commit x (orFlags (r.1.map Prod.snd)) r.2 (elemRm w) fun x => x.setV (vD w) (packElems wd (r.1.map Prod.fst))

/-- Is the ET of the arithmetic instructions one of Table 7-12 and ETD equal to it, with no rounding code for an integer type? -/
def arithEt (w : Word) (ints : Bool) : Bool :=
  vEtd w == vEt w && (decide (vEt w < 3) || (ints && (vEt w == 11 || vEt w == 13) && vRm w == 0))

/-- A floating result of a plain type: rounded, with IV for an invalid operation or a signalling operand. -/
def fltOut (w : Word) (et u : Nat) (snan : Bool) (r : Val × Bool) : Nat × Nat :=
  match etFmt et with
  | some f =>
    let (p, fl) := toFloat f (vSat w) (vRm w) u r.1 r.2
    (p, fl ||| (if snan then flagIV else 0))
  | none => (0, 0)

/-- Elements of the operand registers as values. -/
def srcVal (et v i : Nat) : Val := elemVal et 0 0 (elemAt (etWidth et 0) v i)
def srcInt (et v i : Nat) : Int := sext (etWidth et 0) (elemAt (etWidth et 0) v i)
def srcSnan (et v i : Nat) : Bool := elemSnan et (elemAt (etWidth et 0) v i)

/-- An exact product plus a third term: its value and whether it is invalid. -/
def mulAdd (a b c : Val) : Val × Bool :=
  let (p, iv) := Val.mul a b
  let (r, iv2) := Val.sum [p, c]
  (r, iv || iv2)

/-- VADD, VMUL and VMAC of one element. -/
def arith (op : Nat) (x : Ctx) (w : Word) (i u : Nat) : Nat × Nat :=
  let et := vEt w
  let a := x.vreg (vA w)
  let b := x.vreg (vB w)
  let d := x.vreg (vC w)
  if etInt et then
    let k := if op = 0 then srcInt et a i + srcInt et b i
      else if op = 1 then srcInt et a i * srcInt et b i
      else srcInt et d i + srcInt et a i * srcInt et b i
    toIntW (etWidth et 0) (vSat w) k
  else
    let sn := srcSnan et a i || srcSnan et b i || (op == 2 && srcSnan et d i)
    fltOut w et u sn (if op = 0 then Val.sum [srcVal et a i, srcVal et b i]
      else if op = 1 then Val.mul (srcVal et a i) (srcVal et b i)
      else mulAdd (srcVal et a i) (srcVal et b i) (srcVal et d i))

/-- Used bits of VADD and VMUL, and of VMAC. -/
def vAbBits : Nat := vHead + bm 53 53 + bm 47 36 + bm 31 21
def vAbcBits : Nat := vHead + bm 53 53 + bm 47 32 + bm 31 21

/-- VADD, VMUL or VMAC on a context. -/
def arithEff (op : Nat) (x : Ctx) (w : Word) : Eff :=
  if !(onlyBits w (if op = 2 then vAbcBits else vAbBits) && arithEt w true) then .illegal
  else elementwise x w (etCount (vEt w) 0) (etWidth (vEt w) 0) (arith op x w)

/-- VADD (Table 7-8). -/
def execVadd (c : Fin 4096) (s : State) : Outcome := .next (s.plainOp c 0x13 (arithEff 0))
/-- VMUL (Table 7-8, R243). -/
def execVmul (c : Fin 4096) (s : State) : Outcome := .next (s.plainOp c 0x14 (arithEff 1))
/-- VMAC (Table 7-8, R238). -/
def execVmac (c : Fin 4096) (s : State) : Outcome := .next (s.plainOp c 0x15 (arithEff 2))

/-! ## VMAX -/

/-- The larger of two elements: of one NaN and a number the number, of two NaNs the canonical one. -/
def maxElem (et a b : Nat) : Nat × Nat :=
  if etInt et then (if sext (etWidth et 0) a < sext (etWidth et 0) b then b else a, 0)
  else
    let va := elemVal et 0 0 a
    let vb := elemVal et 0 0 b
    let fl := if elemSnan et a || elemSnan et b then flagIV else 0
    match etFmt et with
    | some f =>
      (if va = .nan ∧ vb = .nan then f.nan else if va = .nan then b else if vb = .nan then a else if Val.lt va vb then b else a, fl)
    | none => (0, 0)

/-- VMAX on a context: RM and SAT are not used. -/
def vmaxEff (x : Ctx) (w : Word) : Eff :=
  if !(onlyBits w (vHead + bm 53 53 + bm 47 36 + bm 31 24) && arithEt w true) then .illegal
  else
    let wd := etWidth (vEt w) 0
    elementwise x w (etCount (vEt w) 0) wd fun i _ => maxElem (vEt w) (elemAt wd (x.vreg (vA w)) i) (elemAt wd (x.vreg (vB w)) i)

/-- VMAX (chapter 7, below Table 7-12). -/
def execVmax (c : Fin 4096) (s : State) : Outcome := .next (s.plainOp c 0x16 vmaxEff)

/-! ## VDOT (R245) -/

/-- Result i of VDOT: VC[i] plus the products of its group. -/
def dotElem (x : Ctx) (w : Word) (i u : Nat) : Nat × Nat :=
  let et := vEt w
  let g := etCount et 0 / 64
  let a := x.vreg (vA w)
  let b := x.vreg (vB w)
  let d := elemAt 32 (x.vreg (vC w)) i
  let js := (List.range g).map (· + g * i)
  if etInt et then toIntW 32 (vSat w) (js.foldl (fun t j => t + srcInt et a j * srcInt et b j) (sext 32 d))
  else
    let ps := js.map fun j => Val.mul (srcVal et a j) (srcVal et b j)
    let (r, iv) := Val.sum (elemVal 0 0 0 d :: ps.map Prod.fst)
    let sn := elemSnan 0 d || js.any fun j => srcSnan et a j || srcSnan et b j
    fltOut w 0 u sn (r, iv || ps.any Prod.snd)

/-- VDOT on a context. -/
def vdotEff (x : Ctx) (w : Word) : Eff :=
  let et := vEt w
  if !(onlyBits w vAbcBits && ((decide (et < 5) && vEtd w == 0) || (et == 11 && vEtd w == 13 && vRm w == 0))) then .illegal
  else elementwise x w 64 32 (dotElem x w)

/-- VDOT (R245). -/
def execVdot (c : Fin 4096) (s : State) : Outcome := .next (s.plainOp c 0x17 vdotEff)

/-! ## VRED (R246) -/

/-- The extreme of some floating values: NaN is passed over, and is the result where there is nothing else. -/
def extreme (big : Bool) (l : List Val) : Val :=
  l.foldl (fun a b => if a = .nan then b else if b = .nan then a else if Val.lt a b = big then (if Val.lt a b || Val.lt b a then b else a) else a) .nan

/-- The result of VRED and its flags. -/
def redOut (x : Ctx) (w : Word) (u : Nat) : BitVec 64 × Nat :=
  let et := vEt w
  let v := x.vreg (vA w)
  let is := (List.range (etCount et 0)).filter (x.active w)
  if etInt et then
    let l := is.map (srcInt et v)
    let k : Int := match l with
      | [] => 0
      | h :: t => if vFunc w = 0 then t.foldl (· + ·) h else if vFunc w = 1 then t.foldl max h else t.foldl min h
    (BitVec.ofInt 64 k, 0)
  else
    let l := is.map (srcVal et v)
    let sn := is.any (srcSnan et v)
    let r : Val × Bool := if vFunc w = 0 then (if l.isEmpty then (.fin false 0 0, false) else Val.sum l) else (extreme (vFunc w == 1) l, false)
    let (p, fl) := toFloat fp32 (vSat w) (vRm w) u r.1 r.2
    (BitVec.ofNat 64 p, fl ||| (if sn then flagIV else 0))

/-- VRED on a context. -/
def vredEff (x : Ctx) (w : Word) : Eff :=
  let et := vEt w
  let int := et == 11 || et == 13
  if !(onlyBits w (vHead + bm 52 48 + bm 43 40 + bm 31 28 + bm 23 16) && decide (vFunc w ≤ 2) && (decide (et < 3) || (int && vRm w == 0 && !vSat w)))
  then .illegal
  else
    let (us, g) := drawsFor (vRm w) [true] x.gen
    let (r, fl) := redOut x w (us.headD 0)
    commit x fl g (vRm w) fun x => x.setS (vSs w) r

/-- VRED (R246). -/
def execVred (c : Fin 4096) (s : State) : Outcome := .next (s.plainOp c 0x18 vredEff)

/-! ## VSCALE -/

/-- One element of VSCALE: times the FP32 value of s[SS][31:0], or times a power of two. -/
def scaleElem (x : Ctx) (w : Word) (i u : Nat) : Nat × Nat :=
  let et := vEt w
  let a := srcVal et (x.vreg (vA w)) i
  let k := x.sreg (vSs w)
  let sn := srcSnan et (x.vreg (vA w)) i
  if vFunc w = 0 then fltOut w et u (sn || elemSnan 0 (k.toNat % 2 ^ 32)) (Val.mul a (elemVal 0 0 0 (k.toNat % 2 ^ 32)))
  else fltOut w et u sn (a.scale (clampInt (-2000) 2000 k.toInt), false)

/-- VSCALE on a context. -/
def vscaleEff (x : Ctx) (w : Word) : Eff :=
  if !(onlyBits w (vHead + bm 53 53 + bm 52 40 + bm 31 16) && decide (vFunc w ≤ 1) && arithEt w false) then .illegal
  else elementwise x w (etCount (vEt w) 0) (etWidth (vEt w) 0) (scaleElem x w)

/-- VSCALE (Table 7-8). -/
def execVscale (c : Fin 4096) (s : State) : Outcome := .next (s.plainOp c 0x1A vscaleEff)

/-! ## VCVT (R247) -/

/-- The value of source element i of VCVT, 0 beyond the last, and whether it is a signalling NaN. -/
def cvtVal (x : Ctx) (w : Word) (kc i : Nat) : Val × Bool :=
  let et := vEt w
  let b := etBlock et
  if i ≥ etCount et kc then (.fin false 0 0, false)
  else
    let e := elemAt (etWidth et kc) (x.vreg (vA w)) i
    (elemVal et kc (if b = 0 then 0 else scaleAt (x.vreg (vB w)) (wf w 3 3) (i / b)) e, elemSnan et e)

/-- One converted element of a plain destination. -/
def cvtElem (w : Word) (u : Nat) (v : Val × Bool) : Nat × Nat :=
  let etd := vEtd w
  if etInt etd then
    if etInt (vEt w) then
      toIntW (etWidth etd 0) (vSat w) (v.1.onGrid 0)
    else floatToInt (etWidth etd 0) (vRm w) u v.1
  else
    match etFmt etd with
    | some f =>
      let (p, fl) := toFloat f (vSat w) (vRm w) u v.1 false
      (p, fl ||| (if v.2 then flagIV else 0))
    | none => (0, 0)

/-- A scale register with some scale bytes of a half written and those beyond the last block zero (R236). -/
def putScales (v half blocks : Nat) (ss : List (Nat × Nat)) : Nat :=
  packElems 8 ((List.range 256).map fun i =>
    let j := i - 32 * half
    if 32 * half ≤ i ∧ j < 32 then
      (if j ≥ blocks then 0 else match ss.find? fun p => p.1 == j with
        | some p => p.2
        | none => elemAt 8 v i)
    else elemAt 8 v i)

/-- Source and destination indices of a VCVT: (source, destination) pairs. -/
def cvtPairs (nS nD p : Nat) : List (Nat × Nat) :=
  let m := min nS nD
  if nS > nD then (List.range m).map fun i => (p * m + i, i)
  else ((List.range m).map fun i => (i, p * m + i)).filter fun q => decide (q.2 < nD)

/-- The blocks of a VCVT into a block type: each block's number, scale byte, elements and flags, and whether an element of it is active. Its
scale is chosen from the values of its active elements. -/
def cvtOuts (x : Ctx) (w : Word) (kc : Nat) (ps : List (Nat × Nat)) : List (Nat × Nat × List Nat × Nat × Bool) :=
  let etd := vEtd w
  let b := etBlock etd
  let us := (drawsFor (vRm w) (ps.map fun q => x.active w q.2) x.gen).1
  let first := (ps.head?.map Prod.snd).getD 0 / b
  (List.range (ps.length / b)).map fun k =>
    let qs := (ps.drop (k * b)).take b
    let vs := qs.map fun q => if x.active w q.2 then cvtVal x w kc q.1 else (Val.fin false 0 0, false)
    let (sc, es, fl) := blockTo etd kc (vRm w) ((us.drop (k * b)).take b) (vs.map Prod.fst)
    (first + k, sc, es, fl ||| (if vs.any Prod.snd then flagIV else 0), qs.any fun q => x.active w q.2)

/-- VCVT into a block type: a block with no active element is not written. -/
def cvtBlocks (x : Ctx) (w : Word) (kc : Nat) (ps : List (Nat × Nat)) : Eff :=
  let etd := vEtd w
  let b := etBlock etd
  let wd := etWidth etd kc
  let old := x.vreg (vD w)
  let outs := cvtOuts x w kc ps
  let g := (drawsFor (vRm w) (ps.map fun q => x.active w q.2) x.gen).2
  let flat := outs.flatMap fun o => o.2.2.1
  let lo := (ps.head?.map Prod.snd).getD 0 / b * b
  let n := etCount etd kc
  let es := (List.range n).map fun i =>
    if lo ≤ i ∧ i < lo + flat.length then
      (if x.active w i then (flat[i - lo]?).getD 0 else if vZm w then 0 else elemAt wd old i)
    else elemAt wd old i
  let scales := outs.filterMap fun o => if o.2.2.2.2 then some (o.1, o.2.1) else none
  commit x (orFlags (outs.map fun o => if o.2.2.2.2 then o.2.2.2.1 else 0)) g (vRm w) fun x =>
    (x.setV (vD w) (packElems wd es)).setV (vC w) (putScales ((x.setV (vD w) (packElems wd es)).vreg (vC w)) (wf w 3 3) (n / b) scales)

/-- Results of a VCVT into a plain type. -/
def cvtResults (x : Ctx) (w : Word) (kc rm : Nat) (ps : List (Nat × Nat)) : List (Nat × Nat) :=
  let us := (drawsFor rm (ps.map fun q => x.active w q.2) x.gen).1
  (List.range ps.length).map fun k => match ps[k]? with
    | some q => if x.active w q.2 then cvtElem w ((us[k]?).getD 0) (cvtVal x w kc q.1)
      else (if vZm w then 0 else elemAt (etWidth (vEtd w) 0) (x.vreg (vD w)) q.2, 0)
    | none => (0, 0)

/-- VCVT into a plain type; with RM 2 each active destination element draws, be it exact or not (R241). -/
def cvtPlain (x : Ctx) (w : Word) (kc : Nat) (ps : List (Nat × Nat)) : Eff :=
  let etd := vEtd w
  let wd := etWidth etd 0
  let old := x.vreg (vD w)
  let rm := vRm w
  let g := (drawsFor rm (ps.map fun q => x.active w q.2) x.gen).2
  let rs := cvtResults x w kc rm ps
  let lo := (ps.head?.map Prod.snd).getD 0
  let es := (List.range (etCount etd 0)).map fun i =>
    if lo ≤ i ∧ i < lo + rs.length then ((rs[i - lo]?).getD (0, 0)).1 else elemAt wd old i
  commit x (orFlags (rs.map Prod.snd)) g rm fun x => x.setV (vD w) (packElems wd es)

/-- VCVT on a context. -/
def vcvtEff (x : Ctx) (w : Word) : Eff :=
  let et := vEt w
  let etd := vEtd w
  let kc := wf w 15 13
  let bS := etBlock et
  let bD := etBlock etd
  let p := wf w 2 0
  let used := vHead + bm 53 53 + bm 47 40 + bm 31 21 + bm 2 0
    + (if bS ≠ 0 then bm 39 36 else 0) + (if bD ≠ 0 then bm 35 32 else 0) + (if bS ≠ 0 ∨ bD ≠ 0 then bm 3 3 else 0)
    + (if et = 14 ∨ etd = 14 then bm 15 13 else 0)
  let nS := etCount et kc
  let nD := etCount etd kc
  let m := min nS nD
  if !(onlyBits w used && decide (et < 15) && decide (etd < 15) && decide (kc ≤ 4)) then .illegal
  else if (nS = nD ∧ p ≠ 0) ∨ p * m ≥ max nS nD ∨ (bD ≠ 0 ∧ m % bD ≠ 0) then .illegal
  else if bD ≠ 0 then cvtBlocks x w kc (cvtPairs nS nD p) else cvtPlain x w kc (cvtPairs nS nD p)

/-- VCVT (R247). -/
def execVcvt (c : Fin 4096) (s : State) : Outcome := .next (s.plainOp c 0x19 vcvtEff)

end Sys2Proof.Machine
end

