-- ==== Sys2Proof/Machine/Stream.lean ====
section
/-! DEFINITION. Memory and stream instructions (spec/07_ralath_isa.md R251 to R256, Table 7-14): the asynchronous operations, the ports,
FETCHF and the top-k unit. -/

namespace Sys2Proof.Machine

open Sys2Proof

/-! ## Fields of format X (Table 7-6) -/

def xFunc (w : Word) : Nat := wf w 52 49
def xAb (w : Word) : Nat := wf w 48 45
def xSi (w : Word) : Nat := wf w 44 40
def xSl (w : Word) : Nat := wf w 39 35
def xSs (w : Word) : Nat := wf w 34 30
def xVr (w : Word) : Nat := wf w 29 26
def xEt (w : Word) : Nat := wf w 25 22
def xImm (w : Word) : Nat := wf w 21 0

/-! ## Asynchronous operations (R253, R254) -/

/-- The pieces of a byte range by lines: address and length. -/
def linePieces (sa n : Nat) : List (Nat × Nat) :=
  if n = 0 then []
  else (List.range ((sa + n - 1) / 64 - sa / 64 + 1)).map fun i =>
    let a := if i = 0 then sa else (sa / 64 + i) * 64
    (a, min (sa + n) ((sa / 64 + i + 1) * 64) - a)

/-- Check the units of an operation in order: those before the first that faults, each with whether it takes the no-lease path, and the
address of the one that faults. -/
def State.planUnits (s : State) (c : Nat) (x : Ctx) (right : Nat) : List (Nat × Nat) → List (Nat × Nat × Bool) × Option Nat
  | [] => ([], none)
  | (sa, n) :: t =>
    match s.reach c x sa n right with
    | .fault => ([], some sa)
    | a => let (l, f) := s.planUnits c x right t; ((sa, n, a == .noLease) :: l, f)

/-- The imprecise trap that an operation leaves behind at issue (chapter 7, cases 'When a space read returns poison' and 'When an asynchronous
operation faults after later instructions have run'); `pois` is the first line that takes the no-lease path. -/
def lateOf (x : Ctx) (right : Nat) (pois : Option Nat) (fault : Option Nat) : Option (Nat × Nat × Nat × Nat) :=
  if x.late.isSome then x.late
  else match (if x.trapsPoison then pois else none) with
  | some l => some (0x0A, 4, l * 64, x.pc)
  | none => fault.map fun a => (5, right, a, x.pc)

/-- Issue an asynchronous read of units of the space to scratch; lines of the system extent are this module's own (R273). -/
def State.asyncRead (s : State) (c : Nat) (x : Ctx) (kind : Nat) (units : List (Nat × Nat)) (dst : Nat) : State :=
  let (plan, fault) := s.planUnits c x 1 units
  let lines := plan.flatMap fun u => (linePieces u.1 u.2.1).map fun p => (saLine p.1, u.2.2)
  let reads := lines.filterMap fun l => if l.2 || s.sysAccess c (l.1 * 64) 1 1 then none else some l.1
  let own := lines.filterMap fun l => if s.sysAccess c (l.1 * 64) 1 1 then some (l.1, s.sysLine (l.1 * 64)) else none
  let dead := lines.filterMap fun l => if l.2 then some l.1 else none
  let k := s.nextId + 1
  let len := (plan.map fun u => u.2.1).foldl (· + ·) 0
  let o : AOp := { id := k, kind := kind, left := reads.length, dst := dst, lines := own.foldl (fun m e => put m e.1 e.2) [], ps := !dead.isEmpty,
                   info := x.pc :: (units.head?.map fun u => u.1 % 64).getD 0 :: len :: lines.map Prod.fst }
  let y := dead.foldl (fun y l => y.poisoned 4 l) x
  let y := { y.advance with ops := x.ops ++ [o], late := lateOf x 1 dead.head? fault }
  let s := ({ s with nextId := k }).setCtx c y
  let s := if dead.isEmpty then s else s.post 0x0307 []
  s.each reads fun s l => s.ctxReq c k x .rd (l * 64) 0 []

/-- Issue an asynchronous write of units of the space from scratch, which is read now. -/
def State.asyncOut (s : State) (c : Nat) (x : Ctx) (kind : Nat) (units : List (Nat × Nat)) (src : Nat) : State :=
  let (plan, fault) := s.planUnits c x 2 units
  let tot := plan.foldl (fun (acc : Nat × List (Nat × Nat × Nat × Bool)) u => (acc.1 + u.2.1, acc.2 ++ [(u.1, u.2.1, acc.1, u.2.2)])) (src, [])
  let parts := tot.2.flatMap fun u => (linePieces u.1 u.2.1).map fun p => (p.1, p.2, u.2.2.1 + (p.1 - u.1), u.2.2.2)
  let live := parts.filter fun p => !p.2.2.2
  let dead := (parts.filter fun p => p.2.2.2).length
  let k := s.nextId + 1
  let o : AOp := { id := k, kind := kind, left := live.length, dst := 0, lines := [], ps := false, info := [x.pc] }
  let y := { x.advance with ops := x.ops ++ [o], late := lateOf x 2 none fault }
  let s := ({ s with nextId := k }).setCtx c y
  let s := s.each (List.range dead) fun s _ => s.dropWrite
  s.each live fun s p =>
    let off := p.1 % 64
    s.ctxReq c k x .wr (p.1 / 64 * 64) ((2 ^ p.2.1 - 1) * 2 ^ off) (zeros off ++ x.load p.2.2.1 p.2.1 ++ zeros (64 - off - p.2.1))

/-- Rows of GATHER and SCATTER: row j at a[AB] + index j × IMM, indices of 32 or 64 bits in scratch at s[SI]. -/
def rowUnits (x : Ctx) (w : Word) (n : Nat) : List (Nat × Nat) :=
  let iw := if xFunc w = 1 then 8 else 4
  (List.range n).map fun j =>
    let i := le (x.load ((x.sreg (xSi w)).toNat + iw * j) iw)
    (((x.areg (xAb w)).toNat + i * xImm w) % 2 ^ 64, xImm w)

/-- GATHER or SCATTER (kind 1 or 2): checks at issue, then the rows. -/
def State.rowsOp (s : State) (c : Nat) (x : Ctx) (w : Word) (kind : Nat) : State :=
  let n := (x.sreg (xSl w)).toNat
  let iw := if xFunc w = 1 then 8 else 4
  let a := (x.areg (xAb w)).toNat
  let ix := (x.sreg (xSi w)).toNat
  let m := (x.sreg (xSs w)).toNat
  if !(onlyBits w (bm 63 54 + bm 49 30 + bm 21 0) && xImm w % 64 == 0 && xImm w != 0) then s.doEff c x .illegal
  else if !x.guard w then s.doEff c x (.next x)
  else if n = 0 ∨ n > 65536 then s.doEff c x .illegal
  else if a % 64 ≠ 0 then s.doEff c x (.trap 7 0 a)
  else if !x.inWin ix (iw * n) then s.doEff c x (.trap 6 0 ix)
  else if !x.inWin m (xImm w * n) then s.doEff c x (.trap 6 0 m)
  else if x.asyncs ≥ 16 then s
  else if kind = 1 then s.asyncRead c x 1 (rowUnits x w n) m
  else s.asyncOut c x 2 (rowUnits x w n) m

/-- GATHER (R254, Table 7-14). -/
def execGather (c : Fin 4096) (s : State) : Outcome := .next (s.issue c (fun m => m == 0x20) fun x w => s.rowsOp c x w 1)
/-- SCATTER (R254, Table 7-14). -/
def execScatter (c : Fin 4096) (s : State) : Outcome := .next (s.issue c (fun m => m == 0x21) fun x w => s.rowsOp c x w 2)

/-- STREAM on a context. -/
def State.streamOp (s : State) (c : Nat) (x : Ctx) (w : Word) : State :=
  let n := (x.sreg (xSl w)).toNat
  let sa := (x.areg (xAb w) + x.sreg (xSi w)).toNat
  let m := (x.sreg (xSs w)).toNat
  if !onlyBits w (bm 63 54 + bm 49 30) then s.doEff c x .illegal
  else if !x.guard w then s.doEff c x (.next x)
  else if n % 64 ≠ 0 then s.doEff c x (.trap 7 0 sa)
  else if !x.inWin m n then s.doEff c x (.trap 6 0 m)
  else if x.asyncs ≥ 16 then s
  else if xFunc w = 0 then s.asyncRead c x 3 (linePieces sa n) m
  else s.asyncOut c x 4 (linePieces sa n) m

/-- STREAM (R254, Table 7-14). -/
def execStream (c : Fin 4096) (s : State) : Outcome := .next (s.issue c (fun m => m == 0x22) fun x w => s.streamOp c x w)

/-- The bytes that an operation brings, from its lines. -/
def AOp.bytes (o : AOp) : Bytes :=
  match o.info with
  | _ :: skip :: len :: ls => ((ls.flatMap fun l => (look o.lines l).getD (zeros 64)).drop skip).take len
  | _ => []

/-- ASYNC_OP_DONE (R253, R254): the operation of a number, whose lines are all transferred, completes: what it brings is in scratch. -/
def execAsyncOpDone (c : Fin 4096) (op : Nat) (s : State) : Outcome := .next <|
  match look s.tlr.ctxs c with
  | none => s
  | some x =>
    match x.ops.find? fun o => o.id == op && decide (1 ≤ o.kind ∧ o.kind ≤ 5) && o.left == 0 with
    | none => s
    | some o =>
      let y := { x with ops := x.ops.filter fun q => q.id != op }
      s.setCtx c (if o.kind = 1 ∨ o.kind = 3 then y.store o.dst o.bytes else y)

/-! ## PUT (R254, R288) -/

/-- A placement request from its 16 bytes (Table 5-4). -/
def placeOf (d : Bytes) : PlaceReq :=
  { op := byteAt d 0, cls := byteAt d 1 % 8, count := leAt d 2 2, tag := leAt d 4 4, first := leAt d 8 8 % 2 ^ 38, peer := none }

/-- A PUT to the placement request port: it waits while the port holds 1,024 requests (R193). A request without an op is refused page by
page (log entry 42). -/
def State.putPlace (s : State) (c : Nat) (x : Ctx) (d : Bytes) : State :=
  let q := placeOf d
  if 1 ≤ q.op ∧ q.op ≤ 5 then
    if s.tier.placeQ.length ≥ 1024 then s else (s.onTier fun t => { t with placeQ := t.placeQ ++ [q] }).setCtx c x.advance
  else (s.runPlace q none).setCtx c x.advance

/-- The record of a PUT to the completion port (R288): bytes 0 to 23 are the module's, the rest the message's. -/
def State.progressRec (d : DescLive) (ctxid : Nat) (body : Bytes) : Bytes :=
  (cqRec (leAt d.raw 12 4) 4 0 (d.ends.filter fun e => e.status == 0).length (d.ends.length + d.left.length) ctxid 0 0 0 0 0).take 24 ++ body

/-- A PUT to the completion port: to the ring of the portal of the context's descriptor; it waits while there is no completion space. -/
def State.putProgress (s : State) (c : Nat) (x : Ctx) (d : Bytes) : State :=
  let body := (d.drop 24).take 40
  if s.tlr.polCtx = some c then s.setCtx c x.advance
  else if x.portal ≠ s.me then (s.copyTo x.portal (.progress x.desc (toLe 8 (s.ctxId c x) ++ body))).setCtx c x.advance
  else
    match look s.tlr.descs x.desc with
    | none => s.setCtx c x.advance
    | some q =>
      let (s, ok) := s.cqPost q.ld q.ring (State.progressRec q (s.ctxId c x) body) ((byteAt q.raw 1) % 2 == 1)
      if ok then s.setCtx c x.advance else s

/-- PUT with FUNC other than 1: a message to port IMM[3:0]; FUNC above 1 and ports 2 to 15 are illegal. -/
def State.putPort (s : State) (c : Nat) (x : Ctx) (w : Word) : State :=
  let m := (x.sreg (xSs w)).toNat
  let n := if xImm w = 0 then 16 else 64
  if !(onlyBits w (bm 63 54 + bm 34 30 + bm 3 0) && decide (xImm w ≤ 1)) then s.doEff c x .illegal
  else if !x.guard w then s.doEff c x (.next x)
  else if !x.inWin m n then s.doEff c x (.trap 6 0 m)
  else if xImm w = 0 then s.putPlace c x (x.load m 16)
  else s.putProgress c x (x.load m 64)

/-- PUT_PORT_MESSAGE (R254, R193, R288). -/
def execPutPortMessage (c : Fin 4096) (s : State) : Outcome := .next (s.issue c (fun m => m == 0x23) fun x w =>
  if xFunc w = 1 then s else s.putPort c x w)

/-- PUT with FUNC 1: one whole-line write. -/
def State.putLine (s : State) (c : Nat) (x : Ctx) (w : Word) : State :=
  let sa := (x.areg (xAb w) + x.sreg (xSi w)).toNat
  let m := (x.sreg (xSs w)).toNat
  if !onlyBits w (bm 63 54 + bm 49 40 + bm 34 30) then s.doEff c x .illegal
  else if !x.guard w then s.doEff c x (.next x)
  else if sa % 64 ≠ 0 then s.doEff c x (.trap 7 0 sa)
  else if !x.inWin m 64 then s.doEff c x (.trap 6 0 m)
  else if x.asyncs ≥ 16 then s
  else s.asyncOut c x 5 [(sa, 64)] m

/-- PUT_LINE_WRITE (R254). -/
def execPutLineWrite (c : Fin 4096) (s : State) : Outcome := .next (s.issue c (fun m => m == 0x23) fun x w =>
  if xFunc w = 1 then s.putLine c x w else s)

/-! ## FETCHF (R255) -/

/-- Does a page class hold the stored form of an element type: L-MX8 0x5 to L-MXI8 0xA, or L-BX with this k code for 0xE? -/
def formOk (et kc cls bxk : Nat) : Bool := if et = 14 then cls == 11 && bxk == kc else cls == et

/-- What FETCHF brings: blocks of elements with their scale bytes, and the syndrome and line of the first that is poisoned. -/
structure Fetched where
  blocks : List (List Nat × Nat)
  bad : Option (Nat × Nat)
  deriving DecidableEq, Repr

/-- A block of zeros. -/
def zeroBlock (b : Nat) : List Nat × Nat := (List.replicate b 0, 0)

/-- Block k of a page in stored form from its near husk: check bytes and decryption only (R255). A grain or a host line that is poisoned gives
zeros with its syndrome. -/
def State.storedBlock (s : State) (page : Nat) (p : Pme) (x : Extent) (b wd k : Nat) : (List Nat × Nat) × Option (Nat × Nat) :=
  let hb := b * elemBytes x.elem
  let g := k * hb / 256
  let lines := (List.range ((hb + 63) / 64)).map fun i => page * 64 + k * hb / 64 + i
  match lines.findSome? fun l => (s.plistLine l).map fun y => (y, l) with
  | some e => (zeroBlock b, some e)
  | none =>
    match s.nearGlume p with
    | none => (zeroBlock b, some (1, page * 64 + 4 * g))
    | some q =>
      match s.storedGrain p q g, s.keyOf q.key with
      | (_, some y), _ => (zeroBlock b, some (y, page * 64 + 4 * g))
      | (_, none), none => (zeroBlock b, some (6, page * 64 + 4 * g))
      | (st, none), some key =>
        let plain := cryptGrain true key page g st
        let n := blockBytes p.cls (bxK x.bxk)
        let d := (plain.drop (n * (k * hb % 256 / hb))).take n
        ((List.range b).map (fun j => unpackLe wd (d.drop 1) j), byteAt d 0) |> fun r => (r, none)

/-- Blocks from block k0 of a page: those beyond its end are zero with scale byte 0. -/
def State.fetchBlocks (s : State) (page : Nat) (x : Extent) (b wd k0 n : Nat) : Fetched :=
  let p := s.pmeOf page
  let total := 4096 / (b * elemBytes x.elem)
  let rs := (List.range n).map fun i =>
    if k0 + i ≥ total then (zeroBlock b, none) else s.storedBlock page p x b wd (k0 + i)
  ⟨rs.map Prod.fst, rs.findSome? Prod.snd⟩

/-- How a FETCHF stands: data, a wait, or a class that does not match. -/
inductive FetchRes where
  | got (f : Fetched)
  | wait
  | form (cls : Nat)
  deriving DecidableEq, Repr

/-- Read n blocks of a page homed here in stored form from block k0. -/
def State.fetchPage (s : State) (page : Nat) (x : Extent) (et kc cls n k0 : Nat) : State × FetchRes :=
  let b := etBlock et
  let wd := etWidth et kc
  let zero : Fetched := ⟨List.replicate n (zeroBlock b), none⟩
  let p := s.pmeOf page
  let busy := !(s.slotsOf page).isEmpty
  if p.st == .unwritten && !busy then (s, .got zero)
  else if x.cls = 12 ∨ !formOk et kc (if p.st == .unwritten then x.cls else p.cls) x.bxk then (s, .form (if p.st == .unwritten ∨ x.cls = 12 then x.cls else p.cls))
  else if busy then (s, .wait)
  else match p.st with
    | .poisoned => (s, .got { zero with bad := some (s.pageSynd page, page * 64) })
    | .far => (s.needPull page cls, .wait)
    | .promoting => (s, .wait)
    | _ =>
      if s.hasUncorr p then
        let (s, rc) := s.recover page cls
        match rc with
        | .now => (s, .got (s.fetchBlocks page x b wd k0 n))
        | .none => (s, .got (if (s.pme page).st == .poisoned then { zero with bad := some (s.pageSynd page, page * 64) } else s.fetchBlocks page x b wd k0 n))
        | _ => (s, .wait)
      else (s, .got (s.fetchBlocks page x b wd k0 n))

/-! ### A FETCHF of a page that another module homes (R255; log entry 43) -/

/-- Where the stored form of a page is read: here, at another module, nowhere since its home is absent, or not yet. -/
inductive FetchAt where
  | here
  | other (m : Nat)
  | absent
  | held
  deriving DecidableEq, Repr

/-- The module that reads a page for a FETCHF: its page home, the new member of a re-spread that has moved it, or the twin that acts for an absent
home; held while a takeover or Doze holds its requests (R90, R333, R498, Table 9-10). -/
def State.fetchAt (s : State) (page : Nat) : FetchAt :=
  let h := s.pageHome page
  let t := twinOf h
  if s.dozeHolds || (s.mirrored page && s.hdg.takeover.contains h) || s.hdg.twinMarks.contains page then .held
  else if s.homes page then
    match s.respreadOf page with
    | some q => if !q.moved.contains (pageIdx page) then .here
      else match s.movedHolder page q.new with
        | some m => if m = s.me then .here else .other m
        | none => .absent
    | none => .here
  else if h = s.me then .other t
  else if s.canRoute h then .other h
  else if s.mirrored page && t != s.me && s.canRoute t then .other t
  else .absent

/-- Answer a FETCHF of another module. -/
def State.fetchReply (s : State) (q : FetchWait) (f : Fetched) (form : Option Nat) : State := s.copyTo q.src (.fetched q.c q.k f.blocks f.bad form)

/-- What a FETCHF returns whose page is absent: poison with the syndrome of R315. -/
def absentBlocks (q : FetchWait) : Fetched := ⟨List.replicate q.n (zeroBlock (etBlock q.et)), some (5, q.page * 64)⟩

/-- A FETCHF of another module: answered here, sent on to the module that is page home now, or put back until its page can be read. -/
def State.fetchServe (s : State) (q : FetchWait) : State :=
  let wait (s : State) : State := s.onTlr fun t => { t with fetchQ := t.fetchQ ++ [q] }
  match s.fetchAt q.page, s.extent q.page with
  | .here, some e =>
    match s.fetchPage q.page e q.et q.kc q.cls q.n q.k0 with
    | (s, .got f) => s.fetchReply q f none
    | (s, .form k) => s.fetchReply q ⟨[], none⟩ (some k)
    | (s, .wait) => wait s
  | .other m, _ => s.copyTo m (.fetch q.src q.c q.k q.page q.et q.kc q.cls q.n q.k0)
  | .held, _ => wait s
  | _, _ => s.fetchReply q (absentBlocks q) none

/-- A FETCHF arrives from another module: an access to the page (R178). -/
def State.fetchFrom (s : State) (q : FetchWait) : State := (s.awake.countAccess q.page).fetchServe q

/-- The FETCHFs of other modules that wait are tried again. -/
def State.fetchesGo (s : State) : State :=
  if s.tlr.fetchQ.isEmpty then s else (s.onTlr fun t => { t with fetchQ := [] }).each s.tlr.fetchQ fun s q => s.fetchServe q

/-- Write the element register and the half of the scale register of a FETCHF. -/
def State.fetchPut (s : State) (c : Nat) (x : Ctx) (w : Word) (et kc : Nat) (f : Fetched) : State :=
  let x := x.setV (xVr w) (packElems (etWidth et kc) (f.blocks.flatMap Prod.fst))
  let sr := wf w 33 30
  let x := x.setV sr (putScales (x.vreg sr) (wf w 0 0) f.blocks.length (f.blocks.zipIdx.map fun b => (b.2, b.1.2)))
  s.setCtx c x.advance

/-- Put what a FETCHF brought into its registers, or trap on poison (R255). -/
def State.fetchEnd (s : State) (c : Nat) (x : Ctx) (w : Word) (sa : Nat) (f : Fetched) : State :=
  let et := xEt w
  let kc := wf w 3 1
  let x := { x with wait := .run }
  match f.bad with
  | some (y, l) =>
    let x := x.poisoned y l
    if x.trapsPoison then s.doEff c x (.trap 0x0A y sa) else s.fetchPut c x w et kc f
  | none => s.fetchPut c x w et kc f

/-- FETCHF past its checks: completes, waits, or traps on the form; a page that is not homed here is fetched from its home. -/
def State.fetchTry (s : State) (c : Nat) (x : Ctx) (w : Word) (e : Extent) (sa : Nat) : State :=
  let et := xEt w
  let kc := wf w 3 1
  let b := etBlock et
  let n := etCount et kc / b
  let k0 := sa % 4096 / (b * elemBytes e.elem)
  let k := s.nextId + 1
  match s.fetchAt (saPage sa) with
  | .here =>
    match s.fetchPage (saPage sa) e et kc (s.ctxClass x) n k0 with
    | (s, .wait) => s.setCtx c { x with wait := .fetch }
    | (s, .form k) => s.doEff c { x with wait := .run } (.trap 8 k sa)
    | (s, .got f) => s.fetchEnd c x w sa f
  | .held => s.setCtx c { x with wait := .fetch }
  | .absent => s.fetchEnd c x w sa (absentBlocks ⟨s.me, c, k, saPage sa, et, kc, 0, n, k0⟩)
  | .other m =>
    let o : AOp := { id := k, kind := 8, left := 1, dst := m, lines := [], ps := false, info := [x.pc] }
    (({ s with nextId := k }).setCtx c { x with wait := .fetch, ops := x.ops ++ [o] }).copyTo m (.fetch s.me c k (saPage sa) et kc (s.ctxClass x) n k0)

/-- Space address of a FETCHF. -/
def fetchSa (x : Ctx) (w : Word) : Nat := (x.areg (xAb w) + x.sreg (xSi w)).toNat

/-- FETCHF on a context: operand checks, grant and alignment, then the page. -/
def State.fetchOp (s : State) (c : Nat) (x : Ctx) (w : Word) : State :=
  let et := xEt w
  let kc := wf w 3 1
  let sa := fetchSa x w
  if !(onlyBits w (bm 63 54 + bm 48 40 + bm 33 22 + bm 3 0) && etOk et kc && etBlock et != 0) then s.doEff c x .illegal
  else if !x.guard w then s.doEff c x (.next x)
  else
    match look s.spc.extents (sa / 2 ^ 30) with
    | none => s.doEff c x (.trap 5 1 sa)
    | some e =>
      let hs := elemBytes e.elem
      let n := min (etCount et kc * hs) (4096 - sa % 4096)
      match s.access x sa n 1 with
      | .fault => s.doEff c x (.trap 5 1 sa)
      | a =>
        if sa % (etBlock et * hs) ≠ 0 then s.doEff c x (.trap 7 0 sa)
        else if a = .noLease then
          (s.post 0x0307 []).fetchEnd c x w sa ⟨List.replicate (etCount et kc / etBlock et) (zeroBlock (etBlock et)), some (4, saLine sa)⟩
        else (if s.homes (saPage sa) then s.countAccess (saPage sa) else s).fetchTry c x w e sa

/-- FETCHF (R255). -/
def execFetchf (c : Fin 4096) (s : State) : Outcome := .next (s.issue c (fun m => m == 0x24) fun x w => s.fetchOp c x w)

/-- The answer to a FETCHF of this module has come. -/
def State.fetchCame (s : State) (c k : Nat) (f : Fetched) (form : Option Nat) : State :=
  match look s.tlr.ctxs c with
  | none => s
  | some x =>
    if !(x.ops.any fun o => o.id == k && o.kind == 8) then s
    else
      let x := { x with wait := .run, ops := x.ops.filter fun o => o.id != k }
      match look s.tlr.sheaves x.sheaf with
      | none => s
      | some q =>
        let w := imgWord q.image x.pc
        match form with
        | some j => s.doEff c x (.trap 8 j (fetchSa x w))
        | none => s.fetchEnd c x w (fetchSa x w) f

/-- FETCHF_DONE (R255): a FETCHF that waits for its page completes once the page's stored form can be read; one that waits for another module's answer
goes on waiting. -/
def execFetchfDone (c : Fin 4096) (s : State) : Outcome := .next <|
  match look s.tlr.ctxs c with
  | none => s
  | some x =>
    if x.wait ≠ .fetch ∨ x.ended.isSome ∨ (x.ops.any fun o => o.kind == 8) then s
    else
      match look s.tlr.sheaves x.sheaf with
      | none => s
      | some q =>
        let w := imgWord q.image x.pc
        let sa := fetchSa x w
        match look s.spc.extents (sa / 2 ^ 30) with
        | none => s.doEff c { x with wait := .run } (.trap 5 1 sa)
        | some e => s.fetchTry c x w e sa

/-! ## The top-k unit (R256) -/

/-- Is record a better than record b? -/
def better (small : Bool) (a b : BitVec 32 × BitVec 64) : Bool :=
  let va := fp32.decode a.1.toNat
  let vb := fp32.decode b.1.toNat
  let lt (p q : Val) : Bool := (p != .nan && q != .nan) && Val.lt p q && !(p.mag.1 == 0 && q.mag.1 == 0 && !p.special && !q.special)
  if lt va vb then small else if lt vb va then !small else a.2.ult b.2

/-- Insert a record in a list kept best first. -/
def insertRec (small : Bool) (r : BitVec 32 × BitVec 64) : List (BitVec 32 × BitVec 64) → List (BitVec 32 × BitVec 64)
  | [] => [r]
  | h :: t => if better small r h then r :: h :: t else h :: insertRec small r t

/-- Insert candidates: the unit keeps its K best records; a NaN score is not inserted. -/
def Ctx.topInsert (x : Ctx) (rs : List (BitVec 32 × BitVec 64)) : Ctx :=
  let small := (x.word 6).getLsbD 16
  let ok := rs.filter fun r => fp32.decode r.1.toNat != .nan
  { x with topk := { x.topk with items := ok.foldl (fun l r => (insertRec small r l).take x.topk.k) x.topk.items } }

/-- Insert candidates with their flags. -/
def topEff (x : Ctx) (rs : List (BitVec 32 × BitVec 64)) : Eff :=
  let fl := if rs.any fun r => fp32.decode r.1.toNat == .nan then flagIV else 0
  commit x fl x.gen 0 fun x => x.topInsert rs

/-- The 16-byte record of a held score (R256), and back. -/
def topBytes (r : BitVec 32 × BitVec 64) : Bytes := toLe 8 r.2.toNat ++ toLe 4 r.1.toNat ++ zeros 4
def topOf (d : Bytes) : BitVec 32 × BitVec 64 := (BitVec.ofNat 32 (leAt d 8 4), BitVec.ofNat 64 (leAt d 0 8))

/-- TOPK.INS on a context: FUNC 0 active elements of VR, FUNC 1 records of scratch. -/
def topInsEff (x : Ctx) (w : Word) : Eff :=
  if xFunc w = 0 then
    if !onlyBits w (bm 63 54 + bm 44 40 + bm 29 26) then .illegal
    else
      let is := (List.range 64).filter (x.active w)
      topEff x (is.map fun i => (BitVec.ofNat 32 (elemAt 32 (x.vreg (xVr w)) i), x.sreg (xSi w) + BitVec.ofNat 64 i))
  else
    let n := (x.sreg (xSl w)).toNat
    let m := (x.sreg (xSs w)).toNat
    guarded x w (onlyBits w (bm 63 54 + bm 49 49 + bm 39 30))
      (if n = 0 ∨ n > 4096 then .illegal
       else if !x.inWin m (16 * n) then .trap 6 0 m
       else topEff x ((List.range n).map fun i => topOf (x.load (m + 16 * i) 16)))

/-- TOPK.INS (R256). -/
def execTopkIns (c : Fin 4096) (s : State) : Outcome := .next (s.plainOp c 0x25 topInsEff)

/-- TOPK.DRAIN on a context. -/
def topDrainEff (x : Ctx) (w : Word) : Eff :=
  let m := (x.sreg (xSs w)).toNat
  let n := x.topk.items.length
  guarded x w (onlyBits w (bm 63 54 + bm 39 30))
    (if !x.inWin m (16 * n) then .trap 6 0 m
     else .next (({ (x.store m (x.topk.items.flatMap topBytes)) with topk := { x.topk with items := [] } }).setS (xSl w) (BitVec.ofNat 64 n)))

/-- TOPK.DRAIN (R256). -/
def execTopkDrain (c : Fin 4096) (s : State) : Outcome := .next (s.plainOp c 0x26 topDrainEff)

end Sys2Proof.Machine
end

