-- ==== Sys2Proof/Machine/Control.lean ====
section
/-! DEFINITION. Control flow, gates and signals (spec/07_ralath_isa.md R257 to R263, Table 7-7), illegal major opcodes, and the re-evaluation
and timeout of WAITG. -/

namespace Sys2Proof.Machine

open Sys2Proof

/-! ## Fields of format C (Table 7-7) -/

def cFunc (w : Word) : Nat := wf w 53 50
def cSa (w : Word) : Nat := wf w 49 45
def cSb (w : Word) : Nat := wf w 44 40

/-- MAJOR, PG and PN; IMM. -/
def cHead : Nat := bm 63 54
def cImm : Nat := bm 31 0

/-- Target of a branch (R231). -/
def target (x : Ctx) (w : Word) : Nat := pcOf ((x.pc : Int) + imm32 w)

/-! ## Branches (R231, R257, R258) -/

/-- BR (Table 7-8). -/
def brEff (x : Ctx) (w : Word) : Eff := guarded x w (onlyBits w (cHead + cImm)) (.goto x (target x w))
def execBr (c : Fin 4096) (s : State) : Outcome := .next (s.plainOp c 0x28 brEff)

/-- BRC on a context. -/
def brcEff (x : Ctx) (w : Word) : Eff :=
  match condOf (cFunc w) (x.sreg (cSa w)) (x.sreg (cSb w)) with
  | none => .illegal
  | some t => guarded x w (onlyBits w (bm 63 40 + cImm)) (if t then .goto x (target x w) else .next x)

/-- BRC (Table 7-8, Table 7-9). -/
def execBrc (c : Fin 4096) (s : State) : Outcome := .next (s.plainOp c 0x29 brcEff)

/-- CALL on a context: loops stay (R257). -/
def State.callOp (s : State) (c : Nat) (x : Ctx) (w : Word) : State :=
  if !onlyBits w (cHead + cImm) then s.doEff c x .illegal
  else if !x.guard w then s.doEff c x (.next x)
  else if x.calls.length ≥ 16 then s.doEff c x (.trap 2 0 0)
  else s.setCtx c { x with calls := (x.pc + 1) :: x.calls, pc := target x w }

/-- CALL (R257, R258). -/
def execCall (c : Fin 4096) (s : State) : Outcome := .next (s.issue c (fun m => m == 0x2A) fun x w => s.callOp c x w)

/-- RET on a context. -/
def retEff (x : Ctx) (w : Word) : Eff :=
  guarded x w (onlyBits w cHead) (match x.calls with
    | [] => .trap 2 0 0
    | p :: t => .goto { x with calls := t } p)

/-- RET (R258). -/
def execRet (c : Fin 4096) (s : State) : Outcome := .next (s.plainOp c 0x2B retEff)

/-- LOOP on a context: IMM at least 1; at most four nested; an inner end inside the loop that holds it (R257). -/
def State.loopOp (s : State) (c : Nat) (x : Ctx) (w : Word) : State :=
  let e := x.pc + (imm32 w).toNat
  let n := (x.sreg (cSa w)).toNat % 2 ^ 32
  if !(onlyBits w (cHead + bm 49 45 + cImm) && decide (1 ≤ imm32 w)) then s.doEff c x .illegal
  else if !x.guard w then s.doEff c x (.next x)
  else if x.loops.length ≥ 4 ∨ x.loops.any (fun l => decide (l.1 ≤ x.pc ∧ x.pc ≤ l.2.1 ∧ l.2.1 < e)) then s.doEff c x (.trap 2 0 0)
  else if n = 0 then s.setCtx c (x.seq e)
  else s.setCtx c { x with loops := (x.pc + 1, e, n) :: x.loops, pc := x.pc + 1 }

/-- LOOP (R257). -/
def execLoop (c : Fin 4096) (s : State) : Outcome := .next (s.issue c (fun m => m == 0x2C) fun x w => s.loopOp c x w)

/-! ## YIELD, WAITG, SETG (R259, R260) -/

/-- YIELD (R262). -/
def execYield (c : Fin 4096) (s : State) : Outcome := .next (s.plainOp c 0x2D fun x w =>
  guarded x w (onlyBits w cHead) (.next { x with yielded := true }))

/-- The compare of WAITG once its line has come. -/
def State.gateTest (s : State) (c : Nat) (x : Ctx) (w : Word) (sa : Nat) (d : Bytes) (y : Nat) : State :=
  let x := { x with wait := .run }
  let v := BitVec.ofNat 64 (leAt d (sa % 64) 8)
  let b := x.sreg (cSb w)
  if y ≠ 0 ∧ x.trapsPoison then s.doEff c x (.trap 0x0A y sa)
  else if condOf (cFunc w) v b = some true then s.doEff c x (.next ({ x with gateEnd := none }.setP (wf w 31 29) (BitVec.allOnes 512)))
  else s.setCtx c { x with wait := .gate sa (cFunc w) b }

/-- Evaluate a WAITG: read the word and compare. The timeout runs from the first evaluation. -/
def State.gateStep (s : State) (c : Nat) (x : Ctx) (w : Word) : State :=
  let sa := (x.areg (cSa w)).toNat
  let us := wf w 28 0
  let x := { x with wait := .run, gateEnd := if us = 0 then none else some (x.gateEnd.getD (s.now + 1000 * us)) }
  match s.syncRead c x sa 8 with
  | (s, .wait) => s
  | (s, .fault) => s.doEff c x (.trap 5 1 sa)
  | (s, .line d y) => match look s.tlr.ctxs c with
    | some z => s.gateTest c { z with gateEnd := x.gateEnd } w sa d y
    | none => s

/-- WAITG on a context. -/
def State.waitOp (s : State) (c : Nat) (x : Ctx) (w : Word) : State :=
  let sa := (x.areg (cSa w)).toNat
  if !(onlyBits w (bm 63 40 + cImm) && decide (cFunc w < 10) && decide (cSa w < 16)) then s.doEff c x .illegal
  else if !x.guard w then s.doEff c x (.next x)
  else if sa % 8 ≠ 0 then s.doEff c x (.trap 7 0 sa)
  else s.gateStep c x w

/-- WAITG (R259). -/
def execWaitg (c : Fin 4096) (s : State) : Outcome := .next (s.issue c (fun m => m == 0x2E) fun x w => s.waitOp c x w)

/-- The default policy sheaf takes one hook record: a MISS with flag [1] asks for the next 8 pages of the extent in class 7 (R195). False when
the placement port is full, which a PUT waits for. -/
def State.defaultTake (s : State) : State :=
  match s.tier.hooks with
  | [] => s
  | r :: _ =>
    let page := leAt r 8 8 % 2 ^ 38
    let n := min 8 (2 ^ 18 - 1 - pageIdx page)
    if byteAt r 0 = 1 ∧ byteAt r 3 / 2 % 2 = 1 ∧ n ≠ 0 then
      if s.tier.placeQ.length ≥ 1024 then s
      else (s.setCons (s.tier.hookCons + 1)).onTier fun t => { t with placeQ := t.placeQ ++ [{ op := 1, cls := 7, count := n, tag := 0, first := page + 1, peer := none }] }
    else s.setCons (s.tier.hookCons + 1)

/-- WAITG_REEVALUATE (R259): a waiting compare is evaluated again; the default policy sheaf, which waits on the hook ring in the same way, takes
its records (R195). -/
def execWaitgReevaluate (c : Fin 4096) (s : State) : Outcome := .next <|
  if s.tlr.polCtx = some c.val ∧ s.tier.policy = 0 then s.each (List.range s.tier.hooks.length) fun s _ => s.defaultTake else
  match look s.tlr.ctxs c with
  | none => s
  | some x =>
    match x.wait, look s.tlr.sheaves x.sheaf with
    | .gate _ _ _, some q => if x.ended.isSome then s else s.gateStep c x (imgWord q.image x.pc)
    | _, _ => s

/-- WAITG_TIMEOUT (R259): the microseconds of a waiting WAITG have passed: all zeros in its predicate. -/
def execWaitgTimeout (c : Fin 4096) (s : State) : Outcome := .next <|
  match look s.tlr.ctxs c with
  | none => s
  | some x =>
    match x.wait, x.gateEnd, look s.tlr.sheaves x.sheaf with
    | .gate _ _ _, some t, some q =>
      if s.now < t ∨ x.ended.isSome then s
      else s.doEff c x (.next ({ x with wait := .run, gateEnd := none }.setP (wf (imgWord q.image x.pc) 31 29) 0))
    | _, _, _ => s

/-- SETG on a context. -/
def State.setgOp (s : State) (c : Nat) (x : Ctx) (w : Word) : State :=
  let sa := (x.areg (cSa w)).toNat
  let v := (x.sreg (cSb w)).toNat
  if !(onlyBits w (bm 63 40) && decide (cFunc w < 4) && decide (cSa w < 16)) then s.doEff c x .illegal
  else if !x.guard w then s.doEff c x (.next x)
  else if sa % 8 ≠ 0 then s.doEff c x (.trap 7 0 sa)
  else if s.sysAccess c sa 8 2 then (s.setCons (atomResult (cFunc w) s.tier.hookCons v)).setCtx c x.advance
  else
    match s.access x sa 8 2 with
    | .fault => s.doEff c x (.trap 5 2 sa)
    | .noLease => s.dropWrite.doEff c x (.next x)
    | .ok => s.asyncWrite c x.advance x.pc .atom sa 0 (toLe 1 (cFunc w) ++ zeros 7 ++ toLe 8 v ++ zeros 48)

/-- SETG (R260). -/
def execSetg (c : Fin 4096) (s : State) : Outcome := .next (s.issue c (fun m => m == 0x2F) fun x w => s.setgOp c x w)

/-! ## SIGNAL, FENCE, TRAP, HALT (R253, R261, R262) -/

/-- SIGNAL on a context: it waits while the tiller's queue holds 16 records. -/
def State.signalOp (s : State) (c : Nat) (x : Ctx) (w : Word) : State :=
  if !onlyBits w (cHead + bm 49 45) then s.doEff c x .illegal
  else if !x.guard w then s.doEff c x (.next x)
  else if (s.tiller x.tiller).sig.length ≥ 16 then s
  else (s.setTiller x.tiller fun t => { t with sig := t.sig ++ [(s.ctxId c x, x.sreg (cSa w))] }).setCtx c x.advance

/-- SIGNAL (R261). -/
def execSignal (c : Fin 4096) (s : State) : Outcome := .next (s.issue c (fun m => m == 0x30) fun x w => s.signalOp c x w)

/-- FENCE on a context: it waits while an operation is outstanding. -/
def State.fenceOp (s : State) (c : Nat) (x : Ctx) (w : Word) : State :=
  if !onlyBits w cHead then s.doEff c x .illegal
  else if !x.guard w then s.doEff c x (.next x)
  else if !x.ops.isEmpty then s
  else s.setCtx c x.advance

/-- FENCE (R253). -/
def execFence (c : Fin 4096) (s : State) : Outcome := .next (s.issue c (fun m => m == 0x31) fun x w => s.fenceOp c x w)

/-- TRAP (Table 7-8): cause 0x10 with detail IMM[15:0]. -/
def execTrap (c : Fin 4096) (s : State) : Outcome := .next (s.plainOp c 0x32 fun x w =>
  guarded x w (onlyBits w (cHead + bm 15 0)) (.trap 0x10 (wf w 15 0) 0))

/-- HALT on a context: it waits as FENCE does, then the context ends as done. -/
def State.haltOp (s : State) (c : Nat) (x : Ctx) (w : Word) : State :=
  if !onlyBits w cHead then s.doEff c x .illegal
  else if !x.guard w then s.doEff c x (.next x)
  else if !x.ops.isEmpty then s
  else s.ctxEnd c x 0

/-- HALT (R262). -/
def execHalt (c : Fin 4096) (s : State) : Outcome := .next (s.issue c (fun m => m == 0x33) fun x w => s.haltOp c x w)

/-- The major opcodes that are illegal instructions (R232). -/
def illegalMajor (m : Nat) : Bool := m == 0 || m == 0x1B || m == 0x1F || m == 0x27 || decide (0x34 ≤ m)

/-- ILLEGAL_MAJOR_OPCODE (R232). -/
def execIllegalMajorOpcode (c : Fin 4096) (s : State) : Outcome := .next (s.issue c illegalMajor fun x _ => s.doEff c x .illegal)

end Sys2Proof.Machine
end

