-- ==== Sys2Proof/Machine/Tiller.lean ====
section
/-! DEFINITION. Contexts on tillers and the command rings (spec/08_tiller_programs.md R269 to R289, R294 to R296): starting a context,
residency, descriptors, completions, slow and failed tillers, signals. -/

namespace Sys2Proof.Machine

open Sys2Proof

/-! ## Placement (R284, R294) -/

/-- Live contexts assigned to a tiller. -/
def State.assigned (s : State) (n : Nat) : Nat := (s.tlr.ctxs.filter fun e => e.2.tiller == n).length

/-- The least loaded enabled tiller that is not share-reduced; with every one reduced, the least loaded enabled one. -/
def State.leastLoaded (s : State) : Nat :=
  let ok := (List.range 96).filter fun n => !s.tlrBad n
  let good := ok.filter fun n => !(s.tiller n).reduced
  (argMin s.assigned (if good.isEmpty then ok else good)).getD 0

/-- The tiller of a member placed at a page: beside the channel that holds its near husk, else the least loaded one of the module, one that is
share-reduced too, since R294 keeps those from PLACE 0 only (R284). -/
def State.tillerAt (s : State) (page : Nat) : Nat :=
  if hasNear (s.pmeOf page) then s.tlrFor (chanOf (s.pmeOf page).near)
  else (argMin s.assigned ((List.range 96).filter fun n => !s.tlrBad n)).getD 0

/-! ## Starting a context (R226, R228, R269) -/

/-- Start context c of a sheaf. -/
def State.startCtx (s : State) (c h tiller label : Nat) (ld : Option Nat) (portal desc member : Nat) (args : List Nat) : State :=
  match look s.tlr.sheaves h with
  | none => s
  | some q =>
    let x := freshCtx q h tiller label ld portal desc member args s.now
    (s.setCtx c { x with words := startWords (s.ctxId c x) args }).bump cntTlr 0 1

/-- Free context numbers of LD contexts, from one that is left open (R271). -/
def State.freeCtx (s : State) : Option Nat := firstFrom 4032 (Config.pick s.draws % 4032) fun i => (look s.tlr.ctxs i).isNone

/-- Live contexts of an LD, by portal and number, on this module. -/
def State.ldCtxs (s : State) (portal ld : Nat) : Nat := (s.tlr.ctxs.filter fun e => e.2.ld == some ld && e.2.portal == portal).length

/-- Do the power state, the context numbers, the LD's quota and the window region admit k members of a sheaf (R271, R275, Table 17-2, chapter 8, case 'When a START finds
no context free')? -/
def State.admitsCtx (s : State) (portal ld h k : Nat) : Bool :=
  let w := match look s.tlr.sheaves h with
    | some q => imgWindow q.image
    | none => 0
  let used := (s.tlr.ctxs.filter fun e => decide (e.1 < 4032)).length
  decide (s.pwr.state ≤ 1 ∧ used + k ≤ 4032 ∧ s.ldCtxs portal ld + k ≤ s.fld 0x980008 43 32 ∧ sumOf s.tlr.ctxs (fun e => e.2.scratchLen) + k * w ≤ 2 ^ 31)

/-- Start some members of a START here: their tillers in order, the first member's index, and the member count. -/
def State.startMembers (s : State) (portal desc ld h label count first : Nat) (tillers args : List Nat) : State :=
  s.each tillers.zipIdx fun s p =>
    match s.freeCtx with
    | none => s
    | some c => s.drew.startCtx c h (s.tlrFor p.1) label (some ld) portal desc (first + p.2) (args.take 6 ++ [first + p.2, count])

/-! ## Residency (R275 to R278) -/

/-- CONTEXT_QUANTUM_EXPIRE (R278): a context that has been resident for the quantum becomes a swap candidate. -/
def execContextQuantumExpire (c : Fin 4096) (s : State) : Outcome := .next <|
  match look s.tlr.ctxs c.val with
  | none => s
  | some x => if x.resident && decide (s.now ≥ x.since + 1000 * s.fld 0x980008 57 48) then s.setCtx c { x with expired := true } else s

/-- Is a resident context a swap candidate: its quantum is over, it waits in WAITG, or it has yielded; at an instruction boundary (R262, R278)? -/
def Ctx.candidate (x : Ctx) : Bool :=
  x.resident && (match x.wait with
    | .gate _ _ _ => true
    | .run => x.expired || x.yielded
    | _ => false)

/-- Runnable but not resident. -/
def Ctx.waiting (x : Ctx) : Bool := !x.resident && x.wait == .run && x.ended.isNone

/-- The resident contexts of a tiller. -/
def State.residents (s : State) (n : Nat) : List (Nat × Ctx) := s.tlr.ctxs.filter fun e => e.2.tiller == n && e.2.resident

/-- Does a window fit beside the resident contexts: a free slot, and 512 KiB in all (R275, R276)? -/
def State.fitsTiller (s : State) (n w : Nat) : Bool :=
  decide ((s.residents n).length < 8) && decide (sumOf (s.residents n) (fun e => e.2.scratchLen) + w ≤ 524288)

/-- Swap a context out. -/
def State.swapOut (s : State) (c : Nat) : State :=
  match look s.tlr.ctxs c with
  | some x => (s.setCtx c { x with resident := false, yielded := false, expired := false, since := s.now }).bump cntTlr 2 1
  | none => s

/-- Swap out candidates of rank equal to or worse than k, the worst rank first, the longest resident among equals, until the window fits. -/
def State.makeRoom (s : State) (n w k : Nat) : Nat → State
  | 0 => s
  | f + 1 =>
    if s.fitsTiller n w then s
    else
      let cs := (s.residents n).filter fun e => e.2.candidate && decide (s.ctxRank e.1 e.2 ≥ k)
      match argMin (fun e => (8 - s.ctxRank e.1 e.2) * 2 ^ 64 + e.2.since) cs with
      | some e => (s.swapOut e.1).makeRoom n w k f
      | none => s

/-- CONTEXT_SWAP_DONE (R278, R279): the runnable context that its tiller chooses, of best rank and the oldest among equals, is swapped in. -/
def execContextSwapDone (c : Fin 4096) (s : State) : Outcome := .next <|
  match look s.tlr.ctxs c.val with
  | none => s
  | some x =>
    let ws := s.tlr.ctxs.filter fun e => e.2.tiller == x.tiller && e.2.waiting
    let best := argMin (fun (e : Nat × Ctx) => s.ctxRank e.1 e.2 * 2 ^ 64 + e.2.since) ws
    if (best.map Prod.fst) ≠ some c.val ∨ s.pwr.state ≥ 2 then s
    else
      let s' := s.makeRoom x.tiller x.scratchLen (s.ctxRank c x) 8
      if s'.fitsTiller x.tiller x.scratchLen then (s'.setCtx c { x with resident := true, since := s.now }).bump cntTlr 2 1 else s

/-! ## Command rings (R280 to R283) -/

/-- Fetch the entries of a command ring up to its tail, in order, as reads of the LD (R281, R282). -/
def State.rqFetch (s : State) (ld r : Nat) : Nat → State
  | 0 => s
  | f + 1 =>
    let q := s.ring ld r
    if q.err || q.asked == q.tail then s
    else
      let hpa := s.ringReg ld r 0 / 4096 * 4096 + 64 * q.asked
      match s.ringHedge ld hpa with
      | none => ((s.noLease ld hpa false).ringStop ld).setRing ld r fun q => { q with err := true }
      | some (label, sa) =>
        let s := s.setRing ld r fun q => { q with asked := (q.asked + 1) % s.rqSize ld r }
        (s.accept (.ring ld r q.asked) .rd sa label 4096 .invalid 0 []).rqFetch ld r f

/-- TLR_RQ_TAIL_WRITE (R282): a doorbell. -/
def execTlrRqTailWrite (ld : Fin 64) (r : Fin 4) (v : Word) (s : State) : Outcome := .next <|
  if !s.hostOpen ld || !(s.ringReg ld r 8).testBit 63 then s
  else
    let n := s.rqSize ld r
    (s.setRing ld r fun q => { q with tail := v.toNat % 2 ^ 16 % n }).rqFetch ld r n

/-- A field of a written value, the held one where the value is outside its range. -/
def fieldOr (v old hi lo least most : Nat) : Nat :=
  (if least ≤ bits v hi lo ∧ bits v hi lo ≤ most then bits v hi lo else bits old hi lo) * 2 ^ lo

/-- TLR_RQ_CFG_ENABLE (R282): a write of the command ring's configuration; EN from 0 to 1 zeroes HEAD and TAIL and clears ERR. -/
def execTlrRqCfgEnable (ld : Fin 64) (r : Fin 4) (v : Word) (s : State) : Outcome := .next <|
  if !s.hostOpen ld then s
  else
    let old := s.ringReg ld r 8
    let s := s.setRegB (1 + ld) (rqReg r 8) (bits v.toNat 63 63 * 2 ^ 63 + fieldOr v.toNat old 4 0 6 16)
    if v.toNat.testBit 63 && !old.testBit 63 then
      s.setRing ld r fun q => { q with tail := 0, head := 0, asked := 0, fetched := [], err := false, waitCtx := false, cancel := none }
    else s

/-- TLR_CQ_CFG_ENABLE (R286): a write of the completion ring's configuration; EN from 0 to 1 zeroes HEAD and TAIL and sets PHASE. -/
def execTlrCqCfgEnable (ld : Fin 64) (r : Fin 4) (v : Word) (s : State) : Outcome := .next <|
  if !s.hostOpen ld then s
  else
    let old := s.ringReg ld r 0x28
    let w := v.toNat
    let s := s.setRegB (1 + ld) (rqReg r 0x28)
      (bits w 63 63 * 2 ^ 63 + bits w 52 48 * 2 ^ 48 + fieldOr w old 47 40 1 255 + fieldOr w old 37 24 1 10000 + fieldOr w old 4 0 6 16)
    let s := if w.testBit 63 && !old.testBit 63 then s.setRing ld r fun q => { q with cqHead := 0, cqTail := 0, phase := true, cqErr := false } else s
    s.cqFlush ld r

/-- TLR_CQ_HEAD_WRITE (R286). -/
def execTlrCqHeadWrite (ld : Fin 64) (r : Fin 4) (v : Word) (s : State) : Outcome := .next <|
  if !s.hostOpen ld then s else (s.setRing ld r fun q => { q with cqHead := v.toNat % 2 ^ 16 }).cqFlush ld r

/-- CQ_COALESCE_TIMER (R289): TIME_US after the first of the pending completions the vector is sent. -/
def execCqCoalesceTimer (ld : Fin 64) (r : Fin 4) (s : State) : Outcome := .next <|
  let q := s.ring ld r
  if q.pend ≠ 0 ∧ s.now ≥ q.pendAt + 1000 * bits (s.ringReg ld r 0x28) 37 24 then s.cqFire ld r else s

/-- TLR_SIG_POP_WRITE (TLR_SIG_POP_n): writing 1 removes the head record. -/
def execTlrSigPopWrite (n : Fin 96) (v : Word) (s : State) : Outcome := .next <|
  if v.toNat.testBit 0 then s.setTiller n fun t => { t with sig := t.sig.drop 1 } else s

/-! ## Descriptors (R283 to R287) -/

/-- Fields of a descriptor (Table 8-3). -/
def dOp (d : Bytes) : Nat := byteAt d 0
def dPlace (d : Bytes) : Nat := byteAt d 2 % 4
def dTiller (d : Bytes) : Nat := byteAt d 3
def dLabel (d : Bytes) : Nat := byteAt d 4 % 8
def dSheaf (d : Bytes) : Nat := leAt d 8 4
def dTag (d : Bytes) : Nat := leAt d 12 4
def dArgs (d : Bytes) : List Nat := (List.range 5).map fun i => leAt d (24 + 8 * i) 8
def dCi (d : Bytes) : Bool := byteAt d 1 % 2 == 1

/-- Are the reserved fields of a descriptor zero? Byte 3 is zero but for a START of PLACE 1 or 3 (Table 8-3). -/
def descOk (d : Bytes) : Bool :=
  decide (1 ≤ dOp d ∧ dOp d ≤ 3) && decide (byteAt d 1 < 4) && decide (byteAt d 2 < 4) && decide (byteAt d 4 < 8) && leAt d 5 3 == 0 &&
  ((dOp d == 1 && (dPlace d == 1 || dPlace d == 3)) || dTiller d == 0)

/-- The head descriptor of a ring that is enabled and not stopped, when it has come. -/
def State.headDesc (s : State) (ld r : Nat) : Option Bytes :=
  let q := s.ring ld r
  if !(s.ringReg ld r 8).testBit 63 || q.err || q.head == q.tail then none else look q.fetched q.head

/-- The head descriptor is accepted: HEAD goes on. -/
def State.headDone (s : State) (ld r : Nat) : State :=
  s.setRing ld r fun q => { q with fetched := del q.fetched q.head, head := (q.head + 1) % s.rqSize ld r, waitCtx := false, cancel := none }

/-- Post a completion that is not a START's own and accept the descriptor; without completion space the descriptor waits. -/
def State.postHead (s : State) (ld r : Nat) (d : Bytes) (status detail n : Nat) : State :=
  let (s', ok) := s.cqPost ld r (cqRec (dTag d) status detail n 0 0 0 0 0 0 0) (dCi d)
  if ok then s'.headDone ld r else s

/-- Modules of a START, ascending: those of the mask, the portal alone for 0, or the page home of ARG0. -/
def State.startMods (s : State) (d : Bytes) : List Nat :=
  if dPlace d = 3 then
    (if leAt d 16 8 = 0 then [s.me] else (List.range 64).filter fun m => (leAt d 16 8).testBit m)
  else if dPlace d = 2 then [s.pageHome (leAt d 24 8 / 4096)]
  else [s.me]

/-- Is the placement of a START valid: tiller and width in range, an address that is one, every module live? -/
def State.placeOk (s : State) (d : Bytes) : Bool :=
  (dPlace d != 1 || decide (dTiller d < 96)) && (dPlace d != 3 || decide (dTiller d ≤ 96)) && (dPlace d != 2 || decide (leAt d 24 8 < 2 ^ 50)) &&
  (s.startMods d).all fun m => m == s.me || s.isLive m

/-- Tillers of the members on one module; 255 stands for the tiller at the page of ARG0. -/
def State.startTillers (s : State) (d : Bytes) : List Nat :=
  if dPlace d = 0 then [s.leastLoaded]
  else if dPlace d = 1 then [dTiller d]
  else if dPlace d = 2 then [255]
  else
    let w := if dTiller d = 0 then 96 else dTiller d
    (List.range w).map fun j => j * 96 / w

/-- The tillers as this module takes them. -/
def State.tillersHere (s : State) (ts args : List Nat) : List Nat :=
  ts.map fun t => if t = 255 then s.tillerAt ((args.headD 0) / 4096 % 2 ^ 38) else t

/-- A START begins: its members here are created, those elsewhere are sent to their modules (R284). -/
def State.startBegin (s : State) (ld r : Nat) (d : Bytes) : State :=
  let ms := s.startMods d
  let ts := s.startTillers d
  let k := ts.length
  let count := ms.length * k
  let args := dArgs d ++ [dTag d]
  let i := s.nextId + 1
  let left := ms.zipIdx.flatMap fun m => (List.range k).map fun j => (m.2 * k + j, m.1)
  let s := ({ s with nextId := i }).onTlr fun t => { t with descs := put t.descs i { ld := ld, ring := r, raw := d, t0 := s.now, left := left, ends := [] } }
  let s := s.headDone ld r
  s.each ms.zipIdx fun s m =>
    if m.1 = s.me then s.startMembers s.me i ld (dSheaf d) (dLabel d) count (m.2 * k) (s.tillersHere ts args) args
    else s.copyTo m.1 (.start i ld (dSheaf d) ts (m.2 * k) count (dLabel d) args)

/-- A START with valid fields: it begins, or waits for a context (chapter 8, case 'When a START finds no context free'). -/
def State.startTry (s : State) (ld r : Nat) (d : Bytes) : State :=
  let here := if (s.startMods d).contains s.me then (s.startTillers d).length else 0
  if here = 0 ∨ s.admitsCtx s.me ld (dSheaf d) here then s.startBegin ld r d
  else if (s.ring ld r).waitCtx then s
  else ((s.setRing ld r fun q => { q with waitCtx := true }).bump cntTlr 3 1).post 0x0806 []

/-- Is a handle that of a loaded query sheaf? -/
def State.querySheaf (s : State) (h : Nat) : Bool := match look s.tlr.sheaves h with
  | some q => q.kind == 2 && !q.unloading
  | none => false

/-- A START with a legal descriptor: one whose sheaf or placement is refused posts status 3 at once, and none of its members starts. -/
def State.startHead (s : State) (ld r : Nat) (d : Bytes) : State :=
  if !s.querySheaf (dSheaf d) then s.postHead ld r d 3 1 0
  else if !s.placeOk d then s.postHead ld r d 3 2 0
  else s.startTry ld r d

/-- DESC_START (R283, R284, R287): the START at the head of a ring. -/
def execDescStart (ld : Fin 64) (r : Fin 4) (s : State) : Outcome := .next <|
  match s.headDesc ld r with
  | none => s
  | some d =>
    if descOk d && dOp d != 1 then s
    else if !descOk d then s.postHead ld r d 3 3 0
    else s.startHead ld r d

/-- Members that wait here for a context, sent by other portals, start in arrival order while they are admitted. -/
def State.startPump (s : State) : Nat → State
  | 0 => s
  | f + 1 =>
    match s.tlr.startQ with
    | [] => s
    | w :: t =>
      if s.admitsCtx w.portal w.ld w.sheaf 1 then
        ((s.onTlr fun q => { q with startQ := t }).startMembers w.portal w.desc w.ld w.sheaf w.label w.count w.member [w.tiller] w.args).startPump f
      else s

/-- DESC_START_RESUME (chapter 8, case 'When a START finds no context free'): a waiting START proceeds once it is admitted; one whose sheaf is no
longer loaded is refused (R270). -/
def execDescStartResume (ld : Fin 64) (r : Fin 4) (s : State) : Outcome := .next <|
  let s := s.startPump s.tlr.startQ.length
  match s.headDesc ld r with
  | some d => if (s.ring ld r).waitCtx then s.startHead ld r d else s
  | none => s

/-- The live descriptors of a ring with a tag. -/
def State.tagged (s : State) (ld r tag : Nat) : List (Nat × DescLive) :=
  s.tlr.descs.filter fun e => e.2.ld == ld && e.2.ring == r && dTag e.2.raw == tag && !e.2.left.isEmpty

/-- Post the completion of the CANCEL at the head of a ring once every descriptor that it cancels has ended, with the number of contexts that it
cancelled (R285). -/
def State.cancelEnd (s : State) (ld r : Nat) : State :=
  match (s.ring ld r).cancel, s.headDesc ld r with
  | some k, some d =>
    if k.1.any fun i => (look s.tlr.descs i).any fun q => !q.left.isEmpty then s else s.postHead ld r d 0 0 k.2
  | _, _ => s

/-- DESC_CANCEL (R285): ends every live context of the ring that carries the tag and completes with their number. -/
def execDescCancel (ld : Fin 64) (r : Fin 4) (s : State) : Outcome := .next <|
  match s.headDesc ld r with
  | none => s
  | some d =>
    if !(descOk d && dOp d == 2) then s
    else if (s.ring ld r).cancel.isSome then s.cancelEnd ld r
    else
      let l := (s.tagged ld r (dTag d)).map Prod.fst
      ((s.setRing ld r fun q => { q with cancel := some (l, 0) }).each l fun s i => s.cancelAll i).cancelEnd ld r

/-- DESC_BARRIER (R285): accepted only after every earlier descriptor of its ring has completed. -/
def execDescBarrier (ld : Fin 64) (r : Fin 4) (s : State) : Outcome := .next <|
  match s.headDesc ld r with
  | none => s
  | some d =>
    if !(descOk d && dOp d == 3) then s
    else if s.tlr.descs.any fun e => e.2.ld == ld.val && e.2.ring == r.val then s
    else s.postHead ld r d 0 0 0

/-! ## An LD's reset (chapter 8, case 'When the LD that started a context is reset') -/

/-- Every context of an LD ends without a completion, and its ring registers return to their reset values. -/
def State.tlrResetLd (s : State) (ld : Nat) : State :=
  let mine := s.tlr.descs.filter fun e => e.2.ld == ld
  let s := s.each mine fun s e => s.copyAll ((e.2.left.map Prod.snd).eraseDups) (.cancel e.1)
  let gone := s.tlr.ctxs.filter fun e => e.2.portal == s.me && e.2.ld == some ld
  let s := s.each gone fun s e => s.ctxGone e.1 e.2
  let s := s.onTlr fun t => { t with descs := t.descs.filter (fun e => e.2.ld != ld), rings := t.rings.filter fun e => e.1 / 4 != ld }
  { s with regs := s.regs.filter fun e => !(e.1 / 2 ^ 32 == 1 + ld && decide (0x990000 ≤ e.1 % 2 ^ 32 ∧ e.1 % 2 ^ 32 < 0x9A0000)) }

/-! ## Slow and failed tillers (R294 to R296) -/

/-- TILLER_SHARE_REDUCE (R294): a step rate that has stayed below 85 % of the mean of its peers. -/
def execTillerShareReduce (n : Fin 96) (ratio : Fin 4096) (s : State) : Outcome := .next <|
  if s.tlrBad n || (s.tiller n).reduced || decide (100 * ratio.val ≥ 85 * 4096) then s
  else ((s.setTiller n fun t => { t with reduced := true, ratio := ratio }).intr (tlrReg n 0x28) 1).post 0x0804 []

/-- TILLER_RESTORE (R294): a rate that has stayed above 90 %. -/
def execTillerRestore (n : Fin 96) (ratio : Fin 65536) (s : State) : Outcome := .next <|
  if !(s.tiller n).reduced || decide (100 * ratio.val ≤ 90 * 4096) then s
  else s.setTiller n fun t => { t with reduced := false, ratio := ratio }

/-- Move a context of a tiller that is out to the neighbour, swapped out. -/
def State.moveCtx (s : State) (c : Nat) (x : Ctx) : State :=
  let s := if x.resident then s.swapOut c else s
  match look s.tlr.ctxs c with
  | some y => s.setCtx c { y with tiller := s.tlrFor x.tiller }
  | none => s

/-- Move the contexts of tillers that are out to their neighbours (R295, R296). One inside a load or a FETCHF moves at its next instruction boundary
(R262). -/
def State.moveCtxs (s : State) : State :=
  s.each (s.tlr.ctxs.filter fun e => s.tlrBad e.2.tiller && e.2.wait != .mem && e.2.wait != .fetch) fun s e => s.moveCtx e.1 e.2

/-- A tiller is out: interrupt status and event (R296). -/
def State.tillerOut (s : State) (n : Nat) : State := (s.intr (tlrReg n 0x28) 2).post 0x0805 []

/-- TLR_DIS_WRITE (R295, R296): a newly disabled tiller swaps out its resident contexts, which go on at its neighbour. -/
def execTlrDisWrite (hi : Bool) (v : Word) (s : State) : Outcome := .next <|
  let off := if hi then 0x980020 else 0x980018
  let w := if hi then v.toNat % 2 ^ 32 else v.toNat
  let old := s.reg off
  let new := ((List.range (if hi then 32 else 64)).filter fun i => w.testBit i && !old.testBit i).map fun i => if hi then 64 + i else i
  (s.setReg off w).each new fun s n => s.moveCtxs.tillerOut n

/-- TILLER_RUNTIME_FAIL (R295, R296): the resident contexts end with status 5; saved ones go on at the neighbour. -/
def execTillerRuntimeFail (n : Fin 96) (s : State) : Outcome := .next <|
  if s.tlrBad n then s
  else
    let s := s.setTiller n fun t => { t with failed := true }
    let s := s.each ((s.residents n).map Prod.fst) fun s c => match look s.tlr.ctxs c with
      | some x => s.ctxEnd c x 5
      | none => s
    s.moveCtxs.tillerOut n

end Sys2Proof.Machine
end

