-- ==== Sys2Proof/Machine/SheafCmd.lean ====
section
/-! DEFINITION. Sheaf commands (spec/08_tiller_programs.md R264 to R270, Table 8-6), CTX_CANCEL, and POLICY_ACTIVATE (spec/05_tiering_streaming.md
R190, R272). -/

namespace Sys2Proof.Machine

open Sys2Proof

/-! ## Images (R266, R267) -/

/-- A line of an image as its loader reads it: an LD's host address through its hedge table, the fabric manager's space address; none when the
read returns poison. A line of another page home is left open (log entry 17). -/
def State.imageLine (s : State) (who a i : Nat) : Option Bytes :=
  match (if who = 64 then some a else (s.hedge who a 0).map Prod.snd) with
  | none => none
  | some sa =>
    if sa ≥ 2 ^ 50 then none
    else if s.homes (saPage sa) then (let (d, y) := s.lineData (saPage sa) (lineIdx sa); if y = 0 then some d else none)
    else some ((List.range 64).map fun j => Config.answerByte s.draws (64 * i + j))

/-- The bytes of an image in memory. -/
def State.readImage (s : State) (who addr len : Nat) : Option Bytes :=
  let n := (addr % 64 + len + 63) / 64
  let ls := (List.range n).map fun i => s.imageLine who (addr / 64 * 64 + 64 * i) i
  if ls.any Option.isNone then none else some (((ls.flatMap fun o => o.getD []).drop (addr % 64)).take len)

/-- Does an image keep Tables 8-1 and 8-2? -/
def imageShape (kind : Nat) (b : Bytes) : Bool :=
  decide (64 ≤ b.length ∧ b.length ≤ 2 ^ 22) && byteAt b 0 == 1 && byteAt b 1 == kind && decide (imgGrants b ≤ 64) &&
  decide (1 ≤ imgCode b ∧ imgCode b ≤ 262144) && imgWindow b % 4096 == 0 && decide (4096 ≤ imgWindow b ∧ imgWindow b ≤ 524288) &&
  decide (imgData b ≤ imgWindow b) && decide (imgEntry b < imgCode b) && le ((b.drop 20).take 44) == 0 &&
  decide (64 + 16 * imgGrants b + 8 * imgCode b + imgData b ≤ b.length) &&
  (List.range (imgGrants b)).all fun i =>
    let g := imgGrant b i
    bits (leAt b (64 + 16 * i) 8) 61 50 == 0 && g.2.1 % 64 == 0 && g.2.2 % 64 == 0 && decide (64 ≤ g.2.2)

/-- The ACTIVE leases of an LD that name an extent with one of some rights. -/
def State.coverBy (s : State) (ld e rights : Nat) : List (Nat × Lease) :=
  s.spc.leases.filter fun l => l.2.ld == some ld && l.2.st == .active && (l.2.exts.any fun y => y.1 == e) && (rights == 0 || l.2.rights &&& rights != 0)

/-- Does some lease give each of some rights? -/
def givesAll (ls : List (Nat × Lease)) (rights : Nat) : Bool :=
  !ls.isEmpty && (List.range 2).all fun b => !rights.testBit b || ls.any fun l => l.2.rights.testBit b

/-- The leases that cover each grant entry of an image for its loader; none when an entry is not covered (R267). -/
def State.grantLeases (s : State) (who : Nat) (b : Bytes) : Option (List (List Nat)) :=
  let gs := (List.range (imgGrants b)).map (imgGrant b)
  let ok (g : Nat × Nat × Nat) : Bool := decide (g.2.1 + g.2.2 ≤ 2 ^ 50) &&
    (extsOf g.2.1 g.2.2).all fun e => if who = 64 then (look s.spc.extents e).isSome else givesAll (s.coverBy who e g.1) g.1
  if gs.all ok then some (gs.map fun g => if who = 64 then [] else (((extsOf g.2.1 g.2.2).flatMap fun e => s.coverBy who e g.1).map Prod.fst).eraseDups)
  else none

/-- The extents of an image's grants. -/
def imgExts (b : Bytes) : List Nat :=
  ((List.range (imgGrants b)).flatMap fun i => if (imgGrant b i).2.1 + (imgGrant b i).2.2 ≤ 2 ^ 50 then extsOf (imgGrant b i).2.1 (imgGrant b i).2.2 else []).eraseDups

/-! ## SHEAF_LOAD, SHEAF_UNLOAD, SHEAF_QUERY -/

/-- A handle that is not zero and no loaded sheaf holds; which one is left open. -/
def State.newSheafHandle (s : State) : Nat :=
  (firstFrom 4096 (Config.pick s.draws % 2 ^ 32) fun i => i % 2 ^ 32 != 0 && (look s.tlr.sheaves (i % 2 ^ 32)).isNone).getD 1 % 2 ^ 32

/-- Enter a sheaf in the store of every member, with the records of its extents and how its leases stand, and answer its handle when every live member
holds it (R264, R265, R268). -/
def State.enterSheaf (s : State) (x : Mbx) (kind : Nat) (b : Bytes) (ls : List (List Nat)) : State :=
  if s.tlr.sheaves.length ≥ 1024 ∨ sumOf s.tlr.sheaves (fun e => e.2.image.length) + b.length > 2 ^ 30 then s.status x 0x42
  else
    let h := s.newSheafHandle
    let q : Sheaf := { kind := kind, image := b, owner := if mbFm x then none else some (s.holderOf (mbWho x)), leases := ls, unloading := false, bad := [] }
    let s := (s.drew.onTlr fun t => { t with sheaves := put t.sheaves h q }).post 0x0800 [(4, h), (1, kind)]
    let recs := if kind = 3 then [] else (imgExts b).filterMap fun e => (look s.spc.extents e).map fun r => (e, r)
    let s := (s.copyAll s.peers (.records recs)).copyAll s.peers (.sheaf h (some q))
    (s.each ((ls.flatMap id).eraseDups) fun s l => s.tellSheaves l).okHeld x (zeros 3 ++ toLe 4 h)

/-- Decide a SHEAF_LOAD; the homes of the extents that a fabric manager's grants name are asked for records that are not known here. -/
def State.sheafCmd (s : State) (x : Mbx) (asked : List Nat) : State :=
  let kind := mb8 x 0
  let who := mbWho x
  if kind = 1 ∧ who ≠ 64 then s.status x 8
  else if kind = 0 ∨ kind > 3 ∨ mb32 x 16 > 2 ^ 22 then s.status x 0x40
  else
    match s.readImage who (mb64 x 8) (mb32 x 16) with
    | none => s.status x 0x40
    | some b =>
      if kind = 3 then (if b.length < 64 then s.status x 0x40 else s.enterSheaf x kind b [])
      else if !imageShape kind b then s.status x 0x40
      else s.withExts askSheaf x asked (if who = 64 then imgExts b else []) fun s =>
        match s.grantLeases who b with
        | none => s.status x 0x41
        | some ls => s.enterSheaf x kind b ls

/-- SHEAF_LOAD (R264 to R267). -/
def execSheafLoad (x : Mbx) (s : State) : Outcome := .next (s.command x .any false 20 fun s => s.sheafCmd x [])

/-- May the issuer act on a sheaf: its loader, or the fabric manager? -/
def State.maySheaf (s : State) (x : Mbx) (q : Sheaf) : Bool := mbFm x || q.owner == some (s.holderOf (mbWho x))

/-- Is a sheaf in use: the active policy sheaf of a member, or a running schedule? Another member's use is its answer (log entry 15). -/
def State.sheafUsed (s : State) (h : Nat) (q : Sheaf) : Bool :=
  s.tier.policy == h || (s.tier.scheds.any fun e => e.2.st == 1 && e.2.sheaf == h) ||
  (q.kind != 2 && !s.peers.isEmpty && !Config.peerAdmits s.draws)

/-- SHEAF_UNLOAD (R270). -/
def execSheafUnload (x : Mbx) (s : State) : Outcome :=
  .next (s.command x .any false 4 fun s =>
    let h := mb32 x 0
    match look s.tlr.sheaves h with
    | none => s.status x 0x44
    | some q =>
      if !s.maySheaf x q then s.status x 8
      else if s.sheafUsed h q then s.drew.status x 0x43
      else
        let q := { q with unloading := true }
        let s := s.drew.onTlr fun t => { t with sheaves := put t.sheaves h q }
        ((s.copyAll s.peers (.sheaf h (some q))).sheafFree h).status x 0)

/-- SHEAF_QUERY (Table 8-6). -/
def execSheafQuery (x : Mbx) (s : State) : Outcome :=
  .next (s.command x .any false 4 fun s =>
    let h := mb32 x 0
    match look s.tlr.sheaves h with
    | none => s.status x 0x44
    | some q =>
      if !s.maySheaf x q then s.status x 8
      else
        let live := (s.tlr.ctxs.filter fun e => e.2.sheaf == h).length + (if s.peers.isEmpty then 0 else Config.peerAnswer s.draws)
        let sched := q.kind = 3
        s.drew.okOut x (zeros 3 ++ [BitVec.ofNat 8 q.kind, if q.unloading then 2 else 1] ++ zeros 2 ++ toLe 4 live ++
          toLe 4 (if sched then 0 else imgCode q.image) ++ toLe 4 (if sched then 0 else imgWindow q.image)))

/-! ## CTX_CANCEL -/

/-- End a live context as CANCEL does; false when the number is not live. -/
def State.cancelCtx (s : State) (c : Nat) : State × Bool :=
  match look s.tlr.ctxs c with
  | some x => if x.ended.isNone then (s.ctxEnd c x 2, true) else (s, false)
  | none => (s, false)

/-- CTX_CANCEL (Table 8-6): on this module, or sent to the module named. -/
def execCtxCancel (x : Mbx) (s : State) : Outcome :=
  .next (s.command x .fm false 10 fun s =>
    let m := mb8 x 4
    let c := mb16 x 8
    if m = s.me then
      let (s, ok) := s.cancelCtx c
      s.status x (if ok then 0 else 0x45)
    else if m < 64 ∧ s.isLive m ∧ Config.peerAdmits s.draws then (s.drew.copyTo m (.cancelCtx c)).status x 0
    else s.drew.status x 0x45)

/-! ## POLICY_ACTIVATE (R190, R272, R298) -/

/-- The number of the policy context: the one it has, else the first free one of the module contexts. -/
def State.polNum (s : State) : Nat := s.tlr.polCtx.getD (s.modCtx.getD 4032)

/-- Make a policy sheaf active: the context of the one before ends and the new one takes its number; handle 0 is the default policy sheaf,
whose code the factory seed holds. -/
def State.activate (s : State) (h : Nat) : State :=
  let c := s.polNum
  let s := match look s.tlr.ctxs c with
    | some x => s.ctxGone c x
    | none => s
  let s := (s.onTlr fun t => { t with polCtx := some c }).onTier fun t => { t with policy := h }
  let s := if h = 0 then (s.defaultPolicy c).bump cntTlr 0 1
    else s.startCtx c h (s.tlrFor (s.fld 0x980008 6 0)) 0 none s.me 0 0 [s.hookBase, s.prodAt, s.consAt]
  s.post 0x0600 [(4, h)]

/-- POLICY_ACTIVATE (R190). -/
def execPolicyActivate (x : Mbx) (s : State) : Outcome :=
  .next (s.command x .fm false 4 fun s =>
    let h := mb32 x 0
    if h = 0 ∨ (look s.tlr.sheaves h).any (fun q => q.kind == 1 && !q.unloading) then (s.activate h).status x 0 else s.status x 0x23)

end Sys2Proof.Machine
end

