-- ==== Sys2Proof/Machine/Message.lean ====
section
/-! DEFINITION. What the plain messages of the fabric do at this module (spec/09_hedgerow.md R315, R332, R335, Table 9-6; spec/03_coherence.md R99,
R103): requests at a page home, snoops at a portal, responses, mirror lines, and acknowledgements. The messages with a typed body are in
Sys2Proof/Machine/CopyMsg.lean and Sys2Proof/Machine/Membership.lean. -/

namespace Sys2Proof.Machine

open Sys2Proof

/-! ## Arrival -/

/-- A message of another module as it stands here: in bench mode it is discarded and counted (R327); for another module it is forwarded
(R316); else it has its effect once the module serves. -/
def State.arrives (s : State) (op : MOp) (m : Msg) (f : State → State) : State :=
  if s.hdg.bench then s.bump cntHdg 3 1
  else if m.dst.val ≠ s.me then (s.emit (.msg op m)).bump cntHdg 4 1
  else if !s.serving then s
  else f s

/-! ## Requests (Table 9-6, Table 9-10) -/

/-- Route a request that another module sent here: served as page home; from this module's own copy when the page home asks for it (R399) or is
absent; forwarded to the module that is page home now (R90, R337). -/
def State.peerRoute (s : State) (r : Req) (from_ : Nat) : State :=
  let page := r.page
  let h := s.pageHome page
  -- a module's copies and moves are no accesses (R178)
  let counted := decide (r.holder < 4096) || r.label != 7
  if s.homes page then s.atHome r counted
  else if s.mirrored page && twinOf s.me == h then
    (if from_ = h || !s.canRoute h then s.atHome r counted else s.forward r h)
  else if h = s.me then s.forward r (twinOf s.me)
  else if s.canRoute h then s.forward r h
  else s.route r counted

/-- A read, write or atomic request of a message. A request of a holder of another portal to a shared coherent extent shows that a lease of it is
bound to the holder again: its unresponsive mark goes (chapter 3; log entry 48). -/
def State.msgReq (s : State) (m : Msg) (op : ROp) (mask : Nat) (d : Bytes) : State :=
  let s := if s.tracked (saPage m.addr) && m.cxl != 1 then s.respond m.holder else s
  let (s, r) := s.newReq (.peer m.src m.tag) op (if op = .atom then m.addr else m.addr / 64 * 64) m.label (if m.cxl = 1 then 4096 else m.holder)
    (if op = .atom then .invalid else metaOf m.cxl) mask d
  let s := s.peerRoute r m.src
  if op = .wr && m.synd != 0 then s.poisonWritten (saLine m.addr) m.synd else s

/-- RD. -/
def State.onRd (s : State) (m : Msg) : State := s.msgReq m .rd 0 []
/-- WR. -/
def State.onWr (s : State) (m : Msg) : State := s.msgReq m .wr fullMask (fit 64 m.data)
/-- WRP. -/
def State.onWrp (s : State) (m : Msg) : State := s.msgReq m .wr (leAt m.data 0 8) (fit 64 (m.data.drop 32))
/-- ATOM (SETG). -/
def State.onAtom (s : State) (m : Msg) : State := s.msgReq m .atom 0 (fit 16 m.data)

/-- PLACE: a placement request enters this module's port (R193, Table 5-4); one without an op is refused page by page (log entry 42). -/
def State.onPlace (s : State) (m : Msg) : State :=
  let q : PlaceReq := { placeOf m.data with peer := some (m.src.val, m.tag) }
  let s := s.awake
  if 1 ≤ q.op ∧ q.op ≤ 5 then s.placeEnter q else s.runPlace q none

/-! ## Snoops at the holder's portal (R99, R334) -/

/-- SNPINV, SNPDATA, SNPCUR: one host snoop of 1 or 4 lines; the LD owes an answer for each line to the home that sent it. -/
def State.onSnp (s : State) (k : SnpKind) (m : Msg) : State :=
  let n := if m.addr % 4 = 2 then 4 else 1
  let l := saLine m.addr
  let ld := holderLd m.holder
  if holderMod m.holder ≠ s.me then s
  else
    let s := s.awake.onDir fun d => { d with owed := d.owed ++ (List.range n).map fun i => (ld, l + i, m.src.val, m.tag) }
    s.emit (.snoop ld k l n)

/-! ## Responses -/

/-- The module whose answer a request waits for. -/
def Req.remoteOf (r : Req) : Option Nat := r.waits.findSome? fun w => match w with
  | .remote m => some m
  | _ => none

/-- The request of this module that a response answers: by its TAG and the module it was sent to, or that it was forwarded to (R90). -/
def State.answered (s : State) (m : Msg) (rd : Bool) : Option Req :=
  let ours (r : Req) : Bool := r.id % 65536 == m.tag && r.waits.any (fun w => match w with
    | .remote _ => true
    | _ => false) && ((r.op == .rd) == rd) && r.sa / 64 == saLine m.addr
  match s.reqs.find? (fun r => ours r && waitsFor (.remote m.src) r) with
  | some r => some r
  | none => s.reqs.find? ours

/-- DATA: a read of this module is answered, with its poison syndrome; late data is dropped. -/
def State.onData (s : State) (m : Msg) : State :=
  match s.answered m true with
  | some r => (s.answer r (fit 64 m.data) m.synd).paceNext (r.remoteOf.getD m.src)
  | none => s

/-- CMP: a write, SETG or placement request of this module completes. -/
def State.onCmp (s : State) (m : Msg) : State :=
  match s.answered m false with
  | some r => (s.answer r [] 0).paceNext (r.remoteOf.getD m.src)
  | none => (s.onTier fun t => { t with
      scheds := t.scheds.map fun e => (e.1, { e.2 with placed := e.2.placed.filter fun p => p.2 != (m.tag, m.src.val) }),
      runs := t.runs.map fun r => { r with away := r.away.filter fun p => p != (m.tag, m.src.val) } }).flushRuns

/-- BIRSP at the page home (R99, R102). -/
def State.onBirsp (s : State) (m : Msg) : State := s.awake.snoopAnswer (saLine m.addr) m.holder (rspOf m.cxl)

/-- WBK at the page home: under the requester's bytes, or ignored and counted when no snoop is outstanding (R103). -/
def State.onWbk (s : State) (m : Msg) : State :=
  if s.owes (saLine m.addr) m.holder then s.storeWbk (saLine m.addr) (fit 64 m.data) else s.bump cntDir 5 1

/-! ## Mirror traffic (R160, R312, R329, R332) -/

/-- MIRROR: the line enters a twin slot, or waits for one in arrival order. -/
def State.onMirror (s : State) (m : Msg) : State :=
  let s := s.awake
  if !s.hdg.mirrorQ.isEmpty then s.onHdg fun h => { h with mirrorQ := h.mirrorQ ++ [m] }
  else
    let (s', ok) := s.mirrorIn m
    if ok then s' else s.onHdg fun h => { h with mirrorQ := h.mirrorQ ++ [m] }

/-- CLOSE: the twin slot of the page closes and takes the new SEQ, after the MIRRORs that wait before it. -/
def State.onClose (s : State) (m : Msg) : State :=
  if s.hdg.mirrorQ.isEmpty then s.closeIn m else s.onHdg fun h => { h with mirrorQ := h.mirrorQ ++ [m] }

/-- MACK: the twin condition of the write whose MIRROR had the TAG and ADDR is met. -/
def State.onMack (s : State) (m : Msg) : State :=
  match s.reqs.find? (fun r => r.waits.contains .mirror && r.mirrorTag == m.tag && r.sa / 64 == saLine m.addr) with
  | some r => s.settle r.id fun w => w == .mirror
  | none => s

/-- JACK: the records up to the sequence count as journalled; the commands that waited for them complete (R72, R329). -/
def State.onJack (s : State) (m : Msg) : State :=
  (s.onHdg fun h => { h with jacked := max h.jacked m.addr, backlog := h.backlog.filter fun r => decide (m.addr < r.seq) }).flushReplies

/-- GASP: the last 32 records of the partner are kept; event 0x0E05 (R472). -/
def State.onGasp (s : State) (m : Msg) : State :=
  let s := s.onStk fun k => { k with partnerGasp := (k.partnerGasp ++ [fit 64 m.data]).drop (k.partnerGasp.length - 31) }
  s.post 0x0E05 [(1, m.src), (4, s.stk.partnerGasp.length)]

/-- The effect of a plain message at its destination; JRNL, MEMB and COPY come with their bodies by rows of their own. -/
def State.deliver (s : State) (op : MOp) (m : Msg) : State :=
  match op with
  | .rd => s.onRd m
  | .wr => s.onWr m
  | .wrp => s.onWrp m
  | .atom => s.onAtom m
  | .place => s.onPlace m
  | .snpinv => s.onSnp .inv m
  | .snpdata => s.onSnp .data m
  | .snpcur => s.onSnp .cur m
  | .data => s.onData m
  | .cmp => s.onCmp m
  | .birsp => s.onBirsp m
  | .wbk => s.onWbk m
  | .mirror => s.onMirror m
  | .close => s.onClose m
  | .jack => s.onJack m
  | .gasp => s.onGasp m
  | .mack => s.onMack m
  | .jrnl => s
  | .memb => s
  | .copy => s

/-! ## The rows -/

/-- MSG_RD (R315). -/
def execMsgRd (m : Msg) (s : State) : Outcome := .next (s.arrives .rd m fun s => s.onRd m)
/-- MSG_WR (R315). -/
def execMsgWr (m : Msg) (s : State) : Outcome := .next (s.arrives .wr m fun s => s.onWr m)
/-- MSG_WRP (R315). -/
def execMsgWrp (m : Msg) (s : State) : Outcome := .next (s.arrives .wrp m fun s => s.onWrp m)
/-- MSG_ATOM (R260, R315). -/
def execMsgAtom (m : Msg) (s : State) : Outcome := .next (s.arrives .atom m fun s => s.onAtom m)
/-- MSG_PLACE (R193, R315): in the queue order of the port, which waits while it holds 1,024 requests. -/
def execMsgPlace (m : Msg) (s : State) : Outcome := .next (s.arrives .place m fun s => s.onPlace m)
/-- MSG_SNPINV (R99). -/
def execMsgSnpinv (m : Msg) (s : State) : Outcome := .next (s.arrives .snpinv m fun s => s.onSnp .inv m)
/-- MSG_SNPDATA (R99). -/
def execMsgSnpdata (m : Msg) (s : State) : Outcome := .next (s.arrives .snpdata m fun s => s.onSnp .data m)
/-- MSG_SNPCUR (R99). -/
def execMsgSnpcur (m : Msg) (s : State) : Outcome := .next (s.arrives .snpcur m fun s => s.onSnp .cur m)
/-- MSG_DATA (R315). -/
def execMsgData (m : Msg) (s : State) : Outcome := .next (s.arrives .data m fun s => s.onData m)
/-- MSG_CMP (R315). -/
def execMsgCmp (m : Msg) (s : State) : Outcome := .next (s.arrives .cmp m fun s => s.onCmp m)
/-- MSG_BIRSP (R99). -/
def execMsgBirsp (m : Msg) (s : State) : Outcome := .next (s.arrives .birsp m fun s => s.onBirsp m)
/-- MSG_WBK (R103). -/
def execMsgWbk (m : Msg) (s : State) : Outcome := .next (s.arrives .wbk m fun s => s.onWbk m)
/-- MSG_MIRROR (R332). -/
def execMsgMirror (m : Msg) (s : State) : Outcome := .next (s.arrives .mirror m fun s => s.onMirror m)
/-- MSG_CLOSE (R160). -/
def execMsgClose (m : Msg) (s : State) : Outcome := .next (s.arrives .close m fun s => s.onClose m)
/-- MSG_JACK (R72, R329). -/
def execMsgJack (m : Msg) (s : State) : Outcome := .next (s.arrives .jack m fun s => s.onJack m)
/-- MSG_GASP (R472). -/
def execMsgGasp (m : Msg) (s : State) : Outcome := .next (s.arrives .gasp m fun s => s.onGasp m)
/-- MSG_MACK (R332). -/
def execMsgMack (m : Msg) (s : State) : Outcome := .next (s.arrives .mack m fun s => s.onMack m)

/-- Is an opcode one of Table 9-6? -/
def opKnown (op : Nat) : Bool :=
  (decide (1 ≤ op) && decide (op ≤ 5)) || (decide (0x10 ≤ op) && decide (op ≤ 0x12)) || (decide (0x20 ≤ op) && decide (op ≤ 0x23)) ||
  (decide (0x30 ≤ op) && decide (op ≤ 0x37))

/-- MSG_RESERVED_OP (R315): discarded and counted. -/
def execMsgReservedOp (op : Fin 256) (_m : Msg) (s : State) : Outcome := .next (if opKnown op then s else s.bump cntHdg 3 1)

/-! ## Timeouts (R332, R335) -/

/-- HDG_CFG.FTO_MS in ns. -/
def State.fto (s : State) : Nat := s.fld 0x200008 6 0 * 10 ^ 6

/-- MIRROR_MACK_TIMEOUT (R332): counted; the write completes without the twin condition and its page is marked for resynchronisation. -/
def execMirrorMackTimeout (r : Nat) (s : State) : Outcome :=
  .next (match s.req r with
    | some q =>
      if q.waits.contains .mirror ∧ s.now ≥ q.t0 + s.fto then
        let s := (s.bump cntHdg 0 1).onHdg fun h => { h with resync := addNew h.resync q.page }
        s.settle r fun w => w == .mirror
      else s
    | none => s)

/-- A request without an answer after FTO_MS: to a mirrored page in the quorum part it is held until the takeover of its page, and later requests
to the page behind it; another read returns poison 0x0A, another write completes and is counted (R335). -/
def State.timedOut (s : State) (q : Req) (m : Nat) : State :=
  let s := (s.bump cntHdg 0 1).post 0x0207 []
  if s.mirrored q.page && s.hdg.quorum && q.src != .mover 16 then
    let s := s.modReq q.id fun x => { x with waits := [.takeover], t0 := s.now }
    if s.canRoute (s.pageHome q.page) || s.hdg.takeover.contains (s.pageHome q.page) then s else s.reroute fun r => r.page == q.page
  else if q.op = .rd then (s.answer q [] 10).paceNext m
  else ((s.bump cntHdg 1 1).answer q [] 0).paceNext m

/-- FABRIC_REQ_TIMEOUT (R335). A request to a dozing module does not time out (R501); one that is held while its home is still live is sent to it
again after another FTO_MS (log entry 45). -/
def execFabricReqTimeout (r : Nat) (s : State) : Outcome :=
  .next (match s.req r with
    | some q =>
      if s.now < q.t0 + s.fto then s
      else match q.remoteOf with
        | some m => if s.hdg.dozing.contains m then s else s.timedOut q m
        | none => if q.waits.contains .takeover ∧ s.canRoute (s.pageHome q.page) ∧ !s.homes q.page then s.reroute fun x => x.page == q.page else s
    | none => s)

end Sys2Proof.Machine
end

