-- ==== Sys2Proof/Machine/Link.lean ====
section
/-! DEFINITION. The link layer of the Hedgerow ports (spec/09_hedgerow.md R303 to R319; spec/13_security.md R434, R435): flits, their code and
CRC, retry, credits, markers, the byte streams of messages, and the choice of the next flit. -/

namespace Sys2Proof.Machine

open Sys2Proof

/-! ## Messages as bytes (Table 9-5, Table 9-6) -/

/-- OP of a message. -/
def opCode : MOp → Nat
  | .rd => 0x01
  | .wr => 0x02
  | .wrp => 0x03
  | .atom => 0x04
  | .place => 0x05
  | .snpinv => 0x10
  | .snpdata => 0x11
  | .snpcur => 0x12
  | .data => 0x20
  | .cmp => 0x21
  | .birsp => 0x22
  | .wbk => 0x23
  | .mirror => 0x30
  | .close => 0x31
  | .jrnl => 0x32
  | .jack => 0x33
  | .memb => 0x34
  | .copy => 0x35
  | .gasp => 0x36
  | .mack => 0x37

/-- The message of an OP. -/
def opOf (n : Nat) : Option MOp :=
  [MOp.rd, .wr, .wrp, .atom, .place, .snpinv, .snpdata, .snpcur, .data, .cmp, .birsp, .wbk, .mirror, .close, .jrnl, .jack, .memb, .copy,
   .gasp, .mack].find? fun o => opCode o == n

/-- Virtual channel of an OP (Table 9-4). -/
def vcOf (op : Nat) : Nat := op / 16 % 4

/-- A message as bytes: the header of Table 9-5 and its data in units of 32 bytes. A holder ID is 12 bits (log entry 32). -/
def msgBytes (op dirs : Nat) (m : Msg) : Bytes :=
  let len := (m.data.length + 31) / 32
  toLe 16 (m.dst.val * 2 ^ 122 + m.src.val * 2 ^ 116 + dirs % 8 * 2 ^ 113 + op % 256 * 2 ^ 105 + len % 256 * 2 ^ 97 + m.label.val * 2 ^ 94 +
    m.holder % 4096 * 2 ^ 82 + m.tag % 65536 * 2 ^ 66 + m.cxl % 4 * 2 ^ 64 + m.synd % 256 * 2 ^ 56 + m.addr % 2 ^ 50) ++ fit (32 * len) m.data

/-- The header of a message: directions, OP, LEN. -/
def headDirs (b : Bytes) : Nat := bits (leAt b 0 16) 115 113
def headOp (b : Bytes) : Nat := bits (leAt b 0 16) 112 105
def headLen (b : Bytes) : Nat := bits (leAt b 0 16) 104 97

/-- A message from its bytes. -/
def msgOf (b : Bytes) : Msg :=
  let h := leAt b 0 16
  { dst := Fin.ofNat 64 (bits h 127 122), src := Fin.ofNat 64 (bits h 121 116), label := Fin.ofNat 8 (bits h 96 94), holder := bits h 93 82,
    tag := bits h 81 66, cxl := bits h 65 64, synd := bits h 63 56, addr := bits h 49 0, data := b.drop 16 }

/-- Cut a channel's stream into whole messages and the rest. A stream that is all zeros at a message boundary is padding (log entry 46). -/
def cutMsgs : Nat → Bytes → List Bytes × Bytes
  | 0, b => ([], b)
  | f + 1, b =>
    if b.all (· == 0) then ([], [])
    else if b.length < 16 then ([], b)
    else
      let n := 16 + 32 * headLen b
      if b.length < n then ([], b)
      else
        let (ms, r) := cutMsgs f (b.drop n)
        (b.take n :: ms, r)

/-! ## Flits (R304, R305, Table 9-2, Table 9-3) -/

/-- Codeword k of a flit: its data bytes, then its parity. -/
def flitWord (b : Bytes) (k : Nat) : List Nat :=
  ((List.range 240).filter fun i => (i + i / 8) % 2 == k).map (byteAt b) ++ (List.range 8).map fun i => byteAt b (240 + 8 * k + i)

/-- A flit of 256 bytes from its first 236. -/
def sealFlit (b : Bytes) : Bytes :=
  let b := b ++ toLe 4 (crc32 b)
  let par (k : Nat) : Bytes := (rsCheckF Config.fecFirstRoot ((flitWord b k).take 120)).map (BitVec.ofNat 8)
  b ++ par 0 ++ par 1

/-- A received flit after FEC decoding: bytes 0 to 235 and the codewords corrected, or none when the code or the CRC fails. -/
def openFlit (b : Bytes) : Option (Bytes × Nat) :=
  match rsDecode Config.fecFirstRoot (flitWord b 0), rsDecode Config.fecFirstRoot (flitWord b 1) with
  | some (c, n), some (d, k) =>
    let w (i : Nat) : Byte := BitVec.ofNat 8 (((if (i + i / 8) % 2 = 0 then c else d)[i / 2]?).getD 0)
    let x := (List.range 240).map w
    if leAt x 236 4 = crc32 (x.take 236) then some (x.take 236, (if n = 0 then 0 else 1) + (if k = 0 then 0 else 1)) else none
  | _, _ => none

/-- A flit header (Table 9-3). -/
def flitHead (type ch seq ack cch cr : Nat) : Bytes :=
  toLe 6 (type * 2 ^ 44 + ch % 16 * 2 ^ 40 + seq % 4096 * 2 ^ 28 + ack % 4096 * 2 ^ 16 + cch % 16 * 2 ^ 12 + cr % 256 * 2 ^ 4)

/-- Payload under the key stream of a link direction (R308, R434). -/
def xorStream (link epoch pos : Nat) (d : Bytes) : Bytes :=
  d.zipIdx.map fun x => x.1 ^^^ Config.keystream link epoch pos x.2

/-! ## Ports -/

/-- A port that has not trained. -/
def HPort.blank : HPort :=
  { st := 0, width := 0, want := 0, off := false, nport := 0, nmod := 0, weight := 0, halved := false, seqTx := 0, seqRx := 4095,
    credits := List.replicate 16 16, owed := List.replicate 16 0, outst := List.replicate 16 16, replay := [], resend := [], fails := 0,
    nak := false, txPos := 0, rxPos := 0, txBytes := [], rxBytes := [], rxLost := false, txEpoch := 0, rxEpoch := 0, epochAt := 0,
    newEpoch := false, lastRx := 0, txq := [], part := [], rxs := [], skip := [], sent := 0, resent := 0, stall := 0, seen := 0, retrainAt := 0 }

def State.hport (s : State) (p : Nat) : HPort := (look s.hdg.ports p).getD HPort.blank
def State.setHport (s : State) (p : Nat) (x : HPort) : State := s.onHdg fun h => { h with ports := put h.ports p x }

/-- HDG_PORT_STAT_p and HDG_PORT_FEC_p. -/
def portStat (p : Nat) : Nat := 0x200200 + 8 * p
def portFec (p : Nat) : Nat := 0x200240 + 8 * p

/-- Add to the 32-bit field of a port register from bit lo on. -/
def State.portCount (s : State) (reg lo n : Nat) : State :=
  s.setReg reg (Sys2Proof.Machine.setBits (s.reg reg) (lo + 31) lo (min (bits (s.reg reg) (lo + 31) lo + n) (2 ^ 32 - 1)))

/-- Lanes of a width code. -/
def lanesOf (w : Nat) : Nat := if w = 3 then 8 else if w = 2 then 4 else w

/-- A port goes down: its messages are lost, the links state, the interrupt bit, event 0x0202 and the report to the coordinator follow
(R309, R323). -/
def State.portDown (s : State) (p : Nat) : State :=
  let x := s.hport p
  let s := s.setHport p { HPort.blank with want := x.want, off := x.off, nport := x.nport, nmod := x.nmod, retrainAt := s.now + 100 * 10 ^ 6,
                                              txPos := x.txPos, rxPos := x.rxPos, txEpoch := x.txEpoch, rxEpoch := x.rxEpoch, epochAt := x.epochAt,
                                              newEpoch := x.newEpoch }
  let s := (s.intr 0x200028 1).post 0x0202 [(1, p), (1, 0)]
  if s.hdg.bench || !s.hdg.formed then s
  else
    let s := s.onHdg fun h => { h with linksDown := if h.linksDown.contains (s.me, p) then h.linksDown else h.linksDown ++ [(s.me, p)] }
    s.emit (.memb (.link s.me p false))

/-- Start training a port. -/
def State.trainPort (s : State) (p : Nat) : State :=
  let x := s.hport p
  s.setHport p { x with st := 1, width := 0, retrainAt := s.now + 100 * 10 ^ 6 }

/-! ## Injection (R316 to R319) -/

/-- Rank of the class of a message's label (R313). -/
def State.msgRank (s : State) (m : Msg) : Nat := (s.classP m.holder (s.classOfHolder m.holder m.label)).rank

/-- Queue a message at a port; at a port that is not up it is lost. -/
def State.enqueue (s : State) (p : Nat) (q : TxMsg) : State :=
  let x := s.hport p
  if x.st = 2 then s.setHport p { x with txq := x.txq ++ [q] } else s

/-- Fix the route of a message and queue it at its first port; one that no usable route leads to is lost (R317). -/
def State.injectMsg (s : State) (op : Nat) (m : Msg) : State :=
  let dst := m.dst.val
  if dst = s.me then s
  else match s.routeTo dst (s.halfDir dst (decide (vcOf op ≤ 1)) m.addr) with
    | none => s
    | some (ord, dirs) =>
      match s.nextHop s.me dst ord dirs none with
      | none => s
      | some (p, dl) =>
        s.enqueue p { ch := vcOf op * 4 + ord * 2 + dl, rank := s.msgRank m, transit := m.src.val != s.me, bytes := msgBytes op dirs m }

/-- A SYS message of this module whose payload layout the manual does not state: free bytes after what it does state (log entry 12). -/
def State.sysMsg (s : State) (dst : Nat) (addr : Nat) (d : Bytes) (units : Nat) : State × Msg :=
  (s.drew, { dst := Fin.ofNat 64 dst, src := Fin.ofNat 64 s.me, label := 7, holder := 0, tag := 0, cxl := 0, synd := 0, addr := addr,
             data := (d ++ (List.range (32 * units)).map fun i => Config.answerByte s.draws i).take (32 * units) })

/-- Queue what an output puts into the fabric. -/
def State.injectOut (s : State) (o : Out) : State :=
  let sys (s : State) (op dst addr : Nat) (d : Bytes) (units : Nat) : State :=
    let (s, m) := s.sysMsg dst addr d units
    s.injectMsg op m
  match o with
  | .msg op m => s.injectMsg (opCode op) m
  | .copy dst _ => sys s 0x35 dst 0 [] 1
  | .memb _ => if s.hdg.formed then s.each (s.hdg.live.filter (· != s.me)) fun s m => sys s 0x34 m 0 [] 1 else s
  | .jrnl dst rs => sys s 0x32 dst 0 (toLe 8 ((rs.map JRec.seq).headD 0)) (min 255 (1 + 2 * rs.length))
  | .jack dst seq => sys s 0x33 dst seq [] 0
  | .gasp dst r => sys s 0x36 dst 0 r 2
  | _ => s

/-- The ports take the outputs that the module has made since they last did; in bench mode they carry no messages (R327). -/
def State.inject (s : State) : State :=
  let os := s.out.drop s.hdg.injected
  let s := s.onHdg fun h => { h with injected := s.out.length }
  if s.hdg.bench then s else s.each os State.injectOut

/-! ## The choice of a flit (R306, R311, R313) -/

/-- Order in which a VC is served: RSP, SNP, SYS, REQ. -/
def vcOrder (vc : Nat) : Nat := if vc = 2 then 0 else if vc = 1 then 1 else if vc = 3 then 2 else 3

/-- Key of a waiting message: its rank, transit first. -/
def TxMsg.key (m : TxMsg) : Nat := m.rank * 2 + if m.transit then 0 else 1

/-- Does a channel have something to send? -/
def HPort.waiting (x : HPort) (c : Nat) : Bool := (look x.part c).any (fun b => !b.isEmpty) || x.txq.any fun m => m.ch == c

/-- Best key among a channel's messages; the rest of one that was begun comes first. -/
def HPort.chKey (x : HPort) (c : Nat) : Nat :=
  if (look x.part c).any (fun b => !b.isEmpty) then 0
  else match argMin TxMsg.key (x.txq.filter fun m => m.ch == c) with
    | some m => m.key
    | none => 0

/-- Flits for which a channel has waited. -/
def HPort.waited (x : HPort) (c : Nat) : Nat := (look x.skip c).getD 0

/-- The channel of the next DATA flit: a SYS or REQ channel that has waited for seven flits; else by VC, within REQ by rank, then the channel that
has waited longest. -/
def HPort.choose (x : HPort) : Option Nat :=
  let can := (List.range 16).filter fun c => x.waiting c && decide (0 < (x.credits[c]?).getD 0)
  let due := can.filter fun c => (c / 4 == 0 || c / 4 == 3) && decide (7 ≤ x.waited c)
  match argMin (fun c => 2 ^ 40 - x.waited c) due with
  | some c => some c
  | none => argMin (fun c => (vcOrder (c / 4) * 65536 + (if c / 4 = 0 then x.chKey c else 0)) * 2 ^ 40 + (2 ^ 40 - 1 - min (x.waited c) (2 ^ 40 - 1))) can

/-- Fill a payload of a channel with at most `room` bytes: what is sent, the rest of the message begun, and the messages left. A message is not
begun where only zeros of it would fit (log entry 46). -/
def fillFlit (c : Nat) : Nat → Bytes → List TxMsg → Nat → Bytes × Bytes × List TxMsg
  | 0, part, q, _ => ([], part, q)
  | f + 1, part, q, room =>
    if room = 0 then ([], part, q)
    else if !part.isEmpty then
      let (b, r) := (part.take room, part.drop room)
      if !r.isEmpty then (b, r, q)
      else
        let (d, p, q) := fillFlit c f [] q (room - b.length)
        (b ++ d, p, q)
    else
      match argMin TxMsg.key (q.filter fun m => m.ch == c) with
      | none => ([], [], q)
      | some m => if (m.bytes.take room).all (· == 0) then ([], [], q) else fillFlit c f m.bytes (removeFirst (· == m) q) room

/-- The channel whose credits the next header returns, the number returned, and the port after it: what is owed, and pool flits while the
channel has fewer than 512 granted (R311). -/
def HPort.giveCredit (x : HPort) : Nat × Nat × HPort :=
  match argMin (fun c => 65536 - (x.owed[c]?).getD 0) (List.range 16) with
  | none => (0, 0, x)
  | some c =>
    let o := (x.owed[c]?).getD 0
    if o = 0 then (0, 0, x)
    else
      let g := (x.outst[c]?).getD 0
      let pool := 768 - sumOf (List.range 16) fun i => ((x.outst[i]?).getD 0 + (x.owed[i]?).getD 0) - 16
      let n := min 255 o
      let extra := min (min (512 - min 512 (g + o)) pool) (255 - n)
      (c, n + extra, { x with owed := x.owed.set c (o - n), outst := x.outst.set c (g + n + extra) })

/-- Send a flit of a type at the port's position. -/
def State.sendFlit (s : State) (p : Nat) (x : HPort) (type ch seq : Nat) (payload : Bytes) : State :=
  let (c, n, x) := x.giveCredit
  let body := if type = 1 then xorStream (s.me * 8 + p) x.txEpoch x.txPos payload else zeros 230
  let b := flitHead type ch seq x.seqRx c n ++ body
  (s.setHport p { x with txPos := x.txPos + 1, txBytes := x.txBytes ++ b, seen := x.seen + 1 }).emit (.flit p (sealFlit b))

/-- The MARKER: key epoch, and the tag over the flits before it (R307, R435). -/
def State.sendMarker (s : State) (p : Nat) (x : HPort) : State :=
  let e := if x.newEpoch then x.txEpoch + 1 else x.txEpoch
  let tag := Config.linkTag (s.me * 8 + p) x.txEpoch x.txBytes
  (s.setHport p { x with txPos := x.txPos + 1, txBytes := [], txEpoch := e, newEpoch := false,
                         epochAt := if x.newEpoch then x.txPos else x.epochAt }).emit (.marker p e tag)

/-- FLIT_TRANSMIT (R306, R307, R311, R313): the next flit of a port that is up: a marker at every 256th position; a replay; a NAK; a DATA flit against
a credit; or IDLE. -/
def execFlitTransmit (p : Fin 6) (s : State) : Outcome :=
  .next (
    if (s.hport p).st ≠ 2 then s
    else
      let s := s.inject
      let x := s.hport p
      if x.txPos % 256 = 255 then s.sendMarker p x
      else match x.resend with
        | q :: rest =>
          match x.replay.find? (fun e => e.1 == q) with
          | some e => (s.portCount (portStat p) 0 1).sendFlit p { x with resend := rest, sent := x.sent + 1, resent := x.resent + 1 } 1 e.2.1 q e.2.2
          | none => s.setHport p { x with resend := rest }
        | [] =>
          if x.nak then s.sendFlit p { x with nak := false } 2 0 0 []
          else
            let wait := (List.range 16).filter x.waiting
            match (if x.replay.length < 1024 then x.choose else none) with
            | some c =>
              let (b, part, q) := fillFlit c (2 * x.txq.length + 2) ((look x.part c).getD []) x.txq 230
              let b := fit 230 b
              let skip := wait.foldl (fun m i => put m i ((look m i).getD 0 + 1)) (x.skip.filter fun e => wait.contains e.1)
              s.sendFlit p { x with seqTx := (x.seqTx + 1) % 4096, credits := x.credits.set c ((x.credits[c]?).getD 0 - 1),
                                    replay := x.replay ++ [(x.seqTx, c, b)], txq := q,
                                    part := if part.isEmpty then del x.part c else put x.part c part, skip := put skip c 0,
                                    sent := x.sent + 1 } 1 c x.seqTx b
            | none => s.sendFlit p { x with stall := x.stall + if wait.isEmpty then 0 else 1 } 0 0 0 [])

/-! ## Receiving (R305, R306, R308) -/

/-- Is a sequence at or before another, modulo 4,096? -/
def seqLe (a b : Nat) : Bool := decide ((b + 4096 - a % 4096) % 4096 < 2048)

/-- An acknowledgement frees the flits up to it; credits are added. -/
def HPort.acked (x : HPort) (ack cch cr : Nat) : HPort :=
  let keep (q : Nat) : Bool := !seqLe q ack
  let first := (x.replay.map fun e => e.1).head?
  let replay := x.replay.filter fun e => keep e.1
  { x with replay := replay, resend := x.resend.filter keep, credits := x.credits.set cch ((x.credits[cch]?).getD 0 + cr),
           fails := if (replay.map fun e => e.1).head? = first then x.fails else 0 }

/-- A flit of d is taken at a port, n codewords corrected: its acknowledgement and credits, and what the MARKER checks. -/
def State.flitTaken (s : State) (p : Nat) (d : Bytes) (n : Nat) : State :=
  let h := leAt d 0 6
  let x := s.hport p
  (if n = 0 then s else s.portCount (portFec p) 0 n).setHport p
    { (x.acked (bits h 27 16) (bits h 15 12) (bits h 11 4)) with lastRx := s.now, rxBytes := x.rxBytes ++ d, rxPos := x.rxPos + 1 }

/-- A flit that its code or CRC refuses: discarded, counted, and asked for again. -/
def State.flitLost (s : State) (p : Nat) : State :=
  (s.portCount (portFec p) 32 1).setHport p { s.hport p with nak := true, rxLost := true, rxPos := (s.hport p).rxPos + 1 }

/-- A flit at a port that is up: decoded and taken, or discarded; a flit of the type asked for goes on. -/
def State.recvFlit (s : State) (p : Nat) (b : Bytes) (type : Nat) (f : State → Nat → Bytes → State) : State :=
  if (s.hport p).st ≠ 2 then s
  else match openFlit (fit 256 b) with
    | none => s.flitLost p
    | some (d, n) => if bits (leAt d 0 6) 47 44 ≠ type then s else f (s.flitTaken p d n) (leAt d 0 6) (d.drop 6)

/-- A whole message from a port: reserved OPs and messages in bench mode are discarded and counted; transit goes to its next port with its order
and directions; the rest has its effect here. -/
def State.fromPort (s : State) (p ch : Nat) (b : Bytes) : State :=
  let m := msgOf b
  match opOf (headOp b) with
  | none => s.bump cntHdg 3 1
  | some op =>
    if s.hdg.bench then s.bump cntHdg 3 1
    else if m.dst.val ≠ s.me then
      match s.nextHop s.me m.dst (ch / 2 % 2) (headDirs b) (some (p / 2, ch % 2)) with
      | some (q, dl) => (s.enqueue q { ch := ch / 4 * 4 + ch / 2 % 2 * 2 + dl, rank := s.msgRank m, transit := true, bytes := b }).bump cntHdg 4 1
      | none => s
    else if s.serving then s.deliver op m else s

/-- FLIT_DATA_RX (R304 to R306, R308, R311): a flit in order joins its channel's stream; one ahead of order is discarded with a NAK, one already
received is dropped. -/
def execFlitDataRx (p : Fin 6) (flit : Bytes) (s : State) : Outcome :=
  .next (s.recvFlit p flit 1 fun s h body =>
    let x := s.hport p
    let seq := bits h 39 28
    let ch := bits h 43 40
    if seq ≠ (x.seqRx + 1) % 4096 then (if seqLe seq x.seqRx then s else s.setHport p { x with nak := true })
    else
      let d := xorStream (x.nmod * 8 + x.nport) x.rxEpoch (x.rxPos - 1) (body.take 230)
      let buf := (look x.rxs ch).getD [] ++ d
      let (ms, rest) := cutMsgs (buf.length / 16 + 1) buf
      let s := s.setHport p { x with seqRx := seq, rxs := if rest.isEmpty then del x.rxs ch else put x.rxs ch rest,
                                     owed := x.owed.set ch ((x.owed[ch]?).getD 0 + 1), outst := x.outst.set ch ((x.outst[ch]?).getD 0 - 1) }
      s.each ms fun s b => s.fromPort p ch b)

/-- FLIT_IDLE_RX (R306): acknowledgement and credits only. -/
def execFlitIdleRx (p : Fin 6) (flit : Bytes) (s : State) : Outcome := .next (s.recvFlit p flit 0 fun s _ _ => s)

/-- FLIT_NAK_RX (R306): every later DATA flit is sent again; when eight replays of one flit have failed, the port retrains. -/
def execFlitNakRx (p : Fin 6) (flit : Bytes) (s : State) : Outcome :=
  .next (s.recvFlit p flit 2 fun s _ _ =>
    let x := s.hport p
    if x.replay.isEmpty then s
    else if x.fails ≥ 8 then s.trainPort p
    else s.setHport p { x with resend := x.replay.map fun e => e.1, fails := x.fails + 1 })

/-- FLIT_MARKER_RX (R307, R309, R435): the tag over the flits since the last marker is checked, unless one of them was discarded, and the key epoch
taken; a mismatch takes the port down. -/
def execFlitMarkerRx (p : Fin 6) (epoch : Nat) (tag : Nat) (s : State) : Outcome :=
  .next (
    let x := s.hport p
    if x.st ≠ 2 then s
    else if !x.rxLost ∧ tag ≠ Config.linkTag (x.nmod * 8 + x.nport) x.rxEpoch x.rxBytes then
      ((s.intr 0x200028 6).post 0x020A []).portDown p
    else s.setHport p { x with rxEpoch := epoch, rxBytes := [], rxLost := false, rxPos := x.rxPos + 1, lastRx := s.now })

/-! ## Port state (R303, R309, R318, R435) -/

/-- PORT_NO_FLIT_TIMEOUT (R309): no valid flit for 20 µs. -/
def execPortNoFlitTimeout (p : Fin 6) (s : State) : Outcome :=
  .next (if (s.hport p).st = 2 ∧ s.now ≥ (s.hport p).lastRx + 20000 then s.portDown p else s)

/-- PORT_RETRAIN_TIMER (R309): a port that is down, or whose training has not ended, trains again every 100 ms. -/
def execPortRetrainTimer (p : Fin 6) (s : State) : Outcome :=
  .next (if (s.hport p).st ≤ 1 ∧ (look s.hdg.ports p).isSome ∧ !(s.hport p).off ∧ s.now ≥ (s.hport p).retrainAt then s.trainPort p else s)

/-- KEY_EPOCH_ADVANCE (R435): after 2⁴⁰ flits on a link a new epoch takes effect at the next marker. -/
def execKeyEpochAdvance (p : Fin 6) (s : State) : Outcome :=
  .next (let x := s.hport p
    if x.st = 2 ∧ x.txPos ≥ x.epochAt + 2 ^ 40 ∧ !x.newEpoch then s.setHport p { x with newEpoch := true } else s)

/-- Width code that a number of trained lanes gives: x8, x4 or x1; x1 in Doze and as LINK_RETRAIN asks (R303). -/
def State.trainedWidth (s : State) (x : HPort) (lanes : Nat) : Nat :=
  let w := if lanes ≥ 8 then 3 else if lanes ≥ 4 then 2 else if lanes ≥ 1 then 1 else 0
  let w := if x.want = 0 then w else min w (4 - x.want)
  if s.pwr.state = 2 then min w 1 else w

/-- HEDGEROW_PORT_UP (R303, R309): training ends: foreign when the neighbour reports another SPACE_ID, else up at its width; a width below x8 is
reported. -/
def execHedgerowPortUp (p : Fin 6) (lanes : Nat) (spaceId : Nat) (nmod : Fin 64) (nport : Fin 6) (s : State) : Outcome :=
  .next (
    let x := s.hport p
    let w := s.trainedWidth x lanes
    if x.st ≠ 1 then s
    else if w = 0 then s.portDown p
    else if spaceId ≠ s.hdg.spaceId then s.setHport p { HPort.blank with want := x.want, off := x.off, st := 3, width := w, nport := nport, nmod := nmod }
    else
      let s := s.setHport p { x with st := 2, width := w, weight := lanesOf w * 256, nport := nport, nmod := nmod, lastRx := s.now,
                                     fails := 0, resend := x.replay.map fun e => e.1, txBytes := [], rxBytes := [], rxLost := false,
                                     txPos := roundUp x.txPos 256, rxPos := roundUp x.rxPos 256 }
      let s := if w = 3 then s else (s.intr 0x200028 1).post 0x0202 [(1, p), (1, lanesOf w)]
      if s.hdg.bench || !s.hdg.formed then s
      else
        let gone : Nat × Nat → Bool := fun l => l == (s.me, p.val) || l == (nmod.val, nport.val)
        (s.onHdg fun h => { h with linksDown := h.linksDown.filter fun l => !gone l }).emit (.memb (.link s.me p true)))

/-- LINK_WEIGHT_UPDATE (R318): every 1 ms, lanes × the fraction of flits not replayed, in 1/256 lane. -/
def execLinkWeightUpdate (s : State) : Outcome :=
  .next (
    if s.now < s.hdg.weightAt + 10 ^ 6 then s
    else s.onHdg fun h => { h with weightAt := s.now, ports := h.ports.map fun e =>
      (e.1, { e.2 with weight := if e.2.st ≠ 2 then 0 else if e.2.sent = 0 then lanesOf e.2.width * 256
                                 else lanesOf e.2.width * 256 * (e.2.sent - e.2.resent) / e.2.sent, sent := 0, resent := 0 }) })

/-- The weight of a port in use, halved for credit stalls. -/
def HPort.effWeight (x : HPort) : Nat := if x.st ≠ 2 then 0 else if x.halved then x.weight / 2 else x.weight

/-- Split of a destination and dimension: in proportion to the weights of the two directions, a direction without a usable route counting as 0; of
the links of other modules no weight is held here (log entry 44). -/
def State.newSplit (s : State) (dst d : Nat) : Nat :=
  let n := s.ringSize d
  let w (p : Nat) : Nat := if s.usable p s.me (n / 2) then (s.hport p).effWeight else 0
  let (a, b) := (w (2 * d), w (2 * d + 1))
  if a + b = 0 then s.splitOf false dst d else 16 * a / (a + b)

/-- Does a REQ or SNP message of this module to a destination await its response? -/
def State.awaits (s : State) (dst : Nat) : Bool :=
  s.reqs.any (fun r => waitsFor (.remote dst) r) || s.dir.trk.any fun t => t.owed.any fun h => holderMod h == dst

/-- ROUTE_SPLIT_UPDATE (R318): every 100 µs; REQ and SNP messages take the new split of a destination only while none awaits its response. -/
def execRouteSplitUpdate (s : State) : Outcome :=
  .next (
    if s.now < s.hdg.splitAt + 100000 ∨ !s.hdg.formed then s
    else
      let s := s.onHdg fun h => { h with splitAt := s.now, ports := h.ports.map fun e =>
        (e.1, { e.2 with halved := decide (e.2.seen < 2 * e.2.stall), stall := 0, seen := 0 }) }
      s.each ((List.range s.hdg.size).filter (· != s.me)) fun s dst =>
        s.each ((List.range 3).filter fun d => s.dist s.me dst d != 0 && 2 * s.dist s.me dst d == s.ringSize d) fun s d =>
          let k := s.newSplit dst d
          let wait := s.awaits dst
          s.onHdg fun h => { h with splits := put h.splits (dst * 4 + d) k,
                                    reqSplits := if wait then h.reqSplits else put h.reqSplits (dst * 4 + d) k })

end Sys2Proof.Machine
end

