-- ==== Sys2Proof/Machine/Doze.lean ====
section
/-! DEFINITION. Idle and Doze (spec/17_power_reset_boot.md R494 to R501, Table 17-1, Table 17-2). -/

namespace Sys2Proof.Machine

open Sys2Proof

/-! ## Entry (Table 17-2) -/

/-- Mark this module dozing, or no longer, for itself and the other members (R497, R501). -/
def State.dozeMark (s : State) (on : Bool) : State :=
  let s := s.onHdg fun h => { h with dozing := if on then addNew h.dozing s.me else h.dozing.filter (· != s.me) }
  if s.hdg.bench || !s.hdg.formed then s else s.emit (.memb (.dozing s.me on))

/-- Step 1 starts: the module is marked, resident contexts are swapped out; new STARTs wait and schedules pause while the state is not Active
or Idle. -/
def State.startDoze (s : State) : State :=
  let s := (s.onPwr fun p => { p with state := 3, dozeStep := some 1, dozeAbort := false }).dozeMark true
  s.each ((s.tlr.ctxs.filter fun e => e.2.resident).map Prod.fst) fun s c => s.swapOut c

/-- Step 2 starts: every OPEN slot closes. -/
def State.dozeClose (s : State) : State := s.each (s.husk.slots.filter fun x => x.ph == .opened && !x.twin) fun s x => s.closeSlot x.id

/-- The near pages that step 3 demotes. -/
def State.dozeNear (s : State) : List Nat :=
  (s.tier.pmes.filter fun e => (look s.tier.pins e.1).isNone && !isVlr e.2.cls && e.2.st == .near).map Prod.fst
where
  isVlr (c : Nat) : Bool := c == 12

/-- Step 3 starts: near pages are demoted at once, waiting demotions go on, materialised V-LR pages are discarded. -/
def State.dozeDemote (s : State) : State :=
  let s := s.each (s.tier.pmes.filter fun e => e.2.cls == 12 && hasNear e.2) fun s e => s.dropVirtual e.1
  let s := s.each (s.tier.moves.filter fun m => m.2.kind == 1 && !m.2.issued && (look s.tier.pins m.1).isNone) fun s m => s.issueDemote m.1
  s.each s.dozeNear fun s p => if (s.move p).isNone && !s.recoding p then s.startDemote p 7 false else s

/-- Is step 3 over: no near page left that it demotes, and no demotion running? -/
def State.dozeFar (s : State) : Bool := s.dozeNear.isEmpty && !(s.tier.moves.any fun m => m.2.kind == 1)

/-- Step 4: near copies of pages in state both that are not pinned are discarded. -/
def State.dozeDiscard (s : State) : State :=
  s.each (s.tier.pmes.filter fun e => e.2.st == .both && (look s.tier.pins e.1).isNone && (s.move e.1).isNone && !s.farPending e.1) fun s e =>
    (s.dropNear e.1).setPme e.1 { e.2 with st := .far, near := 0 } false

/-- The lowest free run of a page's channel in a segment below the one where its husk begins. -/
def State.lowerRun (s : State) (p : Pme) : Option Nat :=
  let n := chanOf p.near
  let seg (k : Nat) : Nat := rowIndex k / (262144 * s.ranks)
  argMin id ((s.runStarts n).filter fun k => decide (seg k < seg (chunkIdx p.near)) && s.runFree n k p.len (p.prot == 1))

/-- Move the near husk of a pinned page into a lower segment of its channel; not while a recode or a move holds it, nor with a line that does
not read. -/
def State.gatherPage (s : State) (page : Nat) : State :=
  let p := s.pme page
  if !(p.st == .near || p.st == .both) || s.recoding page || (s.move page).isSome || s.hasUncorr p then s
  else match s.lowerRun p with
    | none => s
    | some k =>
      let a := nearAddr (chanOf p.near) k
      let ls := (List.range (2 * p.len)).map fun i => s.relocLine p i
      let s := s.takeNear a p.len
      let s := s.each (List.range (2 * p.len)) fun s i => s.writeLine (a * 2 + i) ((ls[i]?).getD blankLine)
      (s.freeNear p.near).setPme page { p with near := a } false

/-- Step 4, after the discards: pinned pages are gathered into the lowest segments of each channel, in page order (R381). The metadata lie below
each channel's first pool chunk already (log entry 79). -/
def State.gather (s : State) : State := s.each (s.tier.pmes.filter fun e => s.isPinned e.1 && hasNear e.2) fun s e => s.gatherPage e.1

/-- Segments of a channel, by rank, that hold no chunk in use, no metadata and lie in no parity stripe: bits as DRC_PASR_n. -/
def State.freeSegs (s : State) (n : Nat) : Nat :=
  let per := 262144 * s.ranks
  let bitsOf (k : Nat) : Nat := 8 * rankOf s.ranks k + rowIndex k / per
  let used := (s.near.alloc.filter fun p => chanOf p.1 == n).flatMap fun p => (List.range p.2).map fun i => bitsOf (chunkIdx p.1 + i)
  let stripes := s.near.stripes.any fun p => p.1 == stripeGroup n
  if stripes then 0
  else sumOf ((List.range 16).filter fun b => decide (b / 8 < s.ranks ∧ s.firstIn n ≤ 14 * per * (b % 8)) && !used.contains b) fun b => 2 ^ b

/-- Step 5: channels enter self-refresh with their free segments masked (R380). -/
def State.dozeMask (s : State) : State :=
  s.each ((List.range 96).filter s.chanUp) fun s n =>
    (s.setChan n fun c => { c with sref := true, openRows := [], hits := [] }).setReg (0xB00018 + 0x1000 * n) (s.freeSegs n)

/-- Widths of the ports: x1 in Doze, as trained after it (R303, R489). -/
def State.portsNarrow (s : State) : State :=
  let s := s.onHdg fun h => { h with ports := h.ports.map fun e => (e.1, if e.2.st = 2 then { e.2 with width := 1, weight := 256 } else e.2) }
  s.each (List.range 4) fun s p => s.hostWidth p 1

/-- Step 6 done: the module is in Doze. -/
def State.dozeIn (s : State) : State :=
  let s := ((s.onPwr fun p => { p with state := 2, dozeStep := none }).intr 0x1000028 1).bump cntPwr 1 1
  (s.post 0x0F01 []).endBg 64 rcSuccess [0]

/-- Entry ends by a DOZE_EXIT: the steps done are reversed (R499). -/
def State.dozeAbandon (s : State) : State :=
  (s.onPwr fun p => { p with state := 4, dozeStep := none, dozeAbort := false }).endBg 64 rcSuccess [0x91] |>.post 0x0F07 []

/-- Is the action of an entry step complete: the slots drained, the far tier programmed? -/
def State.dozeReady (s : State) (k : Nat) : Bool := if k = 2 then s.husk.slots.all fun x => x.twin else if k = 3 then s.dozeFar else true

/-- The entry goes on with step k. -/
def State.dozeGo (s : State) (k : Nat) : State := s.onPwr fun p => { p with dozeStep := some k }

/-- DOZE_ENTRY_STEP_DONE (R496, R499): the step that runs is over when what it does is done, and the next starts. -/
def execDozeEntryStepDone (s : State) : Outcome :=
  .next (
    match s.pwr.dozeStep with
    | none => s
    | some k =>
      if !s.dozeReady k then s
      else if s.pwr.dozeAbort then s.dozeAbandon
      else if k = 1 then (s.dozeClose).dozeGo 2
      else if k = 2 then (s.dozeDemote).dozeGo 3
      else if k = 3 then (s.dozeDiscard.gather).dozeGo 4
      else if k = 4 then (s.dozeMask).dozeGo 5
      else if k = 5 then (s.portsNarrow).dozeGo 6
      else s.dozeIn)

/-- DOZE_ENTER (R496, R500): this module, or with byte 4 set to 1 every live member. -/
def execDozeEnter (x : Mbx) (s : State) : Outcome :=
  .next (s.command x .fm false 5 fun s =>
    let all := mb8 x 4
    if all > 1 then s.status x 9
    else if s.pwr.state = 4 then s.status x 0x91
    else
      let s := if all = 1 then s.copyAll s.peers (.doze true) else s
      if s.pwr.state = 2 then s.status x 0
      else s.bgCommand x fun s => if s.pwr.state = 3 then s.status x 0 else (s.startBg x 0xCB00).startDoze)

/-! ## Exit (R497 to R500) -/

/-- A DOZE_EXIT, or its request by another member: an entry ends with its step, a dozing module starts to leave. -/
def State.dozeLeave (s : State) : State :=
  if s.pwr.state = 3 then s.onPwr fun p => { p with dozeAbort := true }
  else if s.pwr.state = 2 then s.awake
  else s

/-- DOZE_EXIT (R499, R500): answered at once in Active and Idle, else when the exit completes. -/
def execDozeExit (x : Mbx) (s : State) : Outcome :=
  .next (s.command x .fm false 5 fun s =>
    if mb8 x 4 > 1 then s.status x 9
    else
      let s := if mb8 x 4 = 1 then s.copyAll s.peers (.doze false) else s
      if s.pwr.state ≤ 1 then s.status x 0
      else (s.dozeLeave).onPwr fun p => { p with exitReply := true })

/-- Serve the requests that the module held in Doze, in arrival order (R501). -/
def State.serveHeld (s : State) : State := s.wake fun r => waitsFor .doze r

/-- Trained widths again (R498): a Hedgerow port that is up by its neighbour's lanes, a host port by its trained lanes. -/
def State.portsWide (s : State) : State :=
  let s := s.onHdg fun h => { h with ports := h.ports.map fun e =>
    (e.1, if e.2.st = 2 then { e.2 with width := if e.2.want = 0 then 3 else 4 - e.2.want } else e.2) }
  s.each (List.range 4) fun s p => s.hostWidth p ((look s.host.ports p).elim 0 fun x => x.trained)

/-- DOZE_EXIT_DONE (R498, R501): channels are out of self-refresh and trained, masks cleared, links wide, the mark taken back; held requests are
served in arrival order. -/
def execDozeExitDone (s : State) : Outcome :=
  .next (
    if s.pwr.state ≠ 4 then s
    else
      let was := (List.range 96).filter fun n => (s.chan n).sref
      let s := s.each was fun s n => (s.setChan n fun c => { c with sref := false, lastTrain := s.now }).setReg (0xB00018 + 0x1000 * n) 0
      let s := (s.portsWide).onPwr fun p => { p with state := 0, lastActive := s.now }
      let s := ((s.dozeMark false).intr 0x1000028 1).post 0x0F02 []
      let s := if s.pwr.exitReply then (s.onPwr fun p => { p with exitReply := false }).emit (.mbox 64 rcSuccess [0]) else s
      s.serveHeld.retryMoves)

/-! ## Idle (R494) -/

/-- IDLE_ENTRY (R494): IDLE_US after the last activity, with no request, no transit, no resident context and no class-7 work. -/
def execIdleEntry (s : State) : Outcome :=
  .next (
    let quiet := s.reqs.isEmpty && !(s.tlr.ctxs.any fun e => e.2.resident) && s.tier.moves.isEmpty && s.husk.bgWant.isEmpty &&
      s.husk.slots.all (fun x => x.ph != .recoding) && s.integ.broom.isNone && !(s.integ.movers.any fun m => m.2.st == 1 || m.2.st == 2) &&
      s.hdg.ports.all fun e => e.2.txq.isEmpty && e.2.part.isEmpty
    if s.serving && s.pwr.boot.isNone && s.pwr.state == 0 && quiet && decide (s.now ≥ s.pwr.lastActive + 1000 * s.fld 0x1000008 13 0) then
      s.onPwr fun p => { p with state := 1 }
    else s)

end Sys2Proof.Machine
end

