-- ==== Sys2Proof/Machine/HuskCmd.lean ====
section
/-! DEFINITION. Husk commands (spec/04_husk_compression.md R140 to R166): training, loading, publishing and retiring code tables, RECODE,
low-rank regions and their expansion (R297, R298), and the husk lanes (R157, R416). -/

namespace Sys2Proof.Machine

open Sys2Proof

/-- May the issuer act on an extent: the fabric manager, or an LD with a right on it? -/
def State.mayExtent (s : State) (x : Mbx) (e right : Nat) : Bool := mbFm x || s.leasedPages (mbWho x) (e * 2 ^ 18) 1 right

/-- The bytes of a line of any page of the space: those of a page homed here as it reads; those of another module's page, and of a poisoned
line, are left open (log entries 15, 16). -/
def State.spaceLine (s : State) (l : Nat) : Bytes :=
  let free := (List.range 64).map fun i => Config.answerByte (s.draws + l) i
  if s.homes (l / 64) then
    match s.lineData (l / 64) (l % 64) with
    | (d, 0) => d
    | _ => free
  else free

/-! ## Training and tables (R140, R149, R150) -/

/-- Host element type that a C-EXP class codes (Table 4-2): FP32 0, BF16 1, FP16 2. -/
def expElem (c : Nat) : Nat := if c = 1 then 1 else if c = 2 then 2 else 0

/-- Is the page one with data? -/
def writtenSt : PState → Bool
  | .unwritten => false
  | .poisoned => false
  | .virt => false
  | _ => true

/-- Pages that TRAIN samples: every stride-th page of the extent that is written, up to the limit. Whether a page of another module is
written is left open (log entry 15). -/
def State.samplePages (s : State) (e stride limit : Nat) : List Nat :=
  (((List.range ((2 ^ 18 + stride - 1) / stride)).map fun i => e * 2 ^ 18 + i * stride).filter fun p =>
    if s.homes p then writtenSt (s.pmeOf p).st || !(s.slotsOf p).isEmpty else Config.peerAdmits (s.draws + p)).take limit

/-- Histogram of the exponents of some pages, with the elements counted. -/
def State.histogram (s : State) (c : Nat) (pages : List Nat) : List Nat × Nat :=
  let (_, _, n) := expDims c
  let es := pages.flatMap fun p => (List.range 64).flatMap fun j =>
    let d := s.spaceLine (p * 64 + j)
    (List.range (64 / n)).map fun i => (expSplit c (leAt d (n * i) n)).2
  ((List.range (alphabet c)).map fun v => (es.filter (· == v)).length, es.length)

/-- Does a TRAIN write into a staging buffer (Table 4-14, status 0x16)? -/
def State.stagingBusy (s : State) (b : Nat) : Bool := s.husk.trains.any fun t => t.buf == b

/-- Decide a TRAIN (R140, R149, R164): it runs as a background command and holds its staging buffer until it ends. -/
def State.trainCmd (s : State) (x : Mbx) (asked : List Nat) : State :=
  let e := mb32 x 0
  let c := mb8 x 4
  let b := mb8 x 5
  let stride := mb32 x 8
  let limit := mb32 x 12
  if c = 0 ∨ c > 3 ∨ b > 3 ∨ stride = 0 ∨ stride > 2 ^ 18 ∨ limit = 0 ∨ limit > 2 ^ 18 then s.status x 9
  else s.withExts askTrain x asked [e] fun s =>
    match look s.spc.extents e with
    | none => s.status x 3
    | some xt =>
      if !s.mayExtent x e 1 then s.status x 8
      else if xt.elem ≠ expElem c then s.status x 0x12
      else if s.stagingBusy b then s.status x 0x16
      else s.bgCommand x fun s =>
        (s.onHusk fun h => { h with trains := h.trains ++ [⟨mbWho x, b, e, c, stride, limit⟩] }).startBg x 0xC200

/-- A TRAIN runs to its end: the table stands in its staging buffer, or no written page was found and the buffer stays as it was. -/
def State.trainEnd (s : State) (t : Train) : State :=
  let s := s.onHusk fun h => { h with trains := removeFirst (· == t) h.trains }
  let pages := s.samplePages t.ext t.stride t.limit
  let fin (s : State) : State := ((s.intr 0x500028 3).post 0x0502 [])
  if pages.isEmpty then fin (s.endBg t.who rcSuccess [0x15])
  else
    let (h, n) := s.histogram t.cls pages
    let b : Table := { st := 0, gen := 0, cls := t.cls, elems := n, wall := 0, lens := codeOf h }
    let s := { s with draws := s.draws + 2 ^ 44 }
    let s := s.onHusk fun k => { k with staging := put k.staging t.buf b }
    fin (s.endBg t.who rcSuccess (zeros 4 ++ toLe 4 pages.length ++ toLe 8 n))

/-- The oldest TRAIN ends (log entry 2). -/
def State.trainsGo (s : State) : State := if s.pwr.boot.isSome then s else (s.husk.trains.head?).elim s fun t => s.trainEnd t

/-- TRAIN (R140, R149, R164). -/
def execTrain (x : Mbx) (s : State) : Outcome := .next (s.command x .any false 16 fun s => s.trainCmd x [])

/-- TABLE_LOAD (R140, R149). -/
def execTableLoad (x : Mbx) (s : State) : Outcome :=
  .next (s.command x .fm false 144 fun s =>
    let c := mb8 x 4
    let b := mb8 x 5
    let lens := (List.range 256).map fun i => mb8 x (16 + i / 2) / (if i % 2 = 0 then 1 else 16) % 16
    if c = 0 ∨ c > 3 ∨ b > 3 then s.status x 9
    else if s.stagingBusy b then s.status x 0x16
    else if !lensOk c lens then s.status x 0x13
    else (s.onHusk fun h => { h with staging := put h.staging b { st := 0, gen := 0, cls := c, elems := 0, wall := 0, lens := lens } }).status x 0)

/-- State and generation of a table slot; a slot never used is FREE with generation 0. -/
def State.tableSt (s : State) (n : Nat) : Nat := (look s.husk.tables n).elim 0 fun t => t.st
def State.tableGen (s : State) (n : Nat) : Nat := (look s.husk.tables n).elim 0 fun t => t.gen

/-- May a space-wide command run: the space formed with quorum, or bench mode (Table 9-10, R327)? -/
def State.spaceWide (s : State) : Bool := s.hdg.bench || (s.hdg.formed && s.hdg.quorum)

/-- TABLE_PUBLISH (R149, Table 4-9): every live member holds the slot before the command completes. -/
def execTablePublish (x : Mbx) (s : State) : Outcome :=
  .next (s.command x .fm false 6 fun s =>
    if mb8 x 5 > 3 then s.status x 9
    else if !s.spaceWide then s.status x 7
    else if s.stagingBusy (mb8 x 5) then s.status x 0x16
    else match look s.husk.staging (mb8 x 5) with
    | none => s.status x 0x13
    | some t =>
      match (List.range 64).find? (fun n => s.tableSt n == 0) with
      | none => ((s.intr 0x500028 1).post 0x0507 []).status x 0x10
      | some n =>
        let g := (s.tableGen n + 1) % 16
        let t := { t with st := 1, gen := g, wall := s.wall }
        let s := (s.onHusk fun h => { h with tables := put h.tables n t }).copyAll s.peers (.table n t)
        (s.post 0x0500 [(1, n), (1, g)]).okHeld x (zeros 3 ++ toLe 1 n ++ toLe 1 g))

/-- Decide a TABLE_BIND (R148). -/
def State.bindCmd (s : State) (x : Mbx) (asked : List Nat) : State :=
  let n := mb8 x 4
  s.withExts askBind x asked [mb32 x 0] fun s =>
    match look s.spc.extents (mb32 x 0) with
    | none => s.status x 3
    | some xt =>
      if n ≥ 64 then s.status x 9
      else if !isExp xt.cls then s.status x 0x12
      else if s.tableSt n ≠ 1 then s.status x 0x11
      else if !(look s.husk.tables n).any (fun t => t.cls == xt.cls) then s.status x 0x12
      else
        let s := s.setExtent (mb32 x 0) (some { xt with tslot := n })
        (s.copyAll s.peers (.bind (mb32 x 0) n)).status x 0

/-- TABLE_BIND (R148). -/
def execTableBind (x : Mbx) (s : State) : Outcome := .next (s.command x .fm false 5 fun s => s.bindCmd x [])

/-- Does another member have an extent bound to a slot? Its answer is left open (log entry 15). -/
def State.boundElsewhere (s : State) : Bool := s.peers.any fun m => !Config.peerAdmits (s.draws + m)

/-- TABLE_RETIRE (R150): slots 0 to 2 are never retired, nor a slot that an extent is bound to. -/
def execTableRetire (x : Mbx) (s : State) : Outcome :=
  .next (s.command x .fm false 5 fun s =>
    let n := mb8 x 4
    if n ≥ 64 then s.status x 9
    else if !s.spaceWide then s.status x 7
    else match look s.husk.tables n with
    | none => s.status x 0x11
    | some t =>
      if n ≤ 2 ∨ t.st ≠ 1 ∨ s.spc.extents.any (fun e => isExp e.2.cls && e.2.tslot == n) ∨ s.boundElsewhere then
        ({ s with draws := s.draws + 64 }).status x 0x11
      else
        let t := { t with st := 2 }
        ((({ s with draws := s.draws + 64 }).onHusk fun h => { h with tables := put h.tables n t }).copyAll s.peers (.table n t)).status x 0)

/-- Does a page hold fallback husks: raw size in a lossless class (R143)? -/
def fallbackPage (p : Pme) : Bool := isLossless p.cls && p.len == 33 && writtenSt p.st

/-- Husks of a page whose glume names a table slot (R151): two for a page in state both. A fallback husk names none (R143). -/
def husksNaming (n : Nat) (p : Pme) : Nat :=
  if isExp p.cls && p.slot == n && !fallbackPage p then (if hasNear p then 1 else 0) + (if hasFar p then 1 else 0) else 0

/-- The husk count of a slot on this module (R151). -/
def State.huskCount (s : State) (n : Nat) : Nat := sumOf (vals s.tier.pmes) (husksNaming n)

/-- TABLE_QUERY (R164); the counts of other modules are left open (log entry 15). -/
def execTableQuery (x : Mbx) (s : State) : Outcome :=
  .next (s.command x .fm false 5 fun s =>
    let n := mb8 x 4
    if n ≥ 64 then s.status x 9
    else
      let others := sumOf s.peers fun m => Config.peerAnswer (s.draws + m) % 2 ^ 40
      let absent := if s.hdg.bench then 0 else s.hdg.size - s.hdg.live.length
      ({ s with draws := s.draws + 64 }).okOut x (zeros 3 ++ toLe 1 (s.tableSt n) ++ toLe 1 (s.tableGen n)
        ++ toLe 1 ((look s.husk.tables n).elim 0 fun t => t.cls) ++ zeros 1 ++ toLe 8 (s.huskCount n + others) ++ toLe 1 absent))

/-- TABLE_SLOT_FREED (R150, R151): a RETIRING slot whose count is zero here is reported to the other members; it becomes FREE once every member of the
space is live and its count is zero. A count that has fallen to zero does not rise again: no extent is bound to the slot. -/
def execTableSlotFreed (slot : Fin 64) (s : State) : Outcome :=
  .next (match look s.husk.tables slot with
    | none => s
    | some t =>
      if t.st ≠ 2 ∨ s.huskCount slot ≠ 0 then s
      else
        let s := s.copyAll s.peers (.husks slot 0)
        if !s.hdg.bench ∧ (s.hdg.live.length < s.hdg.size ∨ !s.peers.all fun m => s.husk.zeros.contains (slot.val, m)) then s
        else (s.onHusk fun h => { h with tables := put h.tables slot { t with st := 0 }, zeros := h.zeros.filter fun z => z.1 != slot.val }).post 0x0501 [])

/-! ## Background recodes (R153, R165) -/

/-- Is a page off its extent's bound encoding (R165)? -/
def State.offEncoding (s : State) (xt : Extent) (p : Pme) : Bool :=
  writtenSt p.st && (fallbackPage p || (isExp xt.cls && !(p.slot == xt.tslot && p.gen == s.tableGen xt.tslot)))

/-- Decide a RECODE (R165): the pages homed here are recoded one by one; the other page homes are told. -/
def State.recodeCmd (s : State) (x : Mbx) (asked : List Nat) : State :=
  let e := mb32 x 0
  s.withExts askRecode x asked [e] fun s =>
    match look s.spc.extents e with
    | none => s.status x 3
    | some xt =>
      if !s.mayExtent x e 1 then s.status x 8
      else s.bgCommand x fun s =>
        let ms := if xt.spread.isEmpty then [homeOf e] else xt.spread
        let todo := (s.pagesOfExt e).filter fun p => s.homes p && s.offEncoding xt (s.pmeOf p)
        let far := ms.filter (· != s.me)
        let done := sumOf far fun m => Config.peerAnswer (s.draws + m) % 2 ^ 18
        let skip := pagesAt e xt s.me - todo.length + sumOf far fun m => 2 ^ 18 / ms.length - Config.peerAnswer (s.draws + m) % 2 ^ 18
        let s := ({ s with draws := s.draws + 64 }).copyAll ms (.recode e)
        let s := s.startBg x 0xC206
        if todo.isEmpty then
          ((s.endBg (mbWho x) rcSuccess (zeros 4 ++ toLe 4 done ++ toLe 4 skip)).intr 0x500028 4).post 0x0508 []
        else s.onHusk fun h => { h with bgJobs := h.bgJobs ++ [(mbWho x, e, todo, done, skip)], bgWant := todo.foldl addNew h.bgWant }

/-- RECODE (R164, R165). -/
def execRecode (x : Mbx) (s : State) : Outcome := .next (s.command x .any false 4 fun s => s.recodeCmd x [])

/-- Slots that serve background recodes, and HSK_MERGE.BG_SLOTS. -/
def State.bgSlots (s : State) : Nat := (s.husk.slots.filter fun x => x.bg).length
def State.bgCap (s : State) : Nat := s.fld 0x500010 54 46

/-- BG_RECODE_PAGE (R153): a page that RECODE or a RETIRING slot concerns takes a slot of its own, closed at once, and is recoded as
class 7 work; a page with an OPEN slot is recoded with that one. -/
def execBgRecodePage (page : Nat) (s : State) : Outcome :=
  .next (
    let p := s.pmeOf page
    let naming := isExp p.cls && writtenSt p.st && s.tableSt p.slot == 2
    if !(naming || s.husk.bgWant.contains page) then s
    else if !writtenSt p.st then s.bgRecoded page
    else if (s.slotsOf page).any (fun x => x.bg) ∨ (s.openSlot page false).isSome ∨ s.bgSlots ≥ s.bgCap ∨ !s.slotFree false then s
    else
      let s := s.takeSlot page false true
      match s.husk.slots.getLast? with
      | some x => s.closeSlot x.id
      | none => s)

/-! ## Low-rank regions (R144 to R146, R166, R297, R298) -/

/-- Read an element of a factor: its host bytes as a value. -/
def State.factorVal (s : State) (addr elem : Nat) : Val :=
  let n := elemBytes elem
  ((hostVals elem (((s.spaceLine (addr / 64)).drop (addr % 64)).take n)).head?).getD (.fin false 0 0)

/-- Round to FP32 (R145). -/
def toF32 (v : Val) : Val := fp32.decode (fp32.encode false .rne v).1

/-- Element (i, j) of the product (R145). -/
def State.product (s : State) (v : Vlr) (uElem vElem i j : Nat) : Val :=
  (List.range v.r).foldl (fun acc t =>
    let a := s.factorVal (v.u + (i * v.r + t) * elemBytes uElem) uElem
    let b := s.factorVal (v.v + (t * v.n + j) * elemBytes vElem) vElem
    toF32 (Val.sum [acc, toF32 (Val.mul a b).1]).1) (.fin false 0 0)

/-- Host element type of the extent at a space address. -/
def State.elemAt (s : State) (sa : Nat) : Nat := (look s.spc.extents (sa / 2 ^ 30)).elim 0 fun x => x.elem

/-- The 4 KiB of an expanded page (R145). -/
def State.expansion (s : State) (page : Nat) (x : Extent) (v : Vlr) : Bytes :=
  let sz := elemBytes x.elem
  let ue := s.elemAt v.u
  let ve := s.elemAt v.v
  let first := pageIdx page * 4096 / sz
  (List.range (4096 / sz)).flatMap fun k =>
    let q := first + k
    let i := v.i0 + q / v.n
    if i < v.m then fit sz (hostBytes x.elem [s.product v ue ve i (q % v.n)]) else zeros sz

/-- VLR_EXPANSION_DONE (R146, R297): the page is stored as a materialised husk and the reads that wait are served; the result waits while
no chunks are free. -/
def execVlrExpansionDone (page : Nat) (s : State) : Outcome :=
  .next (
    if !s.expands page then s
    else match s.extent page with
    | none => s.onTlr fun t => { t with expanding := t.expanding.filter fun e => e.2 != page }
    | some x =>
      match x.vlr with
      | none => (s.onTlr fun t => { t with expanding := t.expanding.filter fun e => e.2 != page }).wakePage page .vlr
      | some v =>
        let (s', ok) := s.storePage page (nextSeq (s.pmeOf page).seq) (s.expansion page x v) []
        if !ok then s'
        else ({ s' with draws := s'.draws + 2 ^ 44 }.onTlr fun t => { t with expanding := t.expanding.filter fun e => e.2 != page }).wakePage page .vlr)

/-- Rank of the read that caused an expansion: the first that waits for the page. -/
def State.expRank (s : State) (page : Nat) : Nat :=
  match s.reqs.find? (fun r => r.page == page && waitsFor .vlr r) with
  | some r => (s.classP (s.payer r) (s.clsOf r)).rank
  | none => 3

/-- EXPANSION_QUEUE_START (R298): a module context is free: the queued expansion of best rank, then the oldest, starts, and the reads that
found the queue full may enter it. -/
def execExpansionQueueStart (s : State) : Outcome :=
  .next (
    match s.modCtx, argMin s.expRank s.tlr.expq with
    | some c, some page =>
      let s := (s.onTlr fun t => { t with expq := t.expq.filter (· != page) }).expandIn c page
      match s.reqs.find? (fun r => waitsFor .vlr r && !s.tlr.expq.contains r.page && !s.expands r.page) with
      | some r => s.wantExpansion r.page
      | none => s
    | _, _ => s)

/-- Reads that wait for pages of an extent ask for their expansion again. -/
def State.reExpand (s : State) (e : Nat) : State :=
  s.each (((s.reqs.filter fun r => extOf r.page == e && waitsFor .vlr r).map Req.page).eraseDups) fun s p => s.wantExpansion p

/-- The binding that a VLR_BIND names. -/
def vlrOf (x : Mbx) : Vlr := { r := mb16 x 6, m := mb32 x 8, n := mb32 x 12, i0 := mb32 x 16, u := mb64 x 24, v := mb64 x 32 }

/-- Extents that a matrix of so many elements lies in, first to last. -/
def matrixExts (base elems size : Nat) : List Nat :=
  let (a, b) := factorExts base elems size
  (List.range (b - a + 1)).map (a + ·)

/-- The extents of both factors: those that the bases lie in are known, so that the element sizes are. -/
def State.vlrExts (s : State) (v : Vlr) : List Nat :=
  matrixExts v.u (v.m * v.r) (s.extSize (v.u / 2 ^ 30)) ++ matrixExts v.v (v.r * v.n) (s.extSize (v.v / 2 ^ 30))

/-- Decide a VLR_BIND (R144, R166), the records of the extents that hold the factors being known: each must be published, of the account, and serving. -/
def State.vlrNow (s : State) (x : Mbx) : State :=
    let e := mb32 x 0
    let v := vlrOf x
    match look s.spc.extents e with
    | none => s.status x 3
    | some xt =>
      let factor (a n : Nat) : Bool := decide (a + n * s.extSize (a / 2 ^ 30) ≤ 2 ^ 50) && (matrixExts a n (s.extSize (a / 2 ^ 30))).all fun i =>
        (look s.spc.extents i).any fun f => f.kind == .published && f.acct == xt.acct && f.serving
      if !s.mayExtent x e 1 then s.status x 8
      else if xt.cls ≠ 12 then s.status x 0x12
      else if v.r = 0 ∨ v.r > 256 ∨ v.m = 0 ∨ v.n = 0 ∨ v.n * elemBytes xt.elem > 2 ^ 30 ∨ !factor v.u (v.m * v.r) ∨ !factor v.v (v.r * v.n) then s.status x 0x14
      else
        let s := (s.discardVlr e).setExtent e (some { xt with vlr := some v })
        ((s.copyAll s.peers (.vlr e (some v))).reExpand e).okHeld x []

/-- A VLR_BIND, whose records may still be asked for: of the extent and the bases first, then of all that the factors lie in. -/
def State.vlrCmd (s : State) (x : Mbx) (asked : List Nat) : State :=
  let v := vlrOf x
  s.withExts askVlr x asked [mb32 x 0, v.u / 2 ^ 30, v.v / 2 ^ 30] fun s => s.withExts askVlr x asked (s.vlrExts v) fun s => s.vlrNow x

/-- VLR_BIND (R144, R166). -/
def execVlrBind (x : Mbx) (s : State) : Outcome := .next (s.command x .any false 40 fun s => s.vlrCmd x [])

/-- Decide a VLR_DISCARD (R166). -/
def State.discardCmd (s : State) (x : Mbx) (asked : List Nat) : State :=
  let e := mb32 x 0
  s.withExts askDiscard x asked [e] fun s =>
    match look s.spc.extents e with
    | none => s.status x 3
    | some xt =>
      if !s.mayExtent x e 1 then s.status x 8
      else if xt.cls ≠ 12 then s.status x 0x12
      else (((s.discardVlr e).copyAll s.peers (.vlr e xt.vlr)).reExpand e).okHeld x []

/-- VLR_DISCARD (R166). -/
def execVlrDiscard (x : Mbx) (s : State) : Outcome := .next (s.command x .any false 4 fun s => s.discardCmd x [])

/-! ## Lanes (R157, R416) -/

/-- HUSK_LANE_SHARE_REDUCE (R416): below 85 % of its peers. -/
def execHuskLaneShareReduce (n : Fin 32) (ratio : Fin 4096) (s : State) : Outcome :=
  .next (
    if (s.lane n).reduced ∨ ratio.val * 100 ≥ 85 * 4096 then s
    else ((s.onHusk fun h => { h with lanes := put h.lanes n { s.lane n with reduced := true, ratio := ratio } }).post 0x0B0A []).rescaled s)

/-- HUSK_LANE_RESTORE (R416): above 90 % of the mean. -/
def execHuskLaneRestore (n : Fin 32) (ratio : Fin 65536) (s : State) : Outcome :=
  .next (
    if !(s.lane n).reduced ∨ ratio.val * 100 ≤ 90 * 4096 then s
    else ((s.onHusk fun h => { h with lanes := put h.lanes n { s.lane n with reduced := false, ratio := 4096 } }).post 0x0B0A []).rescaled s)

/-- HSK_LANE_DIS_WRITE (R157): a disabled lane receives no new work; the loss of rate is reported (R353). -/
def execHskLaneDisWrite (v : Word) (s : State) : Outcome :=
  .next ((s.setReg 0x500020 (v.toNat % 2 ^ 32)).rescaled s)

end Sys2Proof.Machine
end

