-- ==== Sys2Proof/Machine/QosCmd.lean ====
section
/-! DEFINITION. Regulation commands (spec/10_qos.md): class parameters, reservations, queries, the monitoring window, and the urgency of the
real-time masters. -/

namespace Sys2Proof.Machine

open Sys2Proof

/-- Is a holder number one that QoS commands may name: a holder ID or the module entity? -/
def qosHolder (h : Nat) : Bool := decide (h < 4096) || h == moduleHolder

/-- Class c of a QOS_CLASS_SET: its parameters when they are in range. Class 7 keeps rank 3 (R343). -/
def readClass (x : Mbx) (c : Nat) : Option ClassP :=
  let rank := mb8 x (8 + 8 * c)
  let w := mb8 x (9 + 8 * c)
  let t := mb32 x (12 + 8 * c)
  if rank = 0 ∨ rank > 3 ∨ w = 0 ∨ t > 1000000 then none else some ⟨if c = 7 then 3 else rank, w, t⟩

/-- QOS_CLASS_SET (R341 to R343): at the holder's portal; it completes once every live member holds the copy. -/
def execQosClassSet (x : Mbx) (s : State) : Outcome :=
  .next (s.command x .fm false 72 fun s =>
    let h := mb16 x 0
    let cs := (List.range 8).filterMap fun c => readClass x c
    if !qosHolder h ∨ (h ≠ moduleHolder ∧ holderMod h ≠ s.me) ∨ cs.length ≠ 8 then s.status x 0x61
    else
      let m := leAt x.data 4 3
      let before := s
      let s := s.onQos fun q => { q with classes := put q.classes h cs, lmap := if h = moduleHolder then q.lmap else put q.lmap (holderLd h) m }
      ((s.copyAll s.peers (.lmap h m cs)).rescaled before).okHeld x [])

/-- The reservation entry of a holder, class and resource. -/
def State.resvOf (s : State) (h c r : Nat) : Option (Nat × Resv) :=
  s.qos.resv.find? fun e => e.2.holder == h && e.2.cls == c && e.2.res == r

/-- A refused reservation is counted and posted. -/
def State.resvRefused (s : State) (x : Mbx) (st : Nat) : State := ((s.bump cntQos 3 1).post 0x0906 []).status x st

/-- Index of the reservation of a holder's class on a resource: its own, else the first free of the 1,024. -/
def State.resvIdx (s : State) (h c r : Nat) : Option Nat :=
  match s.resvOf h c r with
  | some (i, _) => some i
  | none => (List.range 1024).find? fun i => (look s.qos.resv i).isNone

/-- The entry at that index with its new rate. -/
def State.resvEntry (s : State) (h c r rate : Nat) : Resv :=
  match s.resvOf h c r with
  | some (_, e) => { e with rate := rate }
  | none => { holder := h, cls := c, res := r, rate := rate, bucket := 0, filled := s.now, deliv := 0, demand := 0, run := 0, missed := false, last := 0 }

/-- QOS_RESERVE (R346, R347): a rate of 0 releases. -/
def execQosReserve (x : Mbx) (s : State) : Outcome :=
  .next (s.command x .fm false 8 fun s =>
    let h := mb16 x 0
    let c := mb8 x 2
    let r := mb8 x 3
    let rate := mb32 x 4
    let hpBad := decide (r < 8) && (h == moduleHolder || holderMod h != s.me || holderLd h / 16 != r % 4)
    if !qosHolder h ∨ c ≥ 7 ∨ r > 14 ∨ hpBad then s.status x 0x61
    else
      let old := s.resvOf h c r
      if rate = 0 then
        match old with
        | some (i, _) =>
          let s' := s.onQos fun q => { q with resv := del q.resv i }
          (s'.rescaled s).okOut x (zeros 3 ++ toLe 4 i)
        | none => s.drew.okOut x (zeros 3 ++ toLe 4 (Config.value s.draws))
      else
        let others := sumOf (s.qos.resv.filter fun e => e.2.res == r && !(e.2.holder == h && e.2.cls == c)) fun e => e.2.rate
        if others + rate > s.pubFloor r then s.resvRefused x 0x60
        else
          match s.resvIdx h c r with
          | none => s.resvRefused x 0x62
          | some i =>
            let e := s.resvEntry h c r rate
            let s' := s.onQos fun q => { q with resv := put q.resv i e }
            (s'.rescaled s).okOut x (zeros 3 ++ toLe 4 i))

/-- QOS_QUERY (R358). -/
def execQosQuery (x : Mbx) (s : State) : Outcome :=
  .next (s.command x .any false 4 fun s =>
    let r := mb8 x 3
    if r > 14 then s.status x 0x61
    else s.okOut x (zeros 7 ++ toLe 4 (s.pubFloor r) ++ toLe 4 (s.dRate r) ++ toLe 4 (s.admitted r 1) ++ toLe 4 (s.admitted r 2)
      ++ toLe 4 (s.admitted r 3) ++ toLe 2 (s.scale12 r 1) ++ toLe 2 (s.scale12 r 2) ++ toLe 2 (s.scale12 r 3)))

/-- QOS_CFG.MISS_WIN. -/
def State.missWin (s : State) : Nat := s.fld 0xA00008 3 0

/-- The resource that a miss names: a fabric wait when the work of another portal's holder mostly waited for Hedgerow credits (R356). -/
def State.missRes (s : State) (e : Resv) : Nat :=
  if e.holder != moduleHolder && holderMod e.holder != s.me && Config.fabricWait s.draws then 15 else e.res

/-- A reservation enters state guarantee missed (R355, R356). -/
def State.guaranteeMissed (s : State) (e : Resv) (target : Nat) : State :=
  let res := s.missRes e
  let s := ((s.drew.bump cntQos 0 1).intr 0xA00028 0).postFor (s.ldsOfHolder e.holder) 0x0900
    [(2, e.holder), (1, e.cls), (1, res), (8, target), (8, e.deliv)]
  let s := if (s.reg 0xA00040).testBit 63 then s
    else s.setReg 0xA00040 (2 ^ 63 + e.holder % 65536 * 2 ^ 32 + res * 2 ^ 28 + e.cls * 2 ^ 24 + min (e.deliv / 100) (2 ^ 24 - 1))
  if e.holder = moduleHolder then s
  else if holderMod e.holder = s.me then s.edge 705 (holderLd e.holder)
  else if s.isLive (holderMod e.holder) then s.copyTo (holderMod e.holder) (.miss e.holder)
  else s

/-- The window of a reservation ends (R354, R355). -/
def State.endResv (s : State) (i : Nat) : State :=
  match look s.qos.resv i with
  | none => s
  | some e =>
    let target := s.scaledRate e * 100
    let short := decide (e.deliv < target ∧ target ≤ e.demand)
    let run := if short then min (e.run + 1) 15 else 0
    let enters := short && !e.missed && decide (run ≥ s.missWin)
    let e' : Resv := { e with run := run, missed := if short then e.missed || enters else false, last := e.deliv, deliv := 0,
                              demand := e.demand - e.deliv }
    let s := s.onQos fun q => { q with resv := put q.resv i e' }
    if enters then s.guaranteeMissed e target
    else if e.missed && !short then s.postFor (s.ldsOfHolder e.holder) 0x0901 []
    else s

/-- The window of a class's latency monitor ends (R356). -/
def State.endLat (s : State) (x : Lat) : State :=
  let bad := decide (x.late * 64 > x.done)
  let run := if bad then min (x.run + 1) 15 else 0
  let enters := bad && !x.missed && decide (run ≥ s.missWin)
  let s := s.modLat x.holder x.cls fun y => { y with run := run, missed := if bad then x.missed || enters else false, done := 0, late := 0,
                                                     last := x.deliv, deliv := 0 }
  if enters then ((s.bump cntQos 1 1).intr 0xA00028 1).postFor (s.ldsOfHolder x.holder) 0x0902 [] else s

/-- QOS_WINDOW_END (R354): a multiple of 100 µs has passed. -/
def execQosWindowEnd (s : State) : Outcome :=
  .next (
    if s.now / 100000 ≤ s.qos.winAt / 100000 then s
    else
      let s := s.onQos fun q => { q with winAt := s.now }
      let s := s.each (keys s.qos.resv) fun s i => s.endResv i
      s.each s.qos.lat fun s x => s.endLat x)

/-! ## Urgency (R314, R351, R373, R376) -/

/-- Number of a real-time master: 0 to 5 Hedgerow transit, 6 to 9 flash program data, 10 to 13 host-port read return. -/
def masterIdx : RtMaster → Nat
  | .hedgerow p => p
  | .flash g => 6 + g.val
  | .hostRead p => 10 + p.val

/-- Does a request of a real-time master at urgent or panic wait at a channel (a real-time burst, R376)? -/
def State.rtAt (s : State) (n : Nat) : Bool := s.qos.urgChan.any fun c => c.2 == n && decide (2 ≤ s.urgOf c.1)

/-- RT_URGENCY_CHANGE (R351): a master crosses a threshold; at panic the bank that its request waits for is closed early (R373). -/
def execRtUrgencyChange (m : RtMaster) (level : Fin 4) (chan : Option (Fin 96 × Fin 2 × Fin 16)) (s : State) : Outcome :=
  .next (
    let i := masterIdx m
    let was := s.urgOf i
    let s := s.onQos fun q => { q with urg := if level.val = 0 then del q.urg i else put q.urg i level,
                                       urgChan := putOpt q.urgChan i (if level.val < 2 then none else chan.map fun c => c.1.val) }
    if level.val < 3 ∨ was = 3 then s
    else
      let s := ((s.intr 0xA00028 4).bump cntQos 2 1).post 0x0905 []
      match chan with
      | none => s
      | some (n, rank, bank) =>
        let b := rank.val * 16 + bank.val
        if (look (s.chan n).openRows b).isNone then s
        else
          let s := s.setChan n fun c => { c with openRows := del c.openRows b, hits := del c.hits b }
          (s.bumpDrc n 7 1).post 0x0A05 [])

end Sys2Proof.Machine
end

