-- ==== Sys2Proof/Machine/Retire.lean ====
section
/-! DEFINITION. Retiring units of the near tier (spec/12_integrity.md R400 to R411; spec/11_dram_controller.md, case 'When retraining finds no
working setting' and Table 11-5): a channel with the recovery of its pages, and smaller units; and the chaff commands. -/

namespace Sys2Proof.Machine

open Sys2Proof

/-! ## Chaff entries (Table 12-4) -/

/-- The 16 bytes of an entry. -/
def chaffBytes (c : Chaff) : Bytes :=
  toLe 1 c.kind ++ toLe 1 c.chan ++ toLe 1 c.rank ++ toLe 1 c.bank ++ toLe 4 c.row ++ toLe 4 c.first ++ toLe 2 c.count ++ toLe 1 c.origin ++ [0]

/-- An entry from its bytes, with an origin. -/
def readChaff (d : Bytes) (origin : Nat) : Chaff :=
  let k := leAt d 0 1
  ⟨k, leAt d 1 1, if k = 2 ∨ k = 3 then leAt d 2 1 else 0, if k = 2 ∨ k = 3 then leAt d 3 1 else 0, if k = 2 then leAt d 4 4 else 0,
   if k = 1 then leAt d 8 4 else 0, if k = 1 then leAt d 12 2 else 0, origin⟩

/-- Is an entry of kind 1 to 4 one that names media of this module? -/
def State.chaffOk (s : State) (c : Chaff) : Bool :=
  decide (1 ≤ c.kind ∧ c.kind ≤ 4 ∧ c.chan < 96) &&
    (c.kind != 1 || decide (1 ≤ c.count ∧ c.count ≤ 33 ∧ c.first + c.count ≤ s.chanChunks)) &&
    (c.kind == 1 || c.kind == 4 || decide (c.rank < s.ranks ∧ c.bank < 16)) && (c.kind != 2 || decide (c.row < 131072))

/-- Is a unit covered by the units that are retired (R411)? -/
def State.chaffCovered (s : State) (c : Chaff) : Bool :=
  let l := s.near.retired.filter fun x => x.chan == c.chan
  l.any (fun x => x.kind == 4) || (s.chan c.chan).st == 2 ||
    (if c.kind = 1 then (List.range c.count).all fun i => l.any (Chaff.hits s.ranks c.chan (c.first + i))
     else if c.kind = 2 then l.any fun x => x.rank == c.rank && x.bank == c.bank && (x.kind == 3 || (x.kind == 2 && x.row == c.row))
     else if c.kind = 3 then l.any fun x => x.kind == 3 && x.rank == c.rank && x.bank == c.bank
     else false)

/-- Channels that are unusable: retired or disabled (R385). -/
def State.unusable (s : State) : Nat := ((List.range 96).filter fun n => !s.chanUp n).length

/-- Chunks of a unit smaller than a channel that were in allocation before. -/
def State.unitChunks (s : State) (c : Chaff) : Nat :=
  let l := s.near.retired.filter fun x => x.chan == c.chan
  let fresh (k : Nat) : Nat := if l.any (Chaff.hits s.ranks c.chan k) then 0 else 1
  if c.kind = 1 then sumOf (List.range c.count) fun i => fresh (c.first + i)
  else if c.kind = 2 then sumOf (List.range 14) fun i => fresh (14 * ((c.row * s.ranks + c.rank) * 16 + c.bank) + i)
  else
    let runs := (l.filter fun x => x.kind == 1).flatMap fun x => ((List.range x.count).map (· + x.first)).filter fun k => Chaff.hits s.ranks c.chan k c
    let rows := (l.filter fun x => x.kind == 2 && x.rank == c.rank && x.bank == c.bank).length
    14 * 131072 - 14 * rows - (runs.eraseDups.filter fun k => !(l.any fun x => x.kind == 2 && Chaff.hits s.ranks c.chan k x)).length

/-- Take a unit smaller than a channel out of allocation: its chunks leave the pool (R180, R409). -/
def State.excludeUnit (s : State) (c : Chaff) : State :=
  let n := s.unitChunks c
  s.onNear fun r => { r with retired := r.retired ++ [c], pool := put r.pool c.chan (((look r.pool c.chan).getD 0) - n) }

/-! ## A channel (Table 11-5) -/

/-- A demotion whose far program is not issued is given up: the page is near again. -/
def State.undemote (s : State) (page : Nat) : State :=
  let p := s.pme page
  let s := match s.itemOf page with
    | some (r, it) => (s.setRow r ((s.rowOf r).filter fun i => i.id != it.id || i.page != page)).dropFar it.far (it.bytes.length / 128)
    | none => s
  let s := s.onFar fun f => { f with paced := f.paced.filter (· != page) }
  (s.setMove page none).setPme page { p with st := .near, far := 0 } false

/-- Counts of pages refetched, reconstructed, copied from the twin and lost. -/
structure Recovered where
  far : Nat
  parity : Nat
  twin : Nat
  lost : Nat
  deriving DecidableEq, Repr

/-- Recover a page in state near whose channel is retired. -/
def State.recoverNear (s : State) (page : Nat) (r : Recovered) : State × Recovered :=
  let p := s.pme page
  if p.cls = 12 then (s.dropVirtual page, r)
  else
    let (s, ok) := if p.prot = 1 then s.fromParity page else (s, false)
    if ok then (s, { r with parity := r.parity + 1 })
    else if p.prot = 2 && s.twinLive && s.ownPage page then
      (if (s.slotsOf page).any Slot.fills || !(s.slotFree false || (s.openSlot page false).isSome) then s else s.fetchTwin page, { r with twin := r.twin + 1 })
    else ((s.losePage page 8).bump cntInt 4 1, { r with lost := r.lost + 1 })

/-- Recover a page of a retired channel by Table 11-5. -/
def State.recoverPage (s : State) (n page : Nat) (r : Recovered) : State × Recovered :=
  let p := s.pme page
  let here := chanOf p.near == n
  match p.st with
  | .both =>
    if here then ((s.freeNear p.near).setPme page { p with st := .far, near := 0 } false, { r with far := r.far + 1 }) else (s, r)
  | .near => if here then s.recoverNear page r else (s, r)
  | .demoting =>
    match s.move page with
    | some m => if !here || s.progIssued page m then (s, r) else (s.undemote page).recoverNear page r
    | none => (s, r)
  | .retired =>
    match s.move page with
    | some m =>
      if here then
        let s := if m.waitSpace then s else s.freeNear m.near
        let s := s.setMove page none
        if p.prev = .both then ((s.freeNear p.near).setPme page { p with st := .far, near := 0 } false, { r with far := r.far + 1 })
        else (s.setPme page { p with st := .near } false).recoverNear page r
      else if !m.waitSpace && chanOf m.near == n then ((s.freeNear m.near).setMove page (some { m with near := 0, waitSpace := true }), r)
      else (s, r)
    | none => (s, r)
  | .promoting =>
    match s.move page with
    | some m => if chanOf m.near = n then (((s.freeNear m.near).setPme page { p with st := .far, near := 0 } false).movePlace page m, r) else (s, r)
    | none => (s, r)
  | .far =>
    match s.move page with
    | some m => if m.kind = 0 ∧ m.staged ∧ chanOf m.near = n then ((s.freeNear m.near).movePlace page { m with staged := false }, r) else (s, r)
    | none => (s, r)
  | _ => (s, r)

/-- The data of a retired channel is counted as zeros from now on: what it held is XORed out of the parity of its stripe regions, and the
channel holds nothing any more (chapter 12, case 'When a second member of a stripe group is lost'). -/
def State.zeroMember (s : State) (n : Nat) : State :=
  let mine := s.near.lines.filter fun l => chanOf (l.1 / 2) == n
  let s := s.each mine fun s l =>
    let k := chunkIdx (l.1 / 2)
    if s.inStripe n k && parityChan n k != n then
      let pk := nearAddr (parityChan n k) k * 2 + l.1 % 2
      s.onNear fun r => { r with deltas := put r.deltas pk (xorBytes ((look r.deltas pk).getD blankLine) l.2) }
    else s
  s.onNear fun r => { r with lines := r.lines.filter fun l => chanOf (l.1 / 2) != n, deltas := r.deltas.filter fun l => chanOf (l.1 / 2) != n }

/-- Retire a channel: its queue is dropped, its pages recovered, the chaff list and the counts brought up to it, and the requests held at it
complete with poison. -/
def State.retireChannel (s : State) (n origin : Nat) : State :=
  let before := s
  let c : Chaff := ⟨4, n, 0, 0, 0, 0, 0, origin⟩
  -- a queued line is dropped, but its delta is in parity, so the rebuilt content of its row is the new one
  let s := s.each (s.chan n).wq fun s w => if s.inStripe n (chunkIdx (w.1 / 2)) then s.onNear fun r => r.setLine w.1 w.2 else s
  let s := s.setChan n fun c => { c with st := 2, wq := [], openRows := [], hits := [] }
  let s := s.onNear fun r => { r with retired := r.retired ++ [c], retrainQ := r.retrainQ.filter (· != n) }
  let (s, r) := (keys s.tier.pmes).foldl (fun acc p => acc.1.recoverPage n p acc.2) (s, (⟨0, 0, 0, 0⟩ : Recovered))
  let s := ((s.zeroMember n).addChaff c).intrDrc n 0
  let items := [(1, n), (4, r.far), (4, r.parity), (4, r.twin), (4, r.lost)]
  let s := if origin = 2 then s.intError 0x0A03 8 (nearAddr n 0) items else s.post 0x0A03 items
  let s := (s.bump cntInt 5 1).post 0x0B07 [(16, le (chaffBytes c))]
  (((s.retryMoves).checkMark).rescaled before).chanFail n

/-- Retire a run, a row or a bank: out of allocation, then its pages relocated (R409). -/
def State.retireUnit (s : State) (c : Chaff) : State :=
  let s := s.excludeUnit c
  let s := ((s.addChaff c).bump cntInt 5 1).post 0x0B07 [(16, le (chaffBytes c))]
  (s.retryMoves).checkMark

/-! ## Commands (Table 12-6) -/

/-- RETIRE (R409, R411): refused with 0x70 while the chaff list is full, with 0x71 when the unit is retired or too many channels would be
unusable. -/
def execRetire (x : Mbx) (s : State) : Outcome :=
  .next (s.command x .fm false 16 fun s =>
    let c := readChaff x.data 1
    if !s.chaffOk c then s.status x 9
    else if s.chaffCovered c then s.status x 0x71
    else if c.kind = 4 ∧ s.unusable + (if s.chanUp c.chan then 1 else 0) > 4 then s.status x 0x71
    else if s.integ.chaff.length ≥ chaffCap then (s.chaffFull).status x 0x70
    else if c.kind = 4 then (s.retireChannel c.chan 1).status x 0
    else (s.retireUnit c).status x 0)

/-- CHAFF_QUERY (R410): at most 256 entries from an index on. -/
def execChaffQuery (x : Mbx) (s : State) : Outcome :=
  .next (s.command x .fm false 8 fun s =>
    let l := (s.integ.chaff.drop (mb32 x 4)).take 256
    s.okOut x (zeros 3 ++ toLe 4 s.integ.chaff.length ++ toLe 4 l.length ++ zeros 4 ++ l.flatMap chaffBytes))

/-! ## Parity stripes (R402, R403) -/

/-- PARITY_DELTA_APPLY (R402): the pending deltas of a chunk of the parity member are applied, each as one read-XOR-write of a line. -/
def execParityDeltaApply (n : Fin 96) (chunk : Nat) (s : State) : Outcome :=
  if chunk ≥ s.chanChunks then .fault .nearAddressAbsent
  else .next (s.each [nearAddr n chunk * 2, nearAddr n chunk * 2 + 1] fun s key => s.applyDelta key)

/-- The page whose near husk holds a chunk. -/
def State.pageAt (s : State) (n k : Nat) : Option Nat :=
  (s.tier.pmes.find? fun e => hasNear e.2 && chanOf e.2.near == n && decide (chunkIdx e.2.near ≤ k ∧ k < chunkIdx e.2.near + e.2.len)).map Prod.fst

/-- Rewrite the uncorrectable lines of a chunk of a metadata region from its stripe. -/
def State.rebuildMeta (s : State) (n k : Nat) : State :=
  let bad := [nearAddr n k * 2, nearAddr n k * 2 + 1].filter fun key => decLine (s.nearLine key) == .uncorr
  if bad.isEmpty then s
  else
    let ws := bad.map fun key => (key, s.rebuildLine key)
    if ws.any fun w => w.2.isNone then (s.intr 0xC00028 5).intError 0x0B04 1 (nearAddr n k) []
    else ((s.each ws fun s w => match w.2 with
      | some d => s.writeLine w.1 d
      | none => s).bump cntInt 3 1).post 0x0B03 []

/-- STRIPE_RECONSTRUCT (R399, R403): a chunk that does not read is rebuilt from the rest of its stripe row; its page moves to new chunks, or
is poisoned 0x08 when the row has lost a second member. -/
def execStripeReconstruct (n : Fin 96) (chunk : Nat) (s : State) : Outcome :=
  if chunk ≥ s.chanChunks then .fault .nearAddressAbsent
  else .next (
    if !s.inStripe n chunk || parityChan n chunk == n then s
    else match s.pageAt n chunk with
    | none => if s.chanUp n then s.rebuildMeta n chunk else s
    | some page =>
      let p := s.pme page
      if p.prot ≠ 1 || (s.move page).isSome || !s.hasUncorr p then s
      else
        let (s, ok) := s.fromParity page
        if ok then s.uncorrNear page outRebuilt else (s.uncorrNear page outPoisoned).losePage page 8)

end Sys2Proof.Machine
end

