-- ==== Sys2Proof/Machine/Dram.lean ====
section
/-! DEFINITION. The near-tier DRAM controllers in time (spec/11_dram_controller.md R367 to R389): refresh, the write drain, retraining and slow
channels. -/

namespace Sys2Proof.Machine

open Sys2Proof

/-! ## Refresh (R374 to R377) -/

/-- A rank's owed refreshes set. -/
def Chan.setOwed (c : Chan) (rank : Nat) (v : Int) : Chan := if rank = 0 then { c with owed0 := v } else { c with owed1 := v }

/-- Close the open rows of a rank. -/
def Chan.closeRank (c : Chan) (rank : Nat) : Chan :=
  { c with openRows := c.openRows.filter fun r => r.1 / 16 != rank, hits := c.hits.filter fun r => r.1 / 16 != rank }

/-- Does a rank of a channel refresh: it exists and the channel is in use, outside self-refresh? -/
def State.refreshes (s : State) (n rank : Nat) : Bool := decide (rank < s.ranks) && s.chanUp n && !(s.chan n).sref

/-- Are the banks of a rank idle: no row open, no write queued and no request waiting at the channel? -/
def State.rankIdle (s : State) (n rank : Nat) : Bool :=
  (s.chan n).openRows.all (fun r => r.1 / 16 != rank) && (s.chan n).wq.isEmpty && !s.reqs.any (waitsFor (.chan n))

/-- REFRESH_DUE (R374 to R377): a refresh falls due. In a real-time burst, and during a retraining, it is postponed, and with 8 owed forced;
otherwise what is owed is paid, and with idle banks eight refreshes ahead. -/
def execRefreshDue (n : Fin 96) (rank : Fin 2) (s : State) : Outcome :=
  .next (
    let c := s.chan n
    let o := Chan.owed c rank
    if !s.refreshes n rank || decide (o ≥ 9) then s
    else if s.rtAt n then
      if o ≥ 8 then
        let s := s.setChan n fun c => Chan.closeRank (Chan.setOwed c rank 9) rank
        ((s.bumpDrc n 4 1).intrDrc n 2).post 0x0A04 [(1, n), (1, rank)]
      else s.setChan n fun c => Chan.setOwed c rank (o + 1)
    else if c.st = 4 then s.setChan n fun c => Chan.setOwed c rank (min (o + 1) 8)
    else if s.rankIdle n rank then s.setChan n fun c => Chan.setOwed c rank (-8)
    else s.setChan n fun c => Chan.closeRank (Chan.setOwed c rank (min (o + 1) 0)) rank)

/-- FORCED_REFRESH_DONE (R377): all nine owed refreshes are paid, and the rank accepts accesses again. -/
def execForcedRefreshDone (n : Fin 96) (rank : Fin 2) (s : State) : Outcome :=
  .next (if Chan.owed (s.chan n) rank = 9 then (s.setChan n fun c => Chan.setOwed c rank 0).chanGo n else s)

/-- REFRESH_RATE_POLL (R374): the device's refresh-rate report is read. -/
def execRefreshRatePoll (n : Fin 96) (rate : Fin 3) (s : State) : Outcome :=
  .next (if s.chanUp n then s.setChan n fun c => { c with rate := rate } else s)

/-! ## Write drain (R370) -/

/-- WRITE_QUEUE_DRAIN (R370): from 3/4 of its entries the queue drains to 1/4; below that, while no read waits, it drains whole. -/
def execWriteQueueDrain (n : Fin 96) (s : State) : Outcome :=
  .next (
    if !s.chanUp n then s
    else if 4 * (s.chan n).wq.length ≥ 3 * s.wqCap then s.drainTo n (s.wqCap / 4)
    else if s.reqs.any fun r => r.op == .rd && waitsFor (.chan n) r then s
    else s.drainTo n 0)

/-! ## Retraining (R383, R386, R387) -/

/-- Queue a channel for retraining, once. -/
def State.queueRetrain (s : State) (n : Nat) : State :=
  if (s.chan n).st ≠ 0 || s.near.retrainQ.contains n then s
  else (s.setChan n fun c => { c with queuedAt := s.now }).onNear fun r => { r with retrainQ := r.retrainQ ++ [n] }

/-- RETRAIN_PERIOD_EXPIRE (R386): RETRAIN_MS after its last training. -/
def execRetrainPeriodExpire (n : Fin 96) (s : State) : Outcome :=
  .next (if s.now ≥ (s.chan n).lastTrain + s.fld 0xB80008 13 0 * 1000000 then s.queueRetrain n else s)

/-- RETRAIN_TEMP_QUEUE (R386): the package temperature differs by RETRAIN_DC from that at the last training. -/
def execRetrainTempQueue (n : Fin 96) (temp : Fin 256) (s : State) : Outcome :=
  .next (
    let t := (s.chan n).temp
    if max t temp.val - min t temp.val ≥ s.fld 0xB80008 20 16 then s.queueRetrain n else s)

/-- DRC_RETRAIN_GO: a write of GO queues the channel CH. -/
def execDrcRetrainGo (v : Word) (s : State) : Outcome :=
  .next (if v.toNat.testBit 7 && decide (v.toNat % 128 < 96) then s.queueRetrain (v.toNat % 128) else s)

/-- Is a retraining running (DRC_RETRAIN.BUSY)? -/
def State.retraining (s : State) : Bool := (s.chan s.near.retrainActive).st == 4

/-- RETRAIN_START (R386, R387, Table 11-4 step 1): the first queued channel that no urgent request holds up, or after 100 ms: owed refreshes
are paid and rows closed. -/
def execRetrainStart (n : Fin 96) (s : State) : Outcome :=
  .next (
    let c := s.chan n
    if s.near.retrainQ.head? ≠ some n.val || c.st ≠ 0 || s.retraining then s
    else if s.rtAt n && decide (s.now < c.queuedAt + 100000000) then s
    else
      let s := s.setChan n fun c =>
        { c with st := 4, openRows := [], hits := [], owed0 := min c.owed0 0, owed1 := min c.owed1 0, attempts := 0 }
      s.onNear fun r => { r with retrainQ := r.retrainQ.drop 1, retrainActive := n })

/-- Does a training attempt show a working setting (R383)? -/
def trainWorks (dly : Option Word) (rd wr : Nat) : Bool := dly.isSome && decide (13 ≤ rd ∧ 13 ≤ wr)

/-- A channel's training ends with a working setting: delays, ranges, time and temperature are held (Table 11-3, Table 11-4). -/
def State.trained (s : State) (n : Nat) (dly : Word) (rd wr temp : Nat) : State :=
  let d := if s.isB then dly.toNat else dly.toNat % 2 ^ 32
  (s.setChan n fun c => { c with st := 0, rdMin := rd, wrMin := wr, lastTrain := s.now, temp := temp, attempts := 0 }).setReg (0xB00008 + 0x1000 * n) d

/-- RETRAIN_DONE (R383, Table 11-4; case 'When retraining finds no working setting'): an attempt ends; the third that fails retires the
channel. -/
def execRetrainDone (n : Fin 96) (dly : Option Word) (rd : Fin 256) (wr : Fin 256) (temp : Fin 256) (s : State) : Outcome :=
  .next (
    if (s.chan n).st ≠ 4 then s
    else match (if trainWorks dly rd wr then dly else none) with
    | some d => (s.trained n d rd wr temp).chanGo n
    | none =>
      let a := (s.chan n).attempts + 1
      let s := s.setChan n fun c => { c with attempts := a }
      let s := (s.intrDrc n 1).post 0x0A02 [(1, n), (1, a)]
      if a ≥ 3 then s.retireChannel n 2 else s)

/-! ## Slow channels (R388) -/

/-- CHANNEL_SLOW_DETECT (R388). -/
def execChannelSlowDetect (n : Fin 96) (s : State) : Outcome :=
  .next (
    if s.chanUp n && !(s.chan n).slow then ((s.setChan n fun c => { c with slow := true }).intrDrc n 3).post 0x0A06 []
    else s)

/-- CHANNEL_SLOW_CLEAR (R388). -/
def execChannelSlowClear (n : Fin 96) (s : State) : Outcome :=
  .next (if (s.chan n).slow then s.setChan n fun c => { c with slow := false } else s)

end Sys2Proof.Machine
end

