-- ==== Sys2Proof/Machine/Integ.lean ====
section
/-! DEFINITION. Broom passes, movers and copy jobs, the error queue and captures, slow spread members (spec/12_integrity.md R404 to R420),
and PUB_BUILD (spec/03_coherence.md R111). -/

namespace Sys2Proof.Machine

open Sys2Proof

/-! ## Broom (R406 to R408) -/

/-- Is a page one that a pass visits: homed here, its husk in the selected channels and chunk range, or in mode 2 any far husk? -/
def State.broomWants (s : State) (b : Broom) (page : Nat) : Bool :=
  let p := s.pme page
  let n := chanOf p.near
  let k := chunkIdx p.near
  s.homes page && !b.visited.contains page &&
    (if b.mode = 2 then hasFar p
     else hasNear p && s.chanUp n && b.chans.testBit n && decide (k ≤ b.last ∧ b.first < k + p.len))

/-- Row, bank and channel units that a pass suggests, then the runs that none of them covers (Table 12-3). -/
def State.broomUnits (s : State) (b : Broom) : List Chaff :=
  let runs := (s.integ.broomSugg.filter fun c => c.kind == 1).eraseDups
  let row (q : Nat) : Chaff := ⟨2, q / 2 ^ 29, rankOf s.ranks (q % 2 ^ 29 * 14), bankOf (q % 2 ^ 29 * 14), Machine.rowOf s.ranks (q % 2 ^ 29 * 14), 0, 0, 0⟩
  let runRows := runs.flatMap fun c => ((List.range c.count).map fun i => c.chan * 2 ^ 29 + rowIndex (c.first + i)).eraseDups
  let hot := (b.ceRows.filter fun e => decide (e.2 ≥ s.fld 0xC00008 7 0)).map Prod.fst
  let twice := (runRows.filter fun q => decide ((runRows.filter (· == q)).length ≥ 2)).eraseDups
  let rows := (twice.foldl addNew hot).map row
  let bank (c : Chaff) : Chaff := ⟨3, c.chan, c.rank, c.bank, 0, 0, 0, 0⟩
  let banks := ((rows.map bank).filter fun u => decide ((rows.filter fun r => bank r == u).length ≥ 8)).eraseDups
  let chans := ((banks.map Chaff.chan).filter fun n => decide ((banks.filter fun u => u.chan == n).length ≥ 4)).eraseDups
  let big := chans.map fun n => (⟨4, n, 0, 0, 0, 0, 0, 0⟩ : Chaff)
  let banks := banks.filter fun u => !chans.contains u.chan
  let rows := rows.filter fun r => !chans.contains r.chan && !banks.contains (bank r)
  let units := big ++ banks ++ rows
  units ++ runs.filter fun c => !((List.range c.count).all fun i => units.any (Chaff.hits s.ranks c.chan (c.first + i)))

/-- A pass with no page left ends: summary, interrupt status, event 0x0B06, and its background command (R408). -/
def State.broomEnd (s : State) : State :=
  match s.integ.broom with
  | none => s
  | some b =>
    if (keys s.tier.pmes).any (s.broomWants b) then s
    else
      let b := { b with sugg := (s.broomUnits b).take 256 }
      let s := s.onInt fun i => { i with broom := none, broomLast := some b, broomSugg := [] }
      let who := (s.host.bg.filter fun e => e.2.running && e.2.opcode == 0xC800).map Prod.fst
      (s.each who fun s w => s.endBg w rcSuccess [0]).intr 0xC00028 4 |>.post 0x0B06 []

/-- BROOM_START (R406, R408). -/
def execBroomStart (x : Mbx) (s : State) : Outcome :=
  .next (s.command x .fm false 40 fun s =>
    if mb8 x 4 > 2 then s.status x 9
    else if s.integ.broom.isSome then s.status x 0x72
    else s.bgCommand x fun s =>
      let b : Broom := { mode := mb8 x 4, repair := (mb8 x 5).testBit 0, chans := leAt x.data 8 12, first := mb64 x 24, last := mb64 x 32,
                         visited := [], scanned := 0, corrected := 0, uncorr := 0, poisoned := 0, skipped := 0, ceRows := [], sugg := [] }
      ((s.startBg x 0xC800).onInt fun i => { i with broom := some b }).broomEnd)

/-- Change the running pass. -/
def State.onBroom (s : State) (f : Broom → Broom) : State := s.onInt fun i => { i with broom := i.broom.map f }

/-- May a pass rewrite lines of a page: its migration token is free and it has no OPEN or RECODING slot (R407)? -/
def State.broomMay (s : State) (page : Nat) : Bool :=
  (s.move page).isNone && !(s.slotsOf page).any fun x => x.ph == .opened || x.ph == .recoding

/-- Read every stored line of a near husk: lines corrected are counted by row and, with REPAIR, rewritten; an uncorrectable line is handled
by R399. -/
def State.broomLines (s : State) (page : Nat) (repair : Bool) : State :=
  let p := s.pme page
  let ls := (List.range (2 * p.len)).map fun i => (i, s.huskLine p i)
  let fixed := ls.filter fun l => match l.2 with
    | .clean _ f => f != 0
    | _ => false
  let bad := (ls.filter fun l => l.2 == .uncorr).length
  let s := s.readLines (ls.map fun l => p.near * 2 + l.1)
  let s := s.onBroom fun b => { b with scanned := b.scanned + ls.length, corrected := b.corrected + fixed.length, uncorr := b.uncorr + bad,
                                       ceRows := fixed.foldl (fun m l =>
                                         let q := chanOf p.near * 2 ^ 29 + rowIndex (chunkIdx p.near + l.1 / 2)
                                         put m q ((look m q).getD 0 + 1)) b.ceRows }
  let s := s.corrected fixed.length
  let s := if repair then s.each fixed fun s l => match l.2 with
      | .clean d _ => s.writeLine (p.near * 2 + l.1) (encLine d none)
      | _ => s
    else s
  if bad = 0 then s
  else
    let (s, rc) := (s.suggestRun p).recover page 7
    if rc == .none then s.onBroom fun b => { b with poisoned := b.poisoned + 1 } else s

/-- Mode 1 also checks HCRC and decodes every grain against GCRC. -/
def State.broomDecode (s : State) (page : Nat) : State :=
  let p := s.pme page
  if !hasNear p || s.hasUncorr p then s
  else
    let s := match s.wholeHusk p with
      | some b => if hcrcOk b then s else s.hcrcFail page
      | none => s
    s.each (List.range 16) fun s g => match s.nearGrain page p g true with
      | .bad y c => if y = 9 && decide (c ≤ 4) then s.decFail page g 9 c else s
      | .ok _ _ _ => s

/-- BROOM_PAGE_VISIT (R406, R407): the running pass visits a page. -/
def execBroomPageVisit (page : Nat) (s : State) : Outcome :=
  .next (
    match s.integ.broom with
    | none => s
    | some b =>
      if !s.broomWants b page then s
      else
        let s := s.onBroom fun b => { b with visited := b.visited ++ [page] }
        let s :=
          if b.mode = 2 then
            let p := s.pme page
            let s := (s.onBroom fun b => { b with scanned := b.scanned + 2 * p.len }).noteRead p.far p.len
            if hcrcOk (s.farBytes page p.far p.len) then s else (s.hcrcFail page).farLost page
          else if b.repair && !s.broomMay page then s.onBroom fun b => { b with skipped := b.skipped + 1 }
          else
            let s := s.broomLines page b.repair
            if b.mode = 1 then s.broomDecode page else s
        s.broomEnd)

/-- BROOM_QUERY (R408, Table 12-2): the summary of the last finished pass, all zero before one. -/
def execBroomQuery (x : Mbx) (s : State) : Outcome :=
  .next (s.command x .fm false 0 fun s =>
    match s.integ.broomLast with
    | none => s.okOut x (zeros 63)
    | some b => s.okOut x (zeros 7 ++ toLe 8 b.scanned ++ toLe 8 b.corrected ++ toLe 8 b.uncorr ++ toLe 8 b.poisoned ++ toLe 4 b.skipped
        ++ toLe 4 b.sugg.length ++ zeros 16 ++ b.sugg.flatMap chaffBytes))

/-! ## Movers (R404, R405) -/

/-- A mover with no job. -/
def Mover.idle : Mover :=
  { st := 0, synd := 0, done := 0, src := 0, dst := 0, len := 0, who := 0, newExt := none, phase := 0, hold := [] }

/-- Mover m. -/
def State.mover (s : State) (m : Nat) : Mover := (look s.integ.movers m).getD Mover.idle
def State.setMover (s : State) (m : Nat) (x : Mover) : State :=
  s.onInt fun i => { i with movers := if x = Mover.idle then del i.movers m else put i.movers m x }

/-- Page moves that are being carried now. -/
def State.pageMoves (s : State) : Nat := (s.tier.moves.filter fun m => !m.2.waitSpace).length

/-- Movers without a copy job. -/
def State.jobless (s : State) : List Nat := (List.range 16).filter fun m => (s.mover m).st == 0

/-- The mover that a new copy job takes: one that neither a job nor a page move has. -/
def State.freeMover (s : State) : Option Nat := (s.jobless.drop s.pageMoves).head?

/-- Start a copy job in a mover. -/
def State.startJob (s : State) (m src dst len who : Nat) (newExt : Option Nat) : State :=
  s.setMover m { Mover.idle with st := 2, src := src, dst := dst, len := len, who := who, newExt := newExt }

/-- Do some bytes lie in extents whose records this module holds, none of a kind? -/
def State.spaceKnown (s : State) (sa len : Nat) (bad : Kind → Bool) : Bool :=
  (extsOf sa len).all fun e => (look s.spc.extents e).any fun x => !bad x.kind

/-- Decide a MOVER_COPY, the records of its extents being known: a copy job of whole lines, in a free mover. -/
def State.moverNow (s : State) (x : Mbx) : State :=
  let src := mb64 x 8
  let dst := mb64 x 16
  let n := mb64 x 24
  if !s.spaceKnown src n (fun _ => false) || !s.spaceKnown dst n (fun k => k == .published) then s.status x 3
  else match s.freeMover with
    | none => s.status x 0x73
    | some m => (s.startJob m src dst n (mbWho x) none).startBg x 0xC804

/-- Decide a MOVER_COPY; `asked` names the extents asked for already; the records of extents homed elsewhere may still be asked for. -/
def State.moverCmd (s : State) (x : Mbx) (asked : List Nat) : State :=
  let src := mb64 x 8
  let dst := mb64 x 16
  let n := mb64 x 24
  if n = 0 ∨ n % 64 ≠ 0 ∨ src % 64 ≠ 0 ∨ dst % 64 ≠ 0 ∨ src + n > 2 ^ 50 ∨ dst + n > 2 ^ 50 then s.status x 9
  else
    let pages (a : Nat) : Nat := (a + n - 1) / 4096 - a / 4096 + 1
    if !s.mayName x (src / 4096) (pages src) 0 || !s.mayName x (dst / 4096) (pages dst) 1 then s.status x 8
    else s.bgCommand x fun s => s.withExts askMover x asked (extsOf src n ++ extsOf dst n) fun s => s.moverNow x

/-- MOVER_COPY (R404). -/
def execMoverCopy (x : Mbx) (s : State) : Outcome := .next (s.command x .any false 32 fun s => s.moverCmd x [])

/-- A PUB_BUILD ends with the new extent. -/
def State.buildEnd (s : State) (who e : Nat) : State := (s.endBg who rcSuccess (zeros 4 ++ toLe 4 e)).post 0x0405 []

/-- The copies of PUB_BUILDs that wait take the movers that are free, in order. -/
def State.buildGo (s : State) : State :=
  s.each s.integ.buildQ fun s q =>
    match s.freeMover with
    | none => s
    | some m =>
      (s.onInt fun i => { i with buildQ := i.buildQ.drop 1 }).startJob m (q.1 * 2 ^ 30) (q.2.1 * 2 ^ 30) (2 ^ 30) q.2.2 (some q.2.1)

/-- A copy job ends: its mover is idle, its background command completes, and a copy that waits may start. -/
def State.endJob (s : State) (m : Nat) : State :=
  let x := s.mover m
  let s := s.setMover m Mover.idle
  (match x.newExt with
   | some e => s.buildEnd x.who e
   | none => s.endBg x.who rcSuccess (zeros 4 ++ [BitVec.ofNat 8 m])).buildGo

/-- A mover meets an uncorrectable line: it halts (R404). -/
def State.haltMover (s : State) (m : Nat) (x : Mover) : State :=
  let s := (s.setMover m { x with st := 3 }).intr 0xC00028 3
  let s := s.intError 0x0B05 x.synd (x.src + 64 * x.done) []
  if x.who < 64 then s.edge 865 x.who else s

/-- A line of a mover's job at its page home, or sent there (class 7, no holder). -/
def State.jobReq (s : State) (m : Nat) (op : ROp) (sa : Nat) (d : Bytes) : State :=
  let (s, r) := s.newReq (.mover m) op sa 7 4096 .invalid (if op = .wr then fullMask else 0) d
  s.route r false

/-- The next thing a running job does: pages of a PUB_BUILD source that were never written are passed over; a line is read, then written; the
job ends after its last line. -/
def State.jobStep (s : State) (m : Nat) : State :=
  let x := s.mover m
  if x.st ≠ 2 then s
  else if x.phase = 0 then
    let sa := x.src + 64 * x.done
    if 64 * x.done ≥ x.len then s.endJob m
    else if x.newExt.isSome && x.done % 64 == 0 && s.homes (saPage sa) && (s.pmeOf (saPage sa)).st == .unwritten && (s.slotsOf (saPage sa)).isEmpty then
      s.setMover m { x with done := x.done + 64 }
    else (s.setMover m { x with phase := 1 }).jobReq m .rd sa []
  else if x.phase = 2 then
    if x.synd ≠ 0 then s.haltMover m x
    else (s.setMover m { x with phase := 3 }).jobReq m .wr (x.dst + 64 * x.done) x.hold
  else s

/-- MOVER_COPY_CHUNK (R404): a mover copies its next lines, in order. -/
def execMoverCopyChunk (m : Fin 16) (lines : Nat) (s : State) : Outcome :=
  .next (s.buildGo.each (List.range (2 * lines + 1)) fun s _ => s.jobStep m)

/-- A MOVER_CTL command of the job's issuer on a halted mover. -/
def State.moverCtl (s : State) (x : Mbx) (op : Nat) (f : State → Nat → Mover → State) : State :=
  s.command x .any false 6 fun s =>
    let m := mb8 x 4
    if m ≥ 16 ∨ mb8 x 5 ≠ op then s.status x 9
    else
      let j := s.mover m
      if j.st ≠ 3 then s.status x 0x73
      else if j.who ≠ mbWho x then s.status x 8
      else (f s m j).status x 0

/-- MOVER_CTL with op 1 RESUME (R405): the faulty line goes to the destination as poisoned with its syndrome, and the job continues. -/
def execMoverCtlResume (x : Mbx) (s : State) : Outcome :=
  .next (s.moverCtl x 1 fun s m j =>
    let sa := j.dst + 64 * j.done
    let s := s.setMover m { j with st := 2, phase := 4 }
    let h := s.pageHome (saPage sa)
    if s.homes (saPage sa) || !s.canRoute h then s.jobReq m .wr sa (zeros 64)
    else
      let (s, r) := s.newReq (.mover m) .wr sa 7 4096 .invalid fullMask (zeros 64)
      (s.modReq r.id fun q => { q with waits := [.remote h] }).send .wr h 7 4096 (r.id % 65536) 0 j.synd sa (zeros 64))

/-- MOVER_CTL with op 2 ABORT (R405): the job ends and its background command completes with status 0x74. -/
def execMoverCtlAbort (x : Mbx) (s : State) : Outcome :=
  .next (s.moverCtl x 2 fun s m j => ((s.setMover m Mover.idle).endBg j.who rcSuccess [0x74]).buildGo)

/-! ## PUB_BUILD (R111) -/

/-- The published extent that a PUB_BUILD of a source makes, as an extent request. -/
def buildReq (x : Extent) (home : Nat) : GReq :=
  { exist := none, kind := 2, cls := x.cls, prot := x.prot, durable := x.durable, d := x.d, layout := x.layout, home := home, bxk := x.bxk,
    stoch := x.stoch, elem := x.elem, run := 1 }

/-- May the issuer publish an extent: the fabric manager, or an LD whose ACTIVE lease names it with the publish right? -/
def State.mayPublish (s : State) (x : Mbx) (e : Nat) : Bool :=
  match x.issuer with
  | .fm => true
  | .ld m => s.spc.leases.any fun l => l.2.ld == some m.val && l.2.st == .active && l.2.rights.testBit 2 && l.2.exts.any fun q => q.1 == e

/-- Decide a PUB_BUILD (R77 to R79, R111, R427), the record of the source being known: a new published extent of its account, class, element type and
layout, filled by a mover; the job waits while every mover is in use. Nothing is written in a V-LR region: its copy takes the source's binding, and
with it the same bytes, at once (DESIGN CHOICE, log entry 98). -/
def State.buildNow (s : State) (x : Mbx) : State :=
    let e := mb32 x 0
    let home := mb8 x 4
    match look s.spc.extents e with
    | none => s.status x (if homeOf e = s.me || s.isLive (homeOf e) then 3 else 7)
    | some xt =>
      if xt.kind = .published then s.status x 3
      else if home ≠ 0xFF ∧ !(s.homesFor xt.prot).contains home then s.status x 7
      else match s.planNew xt.acct 0 (buildReq xt home) { fresh := [], order := [], load := [], map := 0 } with
      | .error st => s.status x st
      | .ok p =>
        let p := { p with fresh := p.fresh.map fun q => (q.1, { q.2 with namers := [], tslot := xt.tslot, vlr := xt.vlr }) }
        match s.admitPlan xt.acct p, p.fresh with
        | some st, _ => s.status x st
        | none, [] => s.status x 1
        | none, (ne, _) :: _ =>
          let s := ({ s with draws := s.draws + 128 }.doPlan 0 p).startBg x 0xC100
          if xt.cls = 12 then s.buildEnd (mbWho x) ne
          else (s.onInt fun i => { i with buildQ := i.buildQ ++ [(e, ne, mbWho x)] }).buildGo

/-- Decide a PUB_BUILD; `asked` names the extents asked for already; the record of a source homed elsewhere may still be asked for. -/
def State.buildCmd (s : State) (x : Mbx) (asked : List Nat) : State :=
  let e := mb32 x 0
  let home := mb8 x 4
  if e ≥ 2 ^ 20 ∨ (home ≥ 64 ∧ home ≠ 0xFF) then s.status x 9
  else if !s.mayPublish x e then s.status x 8
  else s.bgCommand x fun s => s.withExts askBuild x asked [e] fun s => s.buildNow x

/-- PUB_BUILD (R111, R115). -/
def execPubBuild (x : Mbx) (s : State) : Outcome := .next (s.command x .any false 5 fun s => s.buildCmd x [])

/-! ## Error queue and captures (R412, R413) -/

/-- INT_ERRQ_POP_WRITE (R413): a write of 1 removes the head entry. -/
def execIntErrqPopWrite (v : Word) (s : State) : Outcome :=
  .next (if v.toNat.testBit 0 then s.onInt fun i => { i with errq := i.errq.drop 1 } else s)

/-- Capture registers whose VALID a write of 1 releases: DIR_LOST_CAP, HSK_ERR_CAP, TLR_CAP, QOS_MISS_CAP, INT_ERR_CAP. -/
def captureReg (off : Nat) : Bool :=
  off == 0x400040 || off == 0x500058 || off == 0xA00040 || off == 0xC00040 ||
    (decide (0x800000 ≤ off ∧ off < 0x980000) && off % 0x4000 == 0x40)

/-- CAPTURE_RELEASE_WRITE (R412): writing VALID releases a capture, with LINE_VALID in DIR_LOST_CAP; the captured values stand until the next
one. -/
def execCaptureReleaseWrite (off : Nat) (v : Word) (s : State) : Outcome :=
  .next (
    if captureReg off && v.toNat.testBit 63 then
      s.setReg off (s.reg off % (if off = 0x400040 then 2 ^ 62 else 2 ^ 63))
    else s)

/-! ## Slow members (R418) -/

/-- SPREAD_MEMBER_SLOW (R418): a member of an extent's spread set is slow: requests to it are paced, interrupt status and event 0x0B0B. -/
def execSpreadMemberSlow (e : Nat) (m : Fin 64) (s : State) : Outcome :=
  .next (
    match look s.spc.extents e with
    | some x =>
      if x.spread.contains m.val && !s.integ.spreadSlow.contains (e, m.val) then
        ((s.onInt fun i => { i with spreadSlow := i.spreadSlow ++ [(e, m.val)] }).intr 0xC00028 6).post 0x0B0B []
      else s
    | none => s)

end Sys2Proof.Machine
end

