-- ==== Sys2Proof/Machine/CopyMsg.lean ====
section
/-! DEFINITION. JRNL and COPY messages (spec/09_hedgerow.md R329, R330, R336, R337; spec/13_security.md R424): the partner's replica, page contents,
table slots, sheaf images, and the records that modules copy to one another in the model's typed form (log entry 12). -/

namespace Sys2Proof.Machine

open Sys2Proof

/-! ## The replica (R329, R330) -/

/-- Enter a journal record in a metadata snapshot. -/
def snapApply (m : MetaSnap) (k : JKind) : MetaSnap :=
  match k with
  | .pme page p => { m with pmes := if p = Pme.unwritten then del m.pmes page else put m.pmes page p }
  | .extent e x => { m with extents := putOpt m.extents e x }
  | .lease h l => { m with leases := putOpt m.leases h l }
  | .account a x => { m with accts := put m.accts a x }
  | .chaff c => { m with chaff := m.chaff ++ [c] }
  | .poison p => { m with plist := m.plist.filter (fun q => q.page != p.page || q.addr != p.addr) ++ [p] }
  | .clear p => { m with plist := m.plist.filter fun q => q.page != p.page || q.addr != p.addr }
  | .held page mark => { m with held := if mark then addNew m.held page else m.held.filter (· != page) }
  | .key slot k => { m with keys := putOpt m.keys slot k }
  | .band b x => { m with bands := put m.bands b x }

/-- Take the partner's records in order, those beyond the last one taken. -/
def State.takeRecs (s : State) (rs : List JRec) : State :=
  s.each rs fun s r => if r.seq ≤ s.hdg.replSeq then s
    else s.onHdg fun h => { h with replica := snapApply h.replica r.kind, replSeq := r.seq }

/-- A SYS message with a typed body: as other messages, but also taken by a module that boots (R321, R337). -/
def State.arrivesSys (s : State) (m : Msg) (o : Out) (f : State → State) : State :=
  if s.hdg.bench then s.bump cntHdg 3 1
  else if s.hdg.formed ∧ m.dst.val ≠ s.me then (s.emit o).bump cntHdg 4 1
  else if !s.pwr.on || !s.pwr.resetN || s.pwr.flush.isSome then s
  else f s

/-- MSG_JRNL (R329): the partner's records enter its replica and are acknowledged. -/
def execMsgJrnl (m : Msg) (recs : List JRec) (s : State) : Outcome :=
  .next (s.arrivesSys m (.jrnl m.dst recs) fun s =>
    if m.src.val ≠ twinOf s.me ∨ recs.isEmpty then s
    else
      let s := s.awake.takeRecs recs
      s.emit (.jack m.src ((recs.getLast?).elim 0 JRec.seq)))

/-! ## Page contents (R89, R336, R424) -/

/-- Is SEQ a behind b: the difference taken modulo 2³² − 1 (R336)? -/
def seqBehind (a b : Nat) : Bool := decide (a ≠ b) && decide ((b + (2 ^ 32 - 1) - a % (2 ^ 32 - 1)) % (2 ^ 32 - 1) < 2 ^ 31)

/-- A page whose husk finds no free chunks waits as a recode does: its lines go into a slot that carries the SEQ of the copy (R336). -/
def State.copySlot (s : State) (page seq : Nat) (d : Bytes) (poison : List (Nat × Nat)) : State :=
  let i := s.nextId + 1
  let x : Slot := { id := i, page := page, ph := .closed, twin := true, bg := true, seq := seq, tFirst := s.now, built := none,
                    lines := (fullLines d).filter fun l => !(poison.any fun q => q.1 == l.1) }
  let s := ({ s with nextId := i }).onHusk fun h => { h with slots := h.slots ++ [x] }
  s.each poison fun s q => s.poisonLine (page * 64 + q.1) q.2 false

/-- A page that a re-spread moved here is noted as moved, and for a mirrored extent goes on to this module's twin (R89 steps 3 and 4). -/
def State.pageCame (s : State) (page : Nat) : State :=
  match s.extent page with
  | some x => match x.respread with
    | some q =>
      if q.new ≠ s.me then s
      else
        let s := s.putExtent (extOf page) { x with respread := some { q with moved := addNew q.moved (pageIdx page) } }
        if x.prot = 2 && s.twinLive then s.copyTo (twinOf s.me) (s.pageBody page) else s
    | none => s
  | none => s

/-- Page contents: from the twin, stored when this module's copy is missing or older; from another module, as a page that moves here. -/
def State.copyPage (s : State) (src page : Nat) (st : PState) (seq synd : Nat) (d : Bytes) (poison : List (Nat × Nat)) : State :=
  let p := s.pmeOf page
  let mine := s.mirrored page && src == twinOf s.me && !(s.extent page).any (fun x => x.respread.any fun q => q.new == s.me)
  if (s.extent page).isNone then s
  else if mine && p.st != .unwritten && !seqBehind p.seq seq then s
  else
    let (s', ok) := s.takePage page st seq synd d poison
    let s := if ok then s'.retryMoves else s.copySlot page seq d poison
    if mine then s else s.pageCame page

/-! ## Extents and leases -/

/-- Record an extent as another module sends it; the names of its leases that are known here are kept (R48). -/
def State.copyExtent (s : State) (e : Nat) (x : Extent) : State :=
  let here := (modulesOf e x).contains s.me || x.respread.any (fun q => q.new == s.me || (x.prot == 2 && twinOf q.new == s.me))
  let s := if here then s.needKey (keySlotOf x) else s
  let names := match look s.spc.extents e with
    | some o => x.namers.foldl addNew o.namers
    | none => x.namers
  let moved := match look s.spc.extents e with
    | some o => (o.respread.map Respread.moved).getD []
    | none => []
  s.putExtent e { x with namers := names, respread := x.respread.map fun q => { q with moved := if q.moved.isEmpty then moved else q.moved } }

/-- A LEASE_ATTACH at another portal, whose window has so many slots: a valid token takes the lease there, its extents first; else it is refused.
Extents that drain from the lease stay behind: their drain goes on here (R69). -/
def State.tokenAsked (s : State) (src h token acct slots : Nat) : State :=
  match s.leaseFor h with
  | none => s.copyTo src (.refuse h 4)
  | some l =>
    let st := s.tokenStatus l token acct
    let exts := l.exts.filter fun e => !(s.leaving h).contains e.1
    if st ≠ 0 then s.copyTo src (.refuse h st)
    else if slots < exts.length then s.copyTo src (.refuse h 6)
    else
      let mine := (look s.spc.leases h).isSome
      let s := match mine, l.ld with
        | true, some d => (s.unmapSlots d l.window fun _ _ => true).holderLeaves (s.holderOf d) (l.exts.map Prod.fst) false
        | _, _ => s
      let s := s.each ((exts.map Prod.fst).eraseDups) fun s e => (s.extentFor e).elim s fun x => s.copyTo src (.extent e (some x))
      let s := s.onHdg fun q => { q with replica := { q.replica with leases := del q.replica.leases h } }
      let s := (s.recordLease h none).onSpc fun p => { p with peerLeases := put p.peerLeases h ({ l with st := .orphan, ld := none, exts := exts }, []) }
      s.copyTo src (.lease h { l with exts := exts, ld := if mine then l.ld else none })

/-- A lease that went to another portal comes back, since its window there is gone: it is bound as it was. -/
def State.leaseBack (s : State) (h : Nat) (l : Lease) : State :=
  match l.ld with
  | some d => (s.each l.exts fun s e => s.mapSlot d l.window e.2 e.1).setLease h (some l)
  | none => s.setLease h (some { l with st := .orphan })

/-- The end of a LEASE_ATTACH that other modules answer. -/
def State.attachEnd (s : State) (a : Attach) (o : State → State) : State :=
  o (s.onSpc fun p => { p with attaching := p.attaching.filter (· != a) })

/-- The lease that a LEASE_ATTACH here waits for has come. -/
def State.leaseCame (s : State) (src h : Nat) (l : Lease) : State :=
  match s.spc.attaching.find? (fun a => a.handle == h) with
  | none => s.leaseBack h l
  | some a => s.attachEnd a fun s =>
    if !s.windowFor a.ld a.window h l.exts.length then (s.copyTo src (.lease h l)).emit (.mbox a.ld rcSuccess [6])
    else
      let (s, n, slot) := s.bind h { l with ld := none } a.ld a.window a.sess
      s.replyAfter (.mbox a.ld rcSuccess (0 :: leaseOut h n l.token slot))

/-- A module has no such lease, or refuses the token or the window; the last of them answers the command with 0x05, 0x06 or 0x04. -/
def State.attachRefused (s : State) (src h st : Nat) : State :=
  s.each (s.spc.attaching.filter fun a => a.handle == h && a.left.contains src) fun s a =>
    let a' : Attach := { a with left := if st = 6 then [] else a.left.filter (· != src), bad := a.bad || st == 5 }
    if !a'.left.isEmpty then s.onSpc fun p => { p with attaching := replaceFirst (· == a) (fun _ => a') p.attaching }
    else s.attachEnd a fun s =>
      if st = 6 then s.emit (.mbox a.ld rcSuccess [6])
      else if a'.bad then (s.tokenRefused a.ld true).emit (.mbox a.ld rcSuccess [5]) else s.emit (.mbox a.ld rcSuccess [4])

/-! ## Starts from other portals (R284) -/

/-- Members of a START that another portal sent: they start when they are admitted, else wait for a context. -/
def State.startFrom (s : State) (portal desc ld h : Nat) (ts : List Nat) (first count label : Nat) (args : List Nat) : State :=
  let s := s.awake
  let ts := s.tillersHere ts args
  if s.tlr.startQ.isEmpty ∧ s.admitsCtx portal ld h ts.length then s.startMembers portal desc ld h label count first ts args
  else
    let w := ts.zipIdx.map fun t => { portal := portal, desc := desc, ld := ld, sheaf := h, tiller := t.1, member := first + t.2, count := count,
                                      label := label, args := args : StartWait }
    ((s.onTlr fun q => { q with startQ := q.startQ ++ w }).bump cntTlr 3 1).post 0x0806 []

/-- A progress record of a context that runs elsewhere (R288). -/
def State.progressFrom (s : State) (desc : Nat) (body : Bytes) : State :=
  match look s.tlr.descs desc with
  | none => s
  | some q => (s.cqPost q.ld q.ring (State.progressRec q (leAt body 0 8) (body.drop 8)) ((byteAt q.raw 1) % 2 == 1)).1

/-- A member of a START of this portal ended elsewhere: a trap with ABORT set cancels the others (R290), and its module hears whether its completion
has a place (R286). -/
def State.endedFrom (s : State) (src desc : Nat) (e : MemberEnd) : State :=
  let ring := (look s.tlr.descs desc).map fun d => (d.ld, d.ring)
  let (s, ok) := s.memberEnded desc e
  let s := if e.status = 1 then s.abortOthers desc else s
  let s := if e.live then s.copyTo src (.endAns (e.ctxid % 4096) ok) else s
  match ring with
  | some r => s.cancelEnd r.1 r.2
  | none => s

/-- Cancel the members of another portal's descriptor, those that wait among them. -/
def State.cancelFrom (s : State) (portal desc : Nat) : State :=
  let mine (w : StartWait) : Bool := w.portal == portal && w.desc == desc
  let gone := s.tlr.startQ.filter mine
  let s := s.onTlr fun q => { q with startQ := q.startQ.filter fun w => !mine w }
  let s := s.each gone fun s w => s.copyTo portal (.ended desc ⟨w.member, 2, 0, 0, 0, 0, 0, false⟩)
  s.cancelDesc portal desc

/-! ## Metadata at a rejoin (R336, R337) -/

/-- The metadata that the partner kept for this module: records that this module lacks or that changed while it was away. -/
def State.restore (s : State) (m : MetaSnap) : State :=
  let s := s.each m.extents fun s e => s.copyExtent e.1 e.2
  -- the lists of holders came from the partner, which kept them current (R86)
  let s := s.each m.accts fun s a => s.setAcct a.1 { a.2 with members := (s.acct a.1).members }
  let s := s.each m.leases fun s l => if (look s.spc.leases l.1).isSome then s else s.setLease l.1 (some { l.2 with st := .orphan, ld := none })
  s.onHdg fun h => { h with heldMarks := m.held.foldl addNew h.heldMarks }

/-! ## Home roles (R336) -/

/-- Is an extent mirrored, with pages homed on a module? -/
def mirroredAt (e : Nat) (x : Extent) (m : Nat) : Bool := x.prot == 2 && decide (0 < pagesAt e x m)

/-- Mirrored extents of the partner whose home role can be offered back: no page of them is left to copy. -/
def State.roleReady (s : State) (t : Nat) : List Nat :=
  (s.spc.extents.filter fun e => mirroredAt e.1 e.2 t && !s.hdg.returned.contains e.1 && !s.hdg.roles.contains e.1
    && !(s.hdg.resync.any fun p => extOf p == e.1)).map Prod.fst

/-- Home roles are offered back; with no page left and every role taken the resynchronisation is over: RESYNC_DONE and event 0x0208. -/
def State.roleReturn (s : State) : State :=
  let t := twinOf s.me
  let s := if s.hdg.acting.contains t then
      s.each (s.roleReady t) fun s e => (s.copyTo t (.role e)).onHdg fun h => { h with roles := addNew h.roles e }
    else s
  if s.hdg.twinState ≠ 3 ∨ !s.hdg.resync.isEmpty ∨ !s.hdg.roles.isEmpty then s
  else
    let s := s.onHdg fun h => { h with twinState := 0, acting := h.acting.filter (· != t), returned := [], twinMarks := [] }
    (((s.copyTo t .resyncEnd).intr 0x200028 5).post 0x0208 []).reroute fun _ => true

/-- Does this module take the home role of an extent back: every page that was copied is stored, and those of a durable extent stand on flash (R336)? -/
def State.takesRole (s : State) (e : Nat) : Bool :=
  !(s.husk.slots.any fun x => x.bg && x.twin && extOf x.page == e) &&
    match look s.spc.extents e with
    | some x => !x.durable || x.cls == 12 || (s.pagesOfExt e).all fun p => !s.farPending p && (s.pmeOf p).st != .near
    | none => true

/-- The roles that this module can take back now are taken, and the acting side hears it. -/
def State.rolesGo (s : State) : State :=
  if !s.hdg.away then s
  else s.each (s.hdg.roles.filter s.takesRole) fun s e =>
    (s.onHdg fun h => { h with roles := h.roles.filter (· != e), returned := addNew h.returned e }).copyTo (twinOf s.me) (.role e)

/-- A role is offered back to this module, or one that it offered has been taken. -/
def State.roleCame (s : State) (src e : Nat) : State :=
  if s.hdg.acting.contains src then
    if s.hdg.roles.contains e then
      (s.onHdg fun h => { h with roles := h.roles.filter (· != e), returned := addNew h.returned e }).roleReturn
    else s
  else if s.hdg.away then (s.onHdg fun h => { h with roles := addNew h.roles e }).rolesGo
  else s.copyTo src (.role e)

/-- The home of an extent has answered with its record, or that there is none: the commands that waited for it last are taken up again. -/
def State.askEnd (s : State) (p : Nat → Bool) : State :=
  let l := s.spc.asks.map fun a => { a with left := a.left.filter fun e => !p e }
  let s := s.onSpc fun c => { c with asks := l.filter fun a => !a.left.isEmpty }
  s.each (l.filter fun a => a.left.isEmpty) fun s a =>
    if a.cmd = askGrant then s.grantCmd a.x a.asked
    else if a.cmd = askRespread then s.respreadCmd a.x a.asked
    else if a.cmd = askBuild then s.buildCmd a.x a.asked
    else if a.cmd = askTrain then s.trainCmd a.x a.asked
    else if a.cmd = askBind then s.bindCmd a.x a.asked
    else if a.cmd = askRecode then s.recodeCmd a.x a.asked
    else if a.cmd = askVlr then s.vlrCmd a.x a.asked
    else if a.cmd = askDiscard then s.discardCmd a.x a.asked
    else if a.cmd = askSheaf then s.sheafCmd a.x a.asked
    else if a.cmd = askMover then s.moverCmd a.x a.asked
    else s

/-- The effect of a COPY at its destination. -/
def State.onCopy (s : State) (src : Nat) (b : CopyBody) : State :=
  match b with
  | .page page st seq synd d poison => s.copyPage src page st seq synd d poison
  | .table n t => s.onHusk fun h => { h with tables := put h.tables n t, zeros := h.zeros.filter fun z => z.1 != n }
  | .bind e n => match look s.spc.extents e with
    | some x => s.setExtent e (some { x with tslot := n })
    | none => s
  | .sheaf h q => (s.onTlr fun t => { t with sheaves := putOpt t.sheaves h q }).sheafFree h
  | .members a hs => s.setAcct a { s.acct a with members := hs }
  | .extent e (some x) => (s.copyExtent e x).askEnd (· == e)
  | .ask e => s.copyTo src (match look s.spc.extents e with
    | some x => .extent e (some { x with namers := [] })
    | none => .noExtent e)
  | .noExtent e => s.askEnd (· == e)
  | .sync n => s.copyTo src (.synced n)
  | .synced n => s.syncedBy src fun y => y.n == n
  | .drained e => s.flipDrained e src
  | .extent e none => s.reclaimHere e
  | .charge e x => s.copyExtent e x
  | .lease h l => s.leaseCame src h l
  | .token h t a n => s.tokenAsked src h t a n
  | .refuse h st => s.attachRefused src h st
  | .names e h on => if on then (match look s.spc.extents e with
      | some x => s.setExtent e (some { x with namers := addNew x.namers h })
      | none => s) else if homeOf e = s.me then s.unname e h else s.unnameReplica e h
  | .sweep holder es lost => if lost then s.loseHere holder es 1 else s.sweepHere holder es
  | .revoke h first count bound => match look s.spc.leases h with
    | some l => if l.st = .active ∨ l.st = .orphan then s.revoke h l (namedExts l first count) bound else s
    | none => s
  | .revokeHolder holder es => s.revokeHolder holder es
  | .account a x => if s.granted_ a + x.z ≤ x.b then
      s.branWatch a fun s => s.setAcct a { s.acct a with b := x.b, z := x.z, lossless := x.lossless }
    else s
  | .flip pairs recs => (s.each recs fun s r => if (look s.spc.extents r.1).isSome then s else s.copyExtent r.1 { r.2 with namers := [] }).flip pairs
  | .lmap holder m cs => s.onQos fun q => { q with lmap := put q.lmap (4096 + holder) m, classes := put q.classes holder cs }
  | .start desc ld h ts first count label args => s.startFrom src desc ld h ts first count label args
  | .cancel desc => s.cancelFrom src desc
  | .cancelCtx c => (s.cancelCtx c).1
  | .ended desc e => s.endedFrom src desc e
  | .endAns c ok => s.endAnswered src c ok
  | .images => s.onHdg fun h => { h with images := false }
  | .records recs => s.each recs fun s r => if (look s.spc.extents r.1).isSome then s else s.copyExtent r.1 { r.2 with namers := [] }
  | .leaseIs h l es => s.onSpc fun p => { p with peerLeases := putOpt p.peerLeases h (l.map fun x => (x, es)) }
  | .fetch m c k page et kc cls n k0 => s.fetchFrom ⟨m, c, k, page, et, kc, cls, n, k0⟩
  | .fetched c k bs bad form => s.fetchCame c k ⟨bs, bad⟩ form
  | .progress desc body => s.progressFrom desc body
  | .miss holder => s.edge 705 (holderLd holder)
  | .husks n k => s.onHusk fun h => { h with zeros := h.zeros.filter (· != (n, src)) ++ if k = 0 then [(n, src)] else [] }
  | .doze on => if on then (if s.pwr.state ≤ 1 then s.startDoze else s) else s.dozeLeave
  | .snapshot m => s.onHdg fun h => { h with replica := m }
  | .recode e => match look s.spc.extents e with
    | some xt => s.onHusk fun h => { h with bgWant := ((s.pagesOfExt e).filter fun p => s.homes p && s.offEncoding xt (s.pmeOf p)).foldl addNew h.bgWant }
    | none => s
  | .vlr e v => match look s.spc.extents e with
    | some x => ((s.discardVlr e).setExtent e (some { x with vlr := v })).reExpand e
    | none => s
  | .backlog rs => (s.takeRecs rs).emit (.jack src ((rs.getLast?).elim 0 JRec.seq))
  | .role e => s.roleCame src e
  | .resyncEnd => s.onHdg fun h => { h with away := false, returned := [], roles := [], twinState := 0 }
  | .restore m => s.restore m
  | .pin page owner on drop => s.peerPin page owner on drop
  | .bound e h on => s.onSpc fun p => { p with bound := if on then p.bound.filter (· != (e, h)) ++ [(e, h)] else p.bound.filter (· != (e, h)) }
  | .evict l h => s.evictLine (l * 64) h
  | .poison l => (s.poisonWritten l 1).poisonLine l 1 true
  | .erase a step =>
    if step = 0 then ((s.revokeAcct a).onSec fun c => { c with erasing := c.erasing ++ [⟨a, none, src, []⟩] }).eraseCheck
    else if step = 1 then
      (s.onSec fun c => { c with erasing := c.erasing.map fun e => if e.acct = a then { e with left := e.left.filter (· != src) } else e }).eraseCheck
    else s.eraseKeys a

/-- MSG_COPY (R424, Table 9-6). -/
def execMsgCopy (m : Msg) (b : CopyBody) (s : State) : Outcome := .next (s.arrivesSys m (.copy m.dst b) fun s => s.onCopy m.src b)

end Sys2Proof.Machine
end

