-- ==== Sys2Proof/Machine/Membership.lean ====
section
/-! DEFINITION. Formation, membership, takeover and resynchronisation (spec/09_hedgerow.md R320 to R339), and the commands of Table 9-11. -/

namespace Sys2Proof.Machine

open Sys2Proof

/-! ## Witnesses and the coordinator (R322, R323, R338) -/

/-- The columns in the order in which witnesses are taken (R322). -/
def witCols : List (Nat × Nat) :=
  [(0, 0), (2, 2), (1, 3), (3, 1), (0, 2), (2, 0), (1, 1), (3, 3), (0, 1), (2, 3), (1, 0), (3, 2), (0, 3), (2, 1), (1, 2), (3, 0)]

/-- The witnesses of a live set: the live module of lowest z in each of the first three columns that have one. -/
def chooseWits (live : List Nat) : List Nat :=
  (witCols.filterMap fun c => (List.range 4).findSome? fun z =>
    if live.contains (c.1 + 4 * c.2 + 16 * z) then some (c.1 + 4 * c.2 + 16 * z) else none).take 3

/-- Does a live set hold at least two witnesses? -/
def hasQuorum (live wits : List Nat) : Bool := decide (2 ≤ (wits.filter live.contains).length)

/-- The coordinator of this part. -/
def State.coordinator (s : State) : Option Nat :=
  match argMin id (s.hdg.wits.filter s.hdg.live.contains) with
  | some m => some m
  | none => argMin id s.hdg.live

def State.isCoord (s : State) : Bool := s.hdg.formed && s.coordinator == some s.me

/-- The live mask (HDG_LIVE). -/
def maskOf (l : List Nat) : Nat := sumOf l.eraseDups fun m => 2 ^ m

/-! ## Resynchronisation (R336, R337) -/

/-- The partner is back: this side, which acted as home, sends tables, sheaves, class maps, account lists, metadata, and the journal backlog or a
snapshot, and marks every mirrored page whose other copy may be missing or older (R336, R337, R86, R342). -/
def State.resyncStart (s : State) : State :=
  let t := twinOf s.me
  let s := s.each s.husk.tables fun s e => s.copyTo t (.table e.1 e.2)
  let s := s.each s.tlr.sheaves fun s e => s.copyTo t (.sheaf e.1 (some e.2))
  let s := s.copyTo t .images
  let s := s.each s.qos.classes fun s e => s.copyTo t (.lmap e.1 ((look s.qos.lmap (4096 + e.1)).getD lmapId) e.2)
  let s := s.each s.spc.accts fun s e => s.copyTo t (.members e.1 e.2.members)
  let s := s.copyTo t (.restore s.hdg.replica)
  let s := (s.each s.hdg.reclaimed fun s e => s.copyTo t (.extent e none)).onHdg fun h => { h with reclaimed := [] }
  let s := if s.hdg.snapDue then (s.copyTo t (.snapshot s.metaNow)).onHdg fun h => { h with snapDue := false, jacked := h.jseq, backlog := [] }
    else if s.hdg.backlog.isEmpty then s else s.copyTo t (.backlog s.hdg.backlog)
  let pages := (s.tier.pmes.filter fun e => s.mirrored e.1 && (s.pageHome e.1 == s.me || s.pageHome e.1 == t) && e.2.st != .unwritten).map Prod.fst
  (s.onHdg fun h => { h with twinState := 3, roles := [], resync := pages.foldl addNew h.resync }).roleReturn

/-- RESYNC_PAGE_COPY (R336): a marked page goes to the twin; after the last page of an extent its home role returns. -/
def execResyncPageCopy (page : Nat) (s : State) : Outcome :=
  .next (
    if s.hdg.twinState = 3 ∧ s.twinLive ∧ s.hdg.resync.contains page then
      let s := (s.copyTo (twinOf s.me) (s.pageBody page)).onHdg fun h => { h with resync := h.resync.filter (· != page) }
      s.roleReturn
    else s)

/-! ## Members lost and back -/

/-- A portal stops waiting for the members of its STARTs on a lost module (R287). -/
def State.fanoutLost (s : State) (m : Nat) : State :=
  s.each (s.tlr.descs.filter fun d => d.2.left.any fun q => q.2 == m) fun s d =>
    let s := s.each (d.2.left.filter fun q => q.2 == m) fun s q => (s.memberEnded d.1 ⟨q.1, 6, 0, 0, 0, 0, 0, false⟩).1
    (s.cancelEnd d.2.ld d.2.ring).post 0x0808 []

/-- The twin left: mirrored writes complete without its condition and mark their pages, answers wait no longer, DEGRADED and event 0x0205. -/
def State.twinLost (s : State) : State :=
  let ws := s.reqs.filter fun r => r.waits.contains .mirror
  let s := s.onHdg fun h => { h with twinState := 1, images := false, roles := [], resync := (ws.map Req.page).foldl addNew h.resync }
  let s := s.each ws fun s r => s.settle r.id fun w => w == .mirror
  ((s.intr 0x200028 3).post 0x0205 []).flushReplies

/-- A module left this part. In the quorum part its mirrored pages are held until its twin's replica is active (R333). -/
def State.memberLost (s : State) (m elapsedMs : Nat) : State :=
  let s := s.onHdg fun h => { h with
    absentAt := put h.absentAt m (s.now - elapsedMs * 10 ^ 6), dozing := h.dozing.filter (· != m),
    witHold := if h.wits.contains m then put h.witHold m s.now else h.witHold,
    takeover := if h.quorum && h.live.contains (twinOf m) then addNew h.takeover m else h.takeover }
  let s := s.fanoutLost m
  let s := s.each (s.spc.attaching.map fun a => a.handle) fun s h => s.attachRefused m h 4
  let s := ((s.askEnd fun e => homeOf e == m).syncedBy m fun _ => true).respreadPause m
  let s := s.each (s.spc.flipLeft.map Prod.fst) fun s e => s.flipDrained e m
  -- what its LDs are bound to and its schedules keep is told again when it is back (R101, R198)
  let s := (s.onSpc fun p => { p with bound := p.bound.filter fun b => holderMod b.2 != m }).onTier fun t =>
    { t with peerPins := (t.peerPins.map fun e => (e.1, e.2.filter fun o => o / 32 != m)).filter fun e => !e.2.isEmpty }
  let s := s.onTlr fun t => { t with startQ := t.startQ.filter (fun w => w.portal != m), fetchQ := t.fetchQ.filter fun w => w.src != m }
  -- ends that wait for its answer are over; a FETCHF that waits for it asks again (R255)
  let s := s.each (s.tlr.ctxs.filter fun e => e.2.portal == m && e.2.ended.isSome) fun s e => s.ctxGone e.1 e.2
  let s := s.onTlr fun t => { t with ctxs := t.ctxs.map fun e => (e.1, { e.2 with ops := e.2.ops.filter fun o => o.kind != 8 || o.dst != m }) }
  let s := (s.onSec fun c => { c with erasing := c.erasing.map fun e => { e with left := e.left.filter (· != m) } }).eraseCheck
  if m = twinOf s.me then s.twinLost else s

/-- A module is in this part again: requests that a takeover held are sent on, and its twin resynchronises it. -/
def State.memberBack (s : State) (m : Nat) (join : Bool) : State :=
  let s := s.onHdg fun h => { h with absentAt := del h.absentAt m, witHold := del h.witHold m, takeover := h.takeover.filter (· != m) }
  let s := if m = twinOf s.me && !join then s.resyncStart else s
  let s := s.each ((vals s.spc.leases).flatMap fun l => bindings (some l)) fun s b =>
    if (look s.spc.extents b.2).any fun x => x.kind == .shared then s.copyTo m (.bound b.2 (s.holderOf b.1) true) else s
  s.reroute fun r => s.pageHome r.page == m

/-- A publication takes effect on this member: the live set, the witnesses, the epoch; MEMB and event 0x0203; what the change of each module
means (R323, R338). A module that joins, or whose part had no quorum, takes its twin's copies before it serves its mirrored pages; one that joins has
every sheaf image before it serves (R265). -/
def State.applyPublish (s : State) (epoch : Nat) (live : List Nat) (quorum : Bool) (wits : List Nat) (witEpoch elapsedMs : Nat) : State :=
  let old := s.hdg.live
  let joined := !s.hdg.formed || !s.hdg.quorum
  let back := live.filter fun m => !old.contains m && m != s.me
  let lost := old.filter fun m => !live.contains m && m != s.me
  let join := joined && quorum && live.contains (twinOf s.me)
  let s := s.onHdg fun h => { h with epoch := epoch, live := live, quorum := quorum, wits := wits, witEpoch := witEpoch,
                                     away := h.away || (join && (!h.formed || back.contains (twinOf h.midx))),
                                     images := h.images || (join && !h.formed) }
  let s := (s.intr 0x200028 2).post 0x0203 [(4, epoch), (8, maskOf live), (1, if quorum then 1 else 0)]
  let s := s.each lost fun s m => s.memberLost m elapsedMs
  let s := s.each back fun s m => s.memberBack m join
  if back.isEmpty || old.isEmpty then s else s.post 0x0204 []

/-- Publish a live set and witness set as the coordinator, with the epoch one higher. -/
def State.publish (s : State) (live wits : List Nat) (witEpoch elapsedMs : Nat) : State :=
  let q := hasQuorum live wits
  let e := s.hdg.epoch + 1
  (s.applyPublish e live q wits witEpoch elapsedMs).emit (.memb (.publish e live q wits witEpoch elapsedMs))

/-! ## Keys and pages of an earlier state (R324, R328, R426) -/

/-- FORM_ADOPT's effect on the module adopted: every key slot of its earlier state is retired, its extents and pages are unwritten. -/
def State.forget (s : State) : State :=
  let s := s.each (keys s.sec.keys) fun s k => s.retireKey k
  let s := s.each (keys s.tier.pmes) fun s p => s.unwrite p
  let s := s.each (keys s.spc.leases) fun s h => s.setLease h none
  s.each (keys s.spc.extents) fun s e => s.setExtent e none

/-! ## Formation (Table 9-8) -/

/-- This module's entry in the neighbour tables: its own links are those that its neighbours name. -/
def State.myNode (s : State) : Nbr :=
  let mine (p : Nat) : Option (Nat × Nat) := s.hdg.nbrs.findSome? fun n =>
    (List.range 6).findSome? fun q => if (n.2.links[q]?).getD none = some (Config.serial, p) then some (n.1, q) else none
  let coord := s.far.sysCoord.bind fun c => if c.2 = s.hdg.spaceId then some c.1 else none
  { formZ := s.hdg.formZ, coord := coord, links := (List.range 6).map mine }

/-- Modules as formation sees them: serial, entry. One whose certificate chain its neighbours do not verify does not join (R432). -/
def State.nodes (s : State) : List (Nat × Nbr) :=
  (Config.serial, s.myNode) :: s.hdg.nbrs.filter fun n => n.1 != Config.serial && Config.chainOk n.1

/-- This module floods its neighbour table (Table 9-8, step 2). -/
def State.floodMine (s : State) : State :=
  let x := s.myNode
  s.emit (.memb (.neighbour (x.coord.getD 0) Config.serial x.formZ x.coord x.links))

/-- A neighbour table arrives: a new or changed one is flooded on, and this module's own follows when it changed (Table 9-8, step 2; log entry 99). -/
def State.tableCame (s : State) (b : MembBody) (serial : Nat) (x : Nbr) : State :=
  let s' := s.onHdg fun h => { h with nbrs := put h.nbrs serial x }
  if look s.hdg.nbrs serial = some x then s
  else
    let s1 := s'.emit (.memb b)
    if s.pwr.boot = some 6 ∧ s.myNode ≠ s'.myNode then s1.floodMine else s1

/-- One round of counting hops: a module without coordinates takes those that a neighbour's port gives it. -/
def State.formRound (s : State) (l : List (Nat × Nbr)) : List (Nat × Nbr) :=
  l.map fun n => if n.2.coord.isSome then n else
    match l.findSome? (fun a => a.2.coord.bind fun c => (List.range 6).findSome? fun p =>
      if ((a.2.links[p]?).getD none).any (fun t => t.1 == n.1) then some (s.neighbour c p) else none) with
    | some c => (n.1, { n.2 with coord := some c })
    | none => n

/-- Step 3: coordinates, from the recorded ones or from the module of lowest serial. -/
def State.assign (s : State) : List (Nat × Nbr) :=
  let l := s.nodes
  let first := argMin Prod.fst l
  let l := if l.any (fun n => n.2.coord.isSome) then l
    else l.map fun n => if first.any (fun f => f.1 == n.1) then (n.1, { n.2 with coord := some 0 }) else n
  (List.range l.length).foldl (fun l _ => s.formRound l) l

/-- Step 4: the first inconsistent port, if there is one: rings that do not close, or coordinates shared or out of range. -/
def State.formBad (s : State) (l : List (Nat × Nbr)) : Option Nat :=
  let at_ (ser : Nat) : Option Nat := (l.find? fun n => n.1 == ser).bind fun n => n.2.coord
  let size := 16 * s.hdg.formZ
  l.findSome? fun n =>
    match n.2.coord with
    | none => none
    | some c =>
      if c ≥ size || n.2.formZ != s.hdg.formZ || l.any (fun o => o.1 != n.1 && o.2.coord == some c) then some 0
      else (List.range 6).find? fun p => match (n.2.links[p]?).getD none with
        | none => false
        | some (ser, q) => (at_ ser).any fun d => d != s.neighbour c p || q != p ^^^ 1

/-- Steps 5 and 6: the space forms: coordinates recorded, witnesses chosen, epoch 1, event 0x0200. -/
def State.form (s : State) (l : List (Nat × Nbr)) : State :=
  let live := (List.range 64).filter fun m => l.any fun n => n.2.coord == some m
  let me := ((l.find? fun n => n.1 == Config.serial).bind fun n => n.2.coord).getD 0
  let wits := chooseWits live
  let down := l.flatMap fun n => match n.2.coord with
    | some c => ((List.range 6).filter fun p => ((n.2.links[p]?).getD none).isNone).map fun p => (c, p)
    | none => []
  let s := s.onHdg fun h => { h with
    midx := me, size := 16 * h.formZ, formed := true, live := live, wits := wits, witEpoch := 1, epoch := 1, quorum := hasQuorum live wits,
    serials := l.foldl (fun m n => match n.2.coord with | some c => put m c n.1 | none => m) [], linksDown := down }
  let s := (s.drew.onSec fun c => { c with spaceKey := some (Config.random s.draws % 2 ^ 256) }).onFar fun f =>
    { f with sysCoord := some (me, s.hdg.spaceId), sysBench := false }
  let s := (s.intr 0x200028 2).post 0x0200 ([(1, 16 * s.hdg.formZ), (1, live.length)] ++ wits.map fun w => (1, w))
  if s.isCoord then s.emit (.memb (.publish 1 live s.hdg.quorum wits 1 0)) else s

/-- Formation while boot step 6 runs: it forms, fails, or waits for 16 live modules. -/
def State.tryForm (s : State) : State :=
  if s.pwr.boot ≠ some 6 ∨ s.hdg.formed ∨ s.hdg.bench then s
  else
    let l := s.assign
    match s.formBad l with
    | some p => ((s.intr 0x200028 0).post 0x0201 [(1, p)])
    | none => if 16 ≤ (l.filter fun n => n.2.coord.isSome).length then s.form l else s

/-- FORMATION_RETRY (R321): every 1 s while fewer than 16 modules are live. -/
def execFormationRetry (s : State) : Outcome :=
  .next (if s.pwr.boot = some 6 ∧ !s.hdg.formed ∧ s.now ≥ s.hdg.formAt + 10 ^ 9 then (s.onHdg fun h => { h with formAt := s.now }).tryForm else s)

/-! ## MEMB messages -/

/-- A publication reaches a module that boots: it joins at its recorded coordinates (R320, R324). -/
def State.joinBy (s : State) (epoch : Nat) (live : List Nat) (quorum : Bool) (wits : List Nat) (witEpoch elapsedMs : Nat) : State :=
  match s.far.sysCoord with
  | some (c, sp) =>
    if s.pwr.boot = some 6 ∧ sp = s.hdg.spaceId ∧ live.contains c then
      let s := (s.onHdg fun h => { h with midx := c, size := 16 * h.formZ }).applyPublish epoch live quorum wits witEpoch elapsedMs
      (s.drew.onSec fun k => { k with spaceKey := some (Config.random s.draws % 2 ^ 256) }).onHdg fun h => { h with formed := true }
    else s
  | none => s

/-- The coordinator admits a module whose certificate chain verifies: it records the serial, takes the module's links as up and publishes the live
set with it (R324, R432). -/
def State.takeMember (s : State) (m serial : Nat) : State :=
  if Config.chainOk serial then
    let s := s.onHdg fun h => { h with serials := put h.serials m serial,
                                       linksDown := h.linksDown.filter fun l => l.1 != m && s.neighbour l.1 l.2 != m }
    s.publish (s.hdg.live ++ [m]) s.hdg.wits s.hdg.witEpoch 0
  else s

/-- The effect of a MEMB message (R321 to R324, R338). -/
def State.onMemb (s : State) (b : MembBody) : State :=
  match b with
  | .neighbour _ serial z coord links => (s.tableCame b serial { formZ := z, coord := coord, links := links }).tryForm
  | .link k p up =>
    let t := s.neighbour k p
    let l : Nat × Nat := (k, p)
    s.onHdg fun h => { h with
      linksDown := if up then h.linksDown.filter (· != l) else if h.linksDown.contains l then h.linksDown else h.linksDown ++ [l],
      absentAt := if up || (look h.absentAt t).isSome then h.absentAt else put h.absentAt t s.now }
  | .publish e live q wits we ms =>
    if !s.hdg.formed then s.joinBy e live q wits we ms
    else if e ≤ s.hdg.epoch ∨ !live.contains s.me then s
    else s.applyPublish e live q wits we ms
  | .dozing k on =>
    let s := s.onHdg fun h => { h with dozing := if on then addNew h.dozing k else h.dozing.filter (· != k) }
    if on then s else { s with reqs := s.reqs.map fun r => if waitsFor (.remote k) r then { r with t0 := s.now } else r }
  | .adopt k serial =>
    if serial = Config.serial then (s.forget).onFar fun f => { f with sysCoord := some (k, s.hdg.spaceId) }
    else
      let s := s.onHdg fun h => { h with serials := put h.serials k serial }
      if s.isCoord ∧ !s.hdg.live.contains k then s.takeMember k serial else s

/-- MSG_MEMB (R321, R323, R338). -/
def execMsgMemb (m : Msg) (b : MembBody) (s : State) : Outcome := .next (s.arrivesSys m (.memb b) fun s => s.onMemb b)

/-! ## Changes of the membership -/

/-- Does a live neighbour of a module have a port up to it, as far as is known here? -/
def State.seen (s : State) (m : Nat) : Bool :=
  (List.range 6).any fun p => s.isLive (s.neighbour m p) && s.neighbour m p != m && s.linkUp m p

/-- MEMBER_DECLARE_ABSENT (R323): the coordinator publishes the live set without a module that no live neighbour reaches. -/
def execMemberDeclareAbsent (m : Fin 64) (elapsedMs : Nat) (s : State) : Outcome :=
  .next (if s.isCoord ∧ s.hdg.live.contains m.val ∧ m.val ≠ s.me ∧ !s.seen m then
      s.publish (s.hdg.live.filter (· != m.val)) s.hdg.wits s.hdg.witEpoch elapsedMs
    else s)

/-- Block snoops of a marked page to every LD bound to a lease of its extent (R334). -/
def State.takePageBack (s : State) (page : Nat) : State :=
  let hs := s.ldsOn ((List.range 64).filter s.isLive) (extOf page)
  let s := if hs.isEmpty then s else
    s.onDir fun d => { d with trk := d.trk ++ (List.range 64).map fun j => ⟨page * 64 + j, none, hs, [], s.now, .inv, false, true⟩ }
  let s := s.each (List.range 16) fun s g => s.each hs fun s h => s.sendSnoop .inv (page * 64 + 4 * g) 4 h
  s.releaseTaken page

/-- TAKEOVER_REPLICA_ACTIVE (R333, R334, Table 9-9): held requests are sent on; at the twin, its slots of the absent home's pages close, marked
pages are snooped, and without one the takeover completes. -/
def execTakeoverReplicaActive (m : Fin 64) (s : State) : Outcome :=
  .next (
    if !s.hdg.takeover.contains m.val then s
    else
      let s := s.onHdg fun h => { h with takeover := h.takeover.filter (· != m.val) }
      if twinOf m ≠ s.me then s.reroute fun r => s.pageHome r.page == m.val
      else
        let marks := s.hdg.replica.held.filter fun p => s.pageHome p == m.val && s.mirrored p
        let s := s.onHdg fun h => { h with acting := addNew h.acting m, twinState := 2, twinMarks := marks.foldl addNew h.twinMarks }
        let s := s.onHusk fun k => { k with slots := k.slots.map fun x => if x.twin && x.ph == .opened then { x with ph := .closed, seq := 0 } else x }
        let s := s.reroute fun r => s.pageHome r.page == m.val && !s.hdg.twinMarks.contains r.page
        if marks.isEmpty then s.takeoverDone m else s.each marks fun s p => s.takePageBack p)

/-- MODULE_REJOIN (R324, R432): the coordinator admits a module whose SPACE_ID matches, whose coordinates are a hole, whose serial is the one
recorded, and whose certificate chain verifies; another serial waits for FORM_ADOPT. -/
def execModuleRejoin (m : Fin 64) (serial : Nat) (spaceId : Nat) (s : State) : Outcome :=
  .next (
    let known := (look s.hdg.serials m).all fun x => x == serial
    if s.isCoord ∧ spaceId = s.hdg.spaceId ∧ m.val < s.hdg.size ∧ !s.hdg.live.contains m.val ∧ known then s.takeMember m serial else s)

/-- WITNESS_HOLD_EXPIRE (R322; chapter 9, case 'When a witness is lost'): the coordinator of the quorum part replaces an absent witness. -/
def execWitnessHoldExpire (w : Fin 64) (s : State) : Outcome :=
  .next (
    match look s.hdg.witHold w with
    | some t =>
      if s.isCoord ∧ s.hdg.quorum ∧ s.hdg.wits.contains w.val ∧ !s.hdg.live.contains w.val ∧ s.now ≥ t + s.fld 0x200008 25 16 * 10 ^ 9 then
        let s := (s.onHdg fun h => { h with witHold := del h.witHold w }).post 0x0209 []
        s.publish s.hdg.live (chooseWits s.hdg.live) (s.hdg.witEpoch + 1) 0
      else s
    | none => s)

/-! ## Commands (Table 9-11) -/

/-- State of a position as FORM_QUERY gives it: 0 hole, 1 live, 2 unreachable, 3 foreign. -/
def State.posState (s : State) (m : Nat) : Nat :=
  if s.isLive m then (if s.canRoute m then 1 else 2)
  else if s.hdg.nbrs.any fun n => n.2.coord == some m && (look s.hdg.serials m).any fun x => x != n.1 then 3
  else 0

/-- FORM_QUERY (R339). -/
def execFormQuery (x : Mbx) (s : State) : Outcome :=
  .next (s.command x .fm false 0 fun s =>
    s.okOut x (zeros 7 ++ ((List.range 64).map fun m => BitVec.ofNat 8 (s.posState m)) ++ toLe 8 s.hdg.epoch
      ++ (List.range 3).map fun i => BitVec.ofNat 8 ((s.hdg.wits[i]?).getD 0)))

/-- FORM_ADOPT (R324): a module with another serial than its position's takes that hole, and joins when its certificate chain verifies (R432). -/
def execFormAdopt (x : Mbx) (s : State) : Outcome :=
  .next (s.command x .fm false 16 fun s =>
    let serial := mb64 x 8
    match (look s.hdg.nbrs serial).bind Nbr.coord with
    | none => s.status x 0x50
    | some m =>
      if s.posState m ≠ 3 then s.status x 0x50
      else
        let s := (s.onHdg fun h => { h with serials := put h.serials m serial }).emit (.memb (.adopt m serial))
        let s := if s.isCoord then s.takeMember m serial else s
        s.status x 0)

/-- WITNESS_FORCE (chapter 9, case 'When two witnesses are lost at once'). -/
def execWitnessForce (x : Mbx) (s : State) : Outcome :=
  .next (s.command x .fm false 7 fun s =>
    let ws := [mb8 x 4, mb8 x 5, mb8 x 6]
    let cols := ws.map fun m => m % 16
    if !(ws.all fun m => decide (m < 64) && s.isLive m) ∨ cols.eraseDups.length ≠ 3 ∨ s.hdg.bench then s.status x 0x51
    else ((s.post 0x0209 []).publish s.hdg.live ws (s.hdg.witEpoch + 1) 0).status x 0)

/-- LINK_RETRAIN (R303, R339). -/
def execLinkRetrain (x : Mbx) (s : State) : Outcome :=
  .next (s.command x .fm false 6 fun s =>
    let p := mb8 x 4
    if p > 5 ∨ mb8 x 5 > 3 then s.status x 0x52
    else
      let s := s.setHport p { s.hport p with want := mb8 x 5 }
      (if (s.hport p).off then s else s.trainPort p).status x 0)

/-- RESYNC_QUERY (R339). -/
def execResyncQuery (x : Mbx) (s : State) : Outcome :=
  .next (s.command x .fm false 0 fun s => s.okOut x (zeros 7 ++ toLe 8 s.hdg.resync.length ++ toLe 1 s.hdg.twinState))

/-- HEDGEROW_CAGE_INSERT (R524): a cable module that declares more than 4.0 W leaves its cage unpowered and its port down; another is powered
and its port trains. -/
def execHedgerowCageInsert (p : Fin 6) (mw : Nat) (s : State) : Outcome :=
  .next (
    if !s.pwr.on || !s.pwr.resetN || s.pwr.flush.isSome then s
    else if mw > 4000 then (s.setHport p { HPort.blank with off := true }).post 0x0202 [(1, p), (1, 0)]
    else (s.setHport p { s.hport p with off := false }).trainPort p)

end Sys2Proof.Machine
end

