-- ==== Sys2Proof/Machine/Security.lean ====
section
/-! DEFINITION. Security (spec/13_security.md): the security commands, key slots that empty, the entropy source, the SPDM responder, and IDE keys.
The SPDM code numbers are log entry 26. -/

namespace Sys2Proof.Machine

open Sys2Proof

/-! ## Security commands (Table 13-3) -/

/-- Extents of this module that use a slot, and its pages that name it. -/
def State.keyExtents (s : State) (k : Nat) : Nat :=
  (s.spc.extents.filter fun e => keySlotOf e.2 == k && (modulesOf e.1 e.2).contains s.me).length
def State.keyPages (s : State) (k : Nat) : Nat :=
  (s.tier.pmes.filter fun e => (hasNear e.2 || hasFar e.2) && (s.extent e.1).any fun x => keySlotOf x == k).length

/-- KEY_QUERY (R437). -/
def execKeyQuery (x : Mbx) (s : State) : Outcome :=
  .next (s.command x .fm true 6 fun s =>
    let k := mb16 x 4
    if k ≥ 512 then s.status x 9
    else s.okOut x (zeros 3 ++ toLe 4 (s.keySt k) ++ toLe 4 (s.keyExtents k) ++ toLe 4 (s.keyPages k)))

/-- ACCOUNT_ERASE (R426, chapter 13, case 'When ACCOUNT_ERASE meets requests in flight'): every lease of the account on every member is revoked;
the slots retire when every drain has ended. -/
def execAccountErase (x : Mbx) (s : State) : Outcome :=
  .next (s.command x .fm true 5 fun s => s.bgCommand x fun s =>
    let a := mb8 x 4
    let s := (s.startBg x 0xC901).copyAll s.peers (.erase a 0)
    ((s.revokeAcct a).onSec fun c => { c with erasing := c.erasing ++ [⟨a, some (mbWho x), s.me, s.peers⟩] }).eraseCheck)

/-- SPACE_KEY_ROLL (R435): a new per-space key, and a new key epoch on every link from its next marker on. -/
def execSpaceKeyRoll (x : Mbx) (s : State) : Outcome :=
  .next (s.command x .fm true 0 fun s =>
    let s := s.drew.onSec fun c => { c with spaceKey := some (Config.random s.draws % 2 ^ 256), keyEpoch := c.keyEpoch + 1 }
    let s := s.onHdg fun h => { h with ports := h.ports.map fun e => (e.1, { e.2 with newEpoch := true }) }
    (s.post 0x0C08 []).status x 0)

/-- KEY_SLOT_EMPTIED (Table 13-1): a RETIRING slot that no page of the module names. -/
def execKeySlotEmptied (slot : Fin 512) (s : State) : Outcome :=
  .next (if s.keySt slot = 2 ∧ s.keyPages slot = 0 then (s.onSec fun c => { c with keys := del c.keys slot }).post 0x0C01 [] else s)

/-- ENTROPY_HEALTH_FAIL (chapter 13, case 'When the entropy source fails its health test'). -/
def execEntropyHealthFail (s : State) : Outcome :=
  .next (((s.onSec fun c => { c with entropyOk := false }).intr 0xD00028 0).post 0x0C06 [])

/-! ## The SPDM responder (R428, R429, R432) -/

/-- Response codes and error codes of DMTF SPDM 1.2 (log entry 26). -/
def spdmError : Nat := 0x7F
def errRequest : Nat := 1
def errUnexpected : Nat := 4
def errDecrypt : Nat := 6
def errLimit : Nat := 10

/-- Answer an SPDM request with a code and bytes. -/
def State.spdmOut (s : State) (who : Issuer) (code : Nat) (d : Bytes) : State := s.emit (.spdm (whoOf who) code d)

/-- Answer with bytes that the manual does not state. -/
def State.spdmFree (s : State) (who : Issuer) (code n : Nat) : State :=
  s.drew.spdmOut who code ((List.range n).map fun i => Config.answerByte s.draws i)

/-- Answer ERROR. -/
def State.spdmErr (s : State) (who : Issuer) (e : Nat) : State := s.spdmOut who spdmError (toLe 1 e)

/-- Run a request when its issuer reaches the responder: an LD through its port, the fabric manager over MCTP. -/
def State.spdm (s : State) (who : Issuer) (f : State → State) : State :=
  if s.reaches ⟨who, none, []⟩ then f s.unidle else s

/-- Key and phase of a session of an issuer. -/
def sessKey (who : Issuer) (i : Nat) : Nat := whoOf who * 2 + i
def State.sessPhase (s : State) (who : Issuer) (i : Nat) : Nat := (look s.sec.sessions (sessKey who i)).getD 0
def State.setSess (s : State) (k p : Nat) : State :=
  s.onSec fun c => { c with sessions := if p = 0 then del c.sessions k else put c.sessions k p }

/-- A session ends: it closes, and the leases bound to it enter ORPHAN (Table 2-4, R65). -/
def State.closeSess (s : State) (who : Issuer) (i : Nat) : State :=
  let s := s.setSess (sessKey who i) 0
  match who with
  | .ld m => s.orphanLd m (fun l => l.sess == i) false
  | .fm => s

/-- GET_VERSION (R428): SPDM 1.2 only. -/
def execGetVersion (who : Issuer) (_data : Bytes) (s : State) : Outcome := .next (s.spdm who fun s => s.spdmOut who 4 (toLe 1 1 ++ toLe 2 0x1200))

/-- GET_CAPABILITIES (R428). -/
def execGetCapabilities (who : Issuer) (_data : Bytes) (s : State) : Outcome := .next (s.spdm who fun s => s.spdmFree who 0x61 16)

/-- NEGOTIATE_ALGORITHMS (R428). -/
def execNegotiateAlgorithms (who : Issuer) (_data : Bytes) (s : State) : Outcome := .next (s.spdm who fun s => s.spdmFree who 0x63 32)

/-- GET_DIGESTS (R428, R432): a SHA-384 digest of the chains in slots 0 and 1. -/
def execGetDigests (who : Issuer) (_data : Bytes) (s : State) : Outcome := .next (s.spdm who fun s => s.spdmFree who 1 96)

/-- GET_CERTIFICATE (R432): the chain of slot 0 or 1, named in the first byte; a slot that the module does not have answers ERROR. -/
def execGetCertificate (who : Issuer) (data : Bytes) (s : State) : Outcome :=
  .next (s.spdm who fun s => if byteAt data 0 ≤ 1 then s.spdmFree who 2 1024 else s.spdmErr who errRequest)

/-- CHALLENGE (R428): signed with the chain of slot 0 or 1. -/
def execChallenge (who : Issuer) (data : Bytes) (s : State) : Outcome :=
  .next (s.spdm who fun s => if byteAt data 0 ≤ 1 then s.spdmFree who 3 96 else s.spdmErr who errRequest)

/-- GET_MEASUREMENTS (Table 13-2): the second byte is 0 for the number of measurements, 1 to 5 for one of them, 0xFF for all. -/
def execGetMeasurements (who : Issuer) (data : Bytes) (s : State) : Outcome :=
  .next (s.spdm who fun s =>
    let i := byteAt data 1
    if i = 0 then s.spdmOut who 0x60 (toLe 1 5)
    else if i ≤ 5 then s.spdmFree who 0x60 48
    else if i = 255 then s.spdmFree who 0x60 240
    else s.spdmErr who errRequest)

/-- KEY_EXCHANGE (R429): opens the issuer's first free session, at most two at a time. -/
def execKeyExchange (who : Issuer) (_data : Bytes) (s : State) : Outcome :=
  .next (s.spdm who fun s =>
    match (List.range 2).find? fun i => s.sessPhase who i = 0 with
    | some i => (s.setSess (sessKey who i) 1).spdmFree who 0x64 96
    | none => s.spdmErr who errLimit)

/-- FINISH (R428): the session is established when it verifies; else authentication has failed and the session closes. -/
def execFinish (who : Issuer) (sess : Fin 2) (verified : Bool) (_data : Bytes) (s : State) : Outcome :=
  .next (s.spdm who fun s =>
    if s.sessPhase who sess ≠ 1 then s.spdmErr who errUnexpected
    else if verified then (s.setSess (sessKey who sess) 2).spdmFree who 0x65 48
    else ((((s.setSess (sessKey who sess) 0).bump cntSec 1 1).intr 0xD00028 1).post 0x0C03 []).spdmErr who errDecrypt)

/-- A request within an established session. -/
def State.inSess (s : State) (who : Issuer) (i : Nat) (f : State → State) : State :=
  s.spdm who fun s => if s.sessPhase who i = 2 then f s else s.spdmErr who errUnexpected

/-- HEARTBEAT (R429). -/
def execHeartbeat (who : Issuer) (sess : Fin 2) (s : State) : Outcome := .next (s.inSess who sess fun s => s.spdmOut who 0x68 [])

/-- KEY_UPDATE (R428): the key operation and tag are echoed. -/
def execKeyUpdate (who : Issuer) (sess : Fin 2) (data : Bytes) (s : State) : Outcome :=
  .next (s.inSess who sess fun s => s.spdmOut who 0x69 (data.take 2))

/-- END_SESSION (R429). -/
def execEndSession (who : Issuer) (sess : Fin 2) (s : State) : Outcome :=
  .next (s.inSess who sess fun s => (s.closeSess who sess).spdmOut who 0x6C [])

/-- SPDM_HEARTBEAT_TIMEOUT (R429): a missed heartbeat ends the session. -/
def execSpdmHeartbeatTimeout (who : Issuer) (sess : Fin 2) (s : State) : Outcome :=
  .next (if s.sessPhase who sess = 0 then s else s.closeSess who sess)

/-! ## IDE (R433) -/

/-- IDE_KM (R433): within a session of an LD of the port; keys are programmed, then a go starts the stream. -/
def execIdeKm (p : Fin 4) (ld : Fin 64) (sess : Fin 2) (go : Bool) (data : Bytes) (s : State) : Outcome :=
  .next (s.inSess (.ld ld) sess fun s =>
    if ld.val / 16 ≠ p.val then s.spdmErr (.ld ld) errRequest
    else if go then
      if (look s.sec.ideKeys p).isNone then s.spdmErr (.ld ld) errUnexpected
      else (s.onSec fun c => { c with ide := addNew c.ide p.val }).spdmOut (.ld ld) 0x7E []
    else (s.onSec fun c => { c with ideKeys := put c.ideKeys p data }).spdmOut (.ld ld) 0x7E [])

end Sys2Proof.Machine
end

