-- ==== Sys2Proof/Machine/HostCmd.lean ====
section
/-! DEFINITION. Host ports, LD resets, the standard mailbox commands and the management transport (spec/16_host_interface.md; spec/14_event_steering.md
R457). The layouts of the standard commands' answers are CXL 3.1's (log entry 27). -/

namespace Sys2Proof.Machine

open Sys2Proof

/-! ## Reset of an LD (R457, Table 14-3) -/

/-- Is a request one of an LD whose response leaves through its port or mailbox? -/
def ofLd (ld : Nat) (r : Req) : Bool :=
  match r.src with
  | .host d _ => d == ld
  | .uio d _ => d == ld
  | .cmd d => d == ld
  | _ => false

/-- Steps 5 and 6, once no request of the LD is outstanding: its reservations are released and level sources sampled again. -/
def State.ldDrained (s : State) (ld : Nat) : State :=
  let s := s.onHost fun h => { h with ldReset := h.ldReset.filter (· != ld) }
  let h := s.holderOf ld
  (s.onQos fun q => { q with resv := q.resv.filter fun e => e.2.holder != h }).esuResample ld

/-- An answer to an LD's mailbox. -/
def mboxTo (ld : Nat) (o : Out) : Bool :=
  match o with
  | .mbox w _ _ => w == ld
  | _ => false

/-- What a reset of an LD does to its mailbox, sessions, MSI-X and pending answers (R429, R449; chapter 16, case 'When an LD is reset during a
mailbox command'). -/
def State.ldQuiet (s : State) (ld : Nat) : State :=
  let s := s.onHdg fun h => { h with replies := h.replies.filter (fun r => !mboxTo ld r.2), syncs := h.syncs.filter fun y => !mboxTo ld y.out }
  let s := s.onSpc fun p => { p with attaching := p.attaching.filter (fun a => a.ld != ld), asks := p.asks.filter fun a => mbWho a.x != ld }
  let s := s.onHost fun h => { h with bg := match look h.bg ld with
    | some b => if b.running then put h.bg ld { b with opcode := 0 } else del h.bg ld
    | none => h.bg }
  let s := s.onSec fun c => { c with sessions := del (del c.sessions (ld * 2)) (ld * 2 + 1) }
  let s := s.onDir fun d => { d with owed := d.owed.filter fun o => o.1 != ld }
  s.onEsu fun e => { e with msixEn := e.msixEn.filter (· != ld), msixFm := e.msixFm.filter (· != ld), msixUnmask := del e.msixUnmask ld,
                            msixPend := del e.msixPend ld }

/-- A reset of an LD: steps 1 to 4 of Table 14-3, and steps 5 and 6 at once when nothing is in flight. -/
def State.resetLd (s : State) (ld : Nat) : State :=
  let s := (((s.esuResetLd ld).tlrResetLd ld).orphanLd ld (fun _ => true) true).ldQuiet ld
  let s := { s with reqs := s.reqs.map fun r => if ofLd ld r then { r with dropped := true } else r }
  if s.reqs.any (ofLd ld) then s.onHost fun h => { h with ldReset := addNew h.ldReset ld } else s.ldDrained ld

/-- FUNCTION_LEVEL_RESET (R457, R480). -/
def execFunctionLevelReset (ld : Fin 64) (s : State) : Outcome := .next (if s.hostOpen ld then s.resetLd ld else s)

/-- LD_RESET_DRAIN_END (R457): the requests of a reset LD have drained. -/
def execLdResetDrainEnd (ld : Fin 64) (s : State) : Outcome :=
  .next (if s.host.ldReset.contains ld.val && !s.reqs.any (ofLd ld) then s.ldDrained ld else s)

/-! ## Host ports (R475, R476, R480, R489, R526) -/

/-- A port before its cable is seen: down, its reset pulled low on the module (Table 18-2). -/
def PortH.blank : PortH := { st := 0, width := 0, trained := 0, cable := false, perst := true }

/-- A host port. -/
def State.portH (s : State) (p : Nat) : PortH := (look s.host.ports p).getD PortH.blank

/-- Change a host port. -/
def State.setPort (s : State) (p : Nat) (x : PortH) : State := s.onHost fun h => { h with ports := put h.ports p x }

/-- State of a port that is not up: training with its cable present and its reset released while the module is powered and out of reset. -/
def State.idleSt (s : State) (x : PortH) : Nat := if x.cable && !x.perst && s.pwr.on && s.pwr.resetN then 1 else 0

/-- The LDs of a port. -/
def ldsOf (p : Nat) : List Nat := (List.range 16).map fun l => 16 * p + l

/-- A port goes down: counted, reported with the responses that will be discarded, and every LD of it is reset (R480; chapter 16, case 'When a
port goes down with requests in flight'). Its decoders are uncommitted (Table 17-3, Port). -/
def State.portOff (s : State) (p : Nat) : State :=
  let x := s.portH p
  let s :=
    if x.st = 2 then
      let n := (s.reqs.filter fun r => (ldsOf p).any fun d => ofLd d r).length
      let s := s.setPort p { x with st := 0, width := 0, trained := 0 }
      ((s.bump cntHp 0 1).intr 0x100028 0).post 0x0101 [(1, p), (4, n)]
    else s.setPort p { x with st := 0 }
  let s := s.each (ldsOf p) fun s d => s.resetLd d
  let s := s.setReg (0x100200 + 8 * p) 0
  let s := s.onSec fun c => { c with ide := c.ide.filter (· != p), ideKeys := del c.ideKeys p }
  s.onSpc fun c => { c with windows := c.windows.filter fun w => w.1 / 128 != p, slots := c.slots.filter fun w => w.1 / 128 != p }

/-- A port that is not up starts training when it can. -/
def State.portTry (s : State) (p : Nat) : State :=
  let x := s.portH p
  if x.st = 2 then s else s.setPort p { x with st := s.idleSt x }

/-- HOST_LINK_DOWN (R480): a port that is up goes down, and trains again. -/
def execHostLinkDown (p : Fin 4) (s : State) : Outcome := .next (if s.portUp p then (s.portOff p).portTry p else s)

/-- HPN_PERST_ASSERT (R480): the port and all its LDs are reset. -/
def execHpnPerstAssert (p : Fin 4) (s : State) : Outcome :=
  .next (let s := s.setPort p { s.portH p with perst := true }
    if s.pwr.on then s.portOff p else s)

/-- HPN_PERST_RELEASE (R505): the port leaves reset and begins training. -/
def execHpnPerstRelease (p : Fin 4) (s : State) : Outcome := .next ((s.setPort p { s.portH p with perst := false }).portTry p)

/-- HOST_CABLE_PRESENT (R526): the port starts training. -/
def execHostCablePresent (p : Fin 4) (s : State) : Outcome := .next ((s.setPort p { s.portH p with cable := true }).portTry p)

/-- HOST_CABLE_REMOVED (R526): the port does not train; one that was up goes down. -/
def execHostCableRemoved (p : Fin 4) (s : State) : Outcome :=
  .next (let s := s.setPort p { s.portH p with cable := false }
    if s.portUp p then s.portOff p else s.portTry p)

/-- HOST_LINK_UP (R475, R476): training ends at 64 GT/s and x16, x8 or x4, which sets what the port can deliver; at any other width the port
stays down. -/
def execHostLinkUp (p : Fin 4) (width : Nat) (s : State) : Outcome :=
  .next (let x := s.portH p
    if x.st ≠ 1 ∨ ¬ (width = 4 ∨ width = 8 ∨ width = 16) then s
    else ((s.setPort p { x with st := 2, width := if s.pwr.state = 2 then 1 else width, trained := width }).post 0x0100 [(1, p), (1, width)]).rescaled s)

/-- L0P_WIDTH_CHANGE (R489): every L0p request is accepted; what the port can deliver follows its width. -/
def execL0pWidthChange (p : Fin 4) (width : Nat) (s : State) : Outcome :=
  .next (let x := s.portH p
    if x.st ≠ 2 ∨ x.width = width ∨ width > x.trained ∨ ¬ (width = 1 ∨ width = 2 ∨ width = 4 ∨ width = 8 ∨ width = 16) then s
    else s.hostWidth p width)

/-- GLOBAL_PERSISTENT_FLUSH (R475): acknowledged, with nothing flushed. -/
def execGlobalPersistentFlush (p : Fin 4) (phase : Fin 2) (s : State) : Outcome := .next (if s.portUp p then s.emit (.gpf p phase) else s)

/-! ## Standard commands (Table 16-3) -/

/-- Bytes of an answer that the manual does not state. -/
def State.freeOut (s : State) (x : Mbx) (n : Nat) : State := s.drew.reply x rcSuccess ((List.range n).map fun i => Config.answerByte s.draws i)

/-- IDENTIFY (R483). -/
def execIdentify (x : Mbx) (s : State) : Outcome := .next (s.stdCommand x .any 0 fun s => s.freeOut x 18)

/-- BACKGROUND_OPERATION_STATUS (R482, R483): the mailbox's running or last background command, with its output after the eight bytes. -/
def execBackgroundOperationStatus (x : Mbx) (s : State) : Outcome :=
  .next (s.stdCommand x .any 0 fun s =>
    match look s.host.bg (mbWho x) with
    | none => s.reply x rcSuccess (zeros 8)
    | some b => s.reply x rcSuccess (toLe 2 (if b.running then 1 else 200) ++ toLe 2 b.opcode ++ toLe 2 b.rc ++ zeros 2 ++ b.out))

/-- Key of a mailbox's log of a severity (Get Event Records input byte 0). -/
def logKey (x : Mbx) : Nat := mbWho x * 4 + mb8 x 0

/-- A CXL Vendor Specific Event Record around a Stook record (R488). -/
def State.evtRecord (s : State) (h : Nat) (r : SRec) : Bytes :=
  ((List.range 16).map fun i => Config.answerByte s.draws i) ++ toLe 1 128 ++ toLe 3 r.sev ++ toLe 2 h ++ zeros 2 ++ toLe 8 r.wall ++ zeros 16
    ++ r.bytes ++ zeros 16

/-- GET_EVENT_RECORDS (R488). -/
def execGetEventRecords (x : Mbx) (s : State) : Outcome :=
  .next (s.stdCommand x .any 1 fun s =>
    if mb8 x 0 > 3 then s.reply x rcInvalidInput []
    else
      let l := (look s.stk.logs (logKey x)).getD []
      let o := (look s.stk.logOvf (logKey x)).getD (0, 0, 0)
      s.drew.reply x rcSuccess (toLe 2 (if o.1 = 0 then 0 else 1) ++ toLe 2 (min o.1 65535) ++ toLe 8 o.2.1 ++ toLe 8 o.2.2 ++ toLe 2 l.length
        ++ zeros 10 ++ l.flatMap fun e => s.evtRecord e.1 e.2))

/-- CLEAR_EVENT_RECORDS (R488): all records of a log, or those whose handles are named. -/
def execClearEventRecords (x : Mbx) (s : State) : Outcome :=
  .next (s.stdCommand x .any 6 fun s =>
    let k := logKey x
    let l := (look s.stk.logs k).getD []
    let n := mb8 x 2
    let hs := (List.range n).map fun i => mb16 x (6 + 2 * i)
    if mb8 x 0 > 3 ∨ (mb8 x 1 % 2 = 0 ∧ x.data.length < 6 + 2 * n) then s.reply x rcInvalidInput []
    else if mb8 x 1 % 2 = 1 then (s.onStk fun t => { t with logs := del t.logs k, logOvf := del t.logOvf k }).reply x rcSuccess []
    else if hs.any fun h => !(l.any fun e => e.1 == h) then s.reply x rcInvalidHandle []
    else (s.onStk fun t => { t with logs := put t.logs k (l.filter fun e => !hs.contains e.1), logOvf := del t.logOvf k }).reply x rcSuccess [])

/-- GET_TIMESTAMP (R483): the wall clock. -/
def execGetTimestamp (x : Mbx) (s : State) : Outcome := .next (s.stdCommand x .any 0 fun s => s.reply x rcSuccess (toLe 8 s.wall))

/-- Set the wall clock (R466, R517): event 0x0E03 bears the new value and holds the old and the new. -/
def State.setWall (s : State) (v : Nat) : State :=
  let old := s.wall
  (s.onHost fun h => { h with wallOff := (v : Int) - (s.now : Int), wallSet := true }).post 0x0E03 [(8, old), (8, v)]

/-- SET_TIMESTAMP (R483, R517): from the FM-owned LD only. -/
def execSetTimestamp (x : Mbx) (s : State) : Outcome := .next (s.stdCommand x .fm 8 fun s => (s.setWall (mb64 x 0)).reply x rcSuccess [])

/-- Opcodes that a mailbox supports (Table 16-3 and the command tables), for the Command Effects Log. -/
def stdOpcodes : List Nat :=
  [0x0001, 0x0002, 0x0100, 0x0101, 0x0200, 0x0201, 0x0202, 0x0300, 0x0301, 0x0400, 0x0401, 0x4000, 0x4200, 0x4300, 0x4301, 0x4302]
def vendorOpcodes : List Nat :=
  [0xC000, 0xC001, 0xC002, 0xC003, 0xC004, 0xC005, 0xC008, 0xC009, 0xC00A, 0xC00B, 0xC100, 0xC101, 0xC102, 0xC200, 0xC201, 0xC202, 0xC203, 0xC204,
   0xC205, 0xC206, 0xC208, 0xC209, 0xC300, 0xC301, 0xC302, 0xC303, 0xC304, 0xC305, 0xC306, 0xC400, 0xC401, 0xC500, 0xC501, 0xC502, 0xC503] ++
  [0xC600, 0xC601, 0xC602, 0xC603, 0xC604, 0xC700, 0xC701, 0xC702, 0xC800, 0xC801, 0xC802, 0xC803, 0xC804, 0xC805, 0xC900, 0xC901, 0xC902, 0xCA00,
   0xCA01, 0xCA02, 0xCB00, 0xCB01, 0xCB02, 0xCB03, 0xCB04, 0xCB05, 0xCB06]

/-- UUID of the Command Effects Log (CXL; log entry 27). -/
def celUuid : Bytes := [0x0D, 0xA9, 0xC0, 0xB5, 0xBF, 0x41, 0x4B, 0x78, 0x8F, 0x79, 0x96, 0xB1, 0x62, 0x3B, 0x3F, 0x17]

/-- The Command Effects Log: each opcode with its effects, which the manual does not state. -/
def State.celBytes (s : State) : Bytes :=
  (stdOpcodes ++ vendorOpcodes).flatMap fun op => toLe 2 op ++ [Config.answerByte s.draws (2 * op), Config.answerByte s.draws (2 * op + 1)]

/-- GET_SUPPORTED_LOGS (R483): the Command Effects Log only. -/
def execGetSupportedLogs (x : Mbx) (s : State) : Outcome :=
  .next (s.stdCommand x .any 0 fun s => s.reply x rcSuccess (toLe 2 1 ++ zeros 6 ++ celUuid ++ toLe 4 (4 * (stdOpcodes ++ vendorOpcodes).length)))

/-- GET_LOG (R483). -/
def execGetLog (x : Mbx) (s : State) : Outcome :=
  .next (s.stdCommand x .any 24 fun s =>
    let d := s.celBytes
    if x.data.take 16 ≠ celUuid ∨ mb32 x 16 + mb32 x 20 > d.length then s.reply x rcInvalidInput []
    else s.drew.reply x rcSuccess ((d.drop (mb32 x 16)).take (mb32 x 20)))

/-- IDENTIFY_MEMORY_DEVICE (R479): total and volatile capacity of 512 TiB, in multiples of 256 MiB, no persistent capacity; logs of 256 records. -/
def execIdentifyMemoryDevice (x : Mbx) (s : State) : Outcome :=
  .next (s.stdCommand x .any 0 fun s =>
    let f (i n : Nat) : Bytes := (List.range n).map fun j => Config.answerByte s.draws (i + j)
    s.drew.reply x rcSuccess (f 0 16 ++ toLe 8 (2 ^ 21) ++ toLe 8 (2 ^ 21) ++ toLe 8 0 ++ f 40 8 ++ toLe 2 256 ++ toLe 2 256 ++ toLe 2 256
      ++ toLe 2 256 ++ f 56 11))

/-- GET_HEALTH_INFO (R483). -/
def execGetHealthInfo (x : Mbx) (s : State) : Outcome := .next (s.stdCommand x .any 0 fun s => s.freeOut x 18)

/-- GET_FW_INFO (R483). -/
def execGetFwInfo (x : Mbx) (s : State) : Outcome := .next (s.stdCommand x .any 0 fun s => s.freeOut x 80)

/-- MAILBOX_UNSUPPORTED (R483, R484): an opcode that no table assigns. -/
def execMailboxUnsupported (x : Mbx) (opcode : Fin 65536) (s : State) : Outcome :=
  .next (if (stdOpcodes ++ vendorOpcodes).contains opcode.val then s
    else if s.reaches x then ((s.unidle).bump cntHp 2 1).reply x rcUnsupported [] else s)

/-! ## Poison commands (R486, R487) -/

/-- Window and space address of a device physical address of an LD (R479), when a slot maps it. -/
def State.dpaAt (s : State) (ld dpa : Nat) : Option (Nat × Nat) :=
  (s.slotExt ld (dpa / 2 ^ 46) (dpa % 2 ^ 46)).map fun e => (e, e * 2 ^ 30 + dpa % 2 ^ 30)

/-- CXL source of a poison record (Table 16-5). -/
def poisonSource (p : Poison) : Nat :=
  if p.injected then 3
  else if p.synd = 1 ∨ p.synd = 6 ∨ p.synd = 8 ∨ p.synd = 9 then 2
  else if p.synd = 2 ∨ p.synd = 7 then 1
  else if p.synd = 0x0B then 7 else 0

/-- Records of the entries of this module's list that an LD's windows map: DPA, lines, source. -/
def State.poisonRecs (s : State) (ld : Nat) : List (Nat × Nat × Nat) :=
  (List.range 8).flatMap fun w => ((look s.spc.slots (ld * 8 + w)).getD []).flatMap fun m =>
    (s.integ.plist.filter fun p => extOf (poisonPage p) == m.2).map fun p =>
      let off := if p.page then pageIdx p.addr * 4096 else p.addr * 64 % 2 ^ 30
      (w * 2 ^ 46 + m.1 * 2 ^ 30 + off, if p.page then 64 else 1, poisonSource p)

/-- Does an LD's window map an extent with pages homed elsewhere? -/
def State.mapsRemote (s : State) (ld : Nat) : Bool :=
  (List.range 8).any fun w => ((look s.spc.slots (ld * 8 + w)).getD []).any fun m => match look s.spc.extents m.2 with
    | some x => !(if x.spread.isEmpty then [homeOf m.2] else x.spread).all fun h => h == s.me
    | none => false

/-- GET_POISON_LIST (R486). What the lists of other page homes add is left open (log entry 15). -/
def execGetPoisonList (x : Mbx) (s : State) : Outcome :=
  .next (s.stdCommand x .any 16 fun s =>
    let here := (s.poisonRecs (mbWho x)).filter fun r => decide (mb64 x 0 < r.1 + 64 * r.2.1 ∧ r.1 < mb64 x 0 + 64 * mb64 x 8)
    let far := if s.mapsRemote (mbWho x) then Config.peerAnswer s.draws % 65536 else 0
    let full := decide (plistCap ≤ s.integ.plist.length) || (s.mapsRemote (mbWho x) && Config.peerAdmits s.draws)
    s.drew.reply x rcSuccess (toLe 2 (if full then 2 else 0) ++ zeros 8 ++ toLe 2 (here.length + far) ++ zeros 20
      ++ (here.flatMap fun r => toLe 8 (r.1 + r.2.2) ++ toLe 4 r.2.1 ++ zeros 4)
      ++ (List.range (16 * far)).map fun i => Config.answerByte s.draws i))

/-- The line that a poison command names: of an extent that the LD leases with the write right. -/
def State.poisonTarget (s : State) (ld dpa : Nat) : Option Nat :=
  match s.dpaAt ld dpa with
  | none => none
  | some (e, sa) =>
    if s.granted ld (dpa / 2 ^ 46) e 1 then some sa else none

/-- INJECT_POISON (R487): at the line's page home. -/
def execInjectPoison (x : Mbx) (s : State) : Outcome :=
  .next (s.stdCommand x .any 8 fun s =>
    match s.poisonTarget (mbWho x) (mb64 x 0) with
    | none => s.reply x rcInvalidAddr []
    | some sa =>
      let s := if s.homes (saPage sa) then (s.poisonWritten (saLine sa) 1).poisonLine (saLine sa) 1 true
        else s.copyTo (s.pageHome (saPage sa)) (.poison (saLine sa))
      s.reply x rcSuccess [])

/-- CLEAR_POISON (R487): a full-line write of the LD, answered when it completes. -/
def execClearPoison (x : Mbx) (s : State) : Outcome :=
  .next (s.stdCommand x .any 72 fun s =>
    match s.poisonTarget (mbWho x) (mb64 x 0) with
    | none => s.reply x rcInvalidAddr []
    | some sa => s.accept (.cmd (mbWho x)) .wr (sa / 64 * 64) 0 (s.holderOf (mbWho x)) .invalid fullMask ((x.data.drop 8).take 64))

/-! ## Sideband and MCTP (R490, R491) -/

/-- SET_ENDPOINT_ID (R490): an EID from 8 to 254 is taken; another is refused as invalid data. -/
def execSetEndpointId (eid : Byte) (s : State) : Outcome :=
  .next (if !s.sideband then s
    else if 8 ≤ eid.toNat ∧ eid.toNat ≤ 254 then (s.onHost fun h => { h with eid := eid.toNat }).emit (.mctp 0 [0, eid, 0])
    else s.emit (.mctp 2 []))

/-- MCTP_PACKET (R490, R491): on binding 0 SMBus, 1 I3C or 2 PCIe, the last on port 0 only while VDM_EN is 1. -/
def execMctpPacket (binding : Fin 3) (_data : Bytes) (s : State) : Outcome :=
  .next (
    if !s.sideband || (binding.val == 2 && !((s.reg 0x100008).testBit 8 && s.portUp 0)) then s
    else if s.host.mctp < 8 then s.onHost fun h => { h with mctp := h.mctp + 1 }
    else ((s.bump cntHp 3 1).intr 0x100028 3).post 0x0104 [])

/-- Answer an FM API query: a return code and bytes; without a session of the fabric manager it is not accepted. -/
def State.fmApi (s : State) (d : Bytes) : State :=
  if !s.sideband then s else if s.fmSession then s.drew.emit (.mctp rcSuccess d) else s.emit (.mctp rcUnsupported [])

/-- GET_LD_INFO (R490): memory size, number of LDs, telemetry capability. -/
def execGetLdInfo (_data : Bytes) (s : State) : Outcome :=
  .next (s.fmApi ((List.range 8).map (fun i => Config.answerByte s.draws i) ++ toLe 2 64 ++ [Config.answerByte s.draws 8]))

/-- GET_LD_ALLOCATIONS (R490). -/
def execGetLdAllocations (_data : Bytes) (s : State) : Outcome :=
  .next (s.fmApi ((List.range (4 + 16 * 64)).map fun i => Config.answerByte s.draws i))

/-- GET_QOS_STATUS (R490). -/
def execGetQosStatus (_data : Bytes) (s : State) : Outcome := .next (s.fmApi [Config.answerByte s.draws 0])

end Sys2Proof.Machine
end

