-- ==== Sys2Proof/Machine/RegWrite.lean ====
section
/-! DEFINITION. Writes of registers that have no command of their own (spec/00_scope.md R15, Table 0-4; spec/19_register_index.md R534, R536), with
the ranges and cross rules of their chapters. -/

namespace Sys2Proof.Machine

open Sys2Proof

/-! ## Fields (Table 0-4) -/

/-- A field after a write of v: its access code decides, and a value out of its range leaves it as it was. -/
def fieldWrite (locked : Bool) (v old : Nat) (f : RegField) : Nat :=
  let x := bits v f.hi f.lo
  let o := bits old f.hi f.lo
  let plain := if f.min ≤ x ∧ x ≤ f.max then Sys2Proof.Machine.setBits old f.hi f.lo x else old
  match f.acc with
  | .rw => plain
  | .rws => plain
  | .rwl => if locked then old else plain
  | .w1c => Sys2Proof.Machine.setBits old f.hi f.lo ((o ||| x) ^^^ x)
  | .w1s => Sys2Proof.Machine.setBits old f.hi f.lo (o ||| x)
  | .ro => old
  | .wo => old

/-- The fields of a register as this SKU has them: the ranges of PWR_CFG (R502, R503), and one rank of delays on QS-STV84-A. -/
def State.fieldsOf (s : State) (d : RegDesc) : List RegField :=
  if d.base = 0x1000008 then
    [⟨63, 63, .w1s, 0, 1⟩, ⟨53, 44, .rwl, 150, if s.isB then 420 else 360⟩, ⟨43, 32, .rwl, 1250, 1600⟩, ⟨13, 0, .rwl, 10, 10000⟩]
  else if d.base = 0xB00008 ∧ ¬ s.isB then d.fields.filter fun f => decide (f.hi < 32)
  else d.fields

/-- The value that a write leaves in a register, before the rules that span its fields. -/
def State.written (s : State) (bank off : Nat) (d : RegDesc) (v : Nat) : Nat :=
  (s.fieldsOf d).foldl (fun o f => fieldWrite ((s.reg d.lock).testBit 63) v o f) (s.regB bank off)

/-- Does a rule over several fields, or over other state, refuse the new value of a register (TIER_WMARK, FAR_CFG, DRC_DLY, TLR_RQ_BASE,
TLR_CQ_BASE)? -/
def State.regRefuses (s : State) (bank off new : Nat) : Bool :=
  if off = 0x600010 then decide (bits new 9 0 ≥ bits new 25 16) || decide (bits new 25 16 > 256)
  else if off = 0x700008 then !(decide (bits new 7 0 < bits new 15 8) && decide (bits new 15 8 < bits new 23 16))
  else if 0xB00000 ≤ off ∧ off < 0xB60000 ∧ off % 0x1000 = 8 then (s.chan ((off - 0xB00000) / 0x1000)).st == 0
  else if 0x990000 ≤ off ∧ off < 0x990400 ∧ (off % 0x100 = 0 ∨ off % 0x100 = 0x20) then (s.regB bank (off + 8)).testBit 63
  else false

/-- What must be brought up to now before a rate changes: the governor's level, the buckets of a block. -/
def State.regBefore (s : State) (off : Nat) : State :=
  if off = 0x700010 then s.onFar fun f => { f with gov := s.govLevel, govAt := s.now }
  else if 0xF00100 ≤ off ∧ off < 0xF00188 then
    s.onStk fun k => { k with buckets := k.buckets.map fun e => if e.1 / 256 = (off - 0xF00100) / 8 then (e.1, s.bucketNow e.1) else e }
  else s

/-! ## Registers that stand for other state -/

/-- A new budget or reserve of the account of SPC_ACCT_SEL: ignored when G + Z would exceed B. -/
def State.acctWrite (s : State) (x : Account) : State :=
  let a := s.fld 0x300040 7 0
  if s.granted_ a + x.z > x.b then s else s.branWatch a fun s => s.setAcct a x

/-- A new floor of the account of TIER_ACCT_SEL: ignored when the floors would sum to more than three quarters of the pool, and when it would lie below
what the account pins, which never exceeds its floor (R184; that the write is ignored is log entry 98). -/
def State.floorWrite (s : State) (v : Nat) : State :=
  let a := s.fld 0x600040 7 0
  if 4 * (sumOf (s.spc.accts.filter fun e => e.1 != a) (fun e => e.2.floor) + v) > 3 * s.nearPool ∨ v < s.pinnedOf a then s
  else s.setAcct a { s.acct a with floor := v }

/-- Late layers of the schedule that a view selects; an LD reaches its own schedules only. -/
def State.lateWrite (s : State) (ld : Option Nat) (v : Nat) : State :=
  let i := bits (s.regB (ld.elim 0 (1 + ·)) 0x600100) 4 0
  match look s.tier.scheds i with
  | some c => if ld.all fun d => c.ld == d then s.onTier fun t => { t with scheds := put t.scheds i { c with late := v } } else s
  | none => s

/-- A write of a register of a bank: the registers that show other state, then those held. -/
def State.regWrite (s : State) (ld : Option Nat) (off v : Nat) : State :=
  let bank := ld.elim 0 (1 + ·)
  if off = 0x300048 then
    let a := s.acct (s.fld 0x300040 7 0)
    s.acctWrite { a with b := bits v 39 0, lossless := v.testBit 63 }
  else if off = 0x300050 then
    let a := s.acct (s.fld 0x300040 7 0)
    s.acctWrite { a with z := bits v 39 0 }
  else if off = 0x600048 then s.floorWrite (bits v 39 0)
  else if off = 0x600058 then
    let a := s.fld 0x600040 7 0
    s.setAcct a { s.acct a with moved := bits v 47 0 }
  else if off = 0x600110 then s.lateWrite ld (bits v 31 0)
  else if off = 0xA00058 then
    s.modLat (s.fld 0xA00048 15 0) (s.fld 0xA00048 18 16) fun x => { x with lateSum := bits v 31 0 }
  else
    match regAt off with
    | none => s
    | some d =>
      let new := s.written bank off d v
      if s.regRefuses bank off new then s
      else
        let s := (s.regBefore off).setRegB bank off new
        if off = 0x600010 then s.checkMark else s

/-! ## Views (R536) -/

/-- Registers whose writes are commands of their own: SPC_HB, TLR_RQ_CFG and TAIL, TLR_CQ_CFG and HEAD, TLR_SIG_POP, TLR_DIS, HSK_LANE_DIS,
DRC_RETRAIN, INT_ERRQ_POP, the captures, ESU_SRC, ESU_CLAIM, ESU_COMPLETE, ESU_THRESH, STK_CTL. -/
def ownCommand (off : Nat) : Bool :=
  decide (0x310000 ≤ off ∧ off < 0x318000) || off == 0x500020 || captureReg off
    || (decide (0x800000 ≤ off ∧ off < 0x980000) && off % 0x4000 == 0x18)
    || off == 0x980018 || off == 0x980020
    || (decide (0x990000 ≤ off ∧ off < 0x990400) && (off % 0x100 == 8 || off % 0x100 == 0x10 || off % 0x100 == 0x28 || off % 0x100 == 0x30))
    || off == 0xB80020 || off == 0xC00060 || decide (0xE02000 ≤ off ∧ off < 0xE04000) || decide (0xE10000 ≤ off ∧ off < 0xE14400) || off == 0xF00010

/-- Registers that an LD's view lets it write, but for those with commands of their own: TIER_STRM_SEL, TIER_STRM_LATE, TLR_RQ_BASE and
TLR_CQ_BASE. -/
def ldWrites (off : Nat) : Bool :=
  off == 0x600100 || off == 0x600110 || (decide (0x990000 ≤ off ∧ off < 0x990400) && (off % 0x100 == 0 || off % 0x100 == 0x20))

/-- REGISTER_WRITE (R15): through a view that is open and holds the register. -/
def execRegisterWrite (view : View) (off : Nat) (v : Word) (s : State) : Outcome :=
  .next (
    if !s.viewOpen view || ownCommand off then s
    else match view with
    | .ld m => if ldWrites off then s.regWrite (some m.val) off v.toNat else s
    | _ => s.regWrite none off v.toNat)

end Sys2Proof.Machine
end

