-- ==== Sys2Proof/Machine/Boot.lean ====
section
/-! DEFINITION. Resets and boot (spec/17_power_reset_boot.md R505 to R517, Table 17-3, Table 17-4; spec/06_far_tier.md R222;
spec/05_tiering_streaming.md R173). -/

namespace Sys2Proof.Machine

open Sys2Proof

/-! ## What a cold or module reset keeps (Table 17-3) -/

/-- Near-only pages that a reset loses (R173). -/
def State.nearOnly (s : State) : Nat :=
  (s.tier.pmes.filter fun e => e.2.cls != 12 && (e.2.st == .near || e.2.st == .demoting || e.2.st == .retired)).length

/-- A journal record that names a far husk whose program was not finished: its durable write was not complete, and recovery passes over it, so that
the page keeps the far husk it had (R40, R212; log entry 92). -/
def tornRec (l : List RowItem) (r : JRec) : Bool :=
  match r.kind with
  | .pme _ p => hasFar p && l.any fun i => i.far == p.far
  | _ => false

/-- The module with everything at its reset value but what is not volatile: flash with its parity, the programmed part of the journal and the
checkpoint, the dies, the system area, the archive and the last-gasp bank, the seed flash, and the pins. No boot step runs. -/
def State.wipe (s : State) : State :=
  let f := s.far
  { State.reset with
    sku := s.sku, draws := s.draws, nextId := s.nextId, out := s.out, pending := s.pending, now := s.now,
    far := { Far.reset with
      flash := f.flash, parity := f.parity, dies := f.dies.map fun d => (d.1, { d.2 with read := none, susp := none }),
      jrnl := f.jrnl.filter fun r => decide (r.seq ≤ f.jrnlDone) && !tornRec (f.row ++ f.relocRow) r, jrnlNext := f.jrnlDone + 1, jrnlPad := f.jrnlDone,
      jrnlDone := f.jrnlDone, jrnlSafe := f.jrnlSafe, ckpt := f.ckpt, bytesDone := f.bytesDone, sysCoord := f.sysCoord, sysBench := f.sysBench },
    stk := { Stk.reset with archive := s.stk.archive, gasp := s.stk.gasp, gaspOn := s.stk.gaspOn },
    hdg := { Hdg.reset with ports := s.hdg.ports.map fun e => (e.1, { HPort.blank with off := e.2.off }) },
    host := { HostB.reset with ports := s.host.ports.map fun e => (e.1, { e.2 with st := 0, width := 0, trained := 0 }) },
    pwr := { Pwr.reset with
      boot := none, on := s.pwr.on, pwrgd := s.pwr.pwrgd, resetN := s.pwr.resetN, inputOk := s.pwr.inputOk, banks := s.pwr.banks, last := s.pwr.last,
      alert := !s.stk.gasp.isEmpty, lostNear := s.pwr.lostNear + s.nearOnly } }

/-- The highest MONO in the archive and the last-gasp bank (R516). -/
def State.highMono (s : State) : Nat := (s.stk.archive ++ s.stk.gasp).foldl (fun a r => max a r.mono) 0

/-- Boot from step 1 after a reset of a kind: the time resumes 2⁴⁰ ns above what the records bear, the governor's bucket is full, and host ports
whose cable is present train. -/
def State.startBoot (s : State) (kind : Nat) : State :=
  let s := s.wipe
  let s := { s with now := s.highMono + 2 ^ 40 }
  let s := s.onPwr fun p => { p with on := true, boot := some 1, last := kind, lastActive := s.now }
  let s := s.onFar fun f => { f with gov := s.govDepth, govAt := s.now }
  s.each (List.range 4) fun s p => s.portTry p

/-- A reset of a kind: boot starts, or while MOD_RESET_N is low the module stays in reset and is a hole (R527). -/
def State.resetKind (s : State) (kind : Nat) : State :=
  if s.pwr.resetN then s.startBoot kind else (s.wipe).onPwr fun p => { p with on := true, last := kind }

/-- The module does not boot further: it is not fit, and MOD_ALERT_N is low (R511). -/
def State.notFit (s : State) : State := s.onPwr fun p => { p with boot := none, fit := false, alert := true }

/-! ## Steps 1 and 2: banks and the seed image (R436, R512 to R514) -/

/-- Does a bank pass its verification? -/
def bankOk (b : Bank) : Bool := b.valid && Config.imageOk b.body

/-- The banks of a kind that boot may use, by number: those written that pass; each other is refused (R436). -/
def State.goodBanks (s : State) (a b : Nat) : State × List (Nat × Bank) :=
  let l := s.pwr.banks.filter fun e => e.1 == a || e.1 == b
  let s := s.each (l.filter fun e => !bankOk e.2) fun s _ => (s.intr 0xD00028 3).post 0x0C05 []
  (s, l.filter fun e => bankOk e.2)

/-- The bank of higher sequence (R513). -/
def newest (l : List (Nat × Bank)) : Option (Nat × Bank) := argMin (fun e => 2 ^ 64 - e.2.seq) l

/-- The records of a seed body: tag and value (R514). -/
def seedRecs : Nat → Bytes → List (Nat × Bytes)
  | 0, _ => []
  | n + 1, d => if d.length < 4 then [] else (leAt d 0 2, (d.drop 4).take (leAt d 2 2)) :: seedRecs n (d.drop (4 + leAt d 2 2))

/-- The body of a bank's image, after its header. -/
def bankBody (b : Bank) : Bytes := (b.body.drop 64).take (leAt b.body 16 4)

/-- Has a register a LOCK bit? -/
def hasLock (off : Nat) : Bool := (regAt off).any fun d => d.fields.any fun f => f.acc == .w1s && f.hi == 63

/-- The bits of a register that are sticky over a warm reset (RWS, R15). -/
def stickyBits (off : Nat) : Nat :=
  (regAt off).elim 0 fun d => sumOf (d.fields.filter fun f => f.acc == .rws) fun f => 2 ^ (f.hi + 1) - 2 ^ f.lo

/-- A register write of the seed image, without its LOCK bit, or its LOCK bit alone. In a warm reset the sticky bits stay as they were kept (R505). -/
def State.seedReg (s : State) (lock : Bool) (v : Bytes) : State :=
  let off := leAt v 0 4
  let x := leAt v 4 8
  let m := leAt v 12 8 &&& (2 ^ 64 - 1 - (if s.pwr.last = 2 then stickyBits off else 0))
  if lock then (if hasLock off && x.testBit 63 && m.testBit 63 then s.setReg off (s.reg off ||| 2 ^ 63) else s)
  else
    let new := (s.reg off &&& (2 ^ 64 - 1 - m)) ||| (x &&& m)
    s.regWrite none off (if hasLock off then new % 2 ^ 63 else new)

/-- One record of a seed image, but for LOCK bits. SPACE_ID and FORM_Z take effect at a cold or module reset (R328). -/
def State.seedRec (s : State) (r : Nat × Bytes) : State :=
  if r.1 = 1 then s.seedReg false r.2
  else if r.1 = 2 then (if s.pwr.last = 2 then s else s.onHdg fun h => { h with spaceId := leAt r.2 0 8 })
  else if r.1 = 3 then
    (if s.pwr.last = 2 || decide (byteAt r.2 0 > 4) then s else s.onHdg fun h => { h with formZ := byteAt r.2 0, bench := byteAt r.2 0 == 0 })
  else if r.1 = 4 then s
  else s.bump cntPwr 3 1

/-- Apply a list of seed records: LOCK bits after all others. -/
def State.applySeed (s : State) (l : List (Nat × Bytes)) : State :=
  s.each l fun s r => s.seedRec r

/-- LOCK bits of a list of seed records. -/
def State.lockSeed (s : State) (l : List (Nat × Bytes)) : State := s.each l fun s r => if r.1 = 1 then s.seedReg true r.2 else s

/-- Step 1: the firmware bank in use. In a warm reset it is the one activated. -/
def State.bootFw (s : State) : State :=
  let (s, l) := s.goodBanks 0 1
  s.onPwr fun p => { p with fwNew := false, fwBank := match newest l with
    | some e => e.1
    | none => 2 }

/-- Step 2: the seed image: the newest seed bank that passes over the factory seed; a bank refused on the way is reported (R519). -/
def State.bootSeed (s : State) : State :=
  let all := newest (s.pwr.banks.filter fun e => e.1 == 2 || e.1 == 3)
  let (s, l) := s.goodBanks 2 3
  let use_ := newest l
  let s := if all.any fun e => !(use_.any fun u => u.1 == e.1) then (s.intr 0x1000028 2).post 0x0F04 [] else s
  let s := s.onPwr fun p => { p with seedBank := use_.elim 0 fun e => e.1 - 1 }
  let recs := seedRecs Config.factorySeed.length Config.factorySeed ++ use_.elim [] fun e => seedRecs (bankBody e.2).length (bankBody e.2)
  let s := s.applySeed recs
  let s := if s.pwr.last = 2 then s else s.onHdg fun h => { h with bench := h.formZ == 0 }
  s.lockSeed recs

/-! ## Step 3: DRAM (R382 to R385) -/

/-- The metadata that recovery finds: the checkpoint with the journal's records up to the first whose CRC fails (R222). -/
def State.recovered (s : State) : MetaSnap := (s.far.jrnl.takeWhile JRec.crc).foldl (fun m r => snapApply m r.kind) s.far.ckpt

/-- Is a channel left untrained (R384)? -/
def State.drcDis (s : State) (n : Nat) : Bool :=
  (if n < 64 then (s.reg 0xB80010).testBit n else (s.reg 0xB80018).testBit (n - 64))
    || (s.recovered.chaff.any fun c => c.kind == 4 && c.chan == n)

/-- A channel's start-up training: with `all` every channel finds a working setting, else which do is left open. -/
def State.bootChan (s : State) (n : Nat) (all : Bool) : State :=
  if s.drcDis n then s.setChan n fun _ => { Chan.blank with st := 2 }
  else if all || Config.channelTrains n s.draws then
    let v (i : Nat) : Nat := Config.value (s.draws + 8 * n + i)
    s.trained n (BitVec.ofNat 64 (v 0)) (13 + v 1 % 243) (13 + v 2 % 243) (v 3 % 256)
  else (s.setChan n fun _ => { Chan.blank with st := 3 }).post 0x0A01 [(1, n), (1, Config.pick (s.draws + n) % (2 * s.ranks))]

/-- Exclude the near-tier media that a chaff list names (R180, R410). -/
def State.excludeChaff (s : State) (l : List Chaff) : State :=
  s.each l fun s c =>
    if 1 ≤ c.kind ∧ c.kind ≤ 3 then s.excludeUnit c else if c.kind = 4 then s.onNear fun r => { r with retired := r.retired ++ [c] } else s

/-- The near tier's layout: stripe regions, each channel's share of the pool — at most its chunks less the training rows and parity — and the media
out of allocation (R3, R180, R401, R507). -/
def State.layPool (s : State) (l : List Chaff) : State :=
  let regions := s.chanChunks / 229376
  let stripes := (List.range 8).flatMap fun g => ((List.range regions).filter fun k => Config.stripeRegion g k).map fun k => (g, k)
  let parity (n : Nat) : Nat := (stripes.filter fun x => x.1 == stripeGroup n && memberChan x.1 (x.2 % 12) == n).length * 229376
  let s := s.onNear fun r => { r with
    pool := (List.range 96).map fun n =>
      (n, min (Config.poolChunks s.isB n) (s.chanChunks - max (Config.poolFirst n) (14 * 16 * s.ranks) - parity n)),
    first := (List.range 96).map fun n => (n, Config.poolFirst n), stripes := stripes, retired := [] }
  s.excludeChaff l

/-- Step 3: every channel trains; husk space and stripe regions are set up; more than four unusable channels make the module not fit. -/
def State.bootDram (s : State) (all : Bool) : State :=
  let s := s.each (List.range 96) fun s n => s.bootChan n all
  let live := ((List.range 96).filter s.chanUp).length
  let s := ((s.drew).post 0x0A00 [(1, live)]).layPool s.recovered.chaff
  if 96 - live > 4 then (s.post 0x0A08 []).notFit else s

/-! ## Steps 4 and 5: recovery (R173, R219, R222, R425) -/

/-- One wrapped slot at boot: unwrapped, or lost and filled with a fresh key (chapter 13, case 'When a wrapped slot cannot be recovered at
boot'). -/
def State.bootKey (s : State) (all : Bool) (e : Nat × Nat) : State :=
  if all || Config.unwrapOk e.1 s.draws then s.onSec fun c => { c with keys := put c.keys e.1 ⟨1, e.2⟩, wrapped := put c.wrapped e.1 e.2 }
  else
    let mat := Config.random s.draws % 2 ^ 512
    let s := s.drew.onSec fun c => { c with keys := put c.keys e.1 ⟨1, mat⟩, wrapped := put c.wrapped e.1 mat, lostKeys := c.lostKeys ++ [e.1] }
    (s.intr 0xD00028 4).toMeta (.key e.1 (some mat)) false

/-- The block map of recovery (R207, R222): OPEN bands are closed, the journal and system bands set apart, and the bands of dies that are being rebuilt
queued again (R213). -/
def State.takeBands (s : State) (m : MetaSnap) : State :=
  let s := s.onFar fun f => { f with
    bands := m.bands.map fun e => (e.1, { e.2 with st := if e.2.st = 1 then 2 else e.2.st, valid := 0, freedBy := 0 }),
    reserved := (List.range s.bandCount).filter Config.reservedBand }
  s.onFar fun f => { f with queue := (s.closedBands).filter fun b => (List.range 24).any fun c => (s.die (dieIdx b * 24 + c)).st == 1 }

/-- Step 4: the chaff list, the block map and the key slots. -/
def State.bootFar (s : State) (all : Bool) : State :=
  let m := s.recovered
  let s := (s.onInt fun i => { i with chaff := m.chaff }).takeBands m
  let s := s.each m.keys fun s e => s.bootKey all e
  if 4 < ((List.range s.dieCount).filter fun n => (s.die n).st = 1 ∨ (s.die n).st = 2).length then s.notFit else s

/-- A page-map entry as recovery leaves it (R173); none for one that becomes unwritten or virtual. -/
def recoverPme (p : Pme) : Option Pme :=
  let far : Pme := { p with st := .far, near := 0, cnt := 0, age := 0 }
  match p.st with
  | .far => some far
  | .both => some far
  | .promoting => some far
  | .poisoned => some { p with near := 0, far := 0, cnt := 0, age := 0 }
  | _ => none

/-- Valid chunks of a band by the page map. -/
def validIn (pmes : FMap Pme) (b : Nat) : Nat := sumOf (pmes.filter fun e => e.2.st == .far && farBand e.2.far == b) fun e => e.2.len

/-- Pages whose husk names a lost slot are poisoned with syndrome 0x06. -/
def State.bootLost (s : State) (slot : Nat) : State :=
  let ps := s.tier.pmes.filter fun e => e.2.st == .far && (s.extent e.1).any fun x => keySlotOf x == slot
  let s := s.each ps fun s e =>
    ((s.setPme e.1 { e.2 with st := .poisoned, near := 0, far := 0, len := 0 } false).poisonPageEntry e.1 6).freeFar e.2.far e.2.len
  s.post 0x0C07 [(2, slot), (4, ps.length)]

/-- Does the system area record the other kind of use than the seed image (R328)? -/
def State.useChanged (s : State) : Bool := if s.hdg.bench then s.far.sysCoord.isSome else s.far.sysBench

/-- A factory default code table: PUBLISHED, generation 0 (R147). -/
def defaultTable (cls : Nat) : Table :=
  { st := 1, gen := 0, cls := cls, elems := 0, wall := 0, lens := if cls = 2 then defaultLens5 else defaultLens8 }

/-- The journal's tail is found bad after steps 3 and 4 read it: what they took from records that do not count is taken back. -/
def State.withoutTail (s : State) : State :=
  let m := s.recovered
  let s := (s.layPool m.chaff).takeBands m
  s.onSec fun c => { c with keys := c.keys.filter (fun k => (look m.keys k.1).isSome), wrapped := c.wrapped.filter fun k => (look m.keys k.1).isSome }

/-- Step 5: the journal is replayed up to the first record whose CRC fails, one that only the flush at a loss of power programmed (R212, R222); page
map, extents, leases, accounts, poison list; rows of OPEN bands that nothing names are discarded and their bands closed; near-only
pages lost are reported. The default code tables are PUBLISHED (R147). -/
def State.bootMap (s : State) (all : Bool) : State :=
  let tail := s.far.jrnl.filter fun r => decide (s.far.jrnlSafe < r.seq ∧ r.seq ≤ s.far.jrnlDone)
  let lost := (tail.drop (Config.pick s.draws % tail.length)).map JRec.seq
  let s := if all || tail.isEmpty then s
    else
      let s := (s.drew.onFar fun f => { f with jrnl := f.jrnl.map fun r => if lost.head? = some r.seq then { r with crc := false } else r })
      (s.withoutTail).intr 0x700028 5 |>.post 0x070A [(4, lost.length)]
  let s := s.onFar fun f => { f with jrnlSafe := f.jrnlDone, jrnl := f.jrnl.takeWhile JRec.crc }
  let m := s.recovered
  let pmes := m.pmes.filterMap fun e => (recoverPme e.2).map fun p => (e.1, p)
  let s := s.onTier fun t => { t with pmes := pmes, epochAt := s.now, epochMs := s.fld 0x600008 57 48 }
  let s := s.onSpc fun c => { c with extents := m.extents, leases := m.leases, accts := m.accts.map fun a => (a.1, { a.2 with floor := 0, moved := 0 }) }
  let s := s.onInt fun i => { i with plist := m.plist, chaff := m.chaff }
  let s := s.onHdg fun h => { h with heldMarks := m.held }
  let s := s.onFar fun f => { f with bands := f.bands.map fun e => (e.1, { e.2 with valid := validIn pmes e.1 }) }
  let s := s.each s.sec.lostKeys fun s k => s.bootLost k
  let s := (s.post 0x060A [(4, s.pwr.lostNear)]).onPwr fun p => { p with lostNear := 0 }
  let s := s.onHusk fun h => { h with tables := (List.range 3).foldl (fun m n => put m n (defaultTable (n + 1))) h.tables }
  let s := if s.useChanged then s.forget.onFar fun f => { f with sysCoord := none, sysBench := false } else s
  if s.hdg.bench then s.onFar fun f => { f with sysBench := true } else s

/-! ## Steps 6 to 8 -/

/-- Hedgerow ports train (Table 9-8, step 1). -/
def State.bootPorts (s : State) : State := s.each (List.range 6) fun s p => if (s.hport p).off then s else s.trainPort p

/-- Step 8: leases in ORPHAN with full timers (R73), tillers that pass their self-test, the default policy sheaf (R25), and event 0x0F00. -/
def State.bootEnd (s : State) (all : Bool) : State :=
  let s := s.each s.spc.leases fun s l =>
    s.setLease l.1 (some { l.2 with st := .orphan, ld := none, deadline := s.now + l.2.dur * 10 ^ 9, quarter := false })
  let s := s.defaultPolicy 4032
  let s := if all then s else s.each ((List.range 96).filter fun n => !Config.tillerPasses n s.draws) fun s n => s.setTiller n fun l =>
    { l with failed := true }
  let s := s.drew.onQos fun q => { q with winAt := s.now }
  let s := s.onPwr fun p => { p with boot := none, state := 0, lastActive := s.now }
  s.post 0x0F00 ((1, s.pwr.last) :: (List.range 8).map fun i => (2, min ((s.pwr.bootTimes[i]?).getD 0) 65535))

/-- The first epoch starts: E is 0 (R177). -/
def State.firstEpoch (s : State) : State := s.onTier fun t => { t with epoch := 0, epochAt := s.now, epochMs := s.fld 0x600008 57 48, missed := [] }

/-- A boot step of a cold or module reset ends, and the next one starts. -/
def State.bootStep (s : State) (k ms : Nat) (ok : Bool) : State :=
  let goTo (s : State) (n : Nat) : State := if s.pwr.boot.isNone then s else s.onPwr fun p => { p with boot := some n, bootTimes := p.bootTimes ++ [ms] }
  if k = 1 then
    if ok then goTo s.bootFw 2
    else
      let on := s.stk.gaspOn
      let s := ((s.bootFw.onStk fun t => { t with gaspOn := true }).post 0x0F06 []).onStk fun t => { t with gaspOn := on }
      s.notFit
  else if k = 2 then goTo s.bootSeed 3
  else if k = 3 then goTo (s.bootDram ok) 4
  else if k = 4 then goTo (s.bootFar ok) 5
  else if k = 5 then
    let s := (s.bootMap ok).bootPorts
    let s := goTo s 6
    let s := if s.hdg.bench then s else s.floodMine
    if s.hdg.bench then s.onPwr fun p => { p with boot := p.boot.map fun _ => 8, bootTimes := p.bootTimes ++ [0, 0] } else s
  else if k = 6 then (if s.hdg.formed then goTo s 7 else s)
  else if k = 7 then goTo s.firstEpoch 8
  else
    let s := (s.onPwr fun p => { p with bootTimes := p.bootTimes ++ [ms] }).bootEnd ok
    if s.hdg.bench then s.firstEpoch else s

/-! ## Warm reset (R506, R510) -/

/-- The bits of a register that a warm reset keeps: RWS fields, and the RWL fields and LOCK of a locked block. -/
def State.keptBits (s : State) (d : RegDesc) : List RegField :=
  d.fields.filter fun f => f.acc == .rws || ((s.reg d.lock).testBit 63 && (f.acc == .rwl || f.acc == .w1s))

/-- A held register after a warm reset. -/
def State.warmReg (s : State) (key : Nat) : Option (Nat × Word) :=
  if key ≥ 2 ^ 32 then none
  else match regAt key with
  | none => none
  | some d =>
    let fs := s.keptBits d
    if fs.isEmpty then none
    else some (key, BitVec.ofNat 64 (fs.foldl (fun v f => Sys2Proof.Machine.setBits v f.hi f.lo (bits (s.reg key) f.hi f.lo)) (resetFor s.sku key)))

/-- A warm reset starts: slots close, write queues drain, channels enter self-refresh, the module is marked dozing, registers return to their reset
values but for those kept, and step 1 runs. -/
def State.startWarm (s : State) : State :=
  let s := if s.pwr.dozeStep.isSome then s.endBg 64 rcSuccess [0x91] else s
  let s := s.dozeClose
  let s := s.each (List.range 96) fun s n => if s.chanUp n then (s.drainTo n 0).setChan n fun c => { c with sref := true, openRows := [], hits := [] } else s
  let s := s.dozeMark true
  let s := { s with regs := s.regs.filterMap fun (e : Nat × Word) => s.warmReg e.1 }
  let s := s.onTlr fun t => { t with rings := [] }
  let s := s.onHusk fun h => { h with staging := [] }
  s.onPwr fun p => { p with boot := some 1, last := 2, bootTimes := [], warmAt := s.now, dozeStep := none, dozeAbort := false, throttle := 16 }

/-- The kept state resumes: channels are trained, deadlines move later by the reset's length, event 0x0F05, and requests held are served. -/
def State.warmEnd (s : State) : State :=
  let late := s.now - s.pwr.warmAt
  let s := s.each (List.range 96) fun s n => if (s.chan n).sref then s.setChan n fun c => { c with sref := false, lastTrain := s.now } else s
  let s := s.each (Sys2Proof.Machine.keys s.spc.leases) fun s h => s.modLease h fun l => { l with deadline := l.deadline + late }
  let s := (s.onPwr fun p => { p with boot := none, state := 0, lastActive := s.now }).portsWide
  let s := ((s.dozeMark false).bump cntPwr 0 1).post 0x0F05 []
  let s := if s.pwr.exitReply then (s.onPwr fun p => { p with exitReply := false }).emit (.mbox 64 rcSuccess [0]) else s
  s.serveHeld.retryMoves

/-- A step of a warm reset ends: firmware (the bank in use, or the one that SEED_WRITE left, R510, R515), seed, then the kept state. -/
def State.warmStep (s : State) (k : Nat) : State :=
  let goTo (s : State) (n : Nat) : State := s.onPwr fun p => { p with boot := some n }
  if k = 1 then goTo (if s.pwr.fwNew then s.bootFw else s) 2 else if k = 2 then goTo s.bootSeed 8 else s.warmEnd

/-- BOOT_STEP_DONE (R509, R510): the boot step that runs ends after so many ms. `ok` is false when the factory region does not verify (step 1), when
not every channel trains (3), not every slot unwraps (4), a journal record's CRC fails (5), or not every tiller passes its self-test (8); which ones
is left open. -/
def execBootStepDone (ms : Nat) (ok : Bool) (s : State) : Outcome :=
  .next (match s.pwr.boot with
    | none => s
    | some k => if s.pwr.last = 2 then s.warmStep k else s.bootStep k ms ok)

end Sys2Proof.Machine
end

