-- ==== Sys2Proof/Machine/Power.lean ====
section
/-! DEFINITION. Input power, reset pins, the reference clock, the rail and the throttle, and the power, seed and firmware commands
(spec/17_power_reset_boot.md; spec/18_electrical.md R521, R527, R529; spec/06_far_tier.md R221; spec/15_stook.md R468). -/

namespace Sys2Proof.Machine

open Sys2Proof

/-! ## Loss and return of input power (R221, R468, R504, R521, R529) -/

/-- Input power is lost: no further request is accepted, and the flush runs on hold-up energy. -/
def State.powerLoss (s : State) : State :=
  if s.pwr.on && s.pwr.flush.isNone then s.onPwr fun p => { p with flush := some s.now, rose := false } else s

/-- MOD_PWRGD_FALL (R521): power is lost; a rise seen during a flush counts no more. -/
def execModPwrgdFall (s : State) : Outcome :=
  .next ((s.onPwr fun p => { p with pwrgd := false, rose := false }).powerLoss)

/-- INPUT_UNDERVOLTAGE (R521): input below 38 V for 10 µs. -/
def execInputUndervoltage (s : State) : Outcome := .next ((s.onPwr fun p => { p with inputOk := false }).powerLoss)

/-- THERMAL_SHUTDOWN (R504): the core supply is removed. -/
def execThermalShutdown (s : State) : Outcome := .next s.powerLoss

/-- The records that the flush writes: of severity error and fatal, not archived, newest first, at most 4,096 (R468). -/
def State.gaspRecs (s : State) : List SRec :=
  let m : FMap SRec := (s.stk.sram.map Prod.fst ++ s.stk.spill.map Prod.fst).foldl (fun m r => put m r.seq r) []
  (((m.filter fun e => decide (2 ≤ e.2.sev) && !s.stk.archive.any fun r => r.seq == e.1).map Prod.snd).reverse).take 4096

/-- POWER_LOSS_FLUSH_DONE (R221, R468): the journal ring and the severe records are on flash; everything volatile is lost. When MOD_PWRGD has risen
meanwhile, a cold reset follows (R529). -/
def execPowerLossFlushDone (s : State) : Outcome :=
  .next (
    if s.pwr.flush.isNone then s
    else
      let s := s.onFar fun f => { f with jrnlDone := f.jrnlNext - 1 }
      let s := s.each s.gaspRecs fun s r => s.putArchive r
      let rose := s.pwr.rose
      let s := (s.wipe).onPwr fun p => { p with on := false }
      if rose then s.resetKind 0 else s)

/-- MOD_PWRGD_RISE (R505, R529): a rising edge causes a cold reset, after the flush when one runs. -/
def execModPwrgdRise (s : State) : Outcome :=
  .next (
    if s.pwr.pwrgd then s
    else
      let s := s.onPwr fun p => { p with pwrgd := true, inputOk := true }
      if s.pwr.flush.isSome then s.onPwr fun p => { p with rose := true } else s.resetKind 0)

/-- INPUT_RETURN_STABLE (R521): after an undervoltage and the end of its flush the input has been in range for 10 ms; with MOD_PWRGD high a cold
reset follows. -/
def execInputReturnStable (s : State) : Outcome :=
  .next (
    if s.pwr.inputOk || s.pwr.flush.isSome then s
    else
      let s := s.onPwr fun p => { p with inputOk := true }
      if s.pwr.pwrgd && !s.pwr.on then s.resetKind 0 else s)

/-! ## MOD_RESET_N (R505, R527) -/

/-- MOD_RESET_ASSERT (R527): low for 1 µs; ignored while MOD_PWRGD is low. -/
def execModResetAssert (s : State) : Outcome :=
  .next (
    if !s.pwr.resetN then s
    else
      let s := s.onPwr fun p => { p with resetN := false }
      if s.pwr.pwrgd && s.pwr.on && s.pwr.flush.isNone then s.resetKind 1 else s)

/-- MOD_RESET_RELEASE (R527): a module held in reset boots from step 1. -/
def execModResetRelease (s : State) : Outcome :=
  .next (
    if s.pwr.resetN then s
    else
      let s := s.onPwr fun p => { p with resetN := true }
      if s.pwr.on && s.pwr.flush.isNone then s.startBoot s.pwr.last else s)

/-! ## The reference clock (R516, R528; chapter 17, case 'When the reference clock is lost') -/

/-- REFERENCE_LOCK (R516): the timebase locks. -/
def execReferenceLock (s : State) : Outcome :=
  .next (
    if s.host.locked || !s.sideband then s
    else (s.onHost fun h => { h with locked := true, refLostAt := none }).post 0x1000 [])

/-- REFCLK_LOSS: the count goes on from the on-die oscillator. -/
def execRefclkLoss (s : State) : Outcome :=
  .next (
    if s.host.refLostAt.isSome || !s.sideband then s
    else ((s.onHost fun h => { h with locked := false, refLostAt := some s.now }).intr 0x1100028 0).post 0x1001 [])

/-- REFCLK_LOSS_RESET: after 10 ms without the reference, a module reset. -/
def execRefclkLossReset (s : State) : Outcome :=
  .next (match s.host.refLostAt with
    | none => s
    | some t => if s.sideband && decide (s.now ≥ t + 10 ^ 7) then s.resetKind 1 else s)

/-! ## Rail and throttle (R502, R503) -/

/-- Is the module active, so that firmware samples and regulates? -/
def State.regulates (s : State) : Bool := s.serving && s.pwr.boot.isNone

/-- RAIL_EVALUATE (R502): the lowest core rail in millivolts at which the slowest tiller makes its step rate, 660 to 800; 660 in Doze. -/
def execRailEvaluate (mv : Nat) (s : State) : Outcome :=
  .next (
    if !s.regulates then s
    else if s.pwr.state = 2 then s.onPwr fun p => { p with railMv := 660 }
    else if 660 ≤ mv ∧ mv ≤ 800 then s.onPwr fun p => { p with railMv := mv }
    else s)

/-- The power limit in 0.1 W. -/
def State.limit10 (s : State) : Nat := 10 * s.fld 0x1000008 53 44

/-- Change the throttle ratio: it is a factor of what the module can deliver (R353). -/
def State.setThrottle (s : State) (t : Nat) : State :=
  let s' := s.onPwr fun p => { p with throttle := t }
  (((s'.rescaled s).intr 0x1000028 0).bump cntPwr 2 1).post 0x0F03 []

/-- THROTTLE_SAMPLE (R503): input power in 0.1 W and the highest junction temperature. A sample beyond a limit lowers the ratio; one that is not below
95 % of the power limit and 100 °C starts the 10 ms anew. -/
def execThrottleSample (inputW tj : Nat) (s : State) : Outcome :=
  .next (
    if !s.regulates then s
    else
      let calm := decide (20 * inputW < 19 * s.limit10) && decide (tj < 100)
      let s := s.onPwr fun p => { p with inputW := inputW, tj := tj, lastRaise := if calm then p.lastRaise else s.now }
      if (inputW > s.limit10 ∨ tj > 103) ∧ s.pwr.throttle > 8 then s.setThrottle (s.pwr.throttle - 1) else s)

/-- THROTTLE_RAISE (R503): one step every 10 ms of calm. -/
def execThrottleRaise (s : State) : Outcome :=
  .next (
    if s.regulates && decide (s.pwr.throttle < 16) && decide (20 * s.pwr.inputW < 19 * s.limit10) && decide (s.pwr.tj < 100)
        && decide (s.now ≥ s.pwr.lastRaise + 10 ^ 7) then
      (s.setThrottle (s.pwr.throttle + 1)).onPwr fun p => { p with lastRaise := s.now }
    else s)

/-! ## Reset commands (R505, R508, R510) -/

/-- MGMT_WATCHDOG_EXPIRE (R505). -/
def execMgmtWatchdogExpire (s : State) : Outcome := .next (if s.sideband && s.pwr.boot.isNone && s.pwr.fit then s.startWarm else s)

/-- WARM_RESET (R510): answered before the reset; refused with 0x91 while a boot or another warm reset runs. -/
def execWarmReset (x : Mbx) (s : State) : Outcome :=
  .next (
    if mbFm x && s.sideband && s.pwr.boot.isSome then s.status x (if s.inSession x then 0x91 else 8)
    else s.command x .fm false 0 fun s => (s.status x 0).startWarm)

/-- MODULE_RESET (R505): answered before the reset. -/
def execModuleReset (x : Mbx) (s : State) : Outcome := .next (s.command x .fm false 0 fun s => (s.status x 0).resetKind 1)

/-- Is a register key in the DRC_ window of a channel? -/
def inDrc (n key : Nat) : Bool := decide (0xB00000 + 0x1000 * n ≤ key ∧ key < 0xB01000 + 0x1000 * n)

/-- CHANNEL_RESET (R508): the channel is placed in self-refresh and trained again (RETRAIN_DONE); its requests are held meanwhile. -/
def execChannelReset (x : Mbx) (s : State) : Outcome :=
  .next (s.command x .fm false 5 fun s =>
    let n := mb8 x 4
    if n ≥ 96 then s.status x 9
    else if (s.chan n).st = 2 ∨ (s.chan n).st = 3 then s.status x 0x92
    else if (s.chan n).st = 1 ∨ (s.chan n).st = 4 then s.status x 0x91
    else
      let s := { s with regs := s.regs.filter fun e => !inDrc n e.1 }
      (s.setChan n fun c => { c with st := 4, attempts := 0, openRows := [], hits := [] }).status x 0)

/-! ## Banks of the seed flash (R512 to R515) -/

/-- Size of a bank. -/
def bankSize (kind : Nat) : Nat := if kind = 0 then 16 * 2 ^ 20 else 12 * 2 ^ 20

/-- The bank of a kind (0 firmware, 1 seed) that is not in use. -/
def State.spareBank (s : State) (kind : Nat) : Nat :=
  if kind = 0 then (if s.pwr.fwBank = 0 then 1 else 0) else if s.pwr.seedBank = 1 then 3 else 2

/-- Sequence of the bank of a kind in use; 0 for the factory region. -/
def State.usedSeq (s : State) (kind : Nat) : Nat :=
  let b := if kind = 0 then s.pwr.fwBank else if s.pwr.seedBank = 0 then 4 else s.pwr.seedBank + 1
  (look s.pwr.banks (if kind = 0 && b == 2 then 4 else b)).elim 0 fun b => b.seq

/-- Bytes written at an offset over what stands there; bytes of a gap are not stated. -/
def overlay (d0 : Nat) (old : Bytes) (off : Nat) (d : Bytes) : Bytes :=
  let gap := (List.range (off - old.length)).map fun i => Config.undefinedByte (d0 + old.length + i)
  ((old ++ gap).take off) ++ d ++ old.drop (off + d.length)

/-- Is an image well formed (R513): magic, the body's length, the zero bytes of the header? -/
def imageForm (size : Nat) (d : Bytes) : Bool :=
  leAt d 0 4 == 0x53544B53 && decide (64 + leAt d 16 4 + 96 ≤ min size d.length) && ((d.drop 20).take 44).all fun b => b == 0

/-- The image that stands at the start of a bank: header, body and signature. -/
def imageOf (d : Bytes) : Bytes := d.take (64 + leAt d 16 4 + 96)

/-- Verify what stands in a bank (R436, R515); one that passes gets a sequence one above the bank in use. -/
def State.verifyBank (s : State) (kind b : Nat) : State × Bool :=
  match look s.pwr.banks b with
  | none => (s, false)
  | some k =>
    let img := imageOf k.body
    let ok := imageForm (bankSize kind) k.body && Config.imageOk img
    let k := { k with valid := ok, body := if ok then img else k.body, ver := leAt k.body 4 4, seq := if ok then s.usedSeq kind + 1 else k.seq }
    (s.onPwr fun p => { p with banks := put p.banks b k }, ok)

/-- Write into a bank that is not in use: it fails verification until a write ends. -/
def State.writeBank (s : State) (b off : Nat) (d : Bytes) : State :=
  let old := look s.pwr.banks b
  let body := overlay s.draws (old.elim [] fun k => k.body) off d
  s.drew.onPwr fun p => { p with banks := put p.banks b ⟨old.elim 0 fun k => k.seq, old.elim 0 fun k => k.ver, false, body⟩ }

/-- The two forms of SEED_WRITE, told apart by the offset field (R515). -/
def State.seedCmd (s : State) (x : Mbx) : State :=
  s.command x .fm false 16 fun s =>
    let kind := mb8 x 4
    let off := mb32 x 8
    let len := mb32 x 12
    if kind > 1 then s.status x 9
    else if off = 2 ^ 32 - 1 then
      let (s, ok) := s.verifyBank kind (s.spareBank kind)
      (s.onPwr fun p => { p with fwNew := p.fwNew || (ok && kind == 0) }).status x (if ok then 0 else 0x90)
    else if off + len > bankSize kind ∨ x.data.length < 64 + len then s.status x 9
    else (s.writeBank (s.spareBank kind) off ((x.data.drop 64).take len)).status x 0

/-- SEED_WRITE (R515): data into the bank of a kind that is not in use. -/
def execSeedWrite (x : Mbx) (s : State) : Outcome := .next (s.seedCmd x)

/-- SEED_WRITE_END (R515): the bank is verified, and takes effect at the next cold, module or warm reset. -/
def execSeedWriteEnd (x : Mbx) (s : State) : Outcome := .next (s.seedCmd x)

/-- SEED_QUERY (R518): the banks in use, and the sequences of seed banks A and B. -/
def execSeedQuery (x : Mbx) (s : State) : Outcome :=
  .next (s.command x .fm false 0 fun s =>
    let seq (b : Nat) : Nat := (look s.pwr.banks b).elim 0 fun k => k.seq
    s.okOut x (zeros 3 ++ toLe 1 s.pwr.fwBank ++ toLe 1 s.pwr.seedBank ++ zeros 2 ++ toLe 8 (seq 2) ++ toLe 8 (seq 3)))

/-! ## Firmware transfer and activation (R483, R510) -/

/-- A transfer ends: the image is verified and stands in the bank of its slot. -/
def State.fwEnd (s : State) (x : Mbx) (b : Nat) : State :=
  let img := s.host.fwStage
  let s := (s.onHost fun h => { h with fwStage := [] }).writeBank b 0 img
  let (s, ok) := s.verifyBank 0 b
  s.reply x (if ok then rcSuccess else rcFwAuth) []

/-- TRANSFER_FW (R483): actions 0 full, 1 initiate, 2 continue, 3 end, 4 abort; slots 1 and 2 are banks A and B; offsets in 128 bytes (CXL 3.1, log
entry 27). -/
def execTransferFw (x : Mbx) (s : State) : Outcome :=
  .next (s.stdCommand x .fm 128 fun s =>
    let act := mb8 x 0
    let slot := mb8 x 1
    let off := 128 * mb32 x 4
    let d := x.data.drop 128
    let at_ := s.host.fwStage.length
    if act = 4 then (s.onHost fun h => { h with fwStage := [] }).reply x rcSuccess []
    else if act > 4 then s.reply x rcInvalidInput []
    else if (act = 0 ∨ act = 3) ∧ (slot = 0 ∨ slot > 2 ∨ slot = s.pwr.fwBank + 1) then s.reply x rcInvalidSlot []
    else if act = 0 ∨ act = 1 then
      if at_ ≠ 0 then s.reply x rcFwTransfer []
      else if off ≠ 0 ∨ d.length > bankSize 0 then s.reply x rcInvalidInput []
      else
        let s := s.onHost fun h => { h with fwStage := d }
        if act = 0 then s.fwEnd x (slot - 1) else s.reply x rcSuccess []
    else if at_ = 0 ∨ off ≠ at_ then s.reply x rcFwOrder []
    else if at_ + d.length > bankSize 0 then s.reply x rcInvalidInput []
    else
      let s := s.onHost fun h => { h with fwStage := h.fwStage ++ d }
      if act = 3 then s.fwEnd x (slot - 1) else s.reply x rcSuccess [])

/-- ACTIVATE_FW (R510): the new bank is verified before the warm reset begins, and one that fails is refused. -/
def execActivateFw (x : Mbx) (s : State) : Outcome :=
  .next (s.stdCommand x .fm 2 fun s =>
    let slot := mb8 x 1
    if mb8 x 0 > 1 then s.reply x rcInvalidInput []
    else if slot = 0 ∨ slot > 2 then s.reply x rcInvalidSlot []
    else if !((look s.pwr.banks (slot - 1)).any bankOk) then s.reply x rcFwAuth []
    else if mb8 x 0 = 1 then s.reply x rcSuccess []
    else ((s.reply x rcSuccess []).onPwr fun p => { p with fwBank := slot - 1, fwNew := false }).startWarm)

end Sys2Proof.Machine
end

