-- ==== Sys2Proof/Machine/Stook.lean ====
section
/-! DEFINITION. The event recorder's own work and commands (spec/15_stook.md R461 to R473): spilling, archiving, summaries, reading, the freeze, and
a failure of its memory. -/

namespace Sys2Proof.Machine

open Sys2Proof

/-! ## Stores (R461, R462) -/

/-- The records of a store that the next store does not hold, in sequence order. -/
def unsent (l : List (SRec × Bool)) : List SRec := vals ((l.filter fun x => !x.2).foldl (fun m x => put m x.1.seq x.1) [])

/-- STOOK_SPILL (R461): the records that the spill ring lacks are copied to it; the slot of one that it drops is free too. -/
def execStookSpill (s : State) : Outcome :=
  .next (
    let s := s.each (unsent s.stk.sram) fun s r => s.putSpill r
    s.onStk fun k => { k with sram := k.sram.map fun x => (x.1, true) })

/-- STOOK_ARCHIVE (R461): the records that the archive lacks are copied to it; when it cannot be written they stay in the spill ring and event
0x0E06 is posted once. -/
def execStookArchive (ok : Bool) (s : State) : Outcome :=
  .next (
    if ok then
      let s := s.each (unsent s.stk.spill) fun s r => s.putArchive r
      s.onStk fun k => { k with spill := k.spill.map (fun x => (x.1, true)), archErr := false }
    else if s.stk.archErr then s
    else ((s.onStk fun k => { k with archErr := true }).intr 0xF00028 3).post 0x0E06 [])

/-! ## Rate limits (R465) -/

/-- Depth of a code's bucket, in units of its level. -/
def State.burstOf (s : State) (code : Nat) : Nat := s.fld (0xF00100 + 8 * (code / 256)) 47 32 * tokenUnit

/-- STOOK_SUMMARY_EMIT (R465): a bucket that is full while its code has suppressed events emits one summary record, which takes a token. -/
def execStookSummaryEmit (code : Nat) (s : State) : Outcome :=
  .next (
    let k := s.bucketNow code
    if k.suppr = 0 ∨ k.level < s.burstOf code ∨ k.level < tokenUnit then s
    else
      let s := s.onStk fun t => { t with buckets := put t.buckets code { k with level := k.level - tokenUnit, suppr := 0 } }
      s.arrive { s.newRec code 64 (min k.suppr (2 ^ 32 - 1)) k.payload with lds := k.lds })

/-! ## Reading (R470, R472) -/

/-- Every stored record, by sequence. -/
def State.allRecs (s : State) : FMap SRec :=
  (s.stk.sram.map Prod.fst ++ s.stk.spill.map Prod.fst ++ s.stk.archive).foldl (fun m r => put m r.seq r) []

/-- STK_READ (R470): records at or above a sequence, in ascending order. -/
def execStkRead (x : Mbx) (s : State) : Outcome :=
  .next (s.command x .fm false 16 fun s =>
    let n := mb16 x 4
    if n = 0 ∨ n > 256 then s.status x 9
    else
      let rs := ((vals s.allRecs).filter fun r => decide (mb64 x 8 ≤ r.seq)).take n
      s.okOut x (zeros 3 ++ toLe 2 rs.length ++ zeros 58 ++ rs.flatMap SRec.bytes))

/-- GASP_READ (R472): the partner's last-gasp records. -/
def execGaspRead (x : Mbx) (s : State) : Outcome :=
  .next (s.command x .fm false 0 fun s =>
    s.okOut x (zeros 3 ++ toLe 4 s.stk.partnerGasp.length ++ toLe 1 (twinOf s.me) ++ zeros 55 ++ s.stk.partnerGasp.flatMap id))

/-! ## Freeze (R471) -/

/-- Length of a freeze, and of the time after a thaw in which none starts: 50 ms. -/
def freezeNs : Nat := 50000000

/-- Start a freeze; ignored while frozen or less than 50 ms after the last thaw. -/
def State.startFreeze (s : State) : State :=
  if s.stk.frozenAt.isSome || s.stk.thawAt.any (fun t => decide (s.now < t + freezeNs)) then s
  else s.onStk fun k => { k with frozenAt := some s.now }

/-- The FREEZE command by its byte 4. -/
def State.freezeCmd (s : State) (x : Mbx) : State :=
  s.command x .fm false 5 fun s =>
    if mb8 x 4 = 1 then s.startFreeze.status x 0
    else if mb8 x 4 = 0 then s.thaw.status x 0
    else s.status x 9

/-- FREEZE with byte 4 of 1 (R471). -/
def execFreeze (x : Mbx) (s : State) : Outcome := .next (s.freezeCmd x)

/-- FREEZE with byte 4 of 0: thaw (R471). -/
def execFreezeThaw (x : Mbx) (s : State) : Outcome := .next (s.freezeCmd x)

/-- The last-gasp bank is emptied and MOD_ALERT_N released, unless the module is not fit (Table 18-2). -/
def State.gaspClear (s : State) : State :=
  (s.onStk fun k => { k with gasp := [], gaspOn := false }).onPwr fun p => { p with alert := !p.fit }

/-- A write of STK_CTL: GASP_CLR, THAW and FREEZE, those that are set, in this order. -/
def State.stkCtl (s : State) (v : Word) : State :=
  let s := if v.getLsbD 2 then s.gaspClear else s
  let s := if v.getLsbD 1 then s.thaw else s
  if v.getLsbD 0 then s.startFreeze else s

/-- STK_CTL_FREEZE (R471): a write of STK_CTL with FREEZE set. -/
def execStkCtlFreeze (v : Word) (s : State) : Outcome := .next (if v.getLsbD 0 then s.stkCtl v else s)

/-- STK_CTL_THAW (R471): a write of STK_CTL with THAW set. -/
def execStkCtlThaw (v : Word) (s : State) : Outcome := .next (if v.getLsbD 1 then s.stkCtl v else s)

/-- STK_CTL_GASP_CLR (R471): a write of STK_CTL with GASP_CLR set. -/
def execStkCtlGaspClr (v : Word) (s : State) : Outcome := .next (if v.getLsbD 2 then s.stkCtl v else s)

/-- FREEZE_TIMEOUT (R471): 50 ms after its start a freeze ends. -/
def execFreezeTimeout (s : State) : Outcome :=
  .next (match s.stk.frozenAt with
    | some t => if s.now ≥ t + freezeNs then s.thaw else s
    | none => s)

/-! ## Failure of the recorder memory -/

/-- Is an SRAM slot out of use? -/
def State.slotBad (s : State) (n : Nat) : Bool := s.stk.badSlots.any fun r => decide (r.1 ≤ n ∧ n ≤ r.2)

/-- STOOK_SRAM_FAIL (chapter 15, case 'When the recorder SRAM fails'): the slots leave use with what they held; the last-gasp bank takes
the records of severity error and fatal from this one on. -/
def execStookSramFail (first : Nat) (last : Nat) (s : State) : Outcome :=
  .next (
    if first > last ∨ last ≥ sramCap then s
    else
      let used := (List.range sramCap).filter fun n => !s.slotBad n
      let gone := (used.filter fun n => decide (first ≤ n ∧ n ≤ last)).length
      let kept := ((s.stk.sram.zip used).filter fun p => !decide (first ≤ p.2 ∧ p.2 ≤ last)).map Prod.fst
      let s := s.onStk fun k => { k with sram := kept, failed := k.failed + gone, badSlots := k.badSlots ++ [(first, last)], gaspOn := true }
      s.post 0x0E04 [(2, first), (2, last)])

end Sys2Proof.Machine
end

