-- ==== Sys2Proof/Machine/Envelope.lean ====
section
/-! DEFINITION. The secured message that carries a vendor command (spec/16_host_interface.md R485; spec/13_security.md R430). -/

namespace Sys2Proof.Machine

open Sys2Proof

/-! ## Commands of one opcode in two rows -/

/-- ACCOUNT_BIND by its operation. -/
def accountBind (x : Mbx) (s : State) : Outcome := if mb8 x 1 = 1 then execAccountBindAdd x s else execAccountBindRemove x s
/-- TIER_MOVE by its operation. -/
def tierMoveOp (x : Mbx) (s : State) : Outcome := if mb8 x 4 = 2 then execTierMoveDemote x s else execTierMovePromote x s
/-- MOVER_CTL by its operation. -/
def moverCtlOp (x : Mbx) (s : State) : Outcome := if mb8 x 5 = 2 then execMoverCtlAbort x s else execMoverCtlResume x s
/-- FREEZE by its byte 4. -/
def freezeOp (x : Mbx) (s : State) : Outcome := if mb8 x 4 = 0 then execFreezeThaw x s else execFreeze x s
/-- SEED_WRITE by its offset. -/
def seedWriteOp (x : Mbx) (s : State) : Outcome := if mb32 x 8 = 2 ^ 32 - 1 then execSeedWriteEnd x s else execSeedWrite x s

/-- The vendor commands by opcode. -/
def vendorTable : List (Nat × (Mbx → State → Outcome)) :=
  [(0xC000, execLeaseGrant), (0xC001, execLeaseRenew), (0xC002, execLeaseRelease), (0xC003, execLeaseAttach),
   (0xC004, execLeaseQuery), (0xC005, execLeaseRevoke), (0xC008, execAccountSet), (0xC009, execAccountQuery),
   (0xC00A, execExtentRespread), (0xC00B, accountBind), (0xC100, execPubBuild), (0xC101, execPubFlip),
   (0xC102, execDirQuery), (0xC200, execTrain), (0xC201, execTableLoad), (0xC202, execTablePublish),
   (0xC203, execTableBind), (0xC204, execTableRetire), (0xC205, execTableQuery), (0xC206, execRecode),
   (0xC208, execVlrBind), (0xC209, execVlrDiscard), (0xC300, execPolicyActivate), (0xC301, execStreamStart)] ++
  [(0xC302, execStreamStop), (0xC303, execStreamQuery), (0xC304, execPagePin), (0xC305, execPageUnpin),
   (0xC306, tierMoveOp), (0xC400, execFarWearQuery), (0xC401, execFarDieRetire), (0xC500, execSheafLoad),
   (0xC501, execSheafUnload), (0xC502, execSheafQuery), (0xC503, execCtxCancel), (0xC600, execFormQuery),
   (0xC601, execFormAdopt), (0xC602, execWitnessForce), (0xC603, execLinkRetrain), (0xC604, execResyncQuery),
   (0xC700, execQosClassSet), (0xC701, execQosReserve), (0xC702, execQosQuery), (0xC800, execBroomStart),
   (0xC801, execBroomQuery), (0xC802, execRetire), (0xC803, execChaffQuery), (0xC804, execMoverCopy)] ++
  [(0xC805, moverCtlOp), (0xC900, execKeyQuery), (0xC901, execAccountErase), (0xC902, execSpaceKeyRoll),
   (0xCA00, execStkRead), (0xCA01, freezeOp), (0xCA02, execGaspRead), (0xCB00, execDozeEnter),
   (0xCB01, execDozeExit), (0xCB02, execWarmReset), (0xCB03, execModuleReset), (0xCB04, execChannelReset),
   (0xCB05, seedWriteOp), (0xCB06, execSeedQuery)]

/-- The state that an outcome goes on from. -/
def stateOf (s : State) : Outcome → State
  | .next t => t
  | _ => s

/-- A mailbox answer as the response of a secured message: return code, output length, output. -/
def asResponse (who : Issuer) (o : Out) : Out :=
  match o with
  | .mbox w rc out => if w = whoOf who then .spdm w 0x7E (toLe 2 rc ++ toLe 4 out.length ++ out) else o
  | _ => o

/-- Turn the answers given since `a` outputs and `b` delayed answers into responses. -/
def State.enveloped (s : State) (who : Issuer) (a b : Nat) : State :=
  let s := { s with out := s.out.take a ++ (s.out.drop a).map (asResponse who) }
  s.onHdg fun h => { h with replies := h.replies.take b ++ (h.replies.drop b).map fun r => (r.1, asResponse who r.2) }

/-- VENDOR_DEFINED_REQUEST (R485): within an established session, of StandardID 3 and the module's PCI vendor ID; the command in its payload runs
as one of the session. -/
def execVendorDefinedRequest (who : Issuer) (sess : Fin 2) (std vendor : Nat) (payload : Bytes) (s : State) : Outcome :=
  .next (s.inSess who sess fun s =>
    if std ≠ 3 ∨ vendor ≠ Config.pciVendor ∨ payload.length < 6 then s.spdmErr who errRequest
    else
      let x : Mbx := ⟨who, some sess, (payload.drop 6).take (leAt payload 2 4)⟩
      let t :=
        if payload.length < 6 + leAt payload 2 4 then s.reply x rcInvalidInput []
        else match vendorTable.find? fun e => e.1 == leAt payload 0 2 with
        | some e => stateOf s (e.2 x s)
        | none => s.reply x rcUnsupported []
      t.enveloped who s.out.length s.hdg.replies.length)

end Sys2Proof.Machine
end

