-- ==== Sys2Proof/Machine/TileOps.lean ====
section
/-! DEFINITION. Tile instructions (spec/07_ralath_isa.md R248 to R250, Table 7-5). A tile's word r × 8 + c is its element in row r, column c;
mode 0 is FP mode, 1 integer mode. -/

namespace Sys2Proof.Machine

open Sys2Proof

/-! ## Fields of format M (Table 7-5) -/

def mTd (w : Word) : Nat := wf w 57 56
def mA (w : Word) : Nat := wf w 55 52
def mB (w : Word) : Nat := wf w 51 48
def mSa (w : Word) : Nat := wf w 47 44
def mSb (w : Word) : Nat := wf w 43 40
def mEt (w : Word) : Nat := wf w 39 36
def mKc (w : Word) : Nat := wf w 35 33
def mEtd (w : Word) : Nat := wf w 24 21

/-- Word i of a tile. -/
def Tile.at (t : Tile) (i : Nat) : Nat := ((t.words[i]?).getD 0).toNat

/-- The mode that an MMA element type needs, none for a type that MMA does not take (Table 7-12). -/
def mmaMode (et kc : Nat) : Option Nat :=
  if et = 11 ∨ et = 12 then some 1
  else if [1, 2, 3, 4, 5, 6, 9, 10].contains et then some 0
  else if et = 14 ∧ (kc = 0 ∨ kc = 2) then some 0
  else none

/-- Element indices of a(r, k) and b(k, c) in their registers, with K = n / 8 (R249). -/
def mmaAIdx (n r k : Nat) : Nat := r % 8 * (n / 8) + k
def mmaBIdx (n c k : Nat) : Nat := c * (n / 8) + k

/-- Scale byte index of a(r, k), and of b(k, c), for block size b (R249). -/
def mmaAScale (n b r k : Nat) : Nat := r % 8 * (n / 8) / b + k / b + (if r ≥ 8 then 32 else 0)
def mmaBScale (n b c k : Nat) : Nat := (c * (n / 8) + k) / b

/-- The A register of row r: v[VA], or v[VA + 1] for rows 8 and up. -/
def mmaAReg (x : Ctx) (w : Word) (r : Nat) : Nat := x.vreg (mA w + if r < 8 then 0 else 1)

/-- Element (r, c) of the tile after MMA: its word and its flags. -/
def mmaElem (x : Ctx) (w : Word) (t : Tile) (r c : Nat) : Nat × Nat :=
  let et := mEt w
  let kc := mKc w
  let n := etCount et kc
  let wd := etWidth et kc
  let b := etBlock et
  let av := mmaAReg x w r
  let bv := x.vreg (mB w)
  let ks := List.range (n / 8)
  let ea (k : Nat) : Nat := elemAt wd av (mmaAIdx n r k)
  let eb (k : Nat) : Nat := elemAt wd bv (mmaBIdx n c k)
  let old := t.at (8 * r + c)
  if etInt et then (unsext 32 (ks.foldl (fun acc k => acc + sext wd (ea k) * sext wd (eb k)) (sext 32 old)), 0)
  else
    let sa (k : Nat) : Nat := if b = 0 then 0 else elemAt 8 (x.vreg (mSa w)) (mmaAScale n b r k)
    let sb (k : Nat) : Nat := if b = 0 then 0 else elemAt 8 (x.vreg (mSb w)) (mmaBScale n b c k)
    let ps := ks.map fun k => Val.mul (elemVal et kc (sa k) (ea k)) (elemVal et kc (sb k) (eb k))
    let (v, iv) := Val.sum (elemVal 0 0 0 old :: ps.map Prod.fst)
    let (p, fl) := toFloat fp32 false 0 0 v (iv || ps.any Prod.snd)
    (p, fl ||| (if elemSnan 0 old || ks.any fun k => elemSnan et (ea k) || elemSnan et (eb k) then flagIV else 0))

/-- MMA on a context. -/
def mmaEff (x : Ctx) (w : Word) : Eff :=
  let et := mEt w
  let used := bm 63 48 + bm 39 36 + (if etBlock et ≠ 0 then bm 47 40 else 0) + (if et = 14 then bm 35 33 else 0)
  let t := x.tile (mTd w)
  match mmaMode et (mKc w) with
  | none => .illegal
  | some m =>
    if !(onlyBits w used && mA w % 2 == 0 && t.mode == m) then .illegal
    else
      let rs := (List.range 128).map fun i => mmaElem x w t (i / 8) (i % 8)
      commit x (orFlags (rs.map Prod.snd)) x.gen 0 fun x => x.setT (mTd w) { t with words := rs.map fun r => BitVec.ofNat 32 r.1 }

/-- MMA (R249). -/
def execMma (c : Fin 4096) (s : State) : Outcome := .next (s.plainOp c 0x1C mmaEff)

/-- TZERO on a context. -/
def tzeroEff (x : Ctx) (w : Word) : Eff :=
  if !(onlyBits w (bm 63 56 + bm 24 21) && (mEtd w == 0 || mEtd w == 13)) then .illegal
  else .next (x.setT (mTd w) { Tile.zero with mode := if mEtd w = 13 then 1 else 0 })

/-- TZERO (Table 7-8). -/
def execTzero (c : Fin 4096) (s : State) : Outcome := .next (s.plainOp c 0x1D tzeroEff)

/-- One element of TSTORE: its pattern and flags. -/
def tstoreElem (w : Word) (mode old u : Nat) : Nat × Nat :=
  let etd := mEtd w
  let rm := wf w 27 26
  let sat := w.toNat.testBit 25
  match etFmt etd with
  | some f =>
    if mode = 0 then
      let (p, fl) := toFloat f sat rm u (elemVal 0 0 0 old) false
      (p, fl ||| (if elemSnan 0 old then flagIV else 0))
    else toFloat f sat rm u (Val.ofInt (sext 32 old) 0 false) false
  | none => toIntW (etWidth etd 0) sat (sext 32 old)

/-- TSTORE on a context. -/
def tstoreEff (x : Ctx) (w : Word) : Eff :=
  let etd := mEtd w
  let t := x.tile (mTd w)
  let typeOk := if t.mode = 0 then decide (etd < 3) else etd == 0 || etd == 11 || etd == 13
  let rm := wf w 27 26
  if !(onlyBits w (bm 63 56 + bm 32 0) && typeOk && !(etInt etd && rm != 0)) then .illegal
  else
    let n := 128 * etWidth etd 0 / 8
    let a := (x.sreg (wf w 32 28) + BitVec.ofNat 64 (64 * wf w 20 0)).toNat
    if !x.inWin a n then .trap 6 0 a
    else
      let (us, g) := drawsFor rm (List.replicate 128 true) x.gen
      let rs := (List.range 128).map fun i => tstoreElem w t.mode (t.at i) ((us[i]?).getD 0)
      commit x (orFlags (rs.map Prod.snd)) g rm fun x => x.store a (toLe n (packElems (etWidth etd 0) (rs.map Prod.fst)))

/-- TSTORE (R250). -/
def execTstore (c : Fin 4096) (s : State) : Outcome := .next (s.plainOp c 0x1E tstoreEff)

end Sys2Proof.Machine
end

