-- ==== Sys2Proof/Machine/Dispatch.lean ====
section
/-! DEFINITION. One arm per command: a direct call of its meaning. -/

namespace Sys2Proof.Machine

/-- The effect of a command on everything but the queue. -/
def exec (i : Instr) (s : State) : Host.Outcome State Fault Refusal :=
  match i with
  | .hostRead ld hpa mv tag ide => Sys2Proof.Machine.execHostRead ld hpa mv tag ide s
  | .hostWrite ld hpa mv tag mask data ide => Sys2Proof.Machine.execHostWrite ld hpa mv tag mask data ide s
  | .pullThroughDone page => Sys2Proof.Machine.execPullThroughDone page s
  | .pullThroughRaise page => Sys2Proof.Machine.execPullThroughRaise page s
  | .pullThroughDlMiss page => Sys2Proof.Machine.execPullThroughDlMiss page s
  | .streamPtBoundExpire r => Sys2Proof.Machine.execStreamPtBoundExpire r s
  | .mbSlotWindowExpire page => Sys2Proof.Machine.execMbSlotWindowExpire page s
  | .mbWriteSlotWaitEnd r => Sys2Proof.Machine.execMbWriteSlotWaitEnd r s
  | .slotRecodeStart page => Sys2Proof.Machine.execSlotRecodeStart page s
  | .recodeWriteDone page => Sys2Proof.Machine.execRecodeWriteDone page s
  | .leaseGrant x => Sys2Proof.Machine.execLeaseGrant x s
  | .leaseRenew x => Sys2Proof.Machine.execLeaseRenew x s
  | .leaseRelease x => Sys2Proof.Machine.execLeaseRelease x s
  | .leaseAttach x => Sys2Proof.Machine.execLeaseAttach x s
  | .leaseQuery x => Sys2Proof.Machine.execLeaseQuery x s
  | .leaseRevoke x => Sys2Proof.Machine.execLeaseRevoke x s
  | .accountSet x => Sys2Proof.Machine.execAccountSet x s
  | .accountQuery x => Sys2Proof.Machine.execAccountQuery x s
  | .extentRespread x => Sys2Proof.Machine.execExtentRespread x s
  | .accountBindAdd x => Sys2Proof.Machine.execAccountBindAdd x s
  | .accountBindRemove x => Sys2Proof.Machine.execAccountBindRemove x s
  | .spcHbWrite ld w off v => Sys2Proof.Machine.execSpcHbWrite ld w off v s
  | .leaseQuarterLeft h => Sys2Proof.Machine.execLeaseQuarterLeft h s
  | .leaseTimerExpire h => Sys2Proof.Machine.execLeaseTimerExpire h s
  | .leaseGraceExpire h => Sys2Proof.Machine.execLeaseGraceExpire h s
  | .leaseDrainEnd h => Sys2Proof.Machine.execLeaseDrainEnd h s
  | .drainBoundExpire h => Sys2Proof.Machine.execDrainBoundExpire h s
  | .tokenLockoutEnd ld => Sys2Proof.Machine.execTokenLockoutEnd ld s
  | .respreadPageMove e page => Sys2Proof.Machine.execRespreadPageMove e page s
  | .respreadPageMoved e page => Sys2Proof.Machine.execRespreadPageMoved e page s
  | .respreadPortalSwitch e => Sys2Proof.Machine.execRespreadPortalSwitch e s
  | .directoryWaitEnd r => Sys2Proof.Machine.execDirectoryWaitEnd r s
  | .snoopTimeout holder => Sys2Proof.Machine.execSnoopTimeout holder s
  | .holderSweepDone => Sys2Proof.Machine.execHolderSweepDone s
  | .pubBuild x => Sys2Proof.Machine.execPubBuild x s
  | .pubFlip x => Sys2Proof.Machine.execPubFlip x s
  | .pubOldReclaim e => Sys2Proof.Machine.execPubOldReclaim e s
  | .dirQuery x => Sys2Proof.Machine.execDirQuery x s
  | .train x => Sys2Proof.Machine.execTrain x s
  | .tableLoad x => Sys2Proof.Machine.execTableLoad x s
  | .tablePublish x => Sys2Proof.Machine.execTablePublish x s
  | .tableBind x => Sys2Proof.Machine.execTableBind x s
  | .tableRetire x => Sys2Proof.Machine.execTableRetire x s
  | .tableQuery x => Sys2Proof.Machine.execTableQuery x s
  | .recode x => Sys2Proof.Machine.execRecode x s
  | .vlrBind x => Sys2Proof.Machine.execVlrBind x s
  | .vlrDiscard x => Sys2Proof.Machine.execVlrDiscard x s
  | .tableSlotFreed slot => Sys2Proof.Machine.execTableSlotFreed slot s
  | .bgRecodePage page => Sys2Proof.Machine.execBgRecodePage page s
  | .vlrExpansionDone page => Sys2Proof.Machine.execVlrExpansionDone page s
  | .expansionQueueStart => Sys2Proof.Machine.execExpansionQueueStart s
  | .epochBoundary => Sys2Proof.Machine.execEpochBoundary s
  | .ageWalkerVisit page => Sys2Proof.Machine.execAgeWalkerVisit page s
  | .evictionPage page => Sys2Proof.Machine.execEvictionPage page s
  | .demotionDone page => Sys2Proof.Machine.execDemotionDone page s
  | .promotionDone page => Sys2Proof.Machine.execPromotionDone page s
  | .relocationDone page => Sys2Proof.Machine.execRelocationDone page s
  | .placePromote => Sys2Proof.Machine.execPlacePromote s
  | .placeDemote => Sys2Proof.Machine.execPlaceDemote s
  | .placeDiscard => Sys2Proof.Machine.execPlaceDiscard s
  | .placePin => Sys2Proof.Machine.execPlacePin s
  | .placeUnpin => Sys2Proof.Machine.execPlaceUnpin s
  | .policyActivate x => Sys2Proof.Machine.execPolicyActivate x s
  | .streamStart x => Sys2Proof.Machine.execStreamStart x s
  | .streamStop x => Sys2Proof.Machine.execStreamStop x s
  | .streamQuery x => Sys2Proof.Machine.execStreamQuery x s
  | .pagePin x => Sys2Proof.Machine.execPagePin x s
  | .pageUnpin x => Sys2Proof.Machine.execPageUnpin x s
  | .tierMovePromote x => Sys2Proof.Machine.execTierMovePromote x s
  | .tierMoveDemote x => Sys2Proof.Machine.execTierMoveDemote x s
  | .streamLayerPromote idx => Sys2Proof.Machine.execStreamLayerPromote idx s
  | .streamLayerResident idx layer => Sys2Proof.Machine.execStreamLayerResident idx layer s
  | .farReadDone page res => Sys2Proof.Machine.execFarReadDone page res s
  | .farRowProgramDone page journal => Sys2Proof.Machine.execFarRowProgramDone page journal s
  | .durWinExpire page journal => Sys2Proof.Machine.execDurWinExpire page journal s
  | .farProgramFail chan die band => Sys2Proof.Machine.execFarProgramFail chan die band s
  | .farEraseFail chan band => Sys2Proof.Machine.execFarEraseFail chan band s
  | .gcBandCopy page => Sys2Proof.Machine.execGcBandCopy page s
  | .bandErase band => Sys2Proof.Machine.execBandErase band s
  | .governorRefill => Sys2Proof.Machine.execGovernorRefill s
  | .journalCheckpoint => Sys2Proof.Machine.execJournalCheckpoint s
  | .farWearQuery x => Sys2Proof.Machine.execFarWearQuery x s
  | .farDieRetire x => Sys2Proof.Machine.execFarDieRetire x s
  | .add c => Sys2Proof.Machine.execAdd c s
  | .sub c => Sys2Proof.Machine.execSub c s
  | .mul c => Sys2Proof.Machine.execMul c s
  | .mulh c => Sys2Proof.Machine.execMulh c s
  | .and c => Sys2Proof.Machine.execAnd c s
  | .or c => Sys2Proof.Machine.execOr c s
  | .xor c => Sys2Proof.Machine.execXor c s
  | .shl c => Sys2Proof.Machine.execShl c s
  | .shr c => Sys2Proof.Machine.execShr c s
  | .sar c => Sys2Proof.Machine.execSar c s
  | .min c => Sys2Proof.Machine.execMin c s
  | .max c => Sys2Proof.Machine.execMax c s
  | .cmp c => Sys2Proof.Machine.execCmp c s
  | .li c => Sys2Proof.Machine.execLi c s
  | .lds c => Sys2Proof.Machine.execLds c s
  | .sts c => Sys2Proof.Machine.execSts c s
  | .vld c => Sys2Proof.Machine.execVld c s
  | .vst c => Sys2Proof.Machine.execVst c s
  | .vadd c => Sys2Proof.Machine.execVadd c s
  | .vmul c => Sys2Proof.Machine.execVmul c s
  | .vmac c => Sys2Proof.Machine.execVmac c s
  | .vmax c => Sys2Proof.Machine.execVmax c s
  | .vdot c => Sys2Proof.Machine.execVdot c s
  | .vred c => Sys2Proof.Machine.execVred c s
  | .vcvt c => Sys2Proof.Machine.execVcvt c s
  | .vscale c => Sys2Proof.Machine.execVscale c s
  | .mma c => Sys2Proof.Machine.execMma c s
  | .tzero c => Sys2Proof.Machine.execTzero c s
  | .tstore c => Sys2Proof.Machine.execTstore c s
  | .gather c => Sys2Proof.Machine.execGather c s
  | .scatter c => Sys2Proof.Machine.execScatter c s
  | .stream c => Sys2Proof.Machine.execStream c s
  | .putPortMessage c => Sys2Proof.Machine.execPutPortMessage c s
  | .putLineWrite c => Sys2Proof.Machine.execPutLineWrite c s
  | .fetchf c => Sys2Proof.Machine.execFetchf c s
  | .topkIns c => Sys2Proof.Machine.execTopkIns c s
  | .topkDrain c => Sys2Proof.Machine.execTopkDrain c s
  | .br c => Sys2Proof.Machine.execBr c s
  | .brc c => Sys2Proof.Machine.execBrc c s
  | .call c => Sys2Proof.Machine.execCall c s
  | .ret c => Sys2Proof.Machine.execRet c s
  | .loop c => Sys2Proof.Machine.execLoop c s
  | .yield c => Sys2Proof.Machine.execYield c s
  | .waitg c => Sys2Proof.Machine.execWaitg c s
  | .setg c => Sys2Proof.Machine.execSetg c s
  | .signal c => Sys2Proof.Machine.execSignal c s
  | .fence c => Sys2Proof.Machine.execFence c s
  | .trap c => Sys2Proof.Machine.execTrap c s
  | .halt c => Sys2Proof.Machine.execHalt c s
  | .illegalMajorOpcode c => Sys2Proof.Machine.execIllegalMajorOpcode c s
  | .asyncOpDone c op => Sys2Proof.Machine.execAsyncOpDone c op s
  | .fetchfDone c => Sys2Proof.Machine.execFetchfDone c s
  | .waitgReevaluate c => Sys2Proof.Machine.execWaitgReevaluate c s
  | .waitgTimeout c => Sys2Proof.Machine.execWaitgTimeout c s
  | .contextQuantumExpire c => Sys2Proof.Machine.execContextQuantumExpire c s
  | .contextSwapDone c => Sys2Proof.Machine.execContextSwapDone c s
  | .sheafLoad x => Sys2Proof.Machine.execSheafLoad x s
  | .sheafUnload x => Sys2Proof.Machine.execSheafUnload x s
  | .sheafQuery x => Sys2Proof.Machine.execSheafQuery x s
  | .ctxCancel x => Sys2Proof.Machine.execCtxCancel x s
  | .tlrRqTailWrite ld r v => Sys2Proof.Machine.execTlrRqTailWrite ld r v s
  | .tlrRqCfgEnable ld r v => Sys2Proof.Machine.execTlrRqCfgEnable ld r v s
  | .tlrCqCfgEnable ld r v => Sys2Proof.Machine.execTlrCqCfgEnable ld r v s
  | .tlrCqHeadWrite ld r v => Sys2Proof.Machine.execTlrCqHeadWrite ld r v s
  | .tlrSigPopWrite n v => Sys2Proof.Machine.execTlrSigPopWrite n v s
  | .descStart ld r => Sys2Proof.Machine.execDescStart ld r s
  | .descCancel ld r => Sys2Proof.Machine.execDescCancel ld r s
  | .descBarrier ld r => Sys2Proof.Machine.execDescBarrier ld r s
  | .descStartResume ld r => Sys2Proof.Machine.execDescStartResume ld r s
  | .cqCoalesceTimer ld r => Sys2Proof.Machine.execCqCoalesceTimer ld r s
  | .tillerShareReduce n ratio => Sys2Proof.Machine.execTillerShareReduce n ratio s
  | .tillerRestore n ratio => Sys2Proof.Machine.execTillerRestore n ratio s
  | .tlrDisWrite hi v => Sys2Proof.Machine.execTlrDisWrite hi v s
  | .tillerRuntimeFail n => Sys2Proof.Machine.execTillerRuntimeFail n s
  | .flitTransmit p => Sys2Proof.Machine.execFlitTransmit p s
  | .flitDataRx p flit => Sys2Proof.Machine.execFlitDataRx p flit s
  | .flitIdleRx p flit => Sys2Proof.Machine.execFlitIdleRx p flit s
  | .flitNakRx p flit => Sys2Proof.Machine.execFlitNakRx p flit s
  | .flitMarkerRx p epoch tag => Sys2Proof.Machine.execFlitMarkerRx p epoch tag s
  | .portNoFlitTimeout p => Sys2Proof.Machine.execPortNoFlitTimeout p s
  | .portRetrainTimer p => Sys2Proof.Machine.execPortRetrainTimer p s
  | .keyEpochAdvance p => Sys2Proof.Machine.execKeyEpochAdvance p s
  | .linkWeightUpdate => Sys2Proof.Machine.execLinkWeightUpdate s
  | .routeSplitUpdate => Sys2Proof.Machine.execRouteSplitUpdate s
  | .msgRd m => Sys2Proof.Machine.execMsgRd m s
  | .msgWr m => Sys2Proof.Machine.execMsgWr m s
  | .msgWrp m => Sys2Proof.Machine.execMsgWrp m s
  | .msgAtom m => Sys2Proof.Machine.execMsgAtom m s
  | .msgPlace m => Sys2Proof.Machine.execMsgPlace m s
  | .msgSnpinv m => Sys2Proof.Machine.execMsgSnpinv m s
  | .msgSnpdata m => Sys2Proof.Machine.execMsgSnpdata m s
  | .msgSnpcur m => Sys2Proof.Machine.execMsgSnpcur m s
  | .msgData m => Sys2Proof.Machine.execMsgData m s
  | .msgCmp m => Sys2Proof.Machine.execMsgCmp m s
  | .msgBirsp m => Sys2Proof.Machine.execMsgBirsp m s
  | .msgWbk m => Sys2Proof.Machine.execMsgWbk m s
  | .msgMirror m => Sys2Proof.Machine.execMsgMirror m s
  | .msgClose m => Sys2Proof.Machine.execMsgClose m s
  | .msgJrnl m recs => Sys2Proof.Machine.execMsgJrnl m recs s
  | .msgJack m => Sys2Proof.Machine.execMsgJack m s
  | .msgMemb m b => Sys2Proof.Machine.execMsgMemb m b s
  | .msgCopy m b => Sys2Proof.Machine.execMsgCopy m b s
  | .msgGasp m => Sys2Proof.Machine.execMsgGasp m s
  | .msgMack m => Sys2Proof.Machine.execMsgMack m s
  | .msgReservedOp op m => Sys2Proof.Machine.execMsgReservedOp op m s
  | .mirrorMackTimeout r => Sys2Proof.Machine.execMirrorMackTimeout r s
  | .fabricReqTimeout r => Sys2Proof.Machine.execFabricReqTimeout r s
  | .formationRetry => Sys2Proof.Machine.execFormationRetry s
  | .memberDeclareAbsent m elapsedMs => Sys2Proof.Machine.execMemberDeclareAbsent m elapsedMs s
  | .takeoverReplicaActive m => Sys2Proof.Machine.execTakeoverReplicaActive m s
  | .moduleRejoin m serial spaceId => Sys2Proof.Machine.execModuleRejoin m serial spaceId s
  | .resyncPageCopy page => Sys2Proof.Machine.execResyncPageCopy page s
  | .witnessHoldExpire w => Sys2Proof.Machine.execWitnessHoldExpire w s
  | .formQuery x => Sys2Proof.Machine.execFormQuery x s
  | .formAdopt x => Sys2Proof.Machine.execFormAdopt x s
  | .witnessForce x => Sys2Proof.Machine.execWitnessForce x s
  | .linkRetrain x => Sys2Proof.Machine.execLinkRetrain x s
  | .resyncQuery x => Sys2Proof.Machine.execResyncQuery x s
  | .qosClassSet x => Sys2Proof.Machine.execQosClassSet x s
  | .qosReserve x => Sys2Proof.Machine.execQosReserve x s
  | .qosQuery x => Sys2Proof.Machine.execQosQuery x s
  | .qosWindowEnd => Sys2Proof.Machine.execQosWindowEnd s
  | .rtUrgencyChange m level chan => Sys2Proof.Machine.execRtUrgencyChange m level chan s
  | .refreshDue n rank => Sys2Proof.Machine.execRefreshDue n rank s
  | .forcedRefreshDone n rank => Sys2Proof.Machine.execForcedRefreshDone n rank s
  | .refreshRatePoll n rate => Sys2Proof.Machine.execRefreshRatePoll n rate s
  | .writeQueueDrain n => Sys2Proof.Machine.execWriteQueueDrain n s
  | .retrainPeriodExpire n => Sys2Proof.Machine.execRetrainPeriodExpire n s
  | .retrainTempQueue n temp => Sys2Proof.Machine.execRetrainTempQueue n temp s
  | .retrainStart n => Sys2Proof.Machine.execRetrainStart n s
  | .retrainDone n dly rd wr temp => Sys2Proof.Machine.execRetrainDone n dly rd wr temp s
  | .drcRetrainGo v => Sys2Proof.Machine.execDrcRetrainGo v s
  | .channelSlowDetect n => Sys2Proof.Machine.execChannelSlowDetect n s
  | .channelSlowClear n => Sys2Proof.Machine.execChannelSlowClear n s
  | .broomStart x => Sys2Proof.Machine.execBroomStart x s
  | .broomPageVisit page => Sys2Proof.Machine.execBroomPageVisit page s
  | .broomQuery x => Sys2Proof.Machine.execBroomQuery x s
  | .retire x => Sys2Proof.Machine.execRetire x s
  | .chaffQuery x => Sys2Proof.Machine.execChaffQuery x s
  | .moverCopy x => Sys2Proof.Machine.execMoverCopy x s
  | .moverCtlResume x => Sys2Proof.Machine.execMoverCtlResume x s
  | .moverCtlAbort x => Sys2Proof.Machine.execMoverCtlAbort x s
  | .moverCopyChunk m lines => Sys2Proof.Machine.execMoverCopyChunk m lines s
  | .parityDeltaApply n chunk => Sys2Proof.Machine.execParityDeltaApply n chunk s
  | .stripeReconstruct n chunk => Sys2Proof.Machine.execStripeReconstruct n chunk s
  | .intErrqPopWrite v => Sys2Proof.Machine.execIntErrqPopWrite v s
  | .captureReleaseWrite off v => Sys2Proof.Machine.execCaptureReleaseWrite off v s
  | .huskLaneShareReduce n ratio => Sys2Proof.Machine.execHuskLaneShareReduce n ratio s
  | .huskLaneRestore n ratio => Sys2Proof.Machine.execHuskLaneRestore n ratio s
  | .hskLaneDisWrite v => Sys2Proof.Machine.execHskLaneDisWrite v s
  | .spreadMemberSlow e m => Sys2Proof.Machine.execSpreadMemberSlow e m s
  | .keyQuery x => Sys2Proof.Machine.execKeyQuery x s
  | .accountErase x => Sys2Proof.Machine.execAccountErase x s
  | .spaceKeyRoll x => Sys2Proof.Machine.execSpaceKeyRoll x s
  | .keySlotEmptied slot => Sys2Proof.Machine.execKeySlotEmptied slot s
  | .entropyHealthFail => Sys2Proof.Machine.execEntropyHealthFail s
  | .getVersion who data => Sys2Proof.Machine.execGetVersion who data s
  | .getCapabilities who data => Sys2Proof.Machine.execGetCapabilities who data s
  | .negotiateAlgorithms who data => Sys2Proof.Machine.execNegotiateAlgorithms who data s
  | .getDigests who data => Sys2Proof.Machine.execGetDigests who data s
  | .getCertificate who data => Sys2Proof.Machine.execGetCertificate who data s
  | .challenge who data => Sys2Proof.Machine.execChallenge who data s
  | .getMeasurements who data => Sys2Proof.Machine.execGetMeasurements who data s
  | .keyExchange who data => Sys2Proof.Machine.execKeyExchange who data s
  | .finish who sess verified data => Sys2Proof.Machine.execFinish who sess verified data s
  | .heartbeat who sess => Sys2Proof.Machine.execHeartbeat who sess s
  | .keyUpdate who sess data => Sys2Proof.Machine.execKeyUpdate who sess data s
  | .endSession who sess => Sys2Proof.Machine.execEndSession who sess s
  | .spdmHeartbeatTimeout who sess => Sys2Proof.Machine.execSpdmHeartbeatTimeout who sess s
  | .vendorDefinedRequest who sess std vendor payload => Sys2Proof.Machine.execVendorDefinedRequest who sess std vendor payload s
  | .ideKm p ld sess go data => Sys2Proof.Machine.execIdeKm p ld sess go data s
  | .esuEdgeArrive n ld => Sys2Proof.Machine.execEsuEdgeArrive n ld s
  | .esuLevelChange n => Sys2Proof.Machine.execEsuLevelChange n s
  | .esuGroupTimerExpire g => Sys2Proof.Machine.execEsuGroupTimerExpire g s
  | .esuClaimRead view t => Sys2Proof.Machine.execEsuClaimRead view t s
  | .esuCompleteWrite view t v => Sys2Proof.Machine.execEsuCompleteWrite view t v s
  | .esuThreshWrite view t v => Sys2Proof.Machine.execEsuThreshWrite view t v s
  | .esuSrcWrite view n v => Sys2Proof.Machine.execEsuSrcWrite view n v s
  | .msixVectorUnmask ld en fmask vmask => Sys2Proof.Machine.execMsixVectorUnmask ld en fmask vmask s
  | .functionLevelReset ld => Sys2Proof.Machine.execFunctionLevelReset ld s
  | .ldResetDrainEnd ld => Sys2Proof.Machine.execLdResetDrainEnd ld s
  | .stookSpill => Sys2Proof.Machine.execStookSpill s
  | .stookArchive ok => Sys2Proof.Machine.execStookArchive ok s
  | .stookSummaryEmit code => Sys2Proof.Machine.execStookSummaryEmit code s
  | .stkRead x => Sys2Proof.Machine.execStkRead x s
  | .freeze x => Sys2Proof.Machine.execFreeze x s
  | .freezeThaw x => Sys2Proof.Machine.execFreezeThaw x s
  | .gaspRead x => Sys2Proof.Machine.execGaspRead x s
  | .stkCtlFreeze v => Sys2Proof.Machine.execStkCtlFreeze v s
  | .stkCtlThaw v => Sys2Proof.Machine.execStkCtlThaw v s
  | .stkCtlGaspClr v => Sys2Proof.Machine.execStkCtlGaspClr v s
  | .freezeTimeout => Sys2Proof.Machine.execFreezeTimeout s
  | .stookSramFail first last => Sys2Proof.Machine.execStookSramFail first last s
  | .identify x => Sys2Proof.Machine.execIdentify x s
  | .backgroundOperationStatus x => Sys2Proof.Machine.execBackgroundOperationStatus x s
  | .getEventRecords x => Sys2Proof.Machine.execGetEventRecords x s
  | .clearEventRecords x => Sys2Proof.Machine.execClearEventRecords x s
  | .getFwInfo x => Sys2Proof.Machine.execGetFwInfo x s
  | .transferFw x => Sys2Proof.Machine.execTransferFw x s
  | .activateFw x => Sys2Proof.Machine.execActivateFw x s
  | .getTimestamp x => Sys2Proof.Machine.execGetTimestamp x s
  | .setTimestamp x => Sys2Proof.Machine.execSetTimestamp x s
  | .getSupportedLogs x => Sys2Proof.Machine.execGetSupportedLogs x s
  | .getLog x => Sys2Proof.Machine.execGetLog x s
  | .identifyMemoryDevice x => Sys2Proof.Machine.execIdentifyMemoryDevice x s
  | .getHealthInfo x => Sys2Proof.Machine.execGetHealthInfo x s
  | .getPoisonList x => Sys2Proof.Machine.execGetPoisonList x s
  | .injectPoison x => Sys2Proof.Machine.execInjectPoison x s
  | .clearPoison x => Sys2Proof.Machine.execClearPoison x s
  | .mailboxUnsupported x opcode => Sys2Proof.Machine.execMailboxUnsupported x opcode s
  | .hdmDecoderCommit ld idx base size => Sys2Proof.Machine.execHdmDecoderCommit ld idx base size s
  | .uioRequest ld hpa write tag mask data => Sys2Proof.Machine.execUioRequest ld hpa write tag mask data s
  | .hostLinkDown p => Sys2Proof.Machine.execHostLinkDown p s
  | .hpnPerstAssert p => Sys2Proof.Machine.execHpnPerstAssert p s
  | .hostCablePresent p => Sys2Proof.Machine.execHostCablePresent p s
  | .hostLinkUp p width => Sys2Proof.Machine.execHostLinkUp p width s
  | .l0pWidthChange p width => Sys2Proof.Machine.execL0pWidthChange p width s
  | .setEndpointId eid => Sys2Proof.Machine.execSetEndpointId eid s
  | .mctpPacket binding data => Sys2Proof.Machine.execMctpPacket binding data s
  | .getLdInfo data => Sys2Proof.Machine.execGetLdInfo data s
  | .getLdAllocations data => Sys2Proof.Machine.execGetLdAllocations data s
  | .getQosStatus data => Sys2Proof.Machine.execGetQosStatus data s
  | .dozeEnter x => Sys2Proof.Machine.execDozeEnter x s
  | .dozeEntryStepDone => Sys2Proof.Machine.execDozeEntryStepDone s
  | .dozeExit x => Sys2Proof.Machine.execDozeExit x s
  | .dozeExitDone => Sys2Proof.Machine.execDozeExitDone s
  | .idleEntry => Sys2Proof.Machine.execIdleEntry s
  | .railEvaluate mv => Sys2Proof.Machine.execRailEvaluate mv s
  | .throttleSample inputW tj => Sys2Proof.Machine.execThrottleSample inputW tj s
  | .throttleRaise => Sys2Proof.Machine.execThrottleRaise s
  | .thermalShutdown => Sys2Proof.Machine.execThermalShutdown s
  | .warmReset x => Sys2Proof.Machine.execWarmReset x s
  | .moduleReset x => Sys2Proof.Machine.execModuleReset x s
  | .channelReset x => Sys2Proof.Machine.execChannelReset x s
  | .seedWrite x => Sys2Proof.Machine.execSeedWrite x s
  | .seedWriteEnd x => Sys2Proof.Machine.execSeedWriteEnd x s
  | .seedQuery x => Sys2Proof.Machine.execSeedQuery x s
  | .mgmtWatchdogExpire => Sys2Proof.Machine.execMgmtWatchdogExpire s
  | .modPwrgdRise => Sys2Proof.Machine.execModPwrgdRise s
  | .modPwrgdFall => Sys2Proof.Machine.execModPwrgdFall s
  | .inputUndervoltage => Sys2Proof.Machine.execInputUndervoltage s
  | .powerLossFlushDone => Sys2Proof.Machine.execPowerLossFlushDone s
  | .inputReturnStable => Sys2Proof.Machine.execInputReturnStable s
  | .modResetAssert => Sys2Proof.Machine.execModResetAssert s
  | .modResetRelease => Sys2Proof.Machine.execModResetRelease s
  | .bootStepDone ms ok => Sys2Proof.Machine.execBootStepDone ms ok s
  | .refclkLoss => Sys2Proof.Machine.execRefclkLoss s
  | .refclkLossReset => Sys2Proof.Machine.execRefclkLossReset s
  | .hedgerowCageInsert p mw => Sys2Proof.Machine.execHedgerowCageInsert p mw s
  | .registerWrite view off v => Sys2Proof.Machine.execRegisterWrite view off v s
  | .hedgerowPortUp p lanes spaceId nmod nport => Sys2Proof.Machine.execHedgerowPortUp p lanes spaceId nmod nport s
  | .hostCleanEvict ld hpa => Sys2Proof.Machine.execHostCleanEvict ld hpa s
  | .hostBirsp ld line lines rsp wb => Sys2Proof.Machine.execHostBirsp ld line lines rsp wb s
  | .hpnPerstRelease p => Sys2Proof.Machine.execHpnPerstRelease p s
  | .hostCableRemoved p => Sys2Proof.Machine.execHostCableRemoved p s
  | .referenceLock => Sys2Proof.Machine.execReferenceLock s
  | .globalPersistentFlush p phase => Sys2Proof.Machine.execGlobalPersistentFlush p phase s

end Sys2Proof.Machine
end

