-- ==== Sys2Proof/Machine/Idle.lean ====
section
/-! DEFINITION. What goes on while no command waits: the clock, the husk lanes, the die queues and the recodes (log entries 2 and 28). -/

namespace Sys2Proof.Machine

open Sys2Proof

/-- Reads that found every lane queue of their kind full are dispatched again, in the lanes' grant order (R156, R349). -/
def State.lanesGo (s : State) : State := if s.reqs.any (waitsFor .lane) then s.wakeAt 97 9 (waitsFor .lane) else s

/-- A nanosecond without a command: the timebase counts (R516), the lanes work their queues down (R155), the dies take reads (R209), what waited
for the lanes or for a page's bytes goes on, a TRAIN ends (R164), a copy that waits takes a free mover (R111), a FETCHF of another module is tried again (R255), a context that was inside a load
moves from a tiller that is out (R262, R296), pages of a retired key slot are unwritten (R426), and home roles are taken back (R336). -/
def State.idle (s : State) : State := s.tick.drainLanes.diesGo.lanesGo.recodesGo.trainsGo.buildGo.fetchesGo.moveCtxs.keysGo.rolesGo

end Sys2Proof.Machine
end

