-- ==== Sys2Proof/Machine/RegRead.lean ====
section
/-! DEFINITION. What a read of a register returns (spec/19_register_index.md R534; the register descriptions at the end of each chapter): the value held,
with every read-only field that shows other state computed from that state. No row of the opcode table reads a register but ESU_CLAIM_READ, whose
effect is its own command; these are the values that software sees. -/

namespace Sys2Proof.Machine

open Sys2Proof

/-- Fields (high bit, low bit, value) laid over a value. -/
def overFields (v : Nat) (l : List (Nat × Nat × Nat)) : Nat := l.foldl (fun a f => Sys2Proof.Machine.setBits a f.1 f.2.1 f.2.2) v

/-- 1 for true. -/
def bit (b : Bool) : Nat := if b then 1 else 0

/-- An integer as a two's complement field of n bits. -/
def twos (n : Nat) (v : Int) : Nat := (v % 2 ^ n).toNat

/-- Bytes 8i to 8i + 7 of a run of bytes. -/
def qword (d : Bytes) (i : Nat) : Nat := leAt d (8 * i) 8

/-! ## Memory space, directory, husks -/

/-- SPC_ registers; the lease status of a window is that of the LD whose view reads it. Where an orphaned lease's former window has taken a new lease, the
first lease in the order of the table shows (log entry 98). -/
def State.showSpc (s : State) (ld : Option Nat) (off : Nat) : List (Nat × Nat × Nat) :=
  let a := s.fld 0x300040 7 0
  if off = 0x300000 then [(23, 16, s.hdg.live.length), (15, 8, s.hdg.size), (5, 0, s.me)]
  else if off = 0x300010 then [(39, 0, s.freePool)]
  else if off = 0x300018 then [(63, 40, s.emergUsed / 65536), (39, 0, s.emergSize)]
  else if off = 0x300048 then [(63, 63, bit (s.acct a).lossless), (39, 0, (s.acct a).b)]
  else if off = 0x300050 then [(39, 0, (s.acct a).z)]
  else if off = 0x300058 then [(39, 0, s.granted_ a)]
  else if off = 0x300060 then [(40, 0, twos 41 (s.overage a))]
  else if 0x300100 ≤ off ∧ off < 0x300140 then
    match ld, s.spc.leases.find? fun l => l.2.lastLd == ld.getD 64 && l.2.window == (off - 0x300100) / 8 && l.2.st != .closed with
    | some _, some l => [(63, 61, leaseCode l.2.st), (41, 32, (s.leaseUntil l.1 l.2 - s.now) / 10 ^ 9), (31, 0, l.1)]
    | _, _ => []
  else []

/-- DIR_ registers. -/
def State.showDir (s : State) (off : Nat) : List (Nat × Nat × Nat) :=
  if off = 0x400000 then [(54, 48, s.dir.vbuf.length), (43, 32, s.trkUsed), (24, 0, s.dirValid)]
  else if off = 0x400060 then [(63, 63, bit s.dir.sweepBusy), (11, 0, s.dir.sweepHolder)]
  else []

/-- The 1 KiB of a code-table slot (Table 4-8); zeros for a FREE slot. -/
def tableBytes (t : Table) : Bytes :=
  let n := alphabet t.cls
  let ls := t.lens.take n
  let d := toLe 1 t.cls ++ toLe 1 (if n = 32 then 1 else 0) ++ toLe 1 t.gen ++ toLe 1 (ls.foldl max 0) ++ toLe 4 t.elems ++ toLe 8 t.wall
    ++ ((List.range 128).flatMap fun i => toLe 1 ((t.lens[2 * i]?).getD 0 + 16 * (t.lens[2 * i + 1]?).getD 0))
    ++ ((List.range 16).flatMap fun l => toLe 2 (if l = 0 then 0 else (symsOf ls l).length))
    ++ ((firstCodes ls).flatMap fun c => toLe 2 c)
    ++ (((List.range 16).drop 1).flatMap fun l => (symsOf ls l).flatMap fun v => toLe 1 v)
  let d := d ++ zeros (1020 - d.length)
  d ++ toLe 4 (crc32 d)

/-- HSK_ registers. -/
def State.showHsk (s : State) (off : Nat) : List (Nat × Nat × Nat) :=
  let slot := s.fld 0x500040 5 0
  if off = 0x500018 then
    [(44, 32, s.bgSlots), (28, 16, (s.husk.slots.filter fun x => x.ph == .recoding).length),
     (12, 0, (s.husk.slots.filter fun x => x.ph != .recoding).length)]
  else if off = 0x500048 then
    [(63, 62, s.tableSt slot), (59, 56, s.tableGen slot), (55, 52, (look s.husk.tables slot).elim 0 fun t => t.cls),
     (47, 32, (s.spc.extents.filter fun e => isExp e.2.cls && e.2.tslot == slot && (modulesOf e.1 e.2).contains s.me).length),
     (31, 0, s.huskCount slot)]
  else if 0x500200 ≤ off ∧ off < 0x500300 then
    let n := (off - 0x500200) / 8
    [(63, 63, bit (s.laneDis n)), (62, 62, bit (s.lane n).reduced), (47, 32, (s.lane n).ratio), (8, 0, (s.lane n).work.length)]
  else if 0x501000 ≤ off ∧ off < 0x501400 then
    match look s.husk.tables slot with
    | some t => if t.st = 0 then [] else [(63, 0, qword (tableBytes t) ((off - 0x501000) / 8))]
    | none => []
  else []

/-! ## Tiers -/

/-- TIER_ registers; an LD sees its own schedules only. -/
def State.showTier (s : State) (ld : Option Nat) (off : Nat) : List (Nat × Nat × Nat) :=
  let a := s.fld 0x600040 7 0
  let c := (look s.tier.scheds (bits (s.regB (ld.elim 0 (1 + ·)) 0x600100) 4 0)).filter fun c => ld.all fun d => c.ld == d
  if off = 0x600000 then [(31, 0, s.tier.epoch)]
  else if off = 0x600018 then [(63, 32, s.freeUnits), (31, 0, s.nearPool / 512)]
  else if off = 0x600020 then [(63, 63, bit (s.tier.policy == 0)), (44, 32, s.tier.hooks.length), (31, 0, s.tier.policy)]
  else if off = 0x600048 then [(39, 0, (s.acct a).floor)]
  else if off = 0x600050 then [(63, 40, s.pinnedOf a / 65536), (39, 0, s.acctNear a)]
  else if off = 0x600058 then [(47, 0, (s.acct a).moved)]
  else if off = 0x600108 then [(63, 0, c.elim 0 strmStat)]
  else if off = 0x600110 then [(31, 0, c.elim 0 fun c => c.late)]
  else []

/-- FAR_ registers: die n is die index n / 24 of channel n mod 24. -/
def State.showFar (s : State) (off : Nat) : List (Nat × Nat × Nat) :=
  let count (st : Nat) : Nat := ((List.range s.bandCount).filter fun b => (s.band b).st == st).length
  if off = 0x700018 then [(39, 0, twos 40 (s.govLevel / 4096))]
  else if off = 0x700020 then [(63, 48, count 3), (47, 32, count 2), (31, 16, s.freeBands), (15, 0, s.bandCount)]
  else if 0x700200 ≤ off ∧ off < 0x700500 then
    let n := (off - 0x700200) / 8
    if n ≥ s.dieCount then [(63, 62, 3)]
    else
      let e := ((List.range s.bandCount).filter fun b => dieIdx b == n / 24).map fun b => (s.band b).erase
      [(63, 62, (s.die n).st), (43, 32, (s.die n).spares), (31, 16, e.foldl max 0), (15, 0, e.foldl (· + ·) 0 / max e.length 1)]
  else []

/-! ## Tillers -/

/-- TLR_ registers. -/
def State.showTlr (s : State) (ld : Option Nat) (off : Nat) : List (Nat × Nat × Nat) :=
  if 0x800000 ≤ off ∧ off < 0x980000 then
    let n := (off - 0x800000) / 0x4000
    let o := off % 0x4000
    let t := s.tiller n
    if o = 0 then
      [(63, 62, if s.tlrDis n then 3 else if t.failed then 2 else bit t.reduced), (47, 32, t.ratio), (19, 16, (s.residents n).length), (12, 0, s.assigned n)]
    else if o = 8 then
      match t.sig with
      | r :: _ => [(63, 63, 1), (34, 0, r.1)]
      | [] => []
    else if o = 0x10 then
      match t.sig with
      | r :: _ => [(63, 0, r.2.toNat)]
      | [] => []
    else if 0x100 ≤ o ∧ o < 0x140 then
      match (s.residents n)[(o - 0x100) / 8]? with
      | some (c, x) => [(63, 63, 1), (62, 61, bit (x.wait != .run)), (47, 40, x.scratchLen / 4096), (34, 0, s.ctxId c x)]
      | none => []
    else []
  else if off = 0x980010 then
    let res := s.tlr.ctxs.filter fun e => e.2.resident
    let run := s.tlr.ctxs.filter fun e => e.2.waiting
    [(60, 48, s.tlr.ctxs.length - res.length), (41, 32, res.length), (28, 16, run.length), (12, 0, s.tlr.ctxs.length)]
  else if 0x990000 ≤ off ∧ off < 0x990400 then
    match ld with
    | none => []
    | some d =>
      let r := s.ring d ((off - 0x990000) / 0x100)
      let o := off % 0x100
      if o = 8 then [(62, 62, bit r.err), (61, 61, bit r.waitCtx)]
      else if o = 0x18 then [(15, 0, r.head)]
      else if o = 0x28 then [(62, 62, bit r.cqErr)]
      else if o = 0x30 then [(15, 0, r.cqHead)]
      else if o = 0x38 then [(16, 16, bit r.phase), (15, 0, r.cqTail)]
      else []
  else []

/-! ## Hedgerow, regulation, DRAM -/

/-- HDG_ registers. -/
def State.showHdg (s : State) (off : Nat) : List (Nat × Nat × Nat) :=
  let h := s.hdg
  let w (i : Nat) : Nat := (h.wits[i]?).getD 0
  if off = 0x200000 then [(10, 8, if h.formed then h.formZ else 0), (5, 4, coordZ s.me), (3, 2, coordY s.me), (1, 0, coordX s.me)]
  else if off = 0x200010 then
    [(63, 32, h.epoch), (31, 31, bit h.formed), (30, 30, bit h.quorum), (29, 29, bit h.bench), (6, 0, h.live.length)]
  else if off = 0x200018 then [(63, 0, maskOf h.live)]
  else if off = 0x200020 then [(63, 0, s.reachMask)]
  else if off = 0x200040 then [(63, 32, h.witEpoch), (17, 12, w 2), (11, 6, w 1), (5, 0, w 0)]
  else if off = 0x200048 then [(63, 62, h.twinState), (61, 61, bit (!s.twinLive)), (37, 0, h.resync.length)]
  else if off = 0x200050 then [(63, 0, h.spaceId)]
  else if 0x200200 ≤ off ∧ off < 0x200230 then
    let p := (off - 0x200200) / 8
    let x := s.hport p
    [(63, 61, x.st), (60, 59, x.width), (58, 56, x.nport), (55, 50, x.nmod), (49, 48, s.urgOf p), (43, 32, x.effWeight)]
  else []

/-- QOS_ registers. -/
def State.showQos (s : State) (off : Nat) : List (Nat × Nat × Nat) :=
  let h := s.fld 0xA00048 15 0
  let c := s.fld 0xA00048 18 16
  let urgs (f n : Nat) : Nat := sumOf (List.range n) fun i => s.urgOf (f + i) * 4 ^ i
  if off = 0xA00050 then [(57, 56, (s.classP h c).rank), (55, 48, (s.classP h c).weight), (19, 0, (s.classP h c).target)]
  else if off = 0xA00058 then
    [(63, 63, bit (s.qos.resv.any fun e => e.2.holder == h && e.2.cls == c && e.2.missed)), (62, 62, bit (s.latOf h c).missed),
     (55, 32, (s.latOf h c).last / 100), (31, 0, (s.latOf h c).lateSum)]
  else if off = 0xA00060 then [(27, 20, urgs 10 4), (19, 12, urgs 6 4), (11, 0, urgs 0 6)]
  else if 0xA00100 ≤ off ∧ off < 0xA00178 then [(63, 40, s.dRate ((off - 0xA00100) / 8)), (23, 0, s.pubFloor ((off - 0xA00100) / 8))]
  else if 0xA00180 ≤ off ∧ off < 0xA001F8 then
    let r := (off - 0xA00180) / 8
    [(62, 42, s.admitted r 3), (41, 21, s.admitted r 2), (20, 0, s.admitted r 1)]
  else if 0xA00200 ≤ off ∧ off < 0xA00278 then
    let r := (off - 0xA00200) / 8
    [(44, 32, s.scale12 r 1), (28, 16, s.scale12 r 2), (12, 0, s.scale12 r 3)]
  else if 0xA00400 ≤ off ∧ off < 0xA00600 then [(23, 0, (look s.qos.lmap ((off - 0xA00400) / 8)).getD lmapId)]
  else []

/-- DRC_ registers. -/
def State.showDrc (s : State) (off : Nat) : List (Nat × Nat × Nat) :=
  if 0xB00000 ≤ off ∧ off < 0xB60000 then
    let n := (off - 0xB00000) / 0x1000
    let c := s.chan n
    if off % 0x1000 = 0 then
      [(63, 61, c.st), (60, 60, bit c.slow), (56, 52, twos 5 c.owed1), (51, 47, twos 5 c.owed0), (46, 45, c.rate), (39, 32, c.temp), (6, 0, c.wq.length)]
    else if off % 0x1000 = 0x10 then [(31, 24, c.wrMin), (23, 16, c.rdMin), (15, 0, min ((s.now - c.lastTrain) / 10 ^ 6) 65535)]
    else []
  else if off = 0xB80020 then [(63, 63, bit (!s.near.retrainQ.isEmpty || s.near.chans.any fun e => e.2.st == 4)), (14, 8, s.near.retrainActive)]
  else if off = 0xB80028 then [(6, 0, s.liveChans)]
  else []

/-! ## Integrity, security, events, recorder -/

/-- INT_ and SEC_ registers. -/
def State.showInt (s : State) (off : Nat) : List (Nat × Nat × Nat) :=
  if off = 0xC00050 then [(5, 0, s.integ.errq.length)]
  else if off = 0xC00058 then
    match s.integ.errq with
    | q :: _ => [(63, 63, 1), (47, 32, q.num), (31, 16, q.ref), (15, 8, q.synd), (7, 0, q.src)]
    | [] => []
  else if off = 0xC00068 then [(48, 48, bit (decide (65536 ≤ s.integ.plist.length))), (16, 0, s.integ.plist.length)]
  else if 0xC00200 ≤ off ∧ off < 0xC00280 then
    let m := s.mover ((off - 0xC00200) / 8)
    [(63, 61, m.st), (60, 53, m.synd), (43, 0, m.done)]
  else if off = 0xD00048 then
    let k := s.fld 0xD00040 8 0
    [(63, 62, s.keySt k), (47, 32, s.keyExtents k), (31, 0, s.keyPages k)]
  else []

/-- ESU_ registers: a source that is not directed has one instance; an LD sees its own instance of a directed one, the module's views the OR over
all instances. -/
def State.showEsu (s : State) (ld : Option Nat) (off : Nat) : List (Nat × Nat × Nat) :=
  if 0xE01000 ≤ off ∧ off < 0xE01200 then [(55, 48, ((look s.esu.grps ((off - 0xE01000) / 8)).getD (0, 0)).1)]
  else if 0xE02000 ≤ off ∧ off < 0xE04000 then
    let n := (off - 0xE02000) / 8
    let b := s.srcBits n (if directed n then ld.getD 0 else 0)
    let some_ (f : EsuBits → Bool) : Bool := if directed n && ld.isNone then (List.range 64).any fun m => f (s.srcBits n m) else f b
    [(63, 63, bit (some_ EsuBits.pend)), (62, 62, bit (some_ EsuBits.active)), (61, 61, bit b.input), (60, 60, bit (directed n)),
     (59, 59, bit (directed n))]
  else if 0xE10000 ≤ off ∧ off < 0xE14400 ∧ off % 0x100 = 0x10 then
    let t := (off - 0xE10000) / 0x100
    [(41, 32, ((s.stackOf t).head?).elim 0 Prod.snd), (28, 24, (s.stackOf t).length), (3, 0, s.thresh t)]
  else []

/-- The bytes of a slot of the recorder memory: the record of its place among the working slots, zeros otherwise. -/
def State.sramSlot (s : State) (k : Nat) : Bytes :=
  if s.slotBad k then zeros 64
  else (s.stk.sram[((List.range k).filter fun i => !s.slotBad i).length]?).elim (zeros 64) fun r => r.1.bytes

/-- STK_ registers. -/
def State.showStk (s : State) (off : Nat) : List (Nat × Nat × Nat) :=
  if off = 0xF00000 then [(63, 0, s.stk.next)]
  else if off = 0xF00018 then
    [(63, 63, bit s.stk.frozenAt.isSome), (62, 62, bit (!s.stk.gasp.isEmpty)), (61, 61, bit s.stk.archErr), (56, 48, s.stk.held.length),
     (45, 40, s.stk.gasp.length), (14, 0, s.stk.failed)]
  else if 0xF01000 ≤ off ∧ off < 0xF01800 then
    [(63, 0, qword ((s.stk.gasp[(off - 0xF01000) / 64]?).elim (zeros 64) SRec.bytes) ((off - 0xF01000) / 8 % 8))]
  else if 0xF80000 ≤ off ∧ off < 0xF90000 then
    [(63, 0, qword (s.sramSlot (1024 * s.fld 0xF00048 3 0 + (off - 0xF80000) / 64)) ((off - 0xF80000) / 8 % 8))]
  else []

/-! ## Host ports, power, timebase -/

/-- HP_, PWR_ and TMB_ registers. An LD of a port is bound to a host while the port is up. -/
def State.showHost (s : State) (off : Nat) : List (Nat × Nat × Nat) :=
  if 0x100200 ≤ off ∧ off < 0x100220 then
    let p := (off - 0x100200) / 8
    let x := s.portH p
    [(63, 61, x.st), (60, 56, x.width), (55, 51, x.trained), (50, 50, bit (s.sec.ide.contains p)), (47, 32, if x.st = 2 then 65535 else 0)]
  else if 0x100400 ≤ off ∧ off < 0x100600 then
    let n := (off - 0x100400) / 8
    [(63, 63, bit (s.esu.msixEn.contains n)), (62, 61, ((List.range 2).filter fun i => look s.sec.sessions (n * 2 + i) == some 2).length),
     (55, 48, sumOf ((List.range 8).filter fun w => (look s.spc.windows (n * 8 + w)).isSome) fun w => 2 ^ w),
     (3, 0, (s.spc.leases.filter fun l => l.2.ld == some n && l.2.st == .active).length)]
  else if off = 0x1000000 then
    [(63, 61, s.pwr.state), (60, 58, s.pwr.last), (57, 57, bit (s.pwr.fwBank == 1)), (56, 55, s.pwr.seedBank), (4, 0, s.pwr.throttle)]
  else if off = 0x1000010 then [(47, 32, s.pwr.inputW), (31, 24, s.pwr.tj), (9, 0, s.pwr.railMv)]
  else if off = 0x1100000 then [(63, 0, s.now)]
  else if off = 0x1100010 then [(63, 0, if s.host.wallSet then s.wall else 0)]
  else if off = 0x1100018 then [(1, 1, bit s.host.wallSet), (0, 0, bit s.host.locked)]
  else []

/-- The fields of a register that show other state. -/
def State.shown (s : State) (ld : Option Nat) (off : Nat) : List (Nat × Nat × Nat) :=
  match off / 0x100000 with
  | 1 => s.showHost off
  | 2 => s.showHdg off
  | 3 => s.showSpc ld off
  | 4 => s.showDir off
  | 5 => s.showHsk off
  | 6 => s.showTier ld off
  | 7 => s.showFar off
  | 8 => s.showTlr ld off
  | 9 => s.showTlr ld off
  | 10 => s.showQos off
  | 11 => s.showDrc off
  | 12 => s.showInt off
  | 13 => s.showInt off
  | 14 => s.showEsu ld off
  | 15 => s.showStk off
  | 16 => s.showHost off
  | 17 => s.showHost off
  | _ => []

/-- The bank that a view reads a register from: an LD's own, but for ESU_SRC_n, which the module has once and an LD's view shows read only. -/
def bankFor (ld : Option Nat) (off : Nat) : Nat := if 0xE02000 ≤ off ∧ off < 0xE04000 then 0 else ld.elim 0 (1 + ·)

/-- The value that a read of a register returns: through the module's views, or through an LD's for the registers of its own bank. -/
def State.regRead (s : State) (ld : Option Nat) (off : Nat) : Nat := overFields (s.regB (bankFor ld off) off) (s.shown ld off)

/-- The registers that an LD's view holds (R536; chapter 14 for ESU_SRC_n). -/
def State.ldHolds (s : State) (ld off : Nat) : Bool :=
  off == 0 || off == 0x300000
    || (decide (0x300100 ≤ off ∧ off < 0x300140) && off % 8 == 0) || (decide (0x310000 ≤ off ∧ off < 0x318000) && off % 8 == 0)
    || off == 0x600100 || off == 0x600108 || off == 0x600110
    || off == 0x100400 + 8 * ld || off == 0xA00400 + 8 * ld
    || (decide (0x990000 ≤ off ∧ off < 0x990400) && (regAt off).isSome)
    || (decide (0xE10000 + 0x100 * (4 + ld) ≤ off ∧ off < 0xE10000 + 0x100 * (5 + ld)) && (regAt off).isSome)
    || (decide (0xE02000 ≤ off ∧ off < 0xE04000) && off % 8 == 0 && s.targetOf ((off - 0xE02000) / 8) ld == 4 + ld)

/-- Does a view hold a register at an offset: the fabric manager's and the cores' views hold every one (R536); what they show of the registers that
each LD has of its own is bank 0 (log entry 47)? -/
def State.viewHolds (s : State) (v : View) (off : Nat) : Bool :=
  match v with
  | .ld m => s.ldHolds m off
  | .fm => (regAt off).isSome
  | .core => (regAt off).isSome

/-- What a view reads at an offset: zero where it holds no register (R534). -/
def State.viewRead (s : State) (v : View) (off : Nat) : Nat :=
  if s.viewHolds v off then s.regRead (match v with
    | .ld m => some m.val
    | _ => none) off
  else 0

end Sys2Proof.Machine
end

