-- ==== Sys2Proof/Safety.lean ====
section
/-! DEFINITION. The terms that statements use: steps that answer a next state, the forms that every step keeps, and when a command reaches its
own effect (a mailbox command that is taken, an SPDM request that arrives, a context that issues a word). -/

namespace Sys2Proof.Machine

open Sys2Proof

/-- The stored data of a module stands in its canonical forms: near-tier lines, far-tier chunks and held registers are listed with
strictly rising keys, and nothing is listed that equals what an unlisted key reads as. -/
def State.canonical (s : State) : Bool := s.near.wf && s.far.wf && rising s.regs

/-- A step that goes on. -/
def State.goesOn (s : State) : Prop := ∃ t, step s = .next t

/-- A step that keeps the canonical forms. -/
def State.keepsForms (s : State) : Prop := ∀ t, step s = .next t → s.canonical = true → t.canonical = true

/-! ## Commands that reach their own effect -/

/-- The state in which a mailbox command takes effect: Idle has ended and the command is counted (R482, R494). -/
def State.taken (s : State) : State := (s.unidle).bump cntHp 2 1

/-- Is a mailbox command taken: its issuer reaches the module and may send it, it travels in a session where it must be secured or comes from
the fabric manager, and its input is as long as it needs (R430, R484, R485, R491)? -/
def State.sent (s : State) (x : Mbx) (by_ : By) (secure : Bool) (need : Nat) : Bool :=
  s.reaches x && !((by_ == .fm && !mbFm x) || (by_ == .ld && mbFm x)) && (!(secure || mbFm x) || s.inSession x) && decide (need ≤ x.data.length)

/-- Does a context issue a word: it is resident, waits for nothing, has neither ended nor a late trap to take, its tiller is not out and chooses it, and
the line of its sheaf's code that its PC names reads (R231, R263, R277, R291, R295)? -/
def State.issues (s : State) (c : Nat) (x : Ctx) (w : Word) : Bool :=
  look s.tlr.ctxs c == some x && x.ready && !s.tlrBad x.tiller && s.turnOf c x && x.late.isNone &&
    (look s.tlr.sheaves x.sheaf).any fun q => decide (x.pc < imgCode q.image) && imgWord q.image x.pc == w &&
      !q.bad.any fun b => b.1 == codeLine q.image x.pc

/-- Does an SPDM request reach its responder? -/
def State.asks (s : State) (who : Issuer) : Bool := s.reaches ⟨who, none, []⟩

end Sys2Proof.Machine
end

