-- ==== Sys2Proof/Certificates/Slice0/Obligations.lean ====
section
/-! DEFINITION. The statements for the provers: what each command of the block does when its conditions hold, and the rules of the manual. -/

open Sys2Proof Sys2Proof.Machine

/-- A host's read, write, UIO request, eviction, snoop answer and flush, where each is taken, have their own effect. -/
def Obligations.HostRequestsAreServed : Prop :=
  (∀ (s : State) (ld : Fin 64) (hpa tag label sa : Nat) (mv : MetaV) (ide : Bool),
    s.hostOpen ld = true →
    s.ideRefuses ld ide = false →
    s.hedge ld hpa 0 = some (label, sa) →
    exec (.hostRead ld hpa mv tag ide) s = .next (let u := (s.demand (s.holderOf ld) (s.classOf ld label) (ld.val / 16) 64).consumeRead (saPage sa) label ld
    u.accept (.host ld tag) .rd (sa / 64 * 64) label (u.holderOf ld) (u.metaAt sa mv) 0 [])) ∧
  (∀ (s : State) (ld : Fin 64) (hpa tag label sa : Nat) (mv : MetaV) (mask : BitVec 64) (data : Bytes) (ide : Bool),
    s.hostOpen ld = true →
    s.ideRefuses ld ide = false →
    s.hedge ld hpa 1 = some (label, sa) →
    s.ldOwes ld (saLine sa) = false →
    exec (.hostWrite ld hpa mv tag mask data ide) s = .next (let u := s.meter (s.holderOf ld) (s.classOf ld label) (4 + ld.val / 16) (maskBytes mask.toNat)
    u.accept (.host ld tag) .wr (sa / 64 * 64) label (u.holderOf ld) (u.metaAt sa mv) mask.toNat (fit 64 data))) ∧
  (∀ (s : State) (ld : Fin 64) (hpa tag label sa : Nat) (mv : MetaV) (mask : BitVec 64) (data : Bytes) (ide : Bool),
    s.hostOpen ld = true →
    s.ideRefuses ld ide = false →
    s.hedge ld hpa 1 = some (label, sa) →
    s.ldOwes ld (saLine sa) = true →
    exec (.hostWrite ld hpa mv tag mask data ide) s = .next ((s.awake.ownWbk ld (saLine sa) (fit 64 data)).emit (.cmp ld tag 0 0))) ∧
  (∀ (s : State) (ld : Fin 64) (hpa tag label sa : Nat) (mask : BitVec 64) (data : Bytes),
    s.hostOpen ld = true →
    (s.bump cntHp 1 1).hedge ld hpa 1 = some (label, sa) →
    exec (.uioRequest ld hpa true tag mask data) s = .next (let u := s.bump cntHp 1 1
    (u.meter (u.holderOf ld) (u.classOf ld label) (4 + ld.val / 16) (maskBytes mask.toNat)).accept (.uio ld tag) .wr (sa / 64 * 64) label 4096
    .invalid mask.toNat (fit 64 data))) ∧
  (∀ (s : State) (ld : Fin 64) (hpa tag label sa : Nat) (mask : BitVec 64) (data : Bytes),
    s.hostOpen ld = true →
    (s.bump cntHp 1 1).hedge ld hpa 0 = some (label, sa) →
    exec (.uioRequest ld hpa false tag mask data) s = .next (let u := s.bump cntHp 1 1
    ((u.meter (u.holderOf ld) (u.classOf ld label) (ld.val / 16) 64).consumeRead (saPage sa) label ld).accept (.uio ld tag) .rd (sa / 64 * 64) label 4096 .invalid 0 [])) ∧
  (∀ (s : State) (ld : Fin 64) (hpa label sa : Nat) (e : DirEnt),
    s.hostOpen ld = true →
    s.hedge ld hpa 0 = some (label, sa) →
    s.kindAt sa = .shared →
    s.awake.reqs = [] →
    s.awake.homes (saPage (sa / 64 * 64)) = true →
    s.awake.pageHome (saPage (sa / 64 * 64)) = s.awake.me →
    s.awake.dozeHolds = false →
    (s.awake.hdg.takeover.contains s.awake.me || s.awake.hdg.twinMarks.contains (saPage (sa / 64 * 64))) = false →
    s.awake.respreadOf (saPage (sa / 64 * 64)) = none →
    s.awake.isVlr (saPage (sa / 64 * 64)) = false →
    s.awake.dirEnt (saLine (sa / 64 * 64)) = some e →
    e.st ≠ 3 →
    e.form ≠ 1 →
    covers e (s.holderOf ld) = true →
    exec (.hostCleanEvict ld hpa) s = .next (({ s.awake with nextId := s.awake.nextId + 1 }.pmeCache (saPage (sa / 64 * 64))).dirPutOpt (saLine (sa / 64 * 64)) (dropHolder e (s.holderOf ld)))) ∧
  (∀ (s : State) (ld : Fin 64) (hpa label sa : Nat),
    s.hostOpen ld = true →
    s.hedge ld hpa 0 = some (label, sa) →
    s.kindAt sa ≠ .shared →
    exec (.hostCleanEvict ld hpa) s = .next (s.awake)) ∧
  (∀ (s : State) (ld : Fin 64) (line : Nat) (rsp : SnpRsp),
    s.portUp (ld / 16) = true →
    s.dir.owed.find? (fun o => o.1 == ld.val && o.2.1 == line) = none →
    exec (.hostBirsp ld line 1 rsp none) s = .next (s.snoopAnswer line (s.holderOf ld) rsp)) ∧
  (∀ (s : State) (ld : Fin 64) (line : Nat) (rsp : SnpRsp) (o : Nat × Nat × Nat × Nat),
    s.portUp (ld / 16) = true →
    s.dir.owed.find? (fun o => o.1 == ld.val && o.2.1 == line) = some o →
    exec (.hostBirsp ld line 1 rsp none) s = .next ((s.send .birsp o.2.2.1 0 (s.holderOf ld) o.2.2.2 (rspCode rsp) 0 (line * 64) []).onDir fun d =>
    { d with owed := removeFirst (· == o) d.owed })) ∧
  (∀ (s : State) (p : Fin 4) (phase : Fin 2),
    s.portUp p = true →
    exec (.globalPersistentFlush p phase) s = .next (s.emit (.gpf p phase))) ∧
  (∀ (s : State) (ld : Fin 64) (w : Fin 8) (off : Fin 512) (v : Word) (h : Nat) (l : Lease),
    s.hostOpen ld = true →
    s.leaseAt ld w = some (h, l) →
    l.st = .active →
    s.now < l.deadline →
    exec (.spcHbWrite ld w off v) s = .next (s.setLease h (some { l with deadline := s.now + l.dur * 10 ^ 9, quarter := false }))) ∧
  (∀ (s : State) (ld : Fin 64),
    s.hostOpen ld = true →
    exec (.functionLevelReset ld) s = .next (s.resetLd ld))

/-- The lease commands that no check refuses have their effect, and answer vendor status 0 once it is journalled. -/
def Obligations.LeaseCommandsAct : Prop :=
  (∀ (s : State) (x : Mbx) (rs : List GReq) (p : Plan),
    s.sent x .ld true 16 = true →
    16 + 16 * mb8 x 5 ≤ x.data.length →
    ¬(mb8 x 5 = 0 ∨ mb8 x 5 > 64 ∨ mb16 x 6 ≠ 0 ∨ mb32 x 12 ≠ 0 ∨ mb8 x 4 ≥ 8) →
    s.taken.memberOf (mb8 x 0) (s.taken.holderOf (mbWho x)) = true →
    s.taken.formedOrBench = true →
    readGReqs x (mb8 x 5) = some rs →
    (s.taken.extNeed [] (rs.filterMap GReq.exist)).isEmpty = true →
    mb32 x 8 = 0 →
    mb16 x 2 ≤ 600 →
    s.taken.windowFree (mbWho x) (mb8 x 1) = true →
    s.taken.planAll (mb8 x 0) s.taken.newHandle rs { fresh := [], order := [], load := [], map := 0 } = .ok p →
    p.order.length ≤ (s.taken.freeSlots (mbWho x) (mb8 x 1) p.order.length).length →
    s.taken.admitPlan (mb8 x 0) p = none →
    exec (.leaseGrant x) s = .next (let s := s.taken
    let ld := mbWho x
    let h := s.newHandle
    let rnd := Config.random s.draws % 2 ^ 128
    let s := { s with draws := s.draws + 128 }.doPlan h p
    let f := s.fill ld (mb8 x 1) p.order
    let s := f.1
    let dur := if mb16 x 2 = 0 then s.defDur else mb16 x 2
    let l : Lease := { acct := mb8 x 0, ld := some ld, lastLd := ld, window := mb8 x 1, sess := mbSess x, rights := mb8 x 4 % 8, dur := dur, deadline := s.now + dur * 10 ^ 9, token := rnd, st := .active, graceEnd := 0, exts := f.2, quarter := false }
    let s := ((s.setLease h (some l)).respond (s.holderOf ld)).postFor [ld] 0x0300 []
    s.okAfter x (leaseOut h p.order.length rnd ((f.2.map Prod.snd).headD 0)))) ∧
  (∀ (s : State) (x : Mbx) (rs : List GReq) (p : Plan) (l : Lease),
    s.sent x .ld true 16 = true →
    16 + 16 * mb8 x 5 ≤ x.data.length →
    ¬(mb8 x 5 = 0 ∨ mb8 x 5 > 64 ∨ mb16 x 6 ≠ 0 ∨ mb32 x 12 ≠ 0 ∨ mb8 x 4 ≥ 8) →
    s.taken.memberOf (mb8 x 0) (s.taken.holderOf (mbWho x)) = true →
    s.taken.formedOrBench = true →
    readGReqs x (mb8 x 5) = some rs →
    (s.taken.extNeed [] (rs.filterMap GReq.exist)).isEmpty = true →
    mb32 x 8 ≠ 0 →
    look s.taken.spc.leases (mb32 x 8) = some l →
    l.st = .active →
    l.ld = some (mbWho x) →
    l.acct = mb8 x 0 ∧ l.window = mb8 x 1 ∧ l.rights = mb8 x 4 →
    s.taken.planAll (mb8 x 0) (mb32 x 8) rs { fresh := [], order := [], load := [], map := 0 } = .ok p →
    p.order.length ≤ (s.taken.freeSlots (mbWho x) (mb8 x 1) p.order.length).length →
    s.taken.admitPlan (mb8 x 0) p = none →
    exec (.leaseGrant x) s = .next (let s := s.taken
    let ld := mbWho x
    let h := mb32 x 8
    let s := { s with draws := s.draws + 128 }.doPlan h p
    let f := s.fill ld (mb8 x 1) p.order
    let s := f.1
    let s := ((s.setLease h (some { l with exts := l.exts ++ f.2 })).respond (s.holderOf ld)).postFor [ld] 0x0300 []
    s.okAfter x (leaseOut h p.order.length l.token ((f.2.map Prod.snd).headD 0)))) ∧
  (∀ (s : State) (x : Mbx) (l : Lease),
    s.sent x .ld true 6 = true →
    mb16 x 4 ≤ 600 →
    look s.spc.leases (mb32 x 0) = some l →
    l.ld = some (mbWho x) →
    l.st = .active →
    s.now < l.deadline →
    exec (.leaseRenew x) s = .next ((s.taken.setLease (mb32 x 0) (some { l with dur := if mb16 x 4 = 0 then l.dur else mb16 x 4, deadline := s.now + (if mb16 x 4 = 0 then l.dur else mb16 x 4) * 10 ^ 9, quarter := false })).okAfter x [])) ∧
  (∀ (s : State) (x : Mbx) (l : Lease),
    s.sent x .ld true 8 = true →
    look s.spc.leases (mb32 x 0) = some l →
    l.ld = some (mbWho x) →
    l.st = .active →
    ¬((namedExts l (mb16 x 4) (mb16 x 6)).isEmpty = true ∧ mb16 x 6 ≠ 0) →
    exec (.leaseRelease x) s = .next ((s.taken.drainNamed (mb32 x 0) l (namedExts l (mb16 x 4) (mb16 x 6)) (s.now + s.taken.drainUs * 1000)).okAfter x [])) ∧
  (∀ (s : State) (x : Mbx) (l : Lease),
    s.sent x .ld true 32 = true →
    ¬((look s.taken.spc.tokLock (mbWho x)).isSome) →
    ¬(!s.taken.memberOf (mb8 x 4) (s.taken.holderOf (mbWho x))) →
    s.taken.leaseFor (mb32 x 0) = some l →
    ¬((s.taken.tokenStatus l (leAt x.data 16 16) (mb8 x 4)) = 5) →
    ¬((s.taken.tokenStatus l (leAt x.data 16 16) (mb8 x 4)) ≠ 0) →
    ¬(!s.taken.windowFor (mbWho x) (mb8 x 5) (mb32 x 0) l.exts.length) →
    exec (.leaseAttach x) s = .next (let s := s.taken
  let ld := mbWho x
  let h := mb32 x 0
  let w := mb8 x 5
  let mine := (look s.spc.leases h).isSome
  let s := s.adoptLease h l
  let l : Lease := if mine then l else { l with ld := none }
  let lost := l.ld.isSome && l.ld != some ld
  let s := if lost then s.holderLeaves (s.holderOf (l.ld.getD 0)) (l.exts.map Prod.fst) false else s
  let (s, n, slot) := s.bind h l ld w (mbSess x)
  s.okAfter x (leaseOut h n l.token slot))) ∧
  (∀ (s : State) (x : Mbx),
    s.sent x .ld true 32 = true →
    ¬((look s.taken.spc.tokLock (mbWho x)).isSome) →
    ¬(!s.taken.memberOf (mb8 x 4) (s.taken.holderOf (mbWho x))) →
    s.taken.leaseFor (mb32 x 0) = none →
    ¬(!s.taken.windowFor (mbWho x) (mb8 x 5) (mb32 x 0) 0) →
    ¬(s.taken.peers.isEmpty) →
    exec (.leaseAttach x) s = .next (let s := s.taken
  let ld := mbWho x
  let h := mb32 x 0
  let a := mb8 x 4
  let w := mb8 x 5
  let token := leAt x.data 16 16
  let s := s.copyAll s.peers (.token h token a (s.slotCount ld w))
  s.onSpc fun p => { p with attaching := p.attaching ++ [⟨ld, h, w, mbSess x, s.peers, false⟩] })) ∧
  (∀ (s : State) (x : Mbx) (l : Lease),
    s.sent x .any false 16 = true →
    mb32 x 0 ≠ 0 →
    1 ≤ mb16 x 12 →
    mb16 x 12 ≤ 1024 →
    leAt x.data 5 3 = 0 →
    mb16 x 14 = 0 →
    s.taken.leaseFor (mb32 x 0) = some l →
    ¬(!mbFm x ∧ l.ld ≠ some (mbWho x) ∧ !(l.ld.isNone ∧ l.lastLd = mbWho x)) →
    exec (.leaseQuery x) s = .next (let u := s.taken
    let es := (l.exts.drop (mb32 x 8)).take (mb16 x 12)
    u.okOut x (toLe 1 (leaseCode l.st) ++ toLe 1 (if l.ld.isSome then l.window else 255) ++ toLe 1 l.rights ++ toLe 1 l.acct ++ zeros 1
    ++ toLe 2 (match l.ld with | some d => u.holderOf d | none => 0xFFFF) ++ toLe 4 (mb32 x 0)
    ++ toLe 4 ((u.leaseUntil (mb32 x 0) l - u.now) / 10 ^ 6) ++ toLe 2 l.dur ++ zeros 2 ++ toLe 4 l.exts.length ++ toLe 2 es.length ++ zeros 6
    ++ es.flatMap fun e => u.extRecord (mb32 x 0) e.1 e.2))) ∧
  (∀ (s : State) (x : Mbx) (l : Lease),
    s.sent x .fm true 16 = true →
    mb32 x 12 = 0 ∨ (100 ≤ mb32 x 12 ∧ mb32 x 12 ≤ 50000) →
    mb8 x 8 = s.me →
    look s.spc.leases (mb32 x 0) = some l →
    l.st = .active ∨ l.st = .orphan →
    ¬((namedExts l (mb16 x 4) (mb16 x 6)).isEmpty = true ∧ mb16 x 6 ≠ 0) →
    exec (.leaseRevoke x) s = .next ((s.taken.revoke (mb32 x 0) l (namedExts l (mb16 x 4) (mb16 x 6)) (mb32 x 12)).okAfter x []))

/-- The account, membership and re-spread commands that are taken and admitted have their effect. -/
def Obligations.AccountAndSpreadCommandsAct : Prop :=
  (∀ (s : State) (x : Mbx),
    s.sent x .fm true 24 = true →
    ¬(mb8 x 2 ≥ 2 ∨ leAt x.data 3 5 ≠ 0 ∨ mb64 x 8 ≥ 2 ^ 40 ∨ mb64 x 16 ≥ 2 ^ 40) →
    (if mb8 x 1 = 0xFF then s.taken.me else mb8 x 1) = s.taken.me →
    s.taken.granted_ (mb8 x 0) + mb64 x 16 ≤ mb64 x 8 →
    exec (.accountSet x) s = .next ((s.taken.branWatch (mb8 x 0) fun u => u.setAcct (mb8 x 0) { u.acct (mb8 x 0) with b := mb64 x 8, z := mb64 x 16, lossless := (mb8 x 2).testBit 0 }).okAfter x [])) ∧
  (∀ (s : State) (x : Mbx),
    s.sent x .fm false 2 = true →
    (if mb8 x 1 = 0xFF then s.taken.me else mb8 x 1) = s.taken.me →
    exec (.accountQuery x) s = .next (let u := s.taken
    let a := mb8 x 0
    u.okOut x (toLe 1 (if (u.acct a).lossless then 1 else 0) ++ toLe 1 (u.keySt a) ++ toLe 1 (u.keySt (256 + a)) ++ toLe 2 a
    ++ toLe 2 (u.acct a).members.length ++ toLe 8 (u.acct a).b ++ toLe 8 (u.acct a).z ++ toLe 8 (u.granted_ a) ++ toLeI (u.overage a)
    ++ toLeI (u.branLevel a) ++ toLeI (u.freeBudget a) ++ toLe 8 (u.acctNear a)))) ∧
  (∀ (s : State) (x : Mbx),
    s.sent x .fm true 16 = true →
    mb8 x 1 = 1 →
    mb16 x 2 < 4096 →
    leAt x.data 4 12 = 0 →
    mb16 x 2 ∉ (s.taken.acct (mb8 x 0)).members →
    (s.taken.acct (mb8 x 0)).members.length < 256 →
    ((vals s.spc.accts).filter fun y => y.members.contains (mb16 x 2)).length < 8 →
    exec (.accountBindAdd x) s = .next (let ms := (s.taken.acct (mb8 x 0)).members ++ [mb16 x 2]
    let u := (s.taken.setAcct (mb8 x 0) { s.taken.acct (mb8 x 0) with members := ms }).copyAll s.taken.peers (.members (mb8 x 0) ms)
    u.okHeld x (zeros 3 ++ toLe 2 ms.length))) ∧
  (∀ (s : State) (x : Mbx),
    s.sent x .fm true 16 = true →
    mb8 x 1 = 2 →
    mb16 x 2 < 4096 →
    leAt x.data 4 12 = 0 →
    mb16 x 2 ∈ (s.taken.acct (mb8 x 0)).members →
    exec (.accountBindRemove x) s = .next (let ms := (s.taken.acct (mb8 x 0)).members.filter (· != mb16 x 2)
    let u := (s.taken.setAcct (mb8 x 0) { s.taken.acct (mb8 x 0) with members := ms }).copyAll s.taken.peers (.members (mb8 x 0) ms)
    u.okHeld x (zeros 3 ++ toLe 2 ms.length))) ∧
  (∀ (s : State) (x : Mbx) (xt : Extent),
    s.sent x .fm true 16 = true →
    mb32 x 0 < 2 ^ 20 →
    leAt x.data 6 10 = 0 →
    s.taken.bgBusy (mbWho x) = false →
    (s.taken.extNeed [] [mb32 x 0]).isEmpty = true →
    look s.taken.spc.extents (mb32 x 0) = some xt →
    ¬(xt.spread.isEmpty ∨ !xt.spread.contains (mb8 x 4) ∨ xt.spread.contains (mb8 x 5) ∨ xt.respread.isSome) →
    ¬(mb8 x 4 ≥ 64 ∨ mb8 x 5 ≥ 64 ∨ !s.taken.isLive (mb8 x 4) ∨ !s.taken.isLive (mb8 x 5)) →
    ¬(!s.taken.admitsSlot (mb8 x 5) xt (slotPages xt) ∨ (xt.prot = 2 ∧ (!s.taken.isLive (twinOf (mb8 x 5)) ∨ !s.taken.admitsSlot (twinOf (mb8 x 5)) xt 0))) →
    (if (mb8 x 5 == s.taken.me || (xt.prot == 2 && twinOf (mb8 x 5) == s.taken.me)) = true then s.taken.keyRefuses (keySlotOf xt) else none) = none →
    exec (.extentRespread x) s = .next (let y := { xt with respread := some ⟨xt.spread.idxOf (mb8 x 4), mb8 x 4, mb8 x 5, [], false⟩ }
    let u : State := { s.taken with draws := s.taken.draws + 128 }
    let u := if (mb8 x 5 == s.taken.me || (xt.prot == 2 && twinOf (mb8 x 5) == s.taken.me)) = true then u.needKey (keySlotOf xt) else u
    let u := (u.putExtent (mb32 x 0) y).copyAll u.peers (.extent (mb32 x 0) (some y))
    ((u.onSpc fun p => { p with respreadBg := put p.respreadBg (mb32 x 0) (mbWho x) }).post 0x030D [(4, mb32 x 0), (1, mb8 x 4), (1, mb8 x 5)]).startBg x 0xC00A)) ∧
  (∀ (s : State) (e page : Nat) (xt : Extent) (q : Respread),
    s.respreadNext e page = some (xt, q) →
    s.move page = none →
    (s.slotsOf page).isEmpty = true →
    ((s.setMove page (some (Move.mk0 3 7 s.now))).snoopPage page).pageSnooped page = true →
    exec (.respreadPageMove e page) s = .next (let u := (s.setMove page (some (Move.mk0 3 7 s.now))).snoopPage page
    (u.copyTo q.new (u.pageBody page)).setMove page (some { Move.mk0 3 7 s.now with issued := true }))) ∧
  (∀ (s : State) (e page : Nat) (xt : Extent) (q : Respread) (m : Move),
    s.respreadNext e page = some (xt, q) →
    s.move page = some m →
    m.kind = 3 →
    m.issued = true →
    exec (.respreadPageMoved e page) s = .next ((((((s.dropMirror page xt (s.pmeOf page).seq).unwrite page).putExtent e { xt with respread := some { q with moved := q.moved ++ [pageIdx page] } }).wakePage page .respread).respreadSend e).retryMoves)) ∧
  (∀ (s : State) (e who : Nat) (xt : Extent) (q : Respread),
    look s.spc.extents e = some xt →
    xt.respread = some q →
    q.done = true →
    s.reqs.any (s.atOld e xt q) = false →
    look (s.putExtent e { xt with spread := xt.spread.set q.slot q.new, respread := none }).spc.respreadBg e = some who →
    exec (.respreadPortalSwitch e) s = .next (let u := (s.putExtent e { xt with spread := xt.spread.set q.slot q.new, respread := none }).onSpc fun p => { p with respreadBg := del p.respreadBg e }
    (u.endBg who rcSuccess (zeros 4 ++ toLe 4 (slotPages xt))).post 0x030E [(4, e), (4, slotPages xt)]))

/-- The ends of pull-throughs and the closing, recoding and storing of slots have their effect where their event happens. -/
def Obligations.PullThroughAndSlotCommandsAct : Prop :=
  (∀ (s : State) (page : Nat) (m : Move),
    s.move page = some m →
    m.kind = 0 ∧ m.pull ∧ m.done ∧ ¬ m.waitSpace →
    exec (.pullThroughDone page) s = .next (s.finishPromotion page m)) ∧
  (∀ (s : State) (page : Nat) (m : Move),
    s.move page = some m →
    m.kind = 0 ∧ m.pull ∧ ¬ m.done ∧ ¬ m.raised ∧ s.now ≥ m.t0 + s.farDl / 2 →
    exec (.pullThroughRaise page) s = .next (s.setMove page (some { m with raised := true }))) ∧
  (∀ (s : State) (page : Nat) (m : Move),
    s.move page = some m →
    m.kind = 0 ∧ m.pull ∧ ¬ m.missed ∧ s.now ≥ m.t0 + s.farDl →
    exec (.pullThroughDlMiss page) s = .next ((((s.setMove page (some { m with missed := true })).bump cntTier 4 1).intr 0x600028 2).postFor (s.ldsOfAddr (pageSa page)) 0x0603 [(8, pageSa page), (8, s.now - m.t0)])) ∧
  (∀ (s : State) (r : Nat) (q : Req) (m : Move),
    s.req r = some q →
    s.move q.page = some m →
    waitsFor .pull q ∧ q.op = .rd ∧ m.kind = 0 ∧ m.pull ∧ m.stream ∧ s.now ≥ m.t0 + s.ptBound →
    exec (.streamPtBoundExpire r) s = .next ((((s.answer q [] 3).bump cntTier 5 1).intr 0x600028 4).postFor (s.ldsOfAddr (pageSa q.page)) 0x0605 [(8, pageSa q.page), (1, (s.schedOf q.page).getD 0)])) ∧
  (∀ (s : State) (page : Nat) (x : Slot),
    s.openSlot page false = some x →
    s.now ≥ x.tFirst + s.slotWindow page ∧ ¬ x.lines.isEmpty ∧ ¬ x.bg →
    exec (.mbSlotWindowExpire page) s = .next (s.closeSlot x.id)) ∧
  (∀ (s : State) (r : Nat) (q : Req),
    s.req r = some q →
    waitsFor .slot q && (s.slotFree false || (s.openSlot q.page false).isSome) →
    exec (.mbWriteSlotWaitEnd r) s = .next ((s.serve r).wbkStored q.line)) ∧
  (∀ (s : State) (page : Nat) (x : Slot),
    s.closedSlot page = some x →
    ¬(s.recoding page || (s.move page).any (fun m => !m.waitSpace) || x.hides) →
    exec (.slotRecodeStart page) s = .next (let s := s.modSlot x.id fun y => { y with ph := .recoding }
  let s := if s.mirrored page && s.twinLive && !x.twin && s.ownPage page then s.sendClose page (s.slotSeq page x) else s
  s.recodeTry page)) ∧
  (∀ (s : State) (page : Nat) (x : Slot) (h : Husk),
    s.husk.slots.find? (fun x => x.page == page && x.ph == .recoding) = some x →
    x.built = some h →
    ¬((s.durablePage page && !x.twin) && x.bg && decide (s.govLevel ≤ 0)) →
    (let dur := s.durablePage page && !x.twin; let pq := s.storeHusk page h x.id dur; let ok := pq.2; ¬(!ok)) →
    exec (.recodeWriteDone page) s = .next (let dur := s.durablePage page && !x.twin
  let was := s.pmeOf page
  let pq := s.storeHusk page h x.id dur
  let s := pq.1
  let s := (s.recodePoison page x h).freeSlot x.id
  let s := if was.st == .poisoned then s.plistDrop fun q => q.page && q.addr == page else s
  let s := (s.bump cntHsk 0 1)
  let s := if dur then s.durWaits x.id else s
  ((((s.wakePage page .recode).wakePage page .pull).bgRecoded page).retryMoves).mirrorPump s.hdg.mirrorQ.length))

/-- The timers and drains of leases, and the end of a token lockout, have their effect where their time has come. -/
def Obligations.LeaseTimersAct : Prop :=
  (∀ (s : State) (h : Nat) (l : Lease) (d : Nat),
    ¬(s.pwr.boot.isSome) →
    look s.spc.leases h = some l →
    l.ld = some d →
    l.st = .active ∧ !l.quarter ∧ (l.deadline - s.now) * 4 ≤ l.dur * 10 ^ 9 →
    exec (.leaseQuarterLeft h) s = .next ((s.onSpc fun p => { p with leases := put p.leases h { l with quarter := true } }).edge 193 d)) ∧
  (∀ (s : State) (h : Nat) (l : Lease),
    ¬(s.pwr.boot.isSome) →
    look s.spc.leases h = some l →
    (l.st = .active ∨ l.st = .orphan) ∧ s.now ≥ l.deadline →
    exec (.leaseTimerExpire h) s = .next (let g := s.now + 5 * 10 ^ 9
  let s := s.setLease h (some { l with st := .grace, graceEnd := g })
  let s := (s.intr 0x300028 0).postFor l.ld.toList 0x0303 []
  let s := s.onSpc fun p => { p with drains := p.drains.filter fun d => d.handle != h }
  s.startDrain h l ((l.exts.map Prod.fst).eraseDups) g true)) ∧
  (∀ (s : State) (h : Nat) (l : Lease),
    ¬(s.pwr.boot.isSome) →
    look s.spc.leases h = some l →
    l.st = .grace ∧ s.now ≥ l.graceEnd →
    exec (.leaseGraceExpire h) s = .next (let s := s.each (s.spc.drains.filter fun d => d.handle == h) fun s d => s.stragglers d
  s.closeLease h)) ∧
  (∀ (s : State) (h : Nat) (d : Drain),
    ¬(s.inGrace h) →
    s.spc.drains.find? (fun d => d.handle == h && s.drained d) = some d →
    exec (.leaseDrainEnd h) s = .next (s.endDrain d)) ∧
  (∀ (s : State) (h : Nat) (d : Drain),
    ¬(s.inGrace h) →
    s.spc.drains.find? (fun d => d.handle == h && decide (d.bound ≤ s.now)) = some d →
    exec (.drainBoundExpire h) s = .next ((s.stragglers d).endDrain d)) ∧
  (∀ (s : State) (ld : Fin 64) (t : Nat),
    look s.spc.tokLock ld = some t →
    s.now ≥ t →
    exec (.tokenLockoutEnd ld) s = .next (s.onSpc fun p => { p with tokLock := del p.tokLock ld, tokRun := del p.tokRun ld }))

/-- The directory's events, its query, and building, flipping and reclaiming published extents have their effect. -/
def Obligations.DirectoryCommandsAct : Prop :=
  (∀ (s : State) (r : Nat) (q : Req),
    s.req r = some q →
    ¬(!waitsFor .dir q) →
    ¬(((s.serve r).req r).any fun q => waitsFor .dir q) →
    exec (.directoryWaitEnd r) s = .next (let s' := s.serve r
  s')) ∧
  (∀ (s : State) (holder : Nat),
    (let owing := s.dir.trk.filter fun t => t.owed.contains holder; ¬(!owing.any (fun t => decide (t.t0 + 50000000 ≤ s.now)))) →
    exec (.snoopTimeout holder) s = .next (let owing := s.dir.trk.filter fun t => t.owed.contains holder
  let first := !s.dir.unresp.contains holder
  let mine := s.dirLines.filter fun l => l.2.form == 0 && l.2.st != 3 && (ptrs l.2).contains holder
  let es := ((mine.map Prod.fst ++ owing.map Trk.line).map fun l => l / 2 ^ 24).eraseDups
  let s := if first then ((s.intr 0x400028 1).postFor (s.ldsOfHolder holder) 0x0401 [(2, holder)]).lostCap holder 0 else s
  let s := s.each owing fun s t => (s.respond holder).giveUp holder t
  let s := s.onDir fun d => { d with unresp := addNew d.unresp holder }
  let s := s.each mine fun s l => if l.2.st = 2 then s.ownerLost l.1 holder else s.dirPutOpt l.1 (dropHolder l.2 holder)
  if !first then s
    else if holderMod holder = s.me then s.revokeHolder holder es
    else if s.isLive (holderMod holder) then s.copyTo (holderMod holder) (.revokeHolder holder es) else s)) ∧
  (∀ (s : State),
    ¬(!s.dir.sweepBusy) →
    exec (.holderSweepDone) s = .next ((((s.onDir fun d => { d with sweepBusy := false }).clearMarks).intr 0x400028 2).post 0x0404 [])) ∧
  (∀ (s : State) (x : Mbx) (xt : Extent) (p : Plan) (y4 : Extent) (y5 : List (Nat × Extent)) (ne : Nat),
    s.sent x .any false 5 = true →
    ¬((mb32 x 0) ≥ 2 ^ 20 ∨ ((mb8 x 4) ≥ 64 ∧ (mb8 x 4) ≠ 0xFF)) →
    ¬(!s.taken.mayPublish x (mb32 x 0)) →
    s.taken.bgBusy (mbWho x) = false →
    (s.taken.extNeed ([]) [(mb32 x 0)]).isEmpty = true →
    look s.taken.spc.extents (mb32 x 0) = some xt →
    ¬(xt.kind = .published) →
    ¬((mb8 x 4) ≠ 0xFF ∧ !(s.taken.homesFor xt.prot).contains (mb8 x 4)) →
    s.taken.planNew xt.acct 0 (buildReq xt (mb8 x 4)) { fresh := [], order := [], load := [], map := 0 } = .ok p →
    (let s := s.taken; let p : Plan := { p with fresh := p.fresh.map fun q => (q.1, { q.2 with namers := [], tslot := xt.tslot, vlr := xt.vlr }) }; s.admitPlan xt.acct p = none) →
    (let p : Plan := { p with fresh := p.fresh.map fun q => (q.1, { q.2 with namers := [], tslot := xt.tslot, vlr := xt.vlr }) }; p.fresh = (ne, y4) :: y5) →
    ¬(xt.cls = 12) →
    exec (.pubBuild x) s = .next (let s := s.taken
  let e := mb32 x 0
  let p : Plan := { p with fresh := p.fresh.map fun q => (q.1, { q.2 with namers := [], tslot := xt.tslot, vlr := xt.vlr }) }
  let s := ({ s with draws := s.draws + 128 }.doPlan 0 p).startBg x 0xC100
  (s.onInt fun i => { i with buildQ := i.buildQ ++ [(e, ne, mbWho x)] }).buildGo)) ∧
  (∀ (s : State) (x : Mbx),
    s.sent x .any false 8 = true →
    ¬(x.data.length < 8 + 8 * (mb16 x 0)) →
    ¬((mb16 x 0) = 0 ∨ (mb16 x 0) > 4096) →
    (let s := s.taken; let n := mb16 x 0; let pairs := (List.range n).map fun i => (mb32 x (8 + 8 * i), mb32 x (12 + 8 * i)); let may (e : Nat) : Bool := s.spc.leases.any fun l => l.2.ld == some (mbWho x) && l.2.st == .active && l.2.rights.testBit 2 && l.2.exts.any fun q => q.1 == e; ¬(!mbFm x ∧ !pairs.all (fun p => may p.1))) →
    ¬(!s.taken.formedOrBench ∨ (!s.taken.hdg.bench ∧ !s.taken.hdg.quorum)) →
    (let s := s.taken; let n := mb16 x 0; let pairs := (List.range n).map fun i => (mb32 x (8 + 8 * i), mb32 x (12 + 8 * i)); let acct := (look s.spc.extents (pairs.headD (0, 0)).1).elim 0 fun o => o.acct; ¬(!pairs.all s.flipPair ∨ !pairs.all (fun p => (look s.spc.extents p.1).any fun o => o.acct == acct) ∨ (pairs.map Prod.fst).eraseDups.length ≠ n ∨ (pairs.map Prod.snd).any (fun e => (pairs.map Prod.fst).contains e))) →
    exec (.pubFlip x) s = .next (let s := s.taken
  let n := mb16 x 0
  let pairs := (List.range n).map fun i => (mb32 x (8 + 8 * i), mb32 x (12 + 8 * i))
  let recs := (pairs.map Prod.snd).filterMap fun e => (look s.spc.extents e).map fun n => (e, n)
  let s := (s.flip pairs).copyAll s.peers (.flip pairs recs)
  (if s.peers.isEmpty then s.flipEnd else s).replyHeld true (.mbox (mbWho x) rcSuccess [0]))) ∧
  (∀ (s : State) (e : Nat) (x : Extent),
    look s.spc.extents e = some x →
    ¬(x.serving ∨ s.reqs.any (fun r => extOf r.page == e)) →
    homeOf e = s.me →
    exec (.pubOldReclaim e) s = .next (s.flipDrained e s.me)) ∧
  (∀ (s : State) (e : Nat) (x : Extent),
    look s.spc.extents e = some x →
    ¬(x.serving ∨ s.reqs.any (fun r => extOf r.page == e)) →
    ¬(homeOf e = s.me) →
    s.isLive (homeOf e) →
    exec (.pubOldReclaim e) s = .next (s.copyTo (homeOf e) (.drained e))) ∧
  (∀ (s : State) (x : Mbx),
    s.sent x .fm false 8 = true →
    ¬((mb64 x 0) ≥ 2 ^ 44) →
    s.taken.homes ((mb64 x 0) / 64) →
    exec (.dirQuery x) s = .next (let s := s.taken
  let l := mb64 x 0
  s.okOut x (zeros 7 ++ toLe 8 ((s.dirEnt l).elim 0 entBits))))

/-- The code-table commands and events that no check refuses have their effect and answer Success. -/
def Obligations.CodeTableCommandsAct : Prop :=
  (∀ (s : State) (x : Mbx) (xt : Extent),
    s.sent x .any false 16 = true →
    ¬((mb8 x 4) = 0 ∨ (mb8 x 4) > 3 ∨ (mb8 x 5) > 3 ∨ (mb32 x 8) = 0 ∨ (mb32 x 8) > 2 ^ 18 ∨ (mb32 x 12) = 0 ∨ (mb32 x 12) > 2 ^ 18) →
    (s.taken.extNeed ([]) [(mb32 x 0)]).isEmpty = true →
    look s.taken.spc.extents (mb32 x 0) = some xt →
    ¬(!s.taken.mayExtent x (mb32 x 0) 1) →
    ¬(xt.elem ≠ expElem (mb8 x 4)) →
    ¬(s.taken.stagingBusy (mb8 x 5)) →
    s.taken.bgBusy (mbWho x) = false →
    exec (.train x) s = .next (let s := s.taken
  let e := mb32 x 0
  let c := mb8 x 4
  let b := mb8 x 5
  let stride := mb32 x 8
  let limit := mb32 x 12
  (s.onHusk fun h => { h with trains := h.trains ++ [⟨mbWho x, b, e, c, stride, limit⟩] }).startBg x 0xC200)) ∧
  (∀ (s : State) (x : Mbx),
    s.sent x .fm false 144 = true →
    ¬((mb8 x 4) = 0 ∨ (mb8 x 4) > 3 ∨ (mb8 x 5) > 3) →
    ¬(s.taken.stagingBusy (mb8 x 5)) →
    (let c := mb8 x 4; let lens := (List.range 256).map fun i => mb8 x (16 + i / 2) / (if i % 2 = 0 then 1 else 16) % 16; ¬(!lensOk c lens)) →
    exec (.tableLoad x) s = .next (let s := s.taken
  let c := mb8 x 4
  let b := mb8 x 5
  let lens := (List.range 256).map fun i => mb8 x (16 + i / 2) / (if i % 2 = 0 then 1 else 16) % 16
  (s.onHusk fun h => { h with staging := put h.staging b { st := 0, gen := 0, cls := c, elems := 0, wall := 0, lens := lens } }).status x 0)) ∧
  (∀ (s : State) (x : Mbx) (t : Table) (n : Nat),
    s.sent x .fm false 6 = true →
    ¬(mb8 x 5 > 3) →
    ¬(!s.taken.spaceWide) →
    ¬(s.taken.stagingBusy (mb8 x 5)) →
    look s.taken.husk.staging (mb8 x 5) = some t →
    (List.range 64).find? (fun n => s.taken.tableSt n == 0) = some n →
    exec (.tablePublish x) s = .next (let s := s.taken
  let g := (s.tableGen n + 1) % 16
  let t : Table := { t with st := 1, gen := g, wall := s.wall }
  let s := (s.onHusk fun h => { h with tables := put h.tables n t }).copyAll s.peers (.table n t)
  (s.post 0x0500 [(1, n), (1, g)]).okHeld x (zeros 3 ++ toLe 1 n ++ toLe 1 g))) ∧
  (∀ (s : State) (x : Mbx) (xt : Extent),
    s.sent x .fm false 5 = true →
    (s.taken.extNeed ([]) [mb32 x 0]).isEmpty = true →
    look s.taken.spc.extents (mb32 x 0) = some xt →
    ¬((mb8 x 4) ≥ 64) →
    ¬(!isExp xt.cls) →
    ¬(s.taken.tableSt (mb8 x 4) ≠ 1) →
    ¬(!(look s.taken.husk.tables (mb8 x 4)).any (fun t => t.cls == xt.cls)) →
    exec (.tableBind x) s = .next (let s := s.taken
  let n := mb8 x 4
  let s := s.setExtent (mb32 x 0) (some { xt with tslot := n })
  (s.copyAll s.peers (.bind (mb32 x 0) n)).status x 0)) ∧
  (∀ (s : State) (x : Mbx) (t : Table),
    s.sent x .fm false 5 = true →
    ¬((mb8 x 4) ≥ 64) →
    ¬(!s.taken.spaceWide) →
    look s.taken.husk.tables (mb8 x 4) = some t →
    ¬((mb8 x 4) ≤ 2 ∨ t.st ≠ 1 ∨ s.taken.spc.extents.any (fun e => isExp e.2.cls && e.2.tslot == (mb8 x 4)) ∨ s.taken.boundElsewhere) →
    exec (.tableRetire x) s = .next (let s := s.taken
  let n := mb8 x 4
  let t : Table := { t with st := 2 }
  ((({ s with draws := s.draws + 64 }).onHusk fun h => { h with tables := put h.tables n t }).copyAll s.peers (.table n t)).status x 0)) ∧
  (∀ (s : State) (x : Mbx),
    s.sent x .fm false 5 = true →
    ¬((mb8 x 4) ≥ 64) →
    exec (.tableQuery x) s = .next (let s := s.taken
  let n := mb8 x 4
  let others := sumOf s.peers fun m => Config.peerAnswer (s.draws + m) % 2 ^ 40
  let absent := if s.hdg.bench then 0 else s.hdg.size - s.hdg.live.length
  ({ s with draws := s.draws + 64 }).okOut x (zeros 3 ++ toLe 1 (s.tableSt n) ++ toLe 1 (s.tableGen n)
    ++ toLe 1 ((look s.husk.tables n).elim 0 fun t => t.cls) ++ zeros 1 ++ toLe 8 (s.huskCount n + others) ++ toLe 1 absent))) ∧
  (∀ (s : State) (slot : Fin 64) (t : Table),
    look s.husk.tables slot = some t →
    ¬(t.st ≠ 2 ∨ s.huskCount slot ≠ 0) →
    ¬(!(s.copyAll s.peers (.husks slot 0)).hdg.bench ∧ ((s.copyAll s.peers (.husks slot 0)).hdg.live.length < (s.copyAll s.peers (.husks slot 0)).hdg.size ∨ !(s.copyAll s.peers (.husks slot 0)).peers.all fun m => (s.copyAll s.peers (.husks slot 0)).husk.zeros.contains (slot.val, m))) →
    exec (.tableSlotFreed slot) s = .next (let s := s.copyAll s.peers (.husks slot 0)
  (s.onHusk fun h => { h with tables := put h.tables slot { t with st := 0 }, zeros := h.zeros.filter fun z => z.1 != slot.val }).post 0x0501 []))

/-- Recoding an extent, background recodes and the V-LR commands have their effect. -/
def Obligations.RecodeAndVlrCommandsAct : Prop :=
  (∀ (s : State) (x : Mbx) (xt : Extent),
    s.sent x .any false 4 = true →
    (s.taken.extNeed ([]) [(mb32 x 0)]).isEmpty = true →
    look s.taken.spc.extents (mb32 x 0) = some xt →
    ¬(!s.taken.mayExtent x (mb32 x 0) 1) →
    s.taken.bgBusy (mbWho x) = false →
    (let s := s.taken; let e := mb32 x 0; let todo := (s.pagesOfExt e).filter fun p => s.homes p && s.offEncoding xt (s.pmeOf p); todo.isEmpty) →
    exec (.recode x) s = .next (let s := s.taken
  let e := mb32 x 0
  let ms := if xt.spread.isEmpty then [homeOf e] else xt.spread
  let todo := (s.pagesOfExt e).filter fun p => s.homes p && s.offEncoding xt (s.pmeOf p)
  let far := ms.filter (· != s.me)
  let done := sumOf far fun m => Config.peerAnswer (s.draws + m) % 2 ^ 18
  let skip := pagesAt e xt s.me - todo.length + sumOf far fun m => 2 ^ 18 / ms.length - Config.peerAnswer (s.draws + m) % 2 ^ 18
  let s := ({ s with draws := s.draws + 64 }).copyAll ms (.recode e)
  let s := s.startBg x 0xC206
  ((s.endBg (mbWho x) rcSuccess (zeros 4 ++ toLe 4 done ++ toLe 4 skip)).intr 0x500028 4).post 0x0508 [])) ∧
  (∀ (s : State) (x : Mbx) (xt : Extent),
    s.sent x .any false 4 = true →
    (s.taken.extNeed ([]) [(mb32 x 0)]).isEmpty = true →
    look s.taken.spc.extents (mb32 x 0) = some xt →
    ¬(!s.taken.mayExtent x (mb32 x 0) 1) →
    s.taken.bgBusy (mbWho x) = false →
    (let s := s.taken; let e := mb32 x 0; let todo := (s.pagesOfExt e).filter fun p => s.homes p && s.offEncoding xt (s.pmeOf p); ¬(todo.isEmpty)) →
    exec (.recode x) s = .next (let s := s.taken
  let e := mb32 x 0
  let ms := if xt.spread.isEmpty then [homeOf e] else xt.spread
  let todo := (s.pagesOfExt e).filter fun p => s.homes p && s.offEncoding xt (s.pmeOf p)
  let far := ms.filter (· != s.me)
  let done := sumOf far fun m => Config.peerAnswer (s.draws + m) % 2 ^ 18
  let skip := pagesAt e xt s.me - todo.length + sumOf far fun m => 2 ^ 18 / ms.length - Config.peerAnswer (s.draws + m) % 2 ^ 18
  let s := ({ s with draws := s.draws + 64 }).copyAll ms (.recode e)
  let s := s.startBg x 0xC206
  s.onHusk fun h => { h with bgJobs := h.bgJobs ++ [(mbWho x, e, todo, done, skip)], bgWant := todo.foldl addNew h.bgWant })) ∧
  (∀ (s : State) (x : Mbx) (xt : Extent),
    s.sent x .any false 40 = true →
    (s.taken.extNeed ([]) [mb32 x 0, (vlrOf x).u / 2 ^ 30, (vlrOf x).v / 2 ^ 30]).isEmpty = true →
    (s.taken.extNeed ([]) (s.taken.vlrExts (vlrOf x))).isEmpty = true →
    look s.taken.spc.extents (mb32 x 0) = some xt →
    ¬(!s.taken.mayExtent x (mb32 x 0) 1) →
    ¬(xt.cls ≠ 12) →
    (let s := s.taken; let v := vlrOf x; let factor (a n : Nat) : Bool := decide (a + n * s.extSize (a / 2 ^ 30) ≤ 2 ^ 50) && (matrixExts a n (s.extSize (a / 2 ^ 30))).all fun i => (look s.spc.extents i).any fun f => f.kind == .published && f.acct == xt.acct && f.serving; ¬(v.r = 0 ∨ v.r > 256 ∨ v.m = 0 ∨ v.n = 0 ∨ v.n * elemBytes xt.elem > 2 ^ 30 ∨ !factor v.u (v.m * v.r) ∨ !factor v.v (v.r * v.n))) →
    exec (.vlrBind x) s = .next (let s := s.taken
  let e := mb32 x 0
  let v := vlrOf x
  let s := (s.discardVlr e).setExtent e (some { xt with vlr := some v })
  ((s.copyAll s.peers (.vlr e (some v))).reExpand e).okHeld x [])) ∧
  (∀ (s : State) (x : Mbx) (xt : Extent),
    s.sent x .any false 4 = true →
    (s.taken.extNeed ([]) [(mb32 x 0)]).isEmpty = true →
    look s.taken.spc.extents (mb32 x 0) = some xt →
    ¬(!s.taken.mayExtent x (mb32 x 0) 1) →
    ¬(xt.cls ≠ 12) →
    exec (.vlrDiscard x) s = .next (let s := s.taken
  let e := mb32 x 0
  (((s.discardVlr e).copyAll s.peers (.vlr e xt.vlr)).reExpand e).okHeld x [])) ∧
  (∀ (s : State) (page : Nat) (x : Slot),
    (let p := s.pmeOf page; let naming := isExp p.cls && writtenSt p.st && s.tableSt p.slot == 2; ¬(!(naming || s.husk.bgWant.contains page))) →
    ¬(!writtenSt (s.pmeOf page).st) →
    ¬((s.slotsOf page).any (fun x => x.bg) ∨ (s.openSlot page false).isSome ∨ s.bgSlots ≥ s.bgCap ∨ !s.slotFree false) →
    (s.takeSlot page false true).husk.slots.getLast? = some x →
    exec (.bgRecodePage page) s = .next (let s := s.takeSlot page false true
  s.closeSlot x.id)) ∧
  (∀ (s : State) (page : Nat) (x : Extent) (v : Vlr),
    ¬(!s.expands page) →
    s.extent page = some x →
    x.vlr = some v →
    exec (.vlrExpansionDone page) s = .next (let pq := s.storePage page (nextSeq (s.pmeOf page).seq) (s.expansion page x v) []
  let s' := pq.1
  let ok := pq.2
  if !ok then s'
    else ({ s' with draws := s'.draws + 2 ^ 44 }.onTlr fun t => { t with expanding := t.expanding.filter fun e => e.2 != page }).wakePage page .vlr)) ∧
  (∀ (s : State) (c : Nat) (page : Nat),
    s.modCtx = some c →
    argMin s.expRank s.tlr.expq = some page →
    (let s := (s.onTlr fun t => { t with expq := t.expq.filter (· != page) }).expandIn c page; s.reqs.find? (fun r => waitsFor .vlr r && !s.tlr.expq.contains r.page && !s.expands r.page) = none) →
    exec (.expansionQueueStart) s = .next (let s := (s.onTlr fun t => { t with expq := t.expq.filter (· != page) }).expandIn c page
  s))

/-- The tier's clock, walker, eviction and the ends of moves have their effect where their event happens. -/
def Obligations.TierMovesAct : Prop :=
  (∀ (s : State),
    s.pwr.on && (s.pwr.boot.isNone || s.pwr.last == 2) && decide (s.now ≥ s.tier.epochAt + s.tier.epochMs * 1000000) →
    exec (.epochBoundary) s = .next (let s := s.onTier fun t => { t with epoch := (t.epoch + 1) % 2 ^ 32, epochAt := t.epochAt + t.epochMs * 1000000, epochMs := s.fld 0x600008 57 48, missed := [] }
  let s := s.hookSpace 0
  if s.nearFree < s.lowMark then s.hookSpace 2 else s)) ∧
  (∀ (s : State) (page : Nat),
    ¬(!hasNear (s.pme page)) →
    exec (.ageWalkerVisit page) s = .next (let p := s.pme page
  let s := if s.elapsed p ≥ 128 then s.setPme page { p with age := (s.tier.epoch % 256 + 128) % 256, cnt := 0 } false else s
  let c := s.tier.cand.filter fun q => q != page && s.evictable q (s.pme q)
  let c := if s.evictable page (s.pme page) then c ++ [page] else c
  let c := if c.length ≤ 4096 then c
        else match argMin (fun q => 2 ^ 20 - s.evictKey q) c with
        | some w => c.filter (· != w)
        | none => c
  s.onTier fun t => { t with cand := c })) ∧
  (∀ (s : State) (page : Nat),
    s.tier.evicting && s.nextVictim == some page && !s.recoding page →
    exec (.evictionPage page) s = .next ((s.evict page).urgentDemote)) ∧
  (∀ (s : State) (page : Nat) (m : Move),
    s.move page = some m →
    m.kind = 1 ∧ m.issued ∧ ¬ s.farPending page →
    m.revoked →
    exec (.demotionDone page) s = .next (let p := s.pme page
  let s := s.setMove page none
  (((s.setPme page { p with st := .both } false).bump cntTier 6 1).chargeMove p.acct p.len).runEnded page false)) ∧
  (∀ (s : State) (page : Nat) (m : Move),
    s.move page = some m →
    m.kind = 1 ∧ m.issued ∧ ¬ s.farPending page →
    ¬(m.revoked) →
    exec (.demotionDone page) s = .next (let p := s.pme page
  let s := s.setMove page none
  let s := (s.dropNear page).setPme page { p with st := .far, near := 0 } false
  let s := (s.bump cntTier 1 1).chargeMove p.acct p.len
  (s.retryMoves).runEnded page true)) ∧
  (∀ (s : State) (page : Nat) (m : Move),
    s.move page = some m →
    m.kind = 0 ∧ ¬ m.pull ∧ m.done ∧ ¬ m.waitSpace →
    exec (.promotionDone page) s = .next (s.finishPromotion page m)) ∧
  (∀ (s : State) (page : Nat) (m : Move),
    s.move page = some m →
    ¬(m.kind ≠ 2 ∨ (s.pme page).st ≠ .retired) →
    exec (.relocationDone page) s = .next (let p := s.pme page
  let bad := s.hasUncorr p
  let s := if bad then s.uncorrNear page (if p.prot = 1 then outRebuilt else outPoisoned) else s
  let ls := (List.range (2 * p.len)).map fun i => s.relocLine p i
  let s := s.each (List.range (2 * p.len)) fun s i => s.writeLine (m.near * 2 + i) ((ls[i]?).getD blankLine)
  let s := (s.freeNear p.near).setMove page none
  let s := (s.setPme page { p with st := p.prev, near := m.near } false).chargeMove p.acct p.len
  (s.checkMark.retryMoves).runEnded page true))

/-- The stream, pin and tier-move commands that no check refuses have their effect and answer Success. -/
def Obligations.StreamAndPinCommandsAct : Prop :=
  (∀ (s : State) (x : Mbx),
    s.sent x .fm false 4 = true →
    (mb32 x 0) = 0 ∨ (look s.taken.tlr.sheaves (mb32 x 0)).any (fun q => q.kind == 1 && !q.unloading) →
    exec (.policyActivate x) s = .next (let s := s.taken
  let h := mb32 x 0
  (s.activate h).status x 0)) ∧
  (∀ (s : State) (x : Mbx) (f : Sheaf) (i : Nat),
    s.sent x .ld false 4 = true →
    look s.taken.tlr.sheaves (mb32 x 0) = some f →
    ¬(f.kind ≠ 3 ∨ f.unloading) →
    (let s := s.taken; let ld := mbWho x; let b := f.image; let gate := leAt b 8 8 % 2 ^ 38; let gateOk := s.homes gate && s.leasedPages ld gate 1 1 && s.kindAt (pageSa gate) == .shared; ¬(!schedOk b || !((schedEntries b).all fun e => s.leasedPages ld e.1 e.2.1 0) || !gateOk)) →
    (let s := s.taken; let b := f.image; let gate := leAt b 8 8 % 2 ^ 38; let acct := (s.extent gate).elim 0 fun e => e.acct; let budget := leAt b 16 8; ¬(s.pinnedOf acct + budget > (s.acct acct).floor)) →
    s.taken.freeSched = some i →
    exec (.streamStart x) s = .next (let s := s.taken
  let ld := mbWho x
  let b := f.image
  let gate := leAt b 8 8 % 2 ^ 38
  let acct := (s.extent gate).elim 0 fun e => e.acct
  let budget := leAt b 16 8
  let c : Sched := { st := 1, ld := ld, sheaf := mb32 x 0, lead := byteAt b 1, leadMin := byteAt b 1, leadMax := byteAt b 2, flags := byteAt b 3, layers := leAt b 4 2, label := byteAt b 6, drop := byteAt b 7, gatePage := gate, budget := budget, pass := 0, c := 0, resident := 0, resValid := false, late := 0, onTime := 0, started := [], gated := [], pinned := [], placed := [], entries := schedEntries b, acct := acct }
  let s := (s.onTier fun t => { t with scheds := put t.scheds i c }).post 0x0608 [(1, i)]
  s.okOut x (zeros 3 ++ [BitVec.ofNat 8 i]))) ∧
  (∀ (s : State) (x : Mbx) (c : Sched),
    s.sent x .any false 5 = true →
    look s.taken.tier.scheds (mb8 x 4) = some c →
    ¬(!mayStream x c) →
    c.st = 1 →
    exec (.streamStop x) s = .next (let s := s.taken
  (s.endSched (mb8 x 4) 2).status x 0)) ∧
  (∀ (s : State) (x : Mbx) (c : Sched),
    s.sent x .any false 5 = true →
    look s.taken.tier.scheds (mb8 x 4) = some c →
    ¬(!mayStream x c) →
    exec (.streamQuery x) s = .next (let s := s.taken
  s.okOut x (zeros 7 ++ toLe 8 (strmStat c) ++ toLe 4 c.late))) ∧
  (∀ (s : State) (x : Mbx),
    s.sent x .any false 12 = true →
    ¬((mb32 x 8) = 0) →
    ¬(!s.taken.mayName x (mb64 x 0 % 2 ^ 38) (mb32 x 8) 0) →
    (let s := s.taken; let first := mb64 x 0 % 2 ^ 38; let n := mb32 x 8; let ps := (pagesOf first n).filter fun p => s.homes p && pinnable (s.pmeOf p).st; let new := ps.filter fun p => (look s.tier.pins p).isNone; let accts := (new.map fun p => (s.pmeOf p).acct).eraseDups; let fits := accts.all fun a => decide (s.pinnedOf a + sumOf (new.filter fun p => (s.pmeOf p).acct == a) (fun p => (s.pmeOf p).len) ≤ (s.acct a).floor); ¬(!fits)) →
    exec (.pagePin x) s = .next (let s := s.taken
  let first := mb64 x 0 % 2 ^ 38
  let n := mb32 x 8
  let ps := (pagesOf first n).filter fun p => s.homes p && pinnable (s.pmeOf p).st
  let new := ps.filter fun p => (look s.tier.pins p).isNone
  let s := s.each new fun s p => (s.pinPage p (s.pmeOf p).acct 7).1
  let (s, k, _) := s.placeAll 4 7 (s.awayPages first n)
  s.okOut x (zeros 3 ++ toLe 4 (ps.length + k)))) ∧
  (∀ (s : State) (x : Mbx),
    s.sent x .any false 12 = true →
    ¬((mb32 x 8) = 0) →
    ¬(!s.taken.mayName x (mb64 x 0 % 2 ^ 38) (mb32 x 8) 0) →
    exec (.pageUnpin x) s = .next (let s := s.taken
  let first := mb64 x 0 % 2 ^ 38
  let n := mb32 x 8
  let ps := (pagesOf first n).filter fun p => (look s.tier.pins p).isSome
  let (s, k, _) := (s.onTier fun t => { t with pins := t.pins.filter fun e => !ps.contains e.1 }).placeAll 5 7 (s.awayPages first n)
  s.okOut x (zeros 3 ++ toLe 4 (ps.length + k)))) ∧
  (∀ (s : State) (x : Mbx),
    s.sent x .any false 20 = true →
    ¬(mb8 x 4 ≠ 1 ∨ mb8 x 5 > 7 ∨ (mb32 x 16) = 0) →
    ¬(!s.taken.mayName x (mb64 x 8 % 2 ^ 38) (mb32 x 16) 1) →
    s.taken.bgBusy (mbWho x) = false →
    exec (.tierMovePromote x) s = .next (let s := s.taken
  let first := mb64 x 8 % 2 ^ 38
  let n := mb32 x 16
  let s := s.startBg x 0xC306
  let (s, k, away) := s.placeAll 1 (mb8 x 5) (s.awayPages first n)
  let r := ((pagesOf first n).filter s.homes).foldl (fun (acc : State × MoveRun) page =>
        let (s, k) := acc.1.placePage 1 (mb8 x 5) page
        (s, if k = 1 then { acc.2 with done := acc.2.done + 1 }
        else if k = 2 && (s.move page).isSome then { acc.2 with wait := acc.2.wait ++ [page] }
        else acc.2))
        (s, { op := 1, acct := 0, tag := 0, done := k, refused := 0, wait := [], peer := none, who := some (mbWho x), away := away })
  (r.1.onTier fun t => { t with runs := t.runs ++ [r.2] }).flushRuns)) ∧
  (∀ (s : State) (x : Mbx),
    s.sent x .any false 20 = true →
    ¬(mb8 x 4 ≠ 2 ∨ mb8 x 5 > 7 ∨ (mb32 x 16) = 0) →
    ¬(!s.taken.mayName x (mb64 x 8 % 2 ^ 38) (mb32 x 16) 1) →
    s.taken.bgBusy (mbWho x) = false →
    exec (.tierMoveDemote x) s = .next (let s := s.taken
  let first := mb64 x 8 % 2 ^ 38
  let n := mb32 x 16
  let s := s.startBg x 0xC306
  let (s, k, away) := s.placeAll 2 (mb8 x 5) (s.awayPages first n)
  let r := ((pagesOf first n).filter s.homes).foldl (fun (acc : State × MoveRun) page =>
        let (s, k) := acc.1.placePage 2 (mb8 x 5) page
        (s, if k = 1 then { acc.2 with done := acc.2.done + 1 }
        else if k = 2 && (s.move page).isSome then { acc.2 with wait := acc.2.wait ++ [page] }
        else acc.2))
        (s, { op := 2, acct := 0, tag := 0, done := k, refused := 0, wait := [], peer := none, who := some (mbWho x), away := away })
  (r.1.onTier fun t => { t with runs := t.runs ++ [r.2] }).flushRuns))

/-- Policy placement requests, and the layers of a stream schedule, act where their conditions hold. -/
def Obligations.PlacementAndLayersAct : Prop :=
  (∀ (s : State) (q : PlaceReq) (rest : List PlaceReq),
    s.tier.placeQ = q :: rest →
    q.op = 1 →
    exec (.placePromote) s = .next ((s.onTier fun t => { t with placeQ := rest ++ t.placeWait.take (1024 - rest.length), placeWait := t.placeWait.drop (1024 - rest.length) }).runPlace q none)) ∧
  (∀ (s : State) (q : PlaceReq) (rest : List PlaceReq),
    s.tier.placeQ = q :: rest →
    q.op = 2 →
    exec (.placeDemote) s = .next ((s.onTier fun t => { t with placeQ := rest ++ t.placeWait.take (1024 - rest.length), placeWait := t.placeWait.drop (1024 - rest.length) }).runPlace q none)) ∧
  (∀ (s : State) (q : PlaceReq) (rest : List PlaceReq),
    s.tier.placeQ = q :: rest →
    q.op = 3 →
    exec (.placeDiscard) s = .next ((s.onTier fun t => { t with placeQ := rest ++ t.placeWait.take (1024 - rest.length), placeWait := t.placeWait.drop (1024 - rest.length) }).runPlace q none)) ∧
  (∀ (s : State) (q : PlaceReq) (rest : List PlaceReq),
    s.tier.placeQ = q :: rest →
    q.op = 4 →
    exec (.placePin) s = .next ((s.onTier fun t => { t with placeQ := rest ++ t.placeWait.take (1024 - rest.length), placeWait := t.placeWait.drop (1024 - rest.length) }).runPlace q none)) ∧
  (∀ (s : State) (q : PlaceReq) (rest : List PlaceReq),
    s.tier.placeQ = q :: rest →
    q.op = 5 →
    exec (.placeUnpin) s = .next ((s.onTier fun t => { t with placeQ := rest ++ t.placeWait.take (1024 - rest.length), placeWait := t.placeWait.drop (1024 - rest.length) }).runPlace q none)) ∧
  (∀ (s : State) (i : Fin 32) (c : Sched),
    look s.tier.scheds i = some c →
    ¬(c.st ≠ 1 ∨ s.pwr.state ≥ 2 ∨ ¬ s.layerFits c (nextLayer c)) →
    exec (.streamLayerPromote i) s = .next (let k := nextLayer c
  let cls := s.classOf c.ld c.label
  let s := s.modSched i fun c => { c with started := c.started ++ [k], pinned := c.pinned ++ [k] }
  s.each (c.layerPages (c.layerOf k)) fun s p =>
    if s.homes p then (s.promote p cls).1 else s.placeRemote i k p cls)) ∧
  (∀ (s : State) (i : Fin 32) (layer : Nat) (c : Sched),
    look s.tier.scheds i = some c →
    ¬(c.st ≠ 1 ∨ ¬ c.started.contains layer ∨ c.gated.contains layer ∨ ¬ s.layerResident c layer) →
    exec (.streamLayerResident i layer) s = .next (let j := c.layerOf layer
  let pass := layer / max c.layers 1
  let s := s.gateWrite c.gatePage (8 + j % 504) (2 ^ 63 + pass % 65536 * 2 ^ 32 + j)
  let s := s.modSched i fun c => { c with gated := c.gated ++ [layer] }
  match look s.tier.scheds i with
    | none => s
    | some c =>
    let s := match highGated c with
    | some h =>
    let s := s.modSched i fun c => { c with resident := c.layerOf h, resValid := true }
    s.gateWrite c.gatePage 1 (2 ^ 63 + h / max c.layers 1 % 65536 * 2 ^ 32 + c.layerOf h)
    | none => s
    if c.flags.testBit 2 then s.edge (385 + i.val) c.ld else s))

/-- The events of the far tier have their effect where they happen. -/
def Obligations.FarTierEventsAct : Prop :=
  (∀ (s : State) (page : Nat) (res : List FarRes) (m : Move),
    s.move page = some m →
    ¬(m.kind ≠ 0 ∨ m.waitSpace ∨ m.done) →
    ¬((s.inBuffer page m.far).isSome) →
    ¬((s.dieGo (s.dieOfChunk m.far)).dieServes (s.dieOfChunk m.far) ≠ some page) →
    exec (.farReadDone page res) s = .next (let p := s.pmeOf page
  let n := s.dieOfChunk m.far
  let s := s.dieGo n
  let lost := s.cwLost m.far p.len res
  let s := (s.setDie n fun d => { d with read := none }).afterRead m.far p.len res
  (if lost then s.farLost page else s.checkRead page m).dieGo n)) ∧
  (∀ (s : State) (page : Nat) (journal : Bool),
    journal →
    s.jrnlReady > s.far.jrnlDone →
    exec (.farRowProgramDone page journal) s = .next (s.jrnlProgram s.jrnlReady)) ∧
  (∀ (s : State) (page : Nat) (journal : Bool) (r : Bool) (it : RowItem),
    ¬(journal) →
    s.itemOf page = some (r, it) →
    s.rowFull r it && !s.bandServes (farBand it.far) →
    exec (.farRowProgramDone page journal) s = .next (s.programRows r it)) ∧
  (∀ (s : State) (page : Nat) (journal : Bool) (t : Nat),
    journal →
    s.far.jrnlWin = some t →
    s.now ≥ t + s.durWin →
    exec (.durWinExpire page journal) s = .next ((s.onFar fun f => { f with jrnlWin := none, jrnlPad := f.jrnlNext - 1 }).bump cntFar 4 1)) ∧
  (∀ (s : State) (page : Nat) (journal : Bool) (r : Bool) (it : RowItem),
    ¬(journal) →
    s.itemOf page = some (r, it) →
    it.why = 1 ∧ s.now ≥ it.t0 + s.durWin ∧ ¬ s.rowFull r it →
    exec (.durWinExpire page journal) s = .next (s.padRow r)) ∧
  (∀ (s : State) (chan : Fin 24) (die : Fin 4) (band : Nat),
    band < s.bandCount ∧ dieIdx band = die.val ∧ (s.band band).st = 1 →
    exec (.farProgramFail chan die band) s = .next ((s.blockRetire chan die band).govProgram (dataOn (s.band band) band chan + rowChunks (s.band band).width * 128))) ∧
  (∀ (s : State) (chan : Fin 24) (band : Nat),
    band < s.bandCount ∧ (s.band band).st = 0 →
    exec (.farEraseFail chan band) s = .next (s.blockRetire chan (dieIdx band) band)) ∧
  (∀ (s : State) (page : Nat),
    (let p := s.pmeOf page; let b := farBand p.far; let free := s.freeBands; let s := s.onFar fun f => { f with collecting := if free ≥ s.gcHigh then false else f.collecting || decide (free < s.gcLow) }; hasFar p && !s.farPending page && s.copiesBand b) →
    exec (.gcBandCopy page) s = .next (let p := s.pmeOf page
  let b := farBand p.far
  let free := s.freeBands
  let s := s.onFar fun f => { f with collecting := if free ≥ s.gcHigh then false else f.collecting || decide (free < s.gcLow) }
  let s := if free < s.gcCrit && !s.far.crit then ((s.onFar fun f => { f with crit := true }).intr 0x700028 0).post 0x0700 []
        else if free ≥ s.gcCrit then s.onFar fun f => { f with crit := false } else s
  let s := if s.wearVictim = some b then s.post 0x0702 [] else s
  s.copyHusk page)) ∧
  (∀ (s : State) (band : Nat),
    (s.band band).st = 2 ∧ (s.band band).valid = 0 ∧ ¬ s.bandRead band ∧ s.far.jrnlDone ≥ (s.band band).freedBy →
    exec (.bandErase band) s = .next (let first := band * 2 ^ 24
  let s := s.onFar fun f => { f with flash := f.flash.filter (fun c => decide (c.1 < first ∨ first + 2 ^ 24 ≤ c.1)), parity := f.parity.filter (fun c => c.1 / 2 ^ 19 != band), queue := f.queue.filter (· != band) }
  let s := s.mapBand band fun b => { b with st := if s.indexGone (dieIdx band) then 3 else 0, erase := b.erase + 1, valid := 0, reads := [], prog := 0 }
  let s := s.onFar fun f => { f with dies := f.dies.map fun d => (d.1, { d.2 with rebuilt := d.2.rebuilt.filter fun r => r / 1024 != band }) }
  let busy (n : Nat) : Bool := s.far.queue.any fun b => dieIdx b == n / 24
  s.each ((List.range s.dieCount).filter fun n => (s.die n).st == 1 && !busy n) fun s n => 
    let s := (s.setDie n fun d => { d with st := 2 }).post 0x0705 []
    match s.far.rebuildBg with
    | some (k, w) => if k = n then (s.onFar fun f => { f with rebuildBg := none }).endBg w rcSuccess [0] else s
    | none => s)) ∧
  (∀ (s : State),
    s.urgentDemote.govLevel > 0 →
    exec (.governorRefill) s = .next (let s := s.urgentDemote
  s.each s.far.paced fun s page =>
    match s.move page with
    | some m => if m.kind = 1 ∧ ¬ m.issued then s.issueDemote page else s.onFar fun f => { f with paced := f.paced.filter (· != page) }
    | none => s.onFar fun f => { f with paced := f.paced.filter (· != page) })) ∧
  (∀ (s : State),
    s.far.jrnl.length * 2 ≥ jrnlRing ∧ ¬ s.durPends →
    exec (.journalCheckpoint) s = .next (let n := s.far.jrnlNext - 1
  ((s.onFar fun f => { f with ckpt := s.metaNow, jrnl := [], jrnlPad := n }).jrnlProgram n).govProgram (Config.value s.draws) |>.drew))

/-- FAR_WEAR_QUERY returns the wear figures, and FAR_DIE_RETIRE retires a die and starts its rebuild. -/
def Obligations.FarCommandsAct : Prop :=
  (∀ (s : State) (x : Mbx),
    s.sent x .fm false 0 = true →
    exec (.farWearQuery x) s = .next (let s := s.taken
  let e := s.eraseCounts
  let mean := e.foldl (· + ·) 0 / (max e.length 1)
  s.okOut x (zeros 3 ++ toLe 2 mean ++ toLe 2 (e.foldl max 0) ++ toLe 2 (mean * 1000 / 3000) ++ zeros 6 ++ toLe 8 s.far.bytesDone))) ∧
  (∀ (s : State) (x : Mbx),
    s.sent x .fm false 6 = true →
    ¬(mb8 x 4 ≥ 24 ∨ (mb8 x 5 * 24 + mb8 x 4) ≥ s.taken.dieCount) →
    ¬((s.taken.die (mb8 x 5 * 24 + mb8 x 4)).st = 1 ∨ (s.taken.die (mb8 x 5 * 24 + mb8 x 4)).st = 2) →
    (let s := s.taken; let gone := ((List.range s.dieCount).filter fun d => (s.die d).st = 1 ∨ (s.die d).st = 2).length; ¬(gone ≥ 4)) →
    s.taken.bgBusy (mbWho x) = false →
    exec (.farDieRetire x) s = .next (let s := s.taken
  let n := mb8 x 5 * 24 + mb8 x 4
  let s := (s.startBg x 0xC401).retireDie n false
  if (s.die n).st = 2 then s.endBg (mbWho x) rcSuccess [0] else s.onFar fun f => { f with rebuildBg := some (n, mbWho x) }))

/-- Scalar arithmetic writes its result to the destination register, for every legal word with a true guard. -/
def Obligations.ScalarResults : Prop :=
  (∀ (s : State) (c : Fin 4096) (x : Ctx) (w : Word) (a b : BitVec 64) (fd : Bool) (sd : Nat),
    s.issues c x w = true →
    majorOf w = 0x01 →
    x.opS w = some (a, b, fd, sd) →
    wf w 52 49 = 0 →
    x.guard w = true →
    exec (.add c) s = .next ((s.setCtx c (x.setSa fd sd (a + b)).advance).took c x.tiller)) ∧
  (∀ (s : State) (c : Fin 4096) (x : Ctx) (w : Word) (a b : BitVec 64) (fd : Bool) (sd : Nat),
    s.issues c x w = true →
    majorOf w = 0x02 →
    x.opS w = some (a, b, fd, sd) →
    wf w 52 49 = 0 →
    x.guard w = true →
    exec (.sub c) s = .next ((s.setCtx c (x.setSa fd sd (a - b)).advance).took c x.tiller)) ∧
  (∀ (s : State) (c : Fin 4096) (x : Ctx) (w : Word) (a b : BitVec 64) (fd : Bool) (sd : Nat),
    s.issues c x w = true →
    majorOf w = 0x03 →
    x.opS w = some (a, b, fd, sd) →
    wf w 52 49 = 0 →
    x.guard w = true →
    exec (.mul c) s = .next ((s.setCtx c (x.setSa fd sd (a * b)).advance).took c x.tiller)) ∧
  (∀ (s : State) (c : Fin 4096) (x : Ctx) (w : Word) (a b : BitVec 64) (fd : Bool) (sd : Nat),
    s.issues c x w = true →
    majorOf w = 0x04 →
    x.opS w = some (a, b, fd, sd) →
    wf w 52 49 ≤ 1 →
    x.guard w = true →
    exec (.mulh c) s = .next ((s.setCtx c (x.setSa fd sd (mulHigh (wf w 52 49) a b)).advance).took c x.tiller)) ∧
  (∀ (s : State) (c : Fin 4096) (x : Ctx) (w : Word) (a b : BitVec 64) (fd : Bool) (sd : Nat),
    s.issues c x w = true →
    majorOf w = 0x05 →
    x.opS w = some (a, b, fd, sd) →
    wf w 52 49 = 0 →
    x.guard w = true →
    exec (.and c) s = .next ((s.setCtx c (x.setSa fd sd (a &&& b)).advance).took c x.tiller)) ∧
  (∀ (s : State) (c : Fin 4096) (x : Ctx) (w : Word) (a b : BitVec 64) (fd : Bool) (sd : Nat),
    s.issues c x w = true →
    majorOf w = 0x06 →
    x.opS w = some (a, b, fd, sd) →
    wf w 52 49 = 0 →
    x.guard w = true →
    exec (.or c) s = .next ((s.setCtx c (x.setSa fd sd (a ||| b)).advance).took c x.tiller)) ∧
  (∀ (s : State) (c : Fin 4096) (x : Ctx) (w : Word) (a b : BitVec 64) (fd : Bool) (sd : Nat),
    s.issues c x w = true →
    majorOf w = 0x07 →
    x.opS w = some (a, b, fd, sd) →
    wf w 52 49 = 0 →
    x.guard w = true →
    exec (.xor c) s = .next ((s.setCtx c (x.setSa fd sd (a ^^^ b)).advance).took c x.tiller)) ∧
  (∀ (s : State) (c : Fin 4096) (x : Ctx) (w : Word) (a b : BitVec 64) (fd : Bool) (sd : Nat),
    s.issues c x w = true →
    majorOf w = 0x08 →
    x.opS w = some (a, b, fd, sd) →
    wf w 52 49 = 0 →
    x.guard w = true →
    exec (.shl c) s = .next ((s.setCtx c (x.setSa fd sd (a <<< (b.toNat % 64))).advance).took c x.tiller)) ∧
  (∀ (s : State) (c : Fin 4096) (x : Ctx) (w : Word) (a b : BitVec 64) (fd : Bool) (sd : Nat),
    s.issues c x w = true →
    majorOf w = 0x09 →
    x.opS w = some (a, b, fd, sd) →
    wf w 52 49 = 0 →
    x.guard w = true →
    exec (.shr c) s = .next ((s.setCtx c (x.setSa fd sd (a >>> (b.toNat % 64))).advance).took c x.tiller)) ∧
  (∀ (s : State) (c : Fin 4096) (x : Ctx) (w : Word) (a b : BitVec 64) (fd : Bool) (sd : Nat),
    s.issues c x w = true →
    majorOf w = 0x0A →
    x.opS w = some (a, b, fd, sd) →
    wf w 52 49 = 0 →
    x.guard w = true →
    exec (.sar c) s = .next ((s.setCtx c (x.setSa fd sd (a.sshiftRight (b.toNat % 64))).advance).took c x.tiller)) ∧
  (∀ (s : State) (c : Fin 4096) (x : Ctx) (w : Word) (a b : BitVec 64) (fd : Bool) (sd : Nat),
    s.issues c x w = true →
    majorOf w = 0x0B →
    x.opS w = some (a, b, fd, sd) →
    wf w 52 49 ≤ 1 →
    x.guard w = true →
    exec (.min c) s = .next ((s.setCtx c (x.setSa fd sd (minOf (wf w 52 49) a b)).advance).took c x.tiller)) ∧
  (∀ (s : State) (c : Fin 4096) (x : Ctx) (w : Word) (a b : BitVec 64) (fd : Bool) (sd : Nat),
    s.issues c x w = true →
    majorOf w = 0x0C →
    x.opS w = some (a, b, fd, sd) →
    wf w 52 49 ≤ 1 →
    x.guard w = true →
    exec (.max c) s = .next ((s.setCtx c (x.setSa fd sd (maxOf (wf w 52 49) a b)).advance).took c x.tiller))

/-- CMP, LI, LDS and STS have their results for legal words with a true guard. -/
def Obligations.ScalarOtherResults : Prop :=
  (∀ (s : State) (c : Fin 4096) (x : Ctx) (w : Word) (a : BitVec 64) (b : BitVec 64) (fd : Bool) (sd : Nat),
    s.issues c x w = true →
    majorOf w = 0x0D →
    x.opS w = some (a, b, fd, sd) →
    ((condOf (wf w 52 49) a b).isSome && !fd && decide (sd < 8)) = true →
    x.guard w = true →
    exec (.cmp c) s = .next ((s.setCtx c (x.setP sd (BitVec.ofNat 512 (cmpMask (wf w 52 49) a b 512))).advance).took c x.tiller)) ∧
  (∀ (s : State) (c : Fin 4096) (x : Ctx) (w : Word),
    s.issues c x w = true →
    majorOf w = 0x0E →
    (onlyBits w (bm 63 53 + bm 48 48 + bm 46 42 + bm 31 0) && !((w.toNat.testBit 48) && decide ((wf w 46 42) ≥ 16))) = true →
    x.guard w = true →
    exec (.li c) s = .next (State.took (
    let fd := w.toNat.testBit 48
    let sd := wf w 46 42
    s.setCtx c (x.setSa fd sd (imm64 w)).advance) c x.tiller)) ∧
  (∀ (s : State) (c : Fin 4096) (x : Ctx) (w : Word) (a : BitVec 64) (v : BitVec 64),
    s.issues c x w = true →
    majorOf w = 0x0F →
    x.memAddr w = some a →
    w.toNat.testBit 52 →
    (wf w 50 49 == 3) = true →
    x.guard w = true →
    (if a.toNat % 8 = 0 then s.ctxWord c x (a.toNat / 8) else none) = some v →
    exec (.lds c) s = .next ((s.setCtx c (x.setSa (w.toNat.testBit 48) (wf w 46 42) v).advance).took c x.tiller)) ∧
  (∀ (s : State) (c : Fin 4096) (x : Ctx) (w : Word) (a : BitVec 64),
    s.issues c x w = true →
    majorOf w = 0x0F →
    x.memAddr w = some a →
    ¬(w.toNat.testBit 52) →
    w.toNat.testBit 47 →
    ¬(!x.guard w) →
    ¬(a.toNat % (memSize w) ≠ 0) →
    exec (.lds c) s = .next (State.took (
    let n := memSize w
    match s.syncRead c x a.toNat n with
    | (s, .wait) => s
    | (s, .fault) => s.doEff c x (.trap 5 1 a.toNat)
    | (s, .line d y) => s.withCtx c fun x =>
    if y ≠ 0 ∧ x.trapsPoison then s.doEff c x (.trap 0x0A y a.toNat)
    else s.doEff c x (.next (x.setSa (w.toNat.testBit 48) (wf w 46 42) (extendTo (w.toNat.testBit 51) ((d.drop (a.toNat % 64)).take n))))) c x.tiller)) ∧
  (∀ (s : State) (c : Fin 4096) (x : Ctx) (w : Word) (a : BitVec 64),
    s.issues c x w = true →
    majorOf w = 0x0F →
    x.memAddr w = some a →
    ¬(w.toNat.testBit 52) →
    ¬(w.toNat.testBit 47) →
    x.guard w = true →
    ¬(a.toNat % (memSize w) ≠ 0) →
    ¬(!x.inWin a.toNat (memSize w)) →
    exec (.lds c) s = .next (State.took (
    let n := memSize w
    s.setCtx c (x.setSa (w.toNat.testBit 48) (wf w 46 42) (extendTo (w.toNat.testBit 51) (x.load a.toNat n))).advance) c x.tiller)) ∧
  (∀ (s : State) (c : Fin 4096) (x : Ctx) (w : Word) (a : BitVec 64) (y : Ctx),
    s.issues c x w = true →
    majorOf w = 0x10 →
    x.memAddr w = some a →
    w.toNat.testBit 52 →
    (wf w 51 49 == 3) = true →
    x.guard w = true →
    (if a.toNat % 8 = 0 ∧ a.toNat / 8 < 24 then x.putWord (a.toNat / 8) (x.getSa (w.toNat.testBit 48) (wf w 46 42)) else none) = some y →
    exec (.sts c) s = .next ((s.setCtx c y.advance).took c x.tiller)) ∧
  (∀ (s : State) (c : Fin 4096) (x : Ctx) (w : Word) (a : BitVec 64),
    s.issues c x w = true →
    majorOf w = 0x10 →
    x.memAddr w = some a →
    ¬(w.toNat.testBit 52) →
    ¬(w.toNat.testBit 51) →
    w.toNat.testBit 47 →
    ¬(!x.guard w) →
    ¬(a.toNat % (memSize w) ≠ 0) →
    ¬(s.sysAccess c a.toNat (memSize w) 2) →
    s.access x a.toNat (memSize w) 2 = .ok →
    exec (.sts c) s = .next (State.took (
    let n := memSize w
    let d := toLe n (x.getSa (w.toNat.testBit 48) (wf w 46 42)).toNat
    let o := a.toNat % 64
    let y := x.advance
    s.asyncWrite c y x.pc .wr (a.toNat / 64 * 64) ((2 ^ n - 1) * 2 ^ o) (zeros o ++ d ++ zeros (64 - o - n))) c x.tiller)) ∧
  (∀ (s : State) (c : Fin 4096) (x : Ctx) (w : Word) (a : BitVec 64),
    s.issues c x w = true →
    majorOf w = 0x10 →
    x.memAddr w = some a →
    ¬(w.toNat.testBit 52) →
    ¬(w.toNat.testBit 51) →
    ¬(w.toNat.testBit 47) →
    x.guard w = true →
    ¬(a.toNat % (memSize w) ≠ 0) →
    ¬(!x.inWin a.toNat (memSize w)) →
    exec (.sts c) s = .next (State.took (
    let n := memSize w
    s.setCtx c (x.store a.toNat (toLe n (x.getSa (w.toNat.testBit 48) (wf w 46 42)).toNat)).advance) c x.tiller))

/-- Vector loads, stores and elementwise arithmetic commit their results where no enabled flag is raised. -/
def Obligations.VectorResults : Prop :=
  (∀ (s : State) (c : Fin 4096) (x : Ctx) (w : Word),
    s.issues c x w = true →
    majorOf w = 0x11 →
    ¬(!(onlyBits w (vHead + bm 53 53 + bm 47 44 + bm 31 28 + bm 20 0) && vecEtOk w)) →
    (let a := (x.sreg (vSs w) + BitVec.ofNat 64 (64 * vImm w)).toNat; a % 64 = 0) →
    (let a := (x.sreg (vSs w) + BitVec.ofNat 64 (64 * vImm w)).toNat; x.inWin a 256 = true) →
    exec (.vld c) s = .next (State.took (
    let a := (x.sreg (vSs w) + BitVec.ofNat 64 (64 * vImm w)).toNat
    let old := x.vreg (vD w)
    let mem := le (x.load a 256)
    let act (b : Nat) : Bool := if etBlock (vEt w) ≠ 0 then x.active w 0 else x.active w (b / etWidth (vEt w) 0)
    let n := (List.range 2048).foldl (fun acc b =>
        acc + (if (if act b then mem.testBit b else !vZm w && old.testBit b) then 2 ^ b else 0)) 0
    s.setCtx c (x.setV (vD w) n).advance) c x.tiller)) ∧
  (∀ (s : State) (c : Fin 4096) (x : Ctx) (w : Word),
    s.issues c x w = true →
    majorOf w = 0x12 →
    ¬(!(onlyBits w (vHead + bm 47 44 + bm 31 28 + bm 20 0) && vecEtOk w)) →
    (let a := (x.sreg (vSs w) + BitVec.ofNat 64 (64 * vImm w)).toNat; a % 64 = 0) →
    (let a := (x.sreg (vSs w) + BitVec.ofNat 64 (64 * vImm w)).toNat; x.inWin a 256 = true) →
    exec (.vst c) s = .next (State.took (
    let a := (x.sreg (vSs w) + BitVec.ofNat 64 (64 * vImm w)).toNat
    let v := x.vreg (vD w)
    let act (b : Nat) : Bool := if etBlock (vEt w) ≠ 0 then x.active w 0 else x.active w (b / etWidth (vEt w) 0)
    let d := (x.load a 256).zipIdx.map fun p =>
        BitVec.ofNat 8 ((List.range 8).foldl (fun acc b =>
        acc + (if (if act (8 * p.2 + b) then v.testBit (8 * p.2 + b) else p.1.toNat.testBit b) then 2 ^ b else 0)) 0)
    s.setCtx c (x.store a d).advance) c x.tiller)) ∧
  (∀ (s : State) (c : Fin 4096) (x : Ctx) (w : Word),
    s.issues c x w = true →
    majorOf w = 0x13 →
    ¬(!(onlyBits w (vAbBits) && arithEt w true)) →
    (let r := elemRun x w (etCount (vEt w) 0) (etWidth (vEt w) 0) (arith 0 x w); x.trapFlags (orFlags (r.1.map Prod.snd)) = 0) →
    exec (.vadd c) s = .next (State.took (
    let r := elemRun x w (etCount (vEt w) 0) (etWidth (vEt w) 0) (arith 0 x w)
    s.setCtx c (committed x (orFlags (r.1.map Prod.snd)) r.2 (elemRm w) fun x => x.setV (vD w) (packElems (etWidth (vEt w) 0) (r.1.map Prod.fst))).advance) c x.tiller)) ∧
  (∀ (s : State) (c : Fin 4096) (x : Ctx) (w : Word),
    s.issues c x w = true →
    majorOf w = 0x14 →
    ¬(!(onlyBits w (vAbBits) && arithEt w true)) →
    (let r := elemRun x w (etCount (vEt w) 0) (etWidth (vEt w) 0) (arith 1 x w); x.trapFlags (orFlags (r.1.map Prod.snd)) = 0) →
    exec (.vmul c) s = .next (State.took (
    let r := elemRun x w (etCount (vEt w) 0) (etWidth (vEt w) 0) (arith 1 x w)
    s.setCtx c (committed x (orFlags (r.1.map Prod.snd)) r.2 (elemRm w) fun x => x.setV (vD w) (packElems (etWidth (vEt w) 0) (r.1.map Prod.fst))).advance) c x.tiller)) ∧
  (∀ (s : State) (c : Fin 4096) (x : Ctx) (w : Word),
    s.issues c x w = true →
    majorOf w = 0x15 →
    ¬(!(onlyBits w (vAbcBits) && arithEt w true)) →
    (let r := elemRun x w (etCount (vEt w) 0) (etWidth (vEt w) 0) (arith 2 x w); x.trapFlags (orFlags (r.1.map Prod.snd)) = 0) →
    exec (.vmac c) s = .next (State.took (
    let r := elemRun x w (etCount (vEt w) 0) (etWidth (vEt w) 0) (arith 2 x w)
    s.setCtx c (committed x (orFlags (r.1.map Prod.snd)) r.2 (elemRm w) fun x => x.setV (vD w) (packElems (etWidth (vEt w) 0) (r.1.map Prod.fst))).advance) c x.tiller)) ∧
  (∀ (s : State) (c : Fin 4096) (x : Ctx) (w : Word),
    s.issues c x w = true →
    majorOf w = 0x16 →
    ¬(!(onlyBits w (vHead + bm 53 53 + bm 47 36 + bm 31 24) && arithEt w true)) →
    (let wd := etWidth (vEt w) 0; let r := elemRun x w (etCount (vEt w) 0) wd (fun i _ => maxElem (vEt w) (elemAt wd (x.vreg (vA w)) i) (elemAt wd (x.vreg (vB w)) i)); x.trapFlags (orFlags (r.1.map Prod.snd)) = 0) →
    exec (.vmax c) s = .next (State.took (
    let wd := etWidth (vEt w) 0
    let r := elemRun x w (etCount (vEt w) 0) wd (fun i _ => maxElem (vEt w) (elemAt wd (x.vreg (vA w)) i) (elemAt wd (x.vreg (vB w)) i))
    s.setCtx c (committed x (orFlags (r.1.map Prod.snd)) r.2 (elemRm w) fun x => x.setV (vD w) (packElems wd (r.1.map Prod.fst))).advance) c x.tiller)) ∧
  (∀ (s : State) (c : Fin 4096) (x : Ctx) (w : Word),
    s.issues c x w = true →
    majorOf w = 0x17 →
    ¬(!(onlyBits w vAbcBits && ((decide ((vEt w) < 5) && vEtd w == 0) || ((vEt w) == 11 && vEtd w == 13 && vRm w == 0)))) →
    x.trapFlags (orFlags ((elemRun x w 64 32 (dotElem x w)).1.map Prod.snd)) = 0 →
    exec (.vdot c) s = .next (State.took (
    let r := elemRun x w 64 32 (dotElem x w)
    s.setCtx c (committed x (orFlags (r.1.map Prod.snd)) r.2 (elemRm w) fun x => x.setV (vD w) (packElems 32 (r.1.map Prod.fst))).advance) c x.tiller)) ∧
  (∀ (s : State) (c : Fin 4096) (x : Ctx) (w : Word),
    s.issues c x w = true →
    majorOf w = 0x1A →
    ¬(!(onlyBits w (vHead + bm 53 53 + bm 52 40 + bm 31 16) && decide (vFunc w ≤ 1) && arithEt w false)) →
    (let r := elemRun x w (etCount (vEt w) 0) (etWidth (vEt w) 0) (scaleElem x w); x.trapFlags (orFlags (r.1.map Prod.snd)) = 0) →
    exec (.vscale c) s = .next (State.took (
    let r := elemRun x w (etCount (vEt w) 0) (etWidth (vEt w) 0) (scaleElem x w)
    s.setCtx c (committed x (orFlags (r.1.map Prod.snd)) r.2 (elemRm w) fun x => x.setV (vD w) (packElems (etWidth (vEt w) 0) (r.1.map Prod.fst))).advance) c x.tiller))

/-- VRED, VCVT and the tile instructions commit their results where no enabled flag is raised. -/
def Obligations.ReduceConvertTileResults : Prop :=
  (∀ (s : State) (c : Fin 4096) (x : Ctx) (w : Word),
    s.issues c x w = true →
    majorOf w = 0x18 →
    ¬(!(onlyBits w (vHead + bm 52 48 + bm 43 40 + bm 31 28 + bm 23 16) && decide (vFunc w ≤ 2) && (decide ((vEt w) < 3) || (((vEt w) == 11 || (vEt w) == 13) && vRm w == 0 && !vSat w)))) →
    (let pq := drawsFor (vRm w) [true] x.gen; let us := pq.1; let pq := redOut x w (us.headD 0); let fl := pq.2; x.trapFlags fl = 0) →
    exec (.vred c) s = .next (State.took (
    let pq := drawsFor (vRm w) [true] x.gen
    let us := pq.1
    let g := pq.2
    let pq := redOut x w (us.headD 0)
    let r := pq.1
    let fl := pq.2
    s.setCtx c (committed x fl g (vRm w) fun x => x.setS (vSs w) r).advance) c x.tiller)) ∧
  (∀ (s : State) (c : Fin 4096) (x : Ctx) (w : Word),
    s.issues c x w = true →
    majorOf w = 0x19 →
    (let et := vEt w; let etd := vEtd w; let kc := wf w 15 13; let bS := etBlock et; let bD := etBlock etd; let used := vHead + bm 53 53 + bm 47 40 + bm 31 21 + bm 2 0 + (if bS ≠ 0 then bm 39 36 else 0) + (if bD ≠ 0 then bm 35 32 else 0) + (if bS ≠ 0 ∨ bD ≠ 0 then bm 3 3 else 0) + (if et = 14 ∨ etd = 14 then bm 15 13 else 0); ¬(!(onlyBits w used && decide (et < 15) && decide (etd < 15) && decide (kc ≤ 4)))) →
    ¬(((etCount (vEt w) (wf w 15 13)) = (etCount (vEtd w) (wf w 15 13)) ∧ (wf w 2 0) ≠ 0) ∨ (wf w 2 0) * (min (etCount (vEt w) (wf w 15 13)) (etCount (vEtd w) (wf w 15 13))) ≥ max (etCount (vEt w) (wf w 15 13)) (etCount (vEtd w) (wf w 15 13)) ∨ ((etBlock (vEtd w)) ≠ 0 ∧ (min (etCount (vEt w) (wf w 15 13)) (etCount (vEtd w) (wf w 15 13))) % (etBlock (vEtd w)) ≠ 0)) →
    (etBlock (vEtd w)) ≠ 0 →
    x.trapFlags (orFlags ((cvtOuts x w (wf w 15 13) (cvtPairs (etCount (vEt w) (wf w 15 13)) (etCount (vEtd w) (wf w 15 13)) (wf w 2 0))).map fun o => if o.2.2.2.2 then o.2.2.2.1 else 0)) = 0 →
    exec (.vcvt c) s = .next (State.took (
    let et := vEt w
    let etd := vEtd w
    let kc := wf w 15 13
    let p := wf w 2 0
    let nS := etCount et kc
    let nD := etCount etd kc
    let etd := vEtd w
    let b := etBlock etd
    let wd := etWidth etd kc
    let old := x.vreg (vD w)
    let outs := cvtOuts x w kc (cvtPairs nS nD p)
    let g := (drawsFor (vRm w) ((cvtPairs nS nD p).map fun q => x.active w q.2) x.gen).2
    let flat := outs.flatMap fun o => o.2.2.1
    let lo := ((cvtPairs nS nD p).head?.map Prod.snd).getD 0 / b * b
    let n := etCount etd kc
    let es := (List.range n).map fun i =>
        if lo ≤ i ∧ i < lo + flat.length then
        (if x.active w i then (flat[i - lo]?).getD 0 else if vZm w then 0 else elemAt wd old i)
        else elemAt wd old i
    let scales := outs.filterMap fun o => if o.2.2.2.2 then some (o.1, o.2.1) else none
    s.setCtx c (committed x (orFlags (outs.map fun o => if o.2.2.2.2 then o.2.2.2.1 else 0)) g (vRm w) fun x =>
    (x.setV (vD w) (packElems wd es)).setV (vC w) (putScales ((x.setV (vD w) (packElems wd es)).vreg (vC w)) (wf w 3 3) (n / b) scales)).advance) c x.tiller)) ∧
  (∀ (s : State) (c : Fin 4096) (x : Ctx) (w : Word),
    s.issues c x w = true →
    majorOf w = 0x19 →
    (let et := vEt w; let etd := vEtd w; let kc := wf w 15 13; let bS := etBlock et; let bD := etBlock etd; let used := vHead + bm 53 53 + bm 47 40 + bm 31 21 + bm 2 0 + (if bS ≠ 0 then bm 39 36 else 0) + (if bD ≠ 0 then bm 35 32 else 0) + (if bS ≠ 0 ∨ bD ≠ 0 then bm 3 3 else 0) + (if et = 14 ∨ etd = 14 then bm 15 13 else 0); ¬(!(onlyBits w used && decide (et < 15) && decide (etd < 15) && decide (kc ≤ 4)))) →
    ¬(((etCount (vEt w) (wf w 15 13)) = (etCount (vEtd w) (wf w 15 13)) ∧ (wf w 2 0) ≠ 0) ∨ (wf w 2 0) * (min (etCount (vEt w) (wf w 15 13)) (etCount (vEtd w) (wf w 15 13))) ≥ max (etCount (vEt w) (wf w 15 13)) (etCount (vEtd w) (wf w 15 13)) ∨ ((etBlock (vEtd w)) ≠ 0 ∧ (min (etCount (vEt w) (wf w 15 13)) (etCount (vEtd w) (wf w 15 13))) % (etBlock (vEtd w)) ≠ 0)) →
    ¬((etBlock (vEtd w)) ≠ 0) →
    x.trapFlags (orFlags ((cvtResults x w (wf w 15 13) (vRm w) (cvtPairs (etCount (vEt w) (wf w 15 13)) (etCount (vEtd w) (wf w 15 13)) (wf w 2 0))).map Prod.snd)) = 0 →
    exec (.vcvt c) s = .next (State.took (
    let et := vEt w
    let etd := vEtd w
    let kc := wf w 15 13
    let p := wf w 2 0
    let nS := etCount et kc
    let nD := etCount etd kc
    let etd := vEtd w
    let wd := etWidth etd 0
    let old := x.vreg (vD w)
    let rm := vRm w
    let g := (drawsFor rm ((cvtPairs nS nD p).map fun q => x.active w q.2) x.gen).2
    let rs := cvtResults x w kc rm (cvtPairs nS nD p)
    let lo := ((cvtPairs nS nD p).head?.map Prod.snd).getD 0
    let es := (List.range (etCount etd 0)).map fun i =>
        if lo ≤ i ∧ i < lo + rs.length then ((rs[i - lo]?).getD (0, 0)).1 else elemAt wd old i
    s.setCtx c (committed x (orFlags (rs.map Prod.snd)) g rm fun x => x.setV (vD w) (packElems wd es)).advance) c x.tiller)) ∧
  (∀ (s : State) (c : Fin 4096) (x : Ctx) (w : Word) (m : Nat),
    s.issues c x w = true →
    majorOf w = 0x1C →
    mmaMode (mEt w) (mKc w) = some m →
    (let et := mEt w; let used := bm 63 48 + bm 39 36 + (if etBlock et ≠ 0 then bm 47 40 else 0) + (if et = 14 then bm 35 33 else 0); let t := x.tile (mTd w); ¬(!(onlyBits w used && mA w % 2 == 0 && t.mode == m))) →
    (let t := x.tile (mTd w); let rs := (List.range 128).map fun i => mmaElem x w t (i / 8) (i % 8); x.trapFlags (orFlags (rs.map Prod.snd)) = 0) →
    exec (.mma c) s = .next (State.took (
    let t := x.tile (mTd w)
    let rs := (List.range 128).map fun i => mmaElem x w t (i / 8) (i % 8)
    s.setCtx c (committed x (orFlags (rs.map Prod.snd)) x.gen 0 fun x => x.setT (mTd w) { t with words := rs.map fun r => BitVec.ofNat 32 r.1 }).advance) c x.tiller)) ∧
  (∀ (s : State) (c : Fin 4096) (x : Ctx) (w : Word),
    s.issues c x w = true →
    majorOf w = 0x1D →
    ¬(!(onlyBits w (bm 63 56 + bm 24 21) && (mEtd w == 0 || mEtd w == 13))) →
    exec (.tzero c) s = .next ((s.setCtx c (x.setT (mTd w) { Tile.zero with mode := if mEtd w = 13 then 1 else 0 }).advance).took c x.tiller)) ∧
  (∀ (s : State) (c : Fin 4096) (x : Ctx) (w : Word),
    s.issues c x w = true →
    majorOf w = 0x1E →
    (let etd := mEtd w; let t := x.tile (mTd w); let typeOk := if t.mode = 0 then decide (etd < 3) else etd == 0 || etd == 11 || etd == 13; let rm := wf w 27 26; ¬(!(onlyBits w (bm 63 56 + bm 32 0) && typeOk && !(etInt etd && rm != 0)))) →
    (let etd := mEtd w; let n := 128 * etWidth etd 0 / 8; let a := (x.sreg (wf w 32 28) + BitVec.ofNat 64 (64 * wf w 20 0)).toNat; ¬(!x.inWin a n)) →
    (let t := x.tile (mTd w); let rm := wf w 27 26; let pq := drawsFor rm (List.replicate 128 true) x.gen; let us := pq.1; let rs := (List.range 128).map fun i => tstoreElem w t.mode (t.at i) ((us[i]?).getD 0); x.trapFlags (orFlags (rs.map Prod.snd)) = 0) →
    exec (.tstore c) s = .next (State.took (
    let etd := mEtd w
    let t := x.tile (mTd w)
    let rm := wf w 27 26
    let n := 128 * etWidth etd 0 / 8
    let a := (x.sreg (wf w 32 28) + BitVec.ofNat 64 (64 * wf w 20 0)).toNat
    let pq := drawsFor rm (List.replicate 128 true) x.gen
    let us := pq.1
    let g := pq.2
    let rs := (List.range 128).map fun i => tstoreElem w t.mode (t.at i) ((us[i]?).getD 0)
    s.setCtx c (committed x (orFlags (rs.map Prod.snd)) g rm fun x => x.store a (toLe n (packElems (etWidth etd 0) (rs.map Prod.fst)))).advance) c x.tiller)) ∧
  (∀ (s : State) (c : Fin 4096) (x : Ctx) (w : Word),
    s.issues c x w = true →
    majorOf w = 0x25 →
    xFunc w = 0 →
    ¬(!onlyBits w (bm 63 54 + bm 44 40 + bm 29 26)) →
    (let is := (List.range 64).filter (x.active w); let fl := if (is.map fun i => (BitVec.ofNat 32 (elemAt 32 (x.vreg (xVr w)) i), x.sreg (xSi w) + BitVec.ofNat 64 i)).any fun r => fp32.decode r.1.toNat == .nan then flagIV else 0; x.trapFlags fl = 0) →
    exec (.topkIns c) s = .next (State.took (
    let is := (List.range 64).filter (x.active w)
    let fl := if (is.map fun i => (BitVec.ofNat 32 (elemAt 32 (x.vreg (xVr w)) i), x.sreg (xSi w) + BitVec.ofNat 64 i)).any fun r => fp32.decode r.1.toNat == .nan then flagIV else 0
    s.setCtx c (committed x fl x.gen 0 fun x => x.topInsert (is.map fun i => (BitVec.ofNat 32 (elemAt 32 (x.vreg (xVr w)) i), x.sreg (xSi w) + BitVec.ofNat 64 i))).advance) c x.tiller)) ∧
  (∀ (s : State) (c : Fin 4096) (x : Ctx) (w : Word),
    s.issues c x w = true →
    majorOf w = 0x25 →
    ¬(xFunc w = 0) →
    (onlyBits w (bm 63 54 + bm 49 49 + bm 39 30)) = true →
    x.guard w = true →
    ¬(((x.sreg (xSl w)).toNat) = 0 ∨ ((x.sreg (xSl w)).toNat) > 4096) →
    ¬(!x.inWin ((x.sreg (xSs w)).toNat) (16 * ((x.sreg (xSl w)).toNat))) →
    (let n := (x.sreg (xSl w)).toNat; let m := (x.sreg (xSs w)).toNat; let fl := if ((List.range n).map fun i => topOf (x.load (m + 16 * i) 16)).any fun r => fp32.decode r.1.toNat == .nan then flagIV else 0; x.trapFlags fl = 0) →
    exec (.topkIns c) s = .next (State.took (
    let n := (x.sreg (xSl w)).toNat
    let m := (x.sreg (xSs w)).toNat
    let fl := if ((List.range n).map fun i => topOf (x.load (m + 16 * i) 16)).any fun r => fp32.decode r.1.toNat == .nan then flagIV else 0
    s.setCtx c (committed x fl x.gen 0 fun x => x.topInsert ((List.range n).map fun i => topOf (x.load (m + 16 * i) 16))).advance) c x.tiller)) ∧
  (∀ (s : State) (c : Fin 4096) (x : Ctx) (w : Word),
    s.issues c x w = true →
    majorOf w = 0x26 →
    (onlyBits w (bm 63 54 + bm 39 30)) = true →
    x.guard w = true →
    ¬(!x.inWin ((x.sreg (xSs w)).toNat) (16 * x.topk.items.length)) →
    exec (.topkDrain c) s = .next (State.took (
    let m := (x.sreg (xSs w)).toNat
    let n := x.topk.items.length
    s.setCtx c (({ (x.store m (x.topk.items.flatMap topBytes)) with topk := { x.topk with items := [] } }).setS (xSl w) (BitVec.ofNat 64 n)).advance) c x.tiller))

/-- GATHER, SCATTER, STREAM, PUT and FETCHF whose checks pass start their space operation. -/
def Obligations.SpaceOperationsStart : Prop :=
  (∀ (s : State) (c : Fin 4096) (x : Ctx) (w : Word),
    s.issues c x w = true →
    majorOf w = 0x20 →
    ¬(!(onlyBits w (bm 63 54 + bm 49 30 + bm 21 0) && xImm w % 64 == 0 && xImm w != 0)) →
    ¬(!x.guard w) →
    ¬(((x.sreg (xSl w)).toNat) = 0 ∨ ((x.sreg (xSl w)).toNat) > 65536) →
    ¬(((x.areg (xAb w)).toNat) % 64 ≠ 0) →
    (let n := (x.sreg (xSl w)).toNat; let iw := if xFunc w = 1 then 8 else 4; let ix := (x.sreg (xSi w)).toNat; ¬(!x.inWin ix (iw * n))) →
    ¬(!x.inWin ((x.sreg (xSs w)).toNat) (xImm w * ((x.sreg (xSl w)).toNat))) →
    ¬(x.asyncs ≥ 16) →
    exec (.gather c) s = .next (State.took (
    let n := (x.sreg (xSl w)).toNat
    let m := (x.sreg (xSs w)).toNat
    s.asyncRead c x 1 (rowUnits x w n) m) c x.tiller)) ∧
  (∀ (s : State) (c : Fin 4096) (x : Ctx) (w : Word),
    s.issues c x w = true →
    majorOf w = 0x21 →
    ¬(!(onlyBits w (bm 63 54 + bm 49 30 + bm 21 0) && xImm w % 64 == 0 && xImm w != 0)) →
    ¬(!x.guard w) →
    ¬(((x.sreg (xSl w)).toNat) = 0 ∨ ((x.sreg (xSl w)).toNat) > 65536) →
    ¬(((x.areg (xAb w)).toNat) % 64 ≠ 0) →
    (let n := (x.sreg (xSl w)).toNat; let iw := if xFunc w = 1 then 8 else 4; let ix := (x.sreg (xSi w)).toNat; ¬(!x.inWin ix (iw * n))) →
    ¬(!x.inWin ((x.sreg (xSs w)).toNat) (xImm w * ((x.sreg (xSl w)).toNat))) →
    ¬(x.asyncs ≥ 16) →
    exec (.scatter c) s = .next (State.took (
    let n := (x.sreg (xSl w)).toNat
    let m := (x.sreg (xSs w)).toNat
    s.asyncOut c x 2 (rowUnits x w n) m) c x.tiller)) ∧
  (∀ (s : State) (c : Fin 4096) (x : Ctx) (w : Word),
    s.issues c x w = true →
    majorOf w = 0x22 →
    ¬(!onlyBits w (bm 63 54 + bm 49 30)) →
    ¬(!x.guard w) →
    ¬(((x.sreg (xSl w)).toNat) % 64 ≠ 0) →
    ¬(!x.inWin ((x.sreg (xSs w)).toNat) ((x.sreg (xSl w)).toNat)) →
    ¬(x.asyncs ≥ 16) →
    xFunc w = 0 →
    exec (.stream c) s = .next (State.took (
    let n := (x.sreg (xSl w)).toNat
    let sa := (x.areg (xAb w) + x.sreg (xSi w)).toNat
    let m := (x.sreg (xSs w)).toNat
    s.asyncRead c x 3 (linePieces sa n) m) c x.tiller)) ∧
  (∀ (s : State) (c : Fin 4096) (x : Ctx) (w : Word),
    s.issues c x w = true →
    majorOf w = 0x22 →
    ¬(!onlyBits w (bm 63 54 + bm 49 30)) →
    ¬(!x.guard w) →
    ¬(((x.sreg (xSl w)).toNat) % 64 ≠ 0) →
    ¬(!x.inWin ((x.sreg (xSs w)).toNat) ((x.sreg (xSl w)).toNat)) →
    ¬(x.asyncs ≥ 16) →
    ¬(xFunc w = 0) →
    exec (.stream c) s = .next (State.took (
    let n := (x.sreg (xSl w)).toNat
    let sa := (x.areg (xAb w) + x.sreg (xSi w)).toNat
    let m := (x.sreg (xSs w)).toNat
    s.asyncOut c x 4 (linePieces sa n) m) c x.tiller)) ∧
  (∀ (s : State) (c : Fin 4096) (x : Ctx) (w : Word),
    s.issues c x w = true →
    majorOf w = 0x23 →
    ¬(xFunc w = 1) →
    ¬(!(onlyBits w (bm 63 54 + bm 34 30 + bm 3 0) && decide (xImm w ≤ 1))) →
    ¬(!x.guard w) →
    (let m := (x.sreg (xSs w)).toNat; let n := if xImm w = 0 then 16 else 64; ¬(!x.inWin m n)) →
    xImm w = 0 →
    exec (.putPortMessage c) s = .next (State.took (
    let m := (x.sreg (xSs w)).toNat
    s.putPlace c x (x.load m 16)) c x.tiller)) ∧
  (∀ (s : State) (c : Fin 4096) (x : Ctx) (w : Word),
    s.issues c x w = true →
    majorOf w = 0x23 →
    ¬(xFunc w = 1) →
    ¬(!(onlyBits w (bm 63 54 + bm 34 30 + bm 3 0) && decide (xImm w ≤ 1))) →
    ¬(!x.guard w) →
    (let m := (x.sreg (xSs w)).toNat; let n := if xImm w = 0 then 16 else 64; ¬(!x.inWin m n)) →
    ¬(xImm w = 0) →
    exec (.putPortMessage c) s = .next (State.took (
    let m := (x.sreg (xSs w)).toNat
    s.putProgress c x (x.load m 64)) c x.tiller)) ∧
  (∀ (s : State) (c : Fin 4096) (x : Ctx) (w : Word),
    s.issues c x w = true →
    majorOf w = 0x23 →
    xFunc w = 1 →
    ¬(!onlyBits w (bm 63 54 + bm 49 40 + bm 34 30)) →
    ¬(!x.guard w) →
    ¬(((x.areg (xAb w) + x.sreg (xSi w)).toNat) % 64 ≠ 0) →
    ¬(!x.inWin ((x.sreg (xSs w)).toNat) 64) →
    ¬(x.asyncs ≥ 16) →
    exec (.putLineWrite c) s = .next (State.took (
    let sa := (x.areg (xAb w) + x.sreg (xSi w)).toNat
    let m := (x.sreg (xSs w)).toNat
    s.asyncOut c x 5 [(sa, 64)] m) c x.tiller)) ∧
  (∀ (s : State) (c : Fin 4096) (x : Ctx) (w : Word) (e : Extent) (a : Access),
    s.issues c x w = true →
    majorOf w = 0x24 →
    ¬(!(onlyBits w (bm 63 54 + bm 48 40 + bm 33 22 + bm 3 0) && etOk (xEt w) (wf w 3 1) && etBlock (xEt w) != 0)) →
    ¬(!x.guard w) →
    look s.spc.extents ((fetchSa x w) / 2 ^ 30) = some e →
    s.access x (fetchSa x w) (min (etCount (xEt w) (wf w 3 1) * (elemBytes e.elem)) (4096 - (fetchSa x w) % 4096)) 1 = a →
    ¬((fetchSa x w) % (etBlock (xEt w) * (elemBytes e.elem)) ≠ 0) →
    ¬(a = .noLease) →
    a ≠ .fault →
    exec (.fetchf c) s = .next (State.took (
    let sa := fetchSa x w
    (if s.homes (saPage sa) then s.countAccess (saPage sa) else s).fetchTry c x w e sa) c x.tiller))

/-- Branches, calls, loops, gates and signals with a true guard have their effect. -/
def Obligations.ControlFlowResults : Prop :=
  (∀ (s : State) (c : Fin 4096) (x : Ctx) (w : Word),
    s.issues c x w = true →
    majorOf w = 0x28 →
    (onlyBits w (cHead + cImm)) = true →
    x.guard w = true →
    exec (.br c) s = .next ((s.setCtx c (x.jump (target x w))).took c x.tiller)) ∧
  (∀ (s : State) (c : Fin 4096) (x : Ctx) (w : Word) (t : Bool),
    s.issues c x w = true →
    majorOf w = 0x29 →
    condOf (cFunc w) (x.sreg (cSa w)) (x.sreg (cSb w)) = some t →
    (onlyBits w (bm 63 40 + cImm)) = true →
    x.guard w = true →
    t →
    exec (.brc c) s = .next ((s.setCtx c (x.jump (target x w))).took c x.tiller)) ∧
  (∀ (s : State) (c : Fin 4096) (x : Ctx) (w : Word) (t : Bool),
    s.issues c x w = true →
    majorOf w = 0x29 →
    condOf (cFunc w) (x.sreg (cSa w)) (x.sreg (cSb w)) = some t →
    (onlyBits w (bm 63 40 + cImm)) = true →
    x.guard w = true →
    ¬(t) →
    exec (.brc c) s = .next ((s.setCtx c x.advance).took c x.tiller)) ∧
  (∀ (s : State) (c : Fin 4096) (x : Ctx) (w : Word),
    s.issues c x w = true →
    majorOf w = 0x2A →
    ¬(!onlyBits w (cHead + cImm)) →
    ¬(!x.guard w) →
    ¬(x.calls.length ≥ 16) →
    exec (.call c) s = .next ((s.setCtx c { x with calls := (x.pc + 1) :: x.calls, pc := target x w }).took c x.tiller)) ∧
  (∀ (s : State) (c : Fin 4096) (x : Ctx) (w : Word) (p : Nat) (t : List Nat),
    s.issues c x w = true →
    majorOf w = 0x2B →
    (onlyBits w cHead) = true →
    x.guard w = true →
    x.calls = p :: t →
    exec (.ret c) s = .next ((s.setCtx c ({ x with calls := t }.jump p)).took c x.tiller)) ∧
  (∀ (s : State) (c : Fin 4096) (x : Ctx) (w : Word),
    s.issues c x w = true →
    majorOf w = 0x2C →
    ¬(!(onlyBits w (cHead + bm 49 45 + cImm) && decide (1 ≤ imm32 w))) →
    ¬(!x.guard w) →
    ¬(x.loops.length ≥ 4 ∨ x.loops.any (fun l => decide (l.1 ≤ x.pc ∧ x.pc ≤ l.2.1 ∧ l.2.1 < (x.pc + (imm32 w).toNat)))) →
    ¬(((x.sreg (cSa w)).toNat % 2 ^ 32) = 0) →
    exec (.loop c) s = .next (State.took (
    let e := x.pc + (imm32 w).toNat
    let n := (x.sreg (cSa w)).toNat % 2 ^ 32
    s.setCtx c { x with loops := (x.pc + 1, e, n) :: x.loops, pc := x.pc + 1 }) c x.tiller)) ∧
  (∀ (s : State) (c : Fin 4096) (x : Ctx) (w : Word),
    s.issues c x w = true →
    majorOf w = 0x2D →
    (onlyBits w cHead) = true →
    x.guard w = true →
    exec (.yield c) s = .next ((s.setCtx c ({ x with yielded := true }).advance).took c x.tiller)) ∧
  (∀ (s : State) (c : Fin 4096) (x : Ctx) (w : Word),
    s.issues c x w = true →
    majorOf w = 0x2E →
    ¬(!(onlyBits w (bm 63 40 + cImm) && decide (cFunc w < 10) && decide (cSa w < 16))) →
    ¬(!x.guard w) →
    ¬(((x.areg (cSa w)).toNat) % 8 ≠ 0) →
    exec (.waitg c) s = .next ((s.gateStep c x w).took c x.tiller)) ∧
  (∀ (s : State) (c : Fin 4096) (x : Ctx) (w : Word),
    s.issues c x w = true →
    majorOf w = 0x2F →
    ¬(!(onlyBits w (bm 63 40) && decide (cFunc w < 4) && decide (cSa w < 16))) →
    ¬(!x.guard w) →
    ¬(((x.areg (cSa w)).toNat) % 8 ≠ 0) →
    ¬(s.sysAccess c ((x.areg (cSa w)).toNat) 8 2) →
    s.access x ((x.areg (cSa w)).toNat) 8 2 = .ok →
    exec (.setg c) s = .next (State.took (
    let sa := (x.areg (cSa w)).toNat
    let v := (x.sreg (cSb w)).toNat
    s.asyncWrite c x.advance x.pc .atom sa 0 (toLe 1 (cFunc w) ++ zeros 7 ++ toLe 8 v ++ zeros 48)) c x.tiller)) ∧
  (∀ (s : State) (c : Fin 4096) (x : Ctx) (w : Word),
    s.issues c x w = true →
    majorOf w = 0x30 →
    ¬(!onlyBits w (cHead + bm 49 45)) →
    ¬(!x.guard w) →
    ¬((s.tiller x.tiller).sig.length ≥ 16) →
    exec (.signal c) s = .next (((s.setTiller x.tiller fun t => { t with sig := t.sig ++ [(s.ctxId c x, x.sreg (cSa w))] }).setCtx c x.advance).took c x.tiller)) ∧
  (∀ (s : State) (c : Fin 4096) (x : Ctx) (w : Word),
    s.issues c x w = true →
    majorOf w = 0x31 →
    ¬(!onlyBits w cHead) →
    ¬(!x.guard w) →
    ¬(!x.ops.isEmpty) →
    exec (.fence c) s = .next ((s.setCtx c x.advance).took c x.tiller)) ∧
  (∀ (s : State) (c : Fin 4096) (x : Ctx) (w : Word),
    s.issues c x w = true →
    majorOf w = 0x32 →
    (onlyBits w (cHead + bm 15 0)) = true →
    x.guard w = true →
    exec (.trap c) s = .next ((s.ctxTrap c x x.pc 0x10 (wf w 15 0) 0 false).took c x.tiller)) ∧
  (∀ (s : State) (c : Fin 4096) (x : Ctx) (w : Word),
    s.issues c x w = true →
    majorOf w = 0x33 →
    ¬(!onlyBits w cHead) →
    ¬(!x.guard w) →
    ¬(!x.ops.isEmpty) →
    exec (.halt c) s = .next ((s.ctxEnd c x 0).took c x.tiller)) ∧
  (∀ (s : State) (c : Fin 4096) (x : Ctx) (w : Word),
    s.issues c x w = true →
    illegalMajor (majorOf w) = true →
    exec (.illegalMajorOpcode c) s = .next ((s.doEff c x .illegal).took c x.tiller))

/-- The events of a context have their effect where they happen. -/
def Obligations.ContextEventsAct : Prop :=
  (∀ (s : State) (c : Fin 4096) (op : Nat) (x : Ctx) (o : AOp),
    look s.tlr.ctxs c = some x →
    x.ops.find? fun o => o.id == op && decide (1 ≤ o.kind ∧ o.kind ≤ 5) && o.left == 0 = some o →
    exec (.asyncOpDone c op) s = .next (let y : Ctx := { x with ops := x.ops.filter fun q => q.id != op }
  s.setCtx c (if o.kind = 1 ∨ o.kind = 3 then y.store o.dst o.bytes else y))) ∧
  (∀ (s : State) (c : Fin 4096) (x : Ctx) (q : Sheaf) (e : Extent),
    look s.tlr.ctxs c = some x →
    ¬(x.wait ≠ .fetch ∨ x.ended.isSome ∨ (x.ops.any fun o => o.kind == 8)) →
    look s.tlr.sheaves x.sheaf = some q →
    look s.spc.extents ((fetchSa x (imgWord q.image x.pc)) / 2 ^ 30) = some e →
    exec (.fetchfDone c) s = .next (let w := imgWord q.image x.pc
  let sa := fetchSa x w
  s.fetchTry c x w e sa)) ∧
  (∀ (s : State) (c : Fin 4096),
    s.tlr.polCtx = some c.val ∧ s.tier.policy = 0 →
    exec (.waitgReevaluate c) s = .next (s.each (List.range s.tier.hooks.length) fun s _ => s.defaultTake)) ∧
  (∀ (s : State) (c : Fin 4096) (x : Ctx) (y3 : _) (y4 : _) (y5 : _) (q : Sheaf),
    ¬(s.tlr.polCtx = some c.val ∧ s.tier.policy = 0) →
    look s.tlr.ctxs c = some x →
    x.wait = .gate y3 y4 y5 →
    look s.tlr.sheaves x.sheaf = some q →
    ¬(x.ended.isSome) →
    exec (.waitgReevaluate c) s = .next (s.gateStep c x (imgWord q.image x.pc))) ∧
  (∀ (s : State) (c : Fin 4096) (x : Ctx) (y3 : _) (y4 : _) (y5 : _) (t : Nat) (q : Sheaf),
    look s.tlr.ctxs c = some x →
    x.wait = .gate y3 y4 y5 →
    x.gateEnd = some t →
    look s.tlr.sheaves x.sheaf = some q →
    ¬(s.now < t ∨ x.ended.isSome) →
    exec (.waitgTimeout c) s = .next (s.setCtx c ({ x with wait := .run, gateEnd := none }.setP (wf (imgWord q.image x.pc) 31 29) 0).advance)) ∧
  (∀ (s : State) (c : Fin 4096) (x : Ctx),
    look s.tlr.ctxs c.val = some x →
    x.resident && decide (s.now ≥ x.since + 1000 * s.fld 0x980008 57 48) →
    exec (.contextQuantumExpire c) s = .next (s.setCtx c { x with expired := true })) ∧
  (∀ (s : State) (c : Fin 4096) (x : Ctx),
    look s.tlr.ctxs c.val = some x →
    (let ws := s.tlr.ctxs.filter fun e => e.2.tiller == x.tiller && e.2.waiting; let best := argMin (fun (e : Nat × Ctx) => s.ctxRank e.1 e.2 * 2 ^ 64 + e.2.since) ws; ¬((best.map Prod.fst) ≠ some c.val ∨ s.pwr.state ≥ 2)) →
    (s.makeRoom x.tiller x.scratchLen (s.ctxRank c x) 8).fitsTiller x.tiller x.scratchLen →
    exec (.contextSwapDone c) s = .next (let s' := s.makeRoom x.tiller x.scratchLen (s.ctxRank c x) 8
  (s'.setCtx c { x with resident := true, since := s.now }).bump cntTlr 2 1))

/-- The sheaf commands that no check refuses have their effect and answer Success. -/
def Obligations.SheafCommandsAct : Prop :=
  (∀ (s : State) (x : Mbx) (b : _),
    s.sent x .any false 20 = true →
    ¬((mb8 x 0) = 1 ∧ (mbWho x) ≠ 64) →
    ¬((mb8 x 0) = 0 ∨ (mb8 x 0) > 3 ∨ mb32 x 16 > 2 ^ 22) →
    s.taken.readImage (mbWho x) (mb64 x 8) (mb32 x 16) = some b →
    (mb8 x 0) = 3 →
    ¬(b.length < 64) →
    exec (.sheafLoad x) s = .next (let s := s.taken
  let kind := mb8 x 0
  s.enterSheaf x kind b [])) ∧
  (∀ (s : State) (x : Mbx) (b : _) (ls : _),
    s.sent x .any false 20 = true →
    ¬((mb8 x 0) = 1 ∧ (mbWho x) ≠ 64) →
    ¬((mb8 x 0) = 0 ∨ (mb8 x 0) > 3 ∨ mb32 x 16 > 2 ^ 22) →
    s.taken.readImage (mbWho x) (mb64 x 8) (mb32 x 16) = some b →
    ¬((mb8 x 0) = 3) →
    ¬(!imageShape (mb8 x 0) b) →
    (s.taken.extNeed ([]) (if (mbWho x) = 64 then imgExts b else [])).isEmpty = true →
    s.taken.grantLeases (mbWho x) b = some ls →
    exec (.sheafLoad x) s = .next (let s := s.taken
  let kind := mb8 x 0
  s.enterSheaf x kind b ls)) ∧
  (∀ (s : State) (x : Mbx) (q : Sheaf),
    s.sent x .any false 4 = true →
    look s.taken.tlr.sheaves (mb32 x 0) = some q →
    ¬(!s.taken.maySheaf x q) →
    ¬(s.taken.sheafUsed (mb32 x 0) q) →
    exec (.sheafUnload x) s = .next (let s := s.taken
  let h := mb32 x 0
  let q : Sheaf := { q with unloading := true }
  let s := s.drew.onTlr fun t => { t with sheaves := put t.sheaves h q }
  ((s.copyAll s.peers (.sheaf h (some q))).sheafFree h).status x 0)) ∧
  (∀ (s : State) (x : Mbx) (q : Sheaf),
    s.sent x .any false 4 = true →
    look s.taken.tlr.sheaves (mb32 x 0) = some q →
    ¬(!s.taken.maySheaf x q) →
    exec (.sheafQuery x) s = .next (let s := s.taken
  let h := mb32 x 0
  let live := (s.tlr.ctxs.filter fun e => e.2.sheaf == h).length + (if s.peers.isEmpty then 0 else Config.peerAnswer s.draws)
  let sched := q.kind = 3
  s.drew.okOut x (zeros 3 ++ [BitVec.ofNat 8 q.kind, if q.unloading then 2 else 1] ++ zeros 2 ++ toLe 4 live ++
    toLe 4 (if sched then 0 else imgCode q.image) ++ toLe 4 (if sched then 0 else imgWindow q.image)))) ∧
  (∀ (s : State) (x : Mbx),
    s.sent x .fm false 10 = true →
    (mb8 x 4) = s.taken.me →
    exec (.ctxCancel x) s = .next (let s := s.taken
  let c := mb16 x 8
  let pq := s.cancelCtx c
  let s := pq.1
  let ok := pq.2
  s.status x (if ok then 0 else 0x45))) ∧
  (∀ (s : State) (n : Fin 96) (v : Word),
    v.toNat.testBit 0 →
    exec (.tlrSigPopWrite n v) s = .next (s.setTiller n fun t => { t with sig := t.sig.drop 1 }))

/-- The request and completion rings and the descriptors at their heads act. -/
def Obligations.DescriptorRingsAct : Prop :=
  (∀ (s : State) (ld : Fin 64) (r : Fin 4) (v : Word),
    ¬(!s.hostOpen ld || !(s.ringReg ld r 8).testBit 63) →
    exec (.tlrRqTailWrite ld r v) s = .next (let n := s.rqSize ld r
  (s.setRing ld r fun q => { q with tail := v.toNat % 2 ^ 16 % n }).rqFetch ld r n)) ∧
  (∀ (s : State) (ld : Fin 64) (r : Fin 4) (v : Word),
    ¬(!s.hostOpen ld) →
    v.toNat.testBit 63 && !(s.ringReg ld r 8).testBit 63 →
    exec (.tlrRqCfgEnable ld r v) s = .next (let old := s.ringReg ld r 8
  let s := s.setRegB (1 + ld) (rqReg r 8) (bits v.toNat 63 63 * 2 ^ 63 + fieldOr v.toNat old 4 0 6 16)
  s.setRing ld r fun q => { q with tail := 0, head := 0, asked := 0, fetched := [], err := false, waitCtx := false, cancel := none })) ∧
  (∀ (s : State) (ld : Fin 64) (r : Fin 4) (v : Word),
    ¬(!s.hostOpen ld) →
    ¬(v.toNat.testBit 63 && !(s.ringReg ld r 8).testBit 63) →
    exec (.tlrRqCfgEnable ld r v) s = .next (let old := s.ringReg ld r 8
  let s := s.setRegB (1 + ld) (rqReg r 8) (bits v.toNat 63 63 * 2 ^ 63 + fieldOr v.toNat old 4 0 6 16)
  s)) ∧
  (∀ (s : State) (ld : Fin 64) (r : Fin 4) (v : Word),
    ¬(!s.hostOpen ld) →
    exec (.tlrCqCfgEnable ld r v) s = .next (let old := s.ringReg ld r 0x28
  let w := v.toNat
  let s := s.setRegB (1 + ld) (rqReg r 0x28)
        (bits w 63 63 * 2 ^ 63 + bits w 52 48 * 2 ^ 48 + fieldOr w old 47 40 1 255 + fieldOr w old 37 24 1 10000 + fieldOr w old 4 0 6 16)
  let s := if w.testBit 63 && !old.testBit 63 then s.setRing ld r fun q => { q with cqHead := 0, cqTail := 0, phase := true, cqErr := false } else s
  s.cqFlush ld r)) ∧
  (∀ (s : State) (ld : Fin 64) (r : Fin 4) (v : Word),
    ¬(!s.hostOpen ld) →
    exec (.tlrCqHeadWrite ld r v) s = .next ((s.setRing ld r fun q => { q with cqHead := v.toNat % 2 ^ 16 }).cqFlush ld r)) ∧
  (∀ (s : State) (ld : Fin 64) (r : Fin 4) (d : Bytes),
    s.headDesc ld r = some d →
    ¬(descOk d && dOp d != 1) →
    ¬(!descOk d) →
    ¬(!s.querySheaf (dSheaf d)) →
    ¬(!s.placeOk d) →
    exec (.descStart ld r) s = .next (s.startTry ld r d)) ∧
  (∀ (s : State) (ld : Fin 64) (r : Fin 4) (d : Bytes),
    s.headDesc ld r = some d →
    ¬(!(descOk d && dOp d == 2)) →
    ¬((s.ring ld r).cancel.isSome) →
    exec (.descCancel ld r) s = .next (let l := (s.tagged ld r (dTag d)).map Prod.fst
  ((s.setRing ld r fun q => { q with cancel := some (l, 0) }).each l fun s i => s.cancelAll i).cancelEnd ld r)) ∧
  (∀ (s : State) (ld : Fin 64) (r : Fin 4) (d : Bytes),
    s.headDesc ld r = some d →
    ¬(!(descOk d && dOp d == 3)) →
    ¬(s.tlr.descs.any fun e => e.2.ld == ld.val && e.2.ring == r.val) →
    exec (.descBarrier ld r) s = .next (s.postHead ld r d 0 0 0)) ∧
  (∀ (s : State) (ld : Fin 64) (r : Fin 4) (d : Bytes),
    (s.startPump s.tlr.startQ.length).headDesc ld r = some d →
    ((s.startPump s.tlr.startQ.length).ring ld r).waitCtx →
    !(s.startPump s.tlr.startQ.length).querySheaf (dSheaf d) →
    exec (.descStartResume ld r) s = .next (let s := s.startPump s.tlr.startQ.length
  s.postHead ld r d 3 1 0)) ∧
  (∀ (s : State) (ld : Fin 64) (r : Fin 4),
    (s.ring ld r).pend ≠ 0 ∧ s.now ≥ (s.ring ld r).pendAt + 1000 * bits (s.ringReg ld r 0x28) 37 24 →
    exec (.cqCoalesceTimer ld r) s = .next (s.cqFire ld r))

/-- A tiller that slows, recovers, is disabled or fails has the effect the manual gives. -/
def Obligations.TillersAct : Prop :=
  (∀ (s : State) (n : Fin 96) (ratio : Fin 4096),
    ¬(s.tlrBad n || (s.tiller n).reduced || decide (100 * ratio.val ≥ 85 * 4096)) →
    exec (.tillerShareReduce n ratio) s = .next (((s.setTiller n fun t => { t with reduced := true, ratio := ratio }).intr (tlrReg n 0x28) 1).post 0x0804 [])) ∧
  (∀ (s : State) (n : Fin 96) (ratio : Fin 65536),
    ¬(!(s.tiller n).reduced || decide (100 * ratio.val ≤ 90 * 4096)) →
    exec (.tillerRestore n ratio) s = .next (s.setTiller n fun t => { t with reduced := false, ratio := ratio })) ∧
  (∀ (s : State) (hi : Bool) (v : Word),
    exec (.tlrDisWrite hi v) s = .next (let off := if hi then 0x980020 else 0x980018
  let w := if hi then v.toNat % 2 ^ 32 else v.toNat
  let old := s.reg off
  let new := ((List.range (if hi then 32 else 64)).filter fun i => w.testBit i && !old.testBit i).map fun i => if hi then 64 + i else i
  (s.setReg off w).each new fun s n => s.moveCtxs.tillerOut n)) ∧
  (∀ (s : State) (n : Fin 96),
    ¬(s.tlrBad n) →
    exec (.tillerRuntimeFail n) s = .next (let s := s.setTiller n fun t => { t with failed := true }
  let s := s.each ((s.residents n).map Prod.fst) fun s c => match look s.tlr.ctxs c with
        | some x => s.ctxEnd c x 5
        | none => s
  s.moveCtxs.tillerOut n))

/-- The events of a Hedgerow port have their effect where they happen. -/
def Obligations.HedgerowPortsAct : Prop :=
  (∀ (s : State) (p : Fin 6),
    ¬((s.hport p).st ≠ 2) →
    (s.inject.hport p).txPos % 256 = 255 →
    exec (.flitTransmit p) s = .next (let s := s.inject
  let x := s.hport p
  s.sendMarker p x)) ∧
  (∀ (s : State) (p : Fin 6) (q : _) (rest : _) (e : _),
    ¬((s.hport p).st ≠ 2) →
    ¬((s.inject.hport p).txPos % 256 = 255) →
    (s.inject.hport p).resend = q :: rest →
    (s.inject.hport p).replay.find? (fun e => e.1 == q) = some e →
    exec (.flitTransmit p) s = .next (let s := s.inject
  let x := s.hport p
  (s.portCount (portStat p) 0 1).sendFlit p { x with resend := rest, sent := x.sent + 1, resent := x.resent + 1 } 1 e.2.1 q e.2.2)) ∧
  (∀ (s : State) (p : Fin 6),
    ¬((s.hport p).st ≠ 2) →
    ¬((s.inject.hport p).txPos % 256 = 255) →
    (s.inject.hport p).resend = [] →
    (s.inject.hport p).nak →
    exec (.flitTransmit p) s = .next (let s := s.inject
  let x := s.hport p
  s.sendFlit p { x with nak := false } 2 0 0 [])) ∧
  (∀ (s : State) (p : Fin 6) (c : _),
    ¬((s.hport p).st ≠ 2) →
    ¬((s.inject.hport p).txPos % 256 = 255) →
    (s.inject.hport p).resend = [] →
    ¬((s.inject.hport p).nak) →
    (if (s.inject.hport p).replay.length < 1024 then (s.inject.hport p).choose else none) = some c →
    exec (.flitTransmit p) s = .next (let s := s.inject
  let x := s.hport p
  let wait := (List.range 16).filter x.waiting
  let (b, part, q) := fillFlit c (2 * x.txq.length + 2) ((look x.part c).getD []) x.txq 230
  let b := fit 230 b
  let skip := wait.foldl (fun m i => put m i ((look m i).getD 0 + 1)) (x.skip.filter fun e => wait.contains e.1)
  s.sendFlit p { x with seqTx := (x.seqTx + 1) % 4096, credits := x.credits.set c ((x.credits[c]?).getD 0 - 1), replay := x.replay ++ [(x.seqTx, c, b)], txq := q, part := if part.isEmpty then del x.part c else put x.part c part, skip := put skip c 0, sent := x.sent + 1 } 1 c x.seqTx b)) ∧
  (∀ (s : State) (p : Fin 6),
    ¬((s.hport p).st ≠ 2) →
    ¬((s.inject.hport p).txPos % 256 = 255) →
    (s.inject.hport p).resend = [] →
    ¬((s.inject.hport p).nak) →
    (if (s.inject.hport p).replay.length < 1024 then (s.inject.hport p).choose else none) = none →
    exec (.flitTransmit p) s = .next (let s := s.inject
  let x := s.hport p
  let wait := (List.range 16).filter x.waiting
  s.sendFlit p { x with stall := x.stall + if wait.isEmpty then 0 else 1 } 0 0 0 [])) ∧
  (∀ (s : State) (p : Fin 6) (epoch : Nat) (tag : Nat),
    ¬((s.hport p).st ≠ 2) →
    ¬(!(s.hport p).rxLost ∧ tag ≠ Config.linkTag ((s.hport p).nmod * 8 + (s.hport p).nport) (s.hport p).rxEpoch (s.hport p).rxBytes) →
    exec (.flitMarkerRx p epoch tag) s = .next (let x := s.hport p
  s.setHport p { x with rxEpoch := epoch, rxBytes := [], rxLost := false, rxPos := x.rxPos + 1, lastRx := s.now })) ∧
  (∀ (s : State) (p : Fin 6),
    (s.hport p).st = 2 ∧ s.now ≥ (s.hport p).lastRx + 20000 →
    exec (.portNoFlitTimeout p) s = .next (s.portDown p)) ∧
  (∀ (s : State) (p : Fin 6),
    (s.hport p).st ≤ 1 ∧ (look s.hdg.ports p).isSome ∧ !(s.hport p).off ∧ s.now ≥ (s.hport p).retrainAt →
    exec (.portRetrainTimer p) s = .next (s.trainPort p)) ∧
  (∀ (s : State) (p : Fin 6),
    (s.hport p).st = 2 ∧ (s.hport p).txPos ≥ (s.hport p).epochAt + 2 ^ 40 ∧ !(s.hport p).newEpoch →
    exec (.keyEpochAdvance p) s = .next (let x := s.hport p
  s.setHport p { x with newEpoch := true })) ∧
  (∀ (s : State),
    ¬(s.now < s.hdg.weightAt + 10 ^ 6) →
    exec (.linkWeightUpdate) s = .next (s.onHdg fun h => { h with weightAt := s.now, ports := h.ports.map fun e => (e.1, { e.2 with weight := if e.2.st ≠ 2 then 0 else if e.2.sent = 0 then lanesOf e.2.width * 256 else lanesOf e.2.width * 256 * (e.2.sent - e.2.resent) / e.2.sent, sent := 0, resent := 0 }) })) ∧
  (∀ (s : State),
    ¬(s.now < s.hdg.splitAt + 100000 ∨ !s.hdg.formed) →
    exec (.routeSplitUpdate) s = .next (let s := s.onHdg fun h => { h with splitAt := s.now, ports := h.ports.map fun e => (e.1, { e.2 with halved := decide (e.2.seen < 2 * e.2.stall), stall := 0, seen := 0 }) }
  s.each ((List.range s.hdg.size).filter (· != s.me)) fun s dst =>
    s.each ((List.range 3).filter fun d => s.dist s.me dst d != 0 && 2 * s.dist s.me dst d == s.ringSize d) fun s d =>
    let k := s.newSplit dst d
    let wait := s.awaits dst
    s.onHdg fun h => { h with splits := put h.splits (dst * 4 + d) k, reqSplits := if wait then h.reqSplits else put h.reqSplits (dst * 4 + d) k }))

/-- The request, placement and snoop messages that reach this module have their effect. -/
def Obligations.RequestMessagesAct : Prop :=
  (∀ (s : State) (m : Msg),
    ¬ s.hdg.bench = true →
    m.dst.val = s.me →
    s.serving = true →
    exec (.msgRd m) s = .next (s.msgReq m .rd 0 [])) ∧
  (∀ (s : State) (m : Msg),
    ¬ s.hdg.bench = true →
    m.dst.val = s.me →
    s.serving = true →
    exec (.msgWr m) s = .next (s.msgReq m .wr fullMask (fit 64 m.data))) ∧
  (∀ (s : State) (m : Msg),
    ¬ s.hdg.bench = true →
    m.dst.val = s.me →
    s.serving = true →
    exec (.msgWrp m) s = .next (s.msgReq m .wr (leAt m.data 0 8) (fit 64 (m.data.drop 32)))) ∧
  (∀ (s : State) (m : Msg),
    ¬ s.hdg.bench = true →
    m.dst.val = s.me →
    s.serving = true →
    exec (.msgAtom m) s = .next (s.msgReq m .atom 0 (fit 16 m.data))) ∧
  (∀ (s : State) (m : Msg),
    ¬ s.hdg.bench = true →
    m.dst.val = s.me →
    s.serving = true →
    (let q : PlaceReq := { placeOf m.data with peer := some (m.src.val, m.tag) }; 1 ≤ q.op ∧ q.op ≤ 5) →
    exec (.msgPlace m) s = .next (let q : PlaceReq := { placeOf m.data with peer := some (m.src.val, m.tag) }
  let s := s.awake
  s.placeEnter q)) ∧
  (∀ (s : State) (m : Msg),
    ¬ s.hdg.bench = true →
    m.dst.val = s.me →
    s.serving = true →
    (let q : PlaceReq := { placeOf m.data with peer := some (m.src.val, m.tag) }; ¬(1 ≤ q.op ∧ q.op ≤ 5)) →
    exec (.msgPlace m) s = .next (let q : PlaceReq := { placeOf m.data with peer := some (m.src.val, m.tag) }
  let s := s.awake
  s.runPlace q none)) ∧
  (∀ (s : State) (m : Msg),
    ¬ s.hdg.bench = true →
    m.dst.val = s.me →
    s.serving = true →
    ¬(holderMod m.holder ≠ s.me) →
    exec (.msgSnpinv m) s = .next (let n := if m.addr % 4 = 2 then 4 else 1
  let l := saLine m.addr
  let ld := holderLd m.holder
  let s := s.awake.onDir fun d => { d with owed := d.owed ++ (List.range n).map fun i => (ld, l + i, m.src.val, m.tag) }
  s.emit (.snoop ld .inv l n))) ∧
  (∀ (s : State) (m : Msg),
    ¬ s.hdg.bench = true →
    m.dst.val = s.me →
    s.serving = true →
    ¬(holderMod m.holder ≠ s.me) →
    exec (.msgSnpdata m) s = .next (let n := if m.addr % 4 = 2 then 4 else 1
  let l := saLine m.addr
  let ld := holderLd m.holder
  let s := s.awake.onDir fun d => { d with owed := d.owed ++ (List.range n).map fun i => (ld, l + i, m.src.val, m.tag) }
  s.emit (.snoop ld .data l n))) ∧
  (∀ (s : State) (m : Msg),
    ¬ s.hdg.bench = true →
    m.dst.val = s.me →
    s.serving = true →
    ¬(holderMod m.holder ≠ s.me) →
    exec (.msgSnpcur m) s = .next (let n := if m.addr % 4 = 2 then 4 else 1
  let l := saLine m.addr
  let ld := holderLd m.holder
  let s := s.awake.onDir fun d => { d with owed := d.owed ++ (List.range n).map fun i => (ld, l + i, m.src.val, m.tag) }
  s.emit (.snoop ld .cur l n)))

/-- The response, mirror and journal messages that reach this module have their effect. -/
def Obligations.ResponseMessagesAct : Prop :=
  (∀ (s : State) (m : Msg) (r : Req),
    ¬ s.hdg.bench = true →
    m.dst.val = s.me →
    s.serving = true →
    s.answered m true = some r →
    exec (.msgData m) s = .next ((s.answer r (fit 64 m.data) m.synd).paceNext (r.remoteOf.getD m.src))) ∧
  (∀ (s : State) (m : Msg) (r : Req),
    ¬ s.hdg.bench = true →
    m.dst.val = s.me →
    s.serving = true →
    s.answered m false = some r →
    exec (.msgCmp m) s = .next ((s.answer r [] 0).paceNext (r.remoteOf.getD m.src))) ∧
  (∀ (s : State) (m : Msg),
    ¬ s.hdg.bench = true →
    m.dst.val = s.me →
    s.serving = true →
    s.answered m false = none →
    exec (.msgCmp m) s = .next ((s.onTier fun t => { t with scheds := t.scheds.map fun e => (e.1, { e.2 with placed := e.2.placed.filter fun p => p.2 != (m.tag, m.src.val) }), runs := t.runs.map fun r => { r with away := r.away.filter fun p => p != (m.tag, m.src.val) } }).flushRuns)) ∧
  (∀ (s : State) (m : Msg),
    ¬ s.hdg.bench = true →
    m.dst.val = s.me →
    s.serving = true →
    exec (.msgBirsp m) s = .next (s.awake.snoopAnswer (saLine m.addr) m.holder (rspOf m.cxl))) ∧
  (∀ (s : State) (m : Msg),
    ¬ s.hdg.bench = true →
    m.dst.val = s.me →
    s.serving = true →
    s.owes (saLine m.addr) m.holder →
    exec (.msgWbk m) s = .next (s.storeWbk (saLine m.addr) (fit 64 m.data))) ∧
  (∀ (s : State) (m : Msg),
    ¬ s.hdg.bench = true →
    m.dst.val = s.me →
    s.serving = true →
    ¬(s.owes (saLine m.addr) m.holder) →
    exec (.msgWbk m) s = .next (s.bump cntDir 5 1)) ∧
  (∀ (s : State) (m : Msg),
    ¬ s.hdg.bench = true →
    m.dst.val = s.me →
    s.serving = true →
    !s.awake.hdg.mirrorQ.isEmpty →
    exec (.msgMirror m) s = .next (let s := s.awake
  s.onHdg fun h => { h with mirrorQ := h.mirrorQ ++ [m] })) ∧
  (∀ (s : State) (m : Msg),
    ¬ s.hdg.bench = true →
    m.dst.val = s.me →
    s.serving = true →
    ¬(!s.awake.hdg.mirrorQ.isEmpty) →
    exec (.msgMirror m) s = .next (let s := s.awake
  let pq := s.mirrorIn m
  let s' := pq.1
  let ok := pq.2
  if ok then s' else s.onHdg fun h => { h with mirrorQ := h.mirrorQ ++ [m] })) ∧
  (∀ (s : State) (m : Msg) (x : Slot),
    ¬ s.hdg.bench = true →
    m.dst.val = s.me →
    s.serving = true →
    s.hdg.mirrorQ.isEmpty →
    s.openSlot (saPage m.addr) true = some x →
    exec (.msgClose m) s = .next (s.modSlot x.id fun y => { y with ph := .closed, seq := leAt m.data 0 4 })) ∧
  (∀ (s : State) (m : Msg) (recs : List JRec),
    ¬ s.hdg.bench = true →
    ¬ (s.hdg.formed ∧ m.dst.val ≠ s.me) →
    ¬ (!s.pwr.on || !s.pwr.resetN || s.pwr.flush.isSome) = true →
    ¬(m.src.val ≠ twinOf s.me ∨ recs.isEmpty) →
    exec (.msgJrnl m recs) s = .next (let s := s.awake.takeRecs recs
  s.emit (.jack m.src ((recs.getLast?).elim 0 JRec.seq)))) ∧
  (∀ (s : State) (m : Msg),
    ¬ s.hdg.bench = true →
    m.dst.val = s.me →
    s.serving = true →
    exec (.msgJack m) s = .next ((s.onHdg fun h => { h with jacked := max h.jacked m.addr, backlog := h.backlog.filter fun r => decide (m.addr < r.seq) }).flushReplies)) ∧
  (∀ (s : State) (m : Msg),
    ¬ s.hdg.bench = true →
    m.dst.val = s.me →
    s.serving = true →
    exec (.msgGasp m) s = .next (let s := s.onStk fun k => { k with partnerGasp := (k.partnerGasp ++ [fit 64 m.data]).drop (k.partnerGasp.length - 31) }
  s.post 0x0E05 [(1, m.src), (4, s.stk.partnerGasp.length)])) ∧
  (∀ (s : State) (m : Msg) (r : Req),
    ¬ s.hdg.bench = true →
    m.dst.val = s.me →
    s.serving = true →
    s.reqs.find? (fun r => r.waits.contains .mirror && r.mirrorTag == m.tag && r.sa / 64 == saLine m.addr) = some r →
    exec (.msgMack m) s = .next (s.settle r.id fun w => w == .mirror)) ∧
  (∀ (s : State) (op : Fin 256) (_m : Msg),
    ¬(opKnown op) →
    exec (.msgReservedOp op _m) s = .next (s.bump cntHdg 3 1))

/-- MEMB and COPY messages have the effect of their body. -/
def Obligations.MembershipAndCopyMessagesAct : Prop :=
  (∀ (s : State) (m : Msg) (b : MembBody),
    ¬ s.hdg.bench = true →
    ¬ (s.hdg.formed ∧ m.dst.val ≠ s.me) →
    ¬ (!s.pwr.on || !s.pwr.resetN || s.pwr.flush.isSome) = true →
    exec (.msgMemb m b) s = .next (s.onMemb b)) ∧
  (∀ (s : State) (m : Msg) (b : MembBody) (y3 : _) (serial : _) (z : _) (coord : _) (links : _),
    ¬ s.hdg.bench = true →
    ¬ (s.hdg.formed ∧ m.dst.val ≠ s.me) →
    ¬ (!s.pwr.on || !s.pwr.resetN || s.pwr.flush.isSome) = true →
    b = .neighbour y3 serial z coord links →
    exec (.msgMemb m b) s = .next ((s.tableCame b serial { formZ := z, coord := coord, links := links }).tryForm)) ∧
  (∀ (s : State) (m : Msg) (b : MembBody) (k : _) (p : _) (up : _),
    ¬ s.hdg.bench = true →
    ¬ (s.hdg.formed ∧ m.dst.val ≠ s.me) →
    ¬ (!s.pwr.on || !s.pwr.resetN || s.pwr.flush.isSome) = true →
    b = .link k p up →
    exec (.msgMemb m b) s = .next (let t := s.neighbour k p
  let l : Nat × Nat := (k, p)
  s.onHdg fun h => { h with linksDown := if up then h.linksDown.filter (· != l) else if h.linksDown.contains l then h.linksDown else h.linksDown ++ [l], absentAt := if up || (look h.absentAt t).isSome then h.absentAt else put h.absentAt t s.now })) ∧
  (∀ (s : State) (m : Msg) (b : MembBody) (e : _) (live : _) (q : _) (wits : _) (we : _) (ms : _),
    ¬ s.hdg.bench = true →
    ¬ (s.hdg.formed ∧ m.dst.val ≠ s.me) →
    ¬ (!s.pwr.on || !s.pwr.resetN || s.pwr.flush.isSome) = true →
    b = .publish e live q wits we ms →
    !s.hdg.formed →
    exec (.msgMemb m b) s = .next (s.joinBy e live q wits we ms)) ∧
  (∀ (s : State) (m : Msg) (b : MembBody) (e : _) (live : _) (q : _) (wits : _) (we : _) (ms : _),
    ¬ s.hdg.bench = true →
    ¬ (s.hdg.formed ∧ m.dst.val ≠ s.me) →
    ¬ (!s.pwr.on || !s.pwr.resetN || s.pwr.flush.isSome) = true →
    b = .publish e live q wits we ms →
    ¬(!s.hdg.formed) →
    ¬(e ≤ s.hdg.epoch ∨ !live.contains s.me) →
    exec (.msgMemb m b) s = .next (s.applyPublish e live q wits we ms)) ∧
  (∀ (s : State) (m : Msg) (b : MembBody) (k : _) (on : _),
    ¬ s.hdg.bench = true →
    ¬ (s.hdg.formed ∧ m.dst.val ≠ s.me) →
    ¬ (!s.pwr.on || !s.pwr.resetN || s.pwr.flush.isSome) = true →
    b = .dozing k on →
    ¬(on) →
    exec (.msgMemb m b) s = .next (let s := s.onHdg fun h => { h with dozing := if on then addNew h.dozing k else h.dozing.filter (· != k) }
  { s with reqs := s.reqs.map fun r => if waitsFor (.remote k) r then { r with t0 := s.now } else r })) ∧
  (∀ (s : State) (m : Msg) (b : MembBody) (k : _) (serial : _),
    ¬ s.hdg.bench = true →
    ¬ (s.hdg.formed ∧ m.dst.val ≠ s.me) →
    ¬ (!s.pwr.on || !s.pwr.resetN || s.pwr.flush.isSome) = true →
    b = .adopt k serial →
    ¬(serial = Config.serial) →
    (let s := s.onHdg fun h => { h with serials := put h.serials k serial }; s.isCoord ∧ !s.hdg.live.contains k) →
    exec (.msgMemb m b) s = .next (let s := s.onHdg fun h => { h with serials := put h.serials k serial }
  s.takeMember k serial)) ∧
  (∀ (s : State) (m : Msg) (b : CopyBody),
    ¬ s.hdg.bench = true →
    ¬ (s.hdg.formed ∧ m.dst.val ≠ s.me) →
    ¬ (!s.pwr.on || !s.pwr.resetN || s.pwr.flush.isSome) = true →
    exec (.msgCopy m b) s = .next (s.onCopy m.src b)) ∧
  (∀ (s : State) (m : Msg) (b : CopyBody) (page : _) (st : _) (seq : _) (synd : _) (d : _) (poison : _),
    ¬ s.hdg.bench = true →
    ¬ (s.hdg.formed ∧ m.dst.val ≠ s.me) →
    ¬ (!s.pwr.on || !s.pwr.resetN || s.pwr.flush.isSome) = true →
    b = .page page st seq synd d poison →
    exec (.msgCopy m b) s = .next (s.copyPage m.src page st seq synd d poison)) ∧
  (∀ (s : State) (m : Msg) (b : CopyBody) (n : _) (t : _),
    ¬ s.hdg.bench = true →
    ¬ (s.hdg.formed ∧ m.dst.val ≠ s.me) →
    ¬ (!s.pwr.on || !s.pwr.resetN || s.pwr.flush.isSome) = true →
    b = .table n t →
    exec (.msgCopy m b) s = .next (s.onHusk fun h => { h with tables := put h.tables n t, zeros := h.zeros.filter fun z => z.1 != n })) ∧
  (∀ (s : State) (m : Msg) (b : CopyBody) (pairs : _) (recs : _),
    ¬ s.hdg.bench = true →
    ¬ (s.hdg.formed ∧ m.dst.val ≠ s.me) →
    ¬ (!s.pwr.on || !s.pwr.resetN || s.pwr.flush.isSome) = true →
    b = .flip pairs recs →
    exec (.msgCopy m b) s = .next ((s.each recs fun s r => if (look s.spc.extents r.1).isSome then s else s.copyExtent r.1 { r.2 with namers := [] }).flip pairs)) ∧
  (∀ (s : State) (m : Msg) (b : CopyBody) (h : _) (l : _),
    ¬ s.hdg.bench = true →
    ¬ (s.hdg.formed ∧ m.dst.val ≠ s.me) →
    ¬ (!s.pwr.on || !s.pwr.resetN || s.pwr.flush.isSome) = true →
    b = .lease h l →
    exec (.msgCopy m b) s = .next (s.leaseCame m.src h l)) ∧
  (∀ (s : State) (m : Msg) (b : CopyBody) (a : _) (x : _),
    ¬ s.hdg.bench = true →
    ¬ (s.hdg.formed ∧ m.dst.val ≠ s.me) →
    ¬ (!s.pwr.on || !s.pwr.resetN || s.pwr.flush.isSome) = true →
    b = .account a x →
    s.granted_ a + x.z ≤ x.b →
    exec (.msgCopy m b) s = .next (s.branWatch a fun s => s.setAcct a { s.acct a with b := x.b, z := x.z, lossless := x.lossless }))

/-- A flit that reaches a port that is up is taken or refused, and one of its type has its effect. -/
def Obligations.FlitsAreReceived : Prop :=
  (∀ (s : State) (p : Fin 6) (flit : Bytes),
    (s.hport p).st = 2 →
    exec (.flitIdleRx p flit) s = .next (match openFlit (fit 256 flit) with
    | none => s.flitLost p
    | some (d, n) => if bits (leAt d 0 6) 47 44 ≠ 0 then s else s.flitTaken p d n)) ∧
  (∀ (s : State) (p : Fin 6) (flit : Bytes),
    (s.hport p).st = 2 →
    exec (.flitNakRx p flit) s = .next (match openFlit (fit 256 flit) with
    | none => s.flitLost p
    | some (d, n) => if bits (leAt d 0 6) 47 44 ≠ 2 then s else
    let t := s.flitTaken p d n
    let x := t.hport p
    if x.replay.isEmpty then t
    else if x.fails ≥ 8 then t.trainPort p
    else t.setHport p { x with resend := x.replay.map fun e => e.1, fails := x.fails + 1 })) ∧
  (∀ (s : State) (p : Fin 6) (flit : Bytes),
    (s.hport p).st = 2 →
    exec (.flitDataRx p flit) s = .next (match openFlit (fit 256 flit) with
    | none => s.flitLost p
    | some (d, n) => if bits (leAt d 0 6) 47 44 ≠ 1 then s else
    let t := s.flitTaken p d n
    let x := t.hport p
    let seq := bits (leAt d 0 6) 39 28
    let ch := bits (leAt d 0 6) 43 40
    if seq ≠ (x.seqRx + 1) % 4096 then (if seqLe seq x.seqRx then t else t.setHport p { x with nak := true })
    else
    let buf := (look x.rxs ch).getD [] ++ xorStream (x.nmod * 8 + x.nport) x.rxEpoch (x.rxPos - 1) ((d.drop 6).take 230)
    let ms := cutMsgs (buf.length / 16 + 1) buf
    let t := t.setHport p { x with seqRx := seq, rxs := if ms.2.isEmpty then del x.rxs ch else put x.rxs ch ms.2, owed := x.owed.set ch ((x.owed[ch]?).getD 0 + 1), outst := x.outst.set ch ((x.outst[ch]?).getD 0 - 1) }
    t.each ms.1 fun s b => s.fromPort p ch b))

/-- The timeouts and events of membership have their effect where they happen. -/
def Obligations.MembershipEventsAct : Prop :=
  (∀ (s : State) (r : Nat) (q : Req),
    s.req r = some q →
    q.waits.contains .mirror ∧ s.now ≥ q.t0 + s.fto →
    exec (.mirrorMackTimeout r) s = .next (let s := (s.bump cntHdg 0 1).onHdg fun h => { h with resync := addNew h.resync q.page }
  s.settle r fun w => w == .mirror)) ∧
  (∀ (s : State) (r : Nat) (q : Req) (m : _),
    s.req r = some q →
    ¬(s.now < q.t0 + s.fto) →
    q.remoteOf = some m →
    ¬(s.hdg.dozing.contains m) →
    exec (.fabricReqTimeout r) s = .next (s.timedOut q m)) ∧
  (∀ (s : State),
    s.pwr.boot = some 6 ∧ !s.hdg.formed ∧ s.now ≥ s.hdg.formAt + 10 ^ 9 →
    exec (.formationRetry) s = .next ((s.onHdg fun h => { h with formAt := s.now }).tryForm)) ∧
  (∀ (s : State) (m : Fin 64) (elapsedMs : Nat),
    s.isCoord ∧ s.hdg.live.contains m.val ∧ m.val ≠ s.me ∧ !s.seen m →
    exec (.memberDeclareAbsent m elapsedMs) s = .next (s.publish (s.hdg.live.filter (· != m.val)) s.hdg.wits s.hdg.witEpoch elapsedMs)) ∧
  (∀ (s : State) (m : Fin 64),
    ¬(!s.hdg.takeover.contains m.val) →
    (let s := s.onHdg fun h => { h with takeover := h.takeover.filter (· != m.val) }; twinOf m ≠ s.me) →
    exec (.takeoverReplicaActive m) s = .next (let s := s.onHdg fun h => { h with takeover := h.takeover.filter (· != m.val) }
  s.reroute fun r => s.pageHome r.page == m.val)) ∧
  (∀ (s : State) (m : Fin 64),
    ¬(!s.hdg.takeover.contains m.val) →
    (let s := s.onHdg fun h => { h with takeover := h.takeover.filter (· != m.val) }; ¬(twinOf m ≠ s.me)) →
    exec (.takeoverReplicaActive m) s = .next (let s := s.onHdg fun h => { h with takeover := h.takeover.filter (· != m.val) }
  let marks := s.hdg.replica.held.filter fun p => s.pageHome p == m.val && s.mirrored p
  let s := s.onHdg fun h => { h with acting := addNew h.acting m, twinState := 2, twinMarks := marks.foldl addNew h.twinMarks }
  let s := s.onHusk fun k => { k with slots := k.slots.map fun x => if x.twin && x.ph == .opened then { x with ph := .closed, seq := 0 } else x }
  let s := s.reroute fun r => s.pageHome r.page == m.val && !s.hdg.twinMarks.contains r.page
  if marks.isEmpty then s.takeoverDone m else s.each marks fun s p => s.takePageBack p)) ∧
  (∀ (s : State) (m : Fin 64) (serial : Nat) (spaceId : Nat),
    (let known := (look s.hdg.serials m).all fun x => x == serial; s.isCoord ∧ spaceId = s.hdg.spaceId ∧ m.val < s.hdg.size ∧ !s.hdg.live.contains m.val ∧ known) →
    exec (.moduleRejoin m serial spaceId) s = .next (s.takeMember m serial)) ∧
  (∀ (s : State) (page : Nat),
    s.hdg.twinState = 3 ∧ s.twinLive ∧ s.hdg.resync.contains page →
    exec (.resyncPageCopy page) s = .next (let s := (s.copyTo (twinOf s.me) (s.pageBody page)).onHdg fun h => { h with resync := h.resync.filter (· != page) }
  s.roleReturn)) ∧
  (∀ (s : State) (w : Fin 64) (t : _),
    look s.hdg.witHold w = some t →
    s.isCoord ∧ s.hdg.quorum ∧ s.hdg.wits.contains w.val ∧ !s.hdg.live.contains w.val ∧ s.now ≥ t + s.fld 0x200008 25 16 * 10 ^ 9 →
    exec (.witnessHoldExpire w) s = .next (let s := (s.onHdg fun h => { h with witHold := del h.witHold w }).post 0x0209 []
  s.publish s.hdg.live (chooseWits s.hdg.live) (s.hdg.witEpoch + 1) 0))

/-- The membership and link commands that no check refuses have their effect and answer Success. -/
def Obligations.MembershipCommandsAct : Prop :=
  (∀ (s : State) (x : Mbx),
    s.sent x .fm false 0 = true →
    exec (.formQuery x) s = .next (let s := s.taken
  s.okOut x (zeros 7 ++ ((List.range 64).map fun m => BitVec.ofNat 8 (s.posState m)) ++ toLe 8 s.hdg.epoch
    ++ (List.range 3).map fun i => BitVec.ofNat 8 ((s.hdg.wits[i]?).getD 0)))) ∧
  (∀ (s : State) (x : Mbx) (m : _),
    s.sent x .fm false 16 = true →
    (look s.taken.hdg.nbrs (mb64 x 8)).bind Nbr.coord = some m →
    ¬(s.taken.posState m ≠ 3) →
    exec (.formAdopt x) s = .next (let s := s.taken
  let serial := mb64 x 8
  let s := (s.onHdg fun h => { h with serials := put h.serials m serial }).emit (.memb (.adopt m serial))
  let s := if s.isCoord then s.takeMember m serial else s
  s.status x 0)) ∧
  (∀ (s : State) (x : Mbx),
    s.sent x .fm false 7 = true →
    (let s := s.taken; let ws := [mb8 x 4, mb8 x 5, mb8 x 6]; let cols := ws.map fun m => m % 16; ¬(!(ws.all fun m => decide (m < 64) && s.isLive m) ∨ cols.eraseDups.length ≠ 3 ∨ s.hdg.bench)) →
    exec (.witnessForce x) s = .next (let s := s.taken
  let ws := [mb8 x 4, mb8 x 5, mb8 x 6]
  ((s.post 0x0209 []).publish s.hdg.live ws (s.hdg.witEpoch + 1) 0).status x 0)) ∧
  (∀ (s : State) (x : Mbx),
    s.sent x .fm false 6 = true →
    ¬((mb8 x 4) > 5 ∨ mb8 x 5 > 3) →
    exec (.linkRetrain x) s = .next (let s := s.taken
  let p := mb8 x 4
  let s := s.setHport p { s.hport p with want := mb8 x 5 }
  (if (s.hport p).off then s else s.trainPort p).status x 0)) ∧
  (∀ (s : State) (x : Mbx),
    s.sent x .fm false 0 = true →
    exec (.resyncQuery x) s = .next (let s := s.taken
  s.okOut x (zeros 7 ++ toLe 8 s.hdg.resync.length ++ toLe 1 s.hdg.twinState)))

/-- The quality-of-service commands and events act where no check refuses them. -/
def Obligations.QosAct : Prop :=
  (∀ (s : State) (x : Mbx),
    s.sent x .fm false 72 = true →
    (let s := s.taken; let h := mb16 x 0; let cs := (List.range 8).filterMap fun c => readClass x c; ¬(!qosHolder h ∨ (h ≠ moduleHolder ∧ holderMod h ≠ s.me) ∨ cs.length ≠ 8)) →
    exec (.qosClassSet x) s = .next (let s := s.taken
  let h := mb16 x 0
  let cs := (List.range 8).filterMap fun c => readClass x c
  let m := leAt x.data 4 3
  let before := s
  let s := s.onQos fun q => { q with classes := put q.classes h cs, lmap := if h = moduleHolder then q.lmap else put q.lmap (holderLd h) m }
  ((s.copyAll s.peers (.lmap h m cs)).rescaled before).okHeld x [])) ∧
  (∀ (s : State) (x : Mbx) (y2 : _) (i : Nat),
    s.sent x .fm false 8 = true →
    (let s := s.taken; let h := mb16 x 0; let c := mb8 x 2; let r := mb8 x 3; let hpBad := decide (r < 8) && (h == moduleHolder || holderMod h != s.me || holderLd h / 16 != r % 4); ¬(!qosHolder h ∨ c ≥ 7 ∨ r > 14 ∨ hpBad)) →
    (mb32 x 4) = 0 →
    (s.taken.resvOf (mb16 x 0) (mb8 x 2) (mb8 x 3)) = some (i, y2) →
    exec (.qosReserve x) s = .next (let s := s.taken
  let s' := s.onQos fun q => { q with resv := del q.resv i }
  (s'.rescaled s).okOut x (zeros 3 ++ toLe 4 i))) ∧
  (∀ (s : State) (x : Mbx) (i : _),
    s.sent x .fm false 8 = true →
    (let s := s.taken; let h := mb16 x 0; let c := mb8 x 2; let r := mb8 x 3; let hpBad := decide (r < 8) && (h == moduleHolder || holderMod h != s.me || holderLd h / 16 != r % 4); ¬(!qosHolder h ∨ c ≥ 7 ∨ r > 14 ∨ hpBad)) →
    ¬((mb32 x 4) = 0) →
    (let s := s.taken; let h := mb16 x 0; let c := mb8 x 2; let r := mb8 x 3; let rate := mb32 x 4; let others := sumOf (s.qos.resv.filter fun e => e.2.res == r && !(e.2.holder == h && e.2.cls == c)) fun e => e.2.rate; ¬(others + rate > s.pubFloor r)) →
    s.taken.resvIdx (mb16 x 0) (mb8 x 2) (mb8 x 3) = some i →
    exec (.qosReserve x) s = .next (let s := s.taken
  let h := mb16 x 0
  let c := mb8 x 2
  let r := mb8 x 3
  let rate := mb32 x 4
  let e := s.resvEntry h c r rate
  let s' := s.onQos fun q => { q with resv := put q.resv i e }
  (s'.rescaled s).okOut x (zeros 3 ++ toLe 4 i))) ∧
  (∀ (s : State) (x : Mbx),
    s.sent x .any false 4 = true →
    ¬((mb8 x 3) > 14) →
    exec (.qosQuery x) s = .next (let s := s.taken
  let r := mb8 x 3
  s.okOut x (zeros 7 ++ toLe 4 (s.pubFloor r) ++ toLe 4 (s.dRate r) ++ toLe 4 (s.admitted r 1) ++ toLe 4 (s.admitted r 2)
    ++ toLe 4 (s.admitted r 3) ++ toLe 2 (s.scale12 r 1) ++ toLe 2 (s.scale12 r 2) ++ toLe 2 (s.scale12 r 3)))) ∧
  (∀ (s : State),
    ¬(s.now / 100000 ≤ s.qos.winAt / 100000) →
    exec (.qosWindowEnd) s = .next (let s := s.onQos fun q => { q with winAt := s.now }
  let s := s.each (keys s.qos.resv) fun s i => s.endResv i
  s.each s.qos.lat fun s x => s.endLat x)) ∧
  (∀ (s : State) (m : RtMaster) (level : Fin 4) (chan : Option (Fin 96 × Fin 2 × Fin 16)),
    level.val < 3 ∨ (s.urgOf (masterIdx m)) = 3 →
    exec (.rtUrgencyChange m level chan) s = .next (let i := masterIdx m
  let s := s.onQos fun q => { q with urg := if level.val = 0 then del q.urg i else put q.urg i level, urgChan := putOpt q.urgChan i (if level.val < 2 then none else chan.map fun c => c.1.val) }
  s)) ∧
  (∀ (s : State) (m : RtMaster) (level : Fin 4) (chan : Option (Fin 96 × Fin 2 × Fin 16)),
    ¬(level.val < 3 ∨ (s.urgOf (masterIdx m)) = 3) →
    chan = none →
    exec (.rtUrgencyChange m level chan) s = .next (let i := masterIdx m
  let s := s.onQos fun q => { q with urg := if level.val = 0 then del q.urg i else put q.urg i level, urgChan := putOpt q.urgChan i (if level.val < 2 then none else chan.map fun c => c.1.val) }
  let s := ((s.intr 0xA00028 4).bump cntQos 2 1).post 0x0905 []
  s)) ∧
  (∀ (s : State) (m : RtMaster) (level : Fin 4) (chan : Option (Fin 96 × Fin 2 × Fin 16)) (n : _) (rank : _) (bank : _),
    ¬(level.val < 3 ∨ (s.urgOf (masterIdx m)) = 3) →
    chan = some (n, rank, bank) →
    (let i := masterIdx m; let s := s.onQos fun q => { q with urg := if level.val = 0 then del q.urg i else put q.urg i level, urgChan := putOpt q.urgChan i (if level.val < 2 then none else chan.map fun c => c.1.val) }; let s := ((s.intr 0xA00028 4).bump cntQos 2 1).post 0x0905 []; let b := rank.val * 16 + bank.val; ¬((look (s.chan n).openRows b).isNone)) →
    exec (.rtUrgencyChange m level chan) s = .next (let i := masterIdx m
  let s := s.onQos fun q => { q with urg := if level.val = 0 then del q.urg i else put q.urg i level, urgChan := putOpt q.urgChan i (if level.val < 2 then none else chan.map fun c => c.1.val) }
  let s := ((s.intr 0xA00028 4).bump cntQos 2 1).post 0x0905 []
  let b := rank.val * 16 + bank.val
  let s := s.setChan n fun c => { c with openRows := del c.openRows b, hits := del c.hits b }
  (s.bumpDrc n 7 1).post 0x0A05 []))

/-- Refresh, write-queue and training events of a channel have their effect where they happen. -/
def Obligations.DramEventsAct : Prop :=
  (∀ (s : State) (n : Fin 96) (rank : Fin 2),
    ¬(!s.refreshes n rank || decide ((Chan.owed (s.chan n) rank) ≥ 9)) →
    s.rtAt n →
    (Chan.owed (s.chan n) rank) ≥ 8 →
    exec (.refreshDue n rank) s = .next (let c := s.chan n
  let s := s.setChan n fun c => Chan.closeRank (Chan.setOwed c rank 9) rank
  ((s.bumpDrc n 4 1).intrDrc n 2).post 0x0A04 [(1, n), (1, rank)])) ∧
  (∀ (s : State) (n : Fin 96) (rank : Fin 2),
    ¬(!s.refreshes n rank || decide ((Chan.owed (s.chan n) rank) ≥ 9)) →
    s.rtAt n →
    ¬((Chan.owed (s.chan n) rank) ≥ 8) →
    exec (.refreshDue n rank) s = .next (let c := s.chan n
  let o := Chan.owed c rank
  s.setChan n fun c => Chan.setOwed c rank (o + 1))) ∧
  (∀ (s : State) (n : Fin 96) (rank : Fin 2),
    ¬(!s.refreshes n rank || decide ((Chan.owed (s.chan n) rank) ≥ 9)) →
    ¬(s.rtAt n) →
    (s.chan n).st = 4 →
    exec (.refreshDue n rank) s = .next (let c := s.chan n
  let o := Chan.owed c rank
  s.setChan n fun c => Chan.setOwed c rank (min (o + 1) 8))) ∧
  (∀ (s : State) (n : Fin 96) (rank : Fin 2),
    ¬(!s.refreshes n rank || decide ((Chan.owed (s.chan n) rank) ≥ 9)) →
    ¬(s.rtAt n) →
    ¬((s.chan n).st = 4) →
    s.rankIdle n rank →
    exec (.refreshDue n rank) s = .next (let c := s.chan n
  s.setChan n fun c => Chan.setOwed c rank (-8))) ∧
  (∀ (s : State) (n : Fin 96) (rank : Fin 2),
    ¬(!s.refreshes n rank || decide ((Chan.owed (s.chan n) rank) ≥ 9)) →
    ¬(s.rtAt n) →
    ¬((s.chan n).st = 4) →
    ¬(s.rankIdle n rank) →
    exec (.refreshDue n rank) s = .next (let c := s.chan n
  let o := Chan.owed c rank
  s.setChan n fun c => Chan.closeRank (Chan.setOwed c rank (min (o + 1) 0)) rank)) ∧
  (∀ (s : State) (n : Fin 96) (rank : Fin 2),
    Chan.owed (s.chan n) rank = 9 →
    exec (.forcedRefreshDone n rank) s = .next ((s.setChan n fun c => Chan.setOwed c rank 0).chanGo n)) ∧
  (∀ (s : State) (n : Fin 96) (rate : Fin 3),
    s.chanUp n →
    exec (.refreshRatePoll n rate) s = .next (s.setChan n fun c => { c with rate := rate })) ∧
  (∀ (s : State) (n : Fin 96),
    ¬(!s.chanUp n) →
    4 * (s.chan n).wq.length ≥ 3 * s.wqCap →
    exec (.writeQueueDrain n) s = .next (s.drainTo n (s.wqCap / 4))) ∧
  (∀ (s : State) (n : Fin 96),
    ¬(!s.chanUp n) →
    ¬(4 * (s.chan n).wq.length ≥ 3 * s.wqCap) →
    ¬(s.reqs.any fun r => r.op == .rd && waitsFor (.chan n) r) →
    exec (.writeQueueDrain n) s = .next (s.drainTo n 0)) ∧
  (∀ (s : State) (n : Fin 96),
    s.now ≥ (s.chan n).lastTrain + s.fld 0xB80008 13 0 * 1000000 →
    exec (.retrainPeriodExpire n) s = .next (s.queueRetrain n)) ∧
  (∀ (s : State) (n : Fin 96) (temp : Fin 256),
    max ((s.chan n).temp) temp.val - min ((s.chan n).temp) temp.val ≥ s.fld 0xB80008 20 16 →
    exec (.retrainTempQueue n temp) s = .next (s.queueRetrain n)) ∧
  (∀ (s : State) (n : Fin 96),
    ¬(s.near.retrainQ.head? ≠ some n.val || (s.chan n).st ≠ 0 || s.retraining) →
    ¬(s.rtAt n && decide (s.now < (s.chan n).queuedAt + 100000000)) →
    exec (.retrainStart n) s = .next (let c := s.chan n
  let s := s.setChan n fun c =>
        { c with st := 4, openRows := [], hits := [], owed0 := min c.owed0 0, owed1 := min c.owed1 0, attempts := 0 }
  s.onNear fun r => { r with retrainQ := r.retrainQ.drop 1, retrainActive := n })) ∧
  (∀ (s : State) (n : Fin 96) (dly : Option Word) (rd : Fin 256) (wr : Fin 256) (temp : Fin 256) (d : Word),
    ¬((s.chan n).st ≠ 4) →
    (if trainWorks dly rd wr then dly else none) = some d →
    exec (.retrainDone n dly rd wr temp) s = .next ((s.trained n d rd wr temp).chanGo n)) ∧
  (∀ (s : State) (n : Fin 96) (dly : Option Word) (rd : Fin 256) (wr : Fin 256) (temp : Fin 256),
    ¬((s.chan n).st ≠ 4) →
    (if trainWorks dly rd wr then dly else none) = none →
    ((s.chan n).attempts + 1) ≥ 3 →
    exec (.retrainDone n dly rd wr temp) s = .next (let a := (s.chan n).attempts + 1
  let s := s.setChan n fun c => { c with attempts := a }
  let s := (s.intrDrc n 1).post 0x0A02 [(1, n), (1, a)]
  s.retireChannel n 2)) ∧
  (∀ (s : State) (v : Word),
    v.toNat.testBit 7 && decide (v.toNat % 128 < 96) →
    exec (.drcRetrainGo v) s = .next (s.queueRetrain (v.toNat % 128))) ∧
  (∀ (s : State) (n : Fin 96),
    s.chanUp n && !(s.chan n).slow →
    exec (.channelSlowDetect n) s = .next (((s.setChan n fun c => { c with slow := true }).intrDrc n 3).post 0x0A06 [])) ∧
  (∀ (s : State) (n : Fin 96),
    (s.chan n).slow →
    exec (.channelSlowClear n) s = .next (s.setChan n fun c => { c with slow := false }))

/-- The Broom, chaff and mover commands that no check refuses have their effect. -/
def Obligations.IntegrityCommandsAct : Prop :=
  (∀ (s : State) (x : Mbx),
    s.sent x .fm false 40 = true →
    ¬(mb8 x 4 > 2) →
    ¬(s.taken.integ.broom.isSome) →
    s.taken.bgBusy (mbWho x) = false →
    exec (.broomStart x) s = .next (let s := s.taken
  let b : Broom := { mode := mb8 x 4, repair := (mb8 x 5).testBit 0, chans := leAt x.data 8 12, first := mb64 x 24, last := mb64 x 32, visited := [], scanned := 0, corrected := 0, uncorr := 0, poisoned := 0, skipped := 0, ceRows := [], sugg := [] }
  ((s.startBg x 0xC800).onInt fun i => { i with broom := some b }).broomEnd)) ∧
  (∀ (s : State) (x : Mbx),
    s.sent x .fm false 0 = true →
    s.taken.integ.broomLast = none →
    exec (.broomQuery x) s = .next (let s := s.taken
  s.okOut x (zeros 63))) ∧
  (∀ (s : State) (x : Mbx) (b : Broom),
    s.sent x .fm false 0 = true →
    s.taken.integ.broomLast = some b →
    exec (.broomQuery x) s = .next (let s := s.taken
  s.okOut x (zeros 7 ++ toLe 8 b.scanned ++ toLe 8 b.corrected ++ toLe 8 b.uncorr ++ toLe 8 b.poisoned ++ toLe 4 b.skipped
    ++ toLe 4 b.sugg.length ++ zeros 16 ++ b.sugg.flatMap chaffBytes))) ∧
  (∀ (s : State) (x : Mbx),
    s.sent x .fm false 16 = true →
    ¬(!s.taken.chaffOk (readChaff x.data 1)) →
    ¬(s.taken.chaffCovered (readChaff x.data 1)) →
    ¬((readChaff x.data 1).kind = 4 ∧ s.taken.unusable + (if s.taken.chanUp (readChaff x.data 1).chan then 1 else 0) > 4) →
    ¬(s.taken.integ.chaff.length ≥ chaffCap) →
    (readChaff x.data 1).kind = 4 →
    exec (.retire x) s = .next (let s := s.taken
  let c := readChaff x.data 1
  (s.retireChannel c.chan 1).status x 0)) ∧
  (∀ (s : State) (x : Mbx),
    s.sent x .fm false 16 = true →
    ¬(!s.taken.chaffOk (readChaff x.data 1)) →
    ¬(s.taken.chaffCovered (readChaff x.data 1)) →
    ¬((readChaff x.data 1).kind = 4 ∧ s.taken.unusable + (if s.taken.chanUp (readChaff x.data 1).chan then 1 else 0) > 4) →
    ¬(s.taken.integ.chaff.length ≥ chaffCap) →
    ¬((readChaff x.data 1).kind = 4) →
    exec (.retire x) s = .next (let s := s.taken
  let c := readChaff x.data 1
  (s.retireUnit c).status x 0)) ∧
  (∀ (s : State) (x : Mbx),
    s.sent x .fm false 8 = true →
    exec (.chaffQuery x) s = .next (let s := s.taken
  let l := (s.integ.chaff.drop (mb32 x 4)).take 256
  s.okOut x (zeros 3 ++ toLe 4 s.integ.chaff.length ++ toLe 4 l.length ++ zeros 4 ++ l.flatMap chaffBytes))) ∧
  (∀ (s : State) (x : Mbx) (m : _),
    s.sent x .any false 32 = true →
    ¬((mb64 x 24) = 0 ∨ (mb64 x 24) % 64 ≠ 0 ∨ (mb64 x 8) % 64 ≠ 0 ∨ (mb64 x 16) % 64 ≠ 0 ∨ (mb64 x 8) + (mb64 x 24) > 2 ^ 50 ∨ (mb64 x 16) + (mb64 x 24) > 2 ^ 50) →
    (let s := s.taken; let src := mb64 x 8; let dst := mb64 x 16; let n := mb64 x 24; let pages (a : Nat) : Nat := (a + n - 1) / 4096 - a / 4096 + 1; ¬(!s.mayName x (src / 4096) (pages src) 0 || !s.mayName x (dst / 4096) (pages dst) 1)) →
    s.taken.bgBusy (mbWho x) = false →
    (s.taken.extNeed ([]) (extsOf (mb64 x 8) (mb64 x 24) ++ extsOf (mb64 x 16) (mb64 x 24))).isEmpty = true →
    ¬(!s.taken.spaceKnown (mb64 x 8) (mb64 x 24) (fun _ => false) || !s.taken.spaceKnown (mb64 x 16) (mb64 x 24) (fun k => k == .published)) →
    s.taken.freeMover = some m →
    exec (.moverCopy x) s = .next (let s := s.taken
  let src := mb64 x 8
  let dst := mb64 x 16
  let n := mb64 x 24
  (s.startJob m src dst n (mbWho x) none).startBg x 0xC804)) ∧
  (∀ (s : State) (x : Mbx),
    s.sent x .any false 6 = true →
    ¬ (mb8 x 4 ≥ 16 ∨ mb8 x 5 ≠ 1) →
    ¬ ((s.taken.mover (mb8 x 4)).st ≠ 3) →
    ¬ ((s.taken.mover (mb8 x 4)).who ≠ mbWho x) →
    exec (.moverCtlResume x) s = .next (let m := mb8 x 4
    let j := s.taken.mover m
    let sa := j.dst + 64 * j.done
    let t := s.taken.setMover m { j with st := 2, phase := 4 }
    let h := t.pageHome (saPage sa)
    (if t.homes (saPage sa) || !t.canRoute h then t.jobReq m .wr sa (zeros 64)
    else (((t.newReq (.mover m) .wr sa 7 4096 .invalid fullMask (zeros 64)).1.modReq (t.newReq (.mover m) .wr sa 7 4096 .invalid fullMask (zeros 64)).2.id fun q => { q with waits := [.remote h] }).send .wr h 7 4096 ((t.newReq (.mover m) .wr sa 7 4096 .invalid fullMask (zeros 64)).2.id % 65536) 0 j.synd sa (zeros 64))).status x 0)) ∧
  (∀ (s : State) (x : Mbx),
    s.sent x .any false 6 = true →
    ¬ (mb8 x 4 ≥ 16 ∨ mb8 x 5 ≠ 2) →
    ¬ ((s.taken.mover (mb8 x 4)).st ≠ 3) →
    ¬ ((s.taken.mover (mb8 x 4)).who ≠ mbWho x) →
    exec (.moverCtlAbort x) s = .next ((((s.taken.setMover (mb8 x 4) Mover.idle).endBg (s.taken.mover (mb8 x 4)).who rcSuccess [0x74]).buildGo).status x 0))

/-- The events and register writes of the integrity block and the husk lanes have their effect. -/
def Obligations.IntegrityEventsAct : Prop :=
  (∀ (s : State) (page : Nat) (b : Broom),
    s.integ.broom = some b →
    ¬(!s.broomWants b page) →
    exec (.broomPageVisit page) s = .next (let s := s.onBroom fun b => { b with visited := b.visited ++ [page] }
  let s := if b.mode = 2 then
        let p := s.pme page
        let s := (s.onBroom fun b => { b with scanned := b.scanned + 2 * p.len }).noteRead p.far p.len
        if hcrcOk (s.farBytes page p.far p.len) then s else (s.hcrcFail page).farLost page
        else if b.repair && !s.broomMay page then s.onBroom fun b => { b with skipped := b.skipped + 1 }
        else
        let s := s.broomLines page b.repair
        if b.mode = 1 then s.broomDecode page else s
  s.broomEnd)) ∧
  (∀ (s : State) (m : Fin 16) (lines : Nat),
    exec (.moverCopyChunk m lines) s = .next (s.buildGo.each (List.range (2 * lines + 1)) fun s _ => s.jobStep m)) ∧
  (∀ (s : State) (n : Fin 96) (chunk : Nat),
    ¬(chunk ≥ s.chanChunks) →
    exec (.parityDeltaApply n chunk) s = .next (s.each [nearAddr n chunk * 2, nearAddr n chunk * 2 + 1] fun s key => s.applyDelta key)) ∧
  (∀ (s : State) (n : Fin 96) (chunk : Nat),
    ¬(chunk ≥ s.chanChunks) →
    exec (.stripeReconstruct n chunk) s = .next (if !s.inStripe n chunk || parityChan n chunk == n then s
    else match s.pageAt n chunk with
    | none => if s.chanUp n then s.rebuildMeta n chunk else s
    | some page =>
    let p := s.pme page
    if p.prot ≠ 1 || (s.move page).isSome || !s.hasUncorr p then s
    else
    let (s, ok) := s.fromParity page
    if ok then s.uncorrNear page outRebuilt else (s.uncorrNear page outPoisoned).losePage page 8)) ∧
  (∀ (s : State) (v : Word),
    v.toNat.testBit 0 →
    exec (.intErrqPopWrite v) s = .next (s.onInt fun i => { i with errq := i.errq.drop 1 })) ∧
  (∀ (s : State) (off : Nat) (v : Word),
    captureReg off && v.toNat.testBit 63 →
    exec (.captureReleaseWrite off v) s = .next (s.setReg off (s.reg off % (if off = 0x400040 then 2 ^ 62 else 2 ^ 63)))) ∧
  (∀ (s : State) (n : Fin 32) (ratio : Fin 4096),
    ¬((s.lane n).reduced ∨ ratio.val * 100 ≥ 85 * 4096) →
    exec (.huskLaneShareReduce n ratio) s = .next (((s.onHusk fun h => { h with lanes := put h.lanes n { s.lane n with reduced := true, ratio := ratio } }).post 0x0B0A []).rescaled s)) ∧
  (∀ (s : State) (n : Fin 32) (ratio : Fin 65536),
    ¬(!(s.lane n).reduced ∨ ratio.val * 100 ≤ 90 * 4096) →
    exec (.huskLaneRestore n ratio) s = .next (((s.onHusk fun h => { h with lanes := put h.lanes n { s.lane n with reduced := false, ratio := 4096 } }).post 0x0B0A []).rescaled s)) ∧
  (∀ (s : State) (v : Word),
    exec (.hskLaneDisWrite v) s = .next ((s.setReg 0x500020 (v.toNat % 2 ^ 32)).rescaled s)) ∧
  (∀ (s : State) (e : Nat) (m : Fin 64) (x : Extent),
    look s.spc.extents e = some x →
    x.spread.contains m.val && !s.integ.spreadSlow.contains (e, m.val) →
    exec (.spreadMemberSlow e m) s = .next (((s.onInt fun i => { i with spreadSlow := i.spreadSlow ++ [(e, m.val)] }).intr 0xC00028 6).post 0x0B0B []))

/-- The key and erase commands, and the events of the security engine, have their effect. -/
def Obligations.SecurityActs : Prop :=
  (∀ (s : State) (x : Mbx),
    s.sent x .fm true 6 = true →
    ¬((mb16 x 4) ≥ 512) →
    exec (.keyQuery x) s = .next (let s := s.taken
  let k := mb16 x 4
  s.okOut x (zeros 3 ++ toLe 4 (s.keySt k) ++ toLe 4 (s.keyExtents k) ++ toLe 4 (s.keyPages k)))) ∧
  (∀ (s : State) (x : Mbx),
    s.sent x .fm true 5 = true →
    s.taken.bgBusy (mbWho x) = false →
    exec (.accountErase x) s = .next (let s := s.taken
  let a := mb8 x 4
  let s := (s.startBg x 0xC901).copyAll s.peers (.erase a 0)
  ((s.revokeAcct a).onSec fun c => { c with erasing := c.erasing ++ [⟨a, some (mbWho x), s.me, s.peers⟩] }).eraseCheck)) ∧
  (∀ (s : State) (x : Mbx),
    s.sent x .fm true 0 = true →
    exec (.spaceKeyRoll x) s = .next (let s := s.taken
  let s := s.drew.onSec fun c => { c with spaceKey := some (Config.random s.draws % 2 ^ 256), keyEpoch := c.keyEpoch + 1 }
  let s := s.onHdg fun h => { h with ports := h.ports.map fun e => (e.1, { e.2 with newEpoch := true }) }
  (s.post 0x0C08 []).status x 0)) ∧
  (∀ (s : State) (slot : Fin 512),
    s.keySt slot = 2 ∧ s.keyPages slot = 0 →
    exec (.keySlotEmptied slot) s = .next ((s.onSec fun c => { c with keys := del c.keys slot }).post 0x0C01 [])) ∧
  (∀ (s : State),
    exec (.entropyHealthFail) s = .next (((s.onSec fun c => { c with entropyOk := false }).intr 0xD00028 0).post 0x0C06 []))

/-- The SPDM requests that set up and use a session are answered and change the session. -/
def Obligations.SpdmRequestsAct : Prop :=
  (∀ (s : State) (who : Issuer) (_data : Bytes),
    s.asks who = true →
    exec (.getVersion who _data) s = .next (let s := s.unidle
  s.spdmOut who 4 (toLe 1 1 ++ toLe 2 0x1200))) ∧
  (∀ (s : State) (who : Issuer) (_data : Bytes),
    s.asks who = true →
    exec (.getCapabilities who _data) s = .next (let s := s.unidle
  s.spdmFree who 0x61 16)) ∧
  (∀ (s : State) (who : Issuer) (_data : Bytes),
    s.asks who = true →
    exec (.negotiateAlgorithms who _data) s = .next (let s := s.unidle
  s.spdmFree who 0x63 32)) ∧
  (∀ (s : State) (who : Issuer) (_data : Bytes),
    s.asks who = true →
    exec (.getDigests who _data) s = .next (let s := s.unidle
  s.spdmFree who 1 96)) ∧
  (∀ (s : State) (who : Issuer) (data : Bytes),
    s.asks who = true →
    byteAt data 0 ≤ 1 →
    exec (.getCertificate who data) s = .next (let s := s.unidle
  s.spdmFree who 2 1024)) ∧
  (∀ (s : State) (who : Issuer) (data : Bytes),
    s.asks who = true →
    byteAt data 0 ≤ 1 →
    exec (.challenge who data) s = .next (let s := s.unidle
  s.spdmFree who 3 96)) ∧
  (∀ (s : State) (who : Issuer) (data : Bytes),
    s.asks who = true →
    (byteAt data 1) = 0 →
    exec (.getMeasurements who data) s = .next (let s := s.unidle
  s.spdmOut who 0x60 (toLe 1 5))) ∧
  (∀ (s : State) (who : Issuer) (data : Bytes),
    s.asks who = true →
    ¬((byteAt data 1) = 0) →
    (byteAt data 1) ≤ 5 →
    exec (.getMeasurements who data) s = .next (let s := s.unidle
  s.spdmFree who 0x60 48)) ∧
  (∀ (s : State) (who : Issuer) (data : Bytes),
    s.asks who = true →
    ¬((byteAt data 1) = 0) →
    ¬((byteAt data 1) ≤ 5) →
    (byteAt data 1) = 255 →
    exec (.getMeasurements who data) s = .next (let s := s.unidle
  s.spdmFree who 0x60 240)) ∧
  (∀ (s : State) (who : Issuer) (_data : Bytes) (i : Nat),
    s.asks who = true →
    (List.range 2).find? fun i => s.unidle.sessPhase who i = 0 = some i →
    exec (.keyExchange who _data) s = .next (let s := s.unidle
  (s.setSess (sessKey who i) 1).spdmFree who 0x64 96)) ∧
  (∀ (s : State) (who : Issuer) (_data : Bytes),
    s.asks who = true →
    (List.range 2).find? fun i => s.unidle.sessPhase who i = 0 = none →
    exec (.keyExchange who _data) s = .next (let s := s.unidle
  s.spdmErr who errLimit)) ∧
  (∀ (s : State) (who : Issuer) (sess : Fin 2) (verified : Bool) (_data : Bytes),
    s.asks who = true →
    ¬(s.unidle.sessPhase who sess ≠ 1) →
    verified →
    exec (.finish who sess verified _data) s = .next (let s := s.unidle
  (s.setSess (sessKey who sess) 2).spdmFree who 0x65 48)) ∧
  (∀ (s : State) (who : Issuer) (sess : Fin 2) (verified : Bool) (_data : Bytes),
    s.asks who = true →
    ¬(s.unidle.sessPhase who sess ≠ 1) →
    ¬(verified) →
    exec (.finish who sess verified _data) s = .next (let s := s.unidle
  ((((s.setSess (sessKey who sess) 0).bump cntSec 1 1).intr 0xD00028 1).post 0x0C03 []).spdmErr who errDecrypt))

/-- Inside an established session the SPDM requests act. -/
def Obligations.SpdmSessionsAct : Prop :=
  (∀ (s : State) (who : Issuer) (sess : Fin 2),
    s.asks who = true →
    s.sessPhase who sess = 2 →
    exec (.heartbeat who sess) s = .next (let s := s.unidle
  s.spdmOut who 0x68 [])) ∧
  (∀ (s : State) (who : Issuer) (sess : Fin 2) (data : Bytes),
    s.asks who = true →
    s.sessPhase who sess = 2 →
    exec (.keyUpdate who sess data) s = .next (let s := s.unidle
  s.spdmOut who 0x69 (data.take 2))) ∧
  (∀ (s : State) (who : Issuer) (sess : Fin 2),
    s.asks who = true →
    s.sessPhase who sess = 2 →
    exec (.endSession who sess) s = .next (let s := s.unidle
  (s.closeSess who sess).spdmOut who 0x6C [])) ∧
  (∀ (s : State) (who : Issuer) (sess : Fin 2),
    ¬(s.sessPhase who sess = 0) →
    exec (.spdmHeartbeatTimeout who sess) s = .next (s.closeSess who sess)) ∧
  (∀ (s : State) (who : Issuer) (sess : Fin 2) (std vendor : Nat) (payload : Bytes),
    s.asks who = true →
    s.sessPhase who sess = 2 →
    ¬(std ≠ 3 ∨ vendor ≠ Config.pciVendor ∨ payload.length < 6) →
    exec (.vendorDefinedRequest who sess std vendor payload) s = .next (let s := s.unidle
  let x : Mbx := ⟨who, some sess, (payload.drop 6).take (leAt payload 2 4)⟩
  let t := if payload.length < 6 + leAt payload 2 4 then s.reply x rcInvalidInput []
        else match vendorTable.find? fun e => e.1 == leAt payload 0 2 with
        | some e => stateOf s (e.2 x s)
        | none => s.reply x rcUnsupported []
  t.enveloped who s.out.length s.hdg.replies.length)) ∧
  (∀ (s : State) (p : Fin 4) (ld : Fin 64) (sess : Fin 2) (go : Bool) (data : Bytes),
    s.asks (.ld ld) = true →
    s.sessPhase (.ld ld) sess = 2 →
    ¬(ld.val / 16 ≠ p.val) →
    go →
    ¬((look s.unidle.sec.ideKeys p).isNone) →
    exec (.ideKm p ld sess go data) s = .next (let s := s.unidle
  (s.onSec fun c => { c with ide := addNew c.ide p.val }).spdmOut (.ld ld) 0x7E [])) ∧
  (∀ (s : State) (p : Fin 4) (ld : Fin 64) (sess : Fin 2) (go : Bool) (data : Bytes),
    s.asks (.ld ld) = true →
    s.sessPhase (.ld ld) sess = 2 →
    ¬(ld.val / 16 ≠ p.val) →
    ¬(go) →
    exec (.ideKm p ld sess go data) s = .next (let s := s.unidle
  (s.onSec fun c => { c with ideKeys := put c.ideKeys p data }).spdmOut (.ld ld) 0x7E []))

/-- The event steering unit latches, steers, claims and completes. -/
def Obligations.EventSteeringActs : Prop :=
  (∀ (s : State) (n : Fin 1024) (ld : Fin 64),
    s.esu.latch.contains (n.val, ld.val) →
    (let s := s.onEsu fun e => { e with latch := removeFirst (· == (n.val, ld.val)) e.latch }; (s.srcBits n ld).pend) →
    exec (.esuEdgeArrive n ld) s = .next (let s := s.onEsu fun e => { e with latch := removeFirst (· == (n.val, ld.val)) e.latch }
  s.bump cntEsu 2 1)) ∧
  (∀ (s : State) (n : Fin 1024) (ld : Fin 64),
    s.esu.latch.contains (n.val, ld.val) →
    (let s := s.onEsu fun e => { e with latch := removeFirst (· == (n.val, ld.val)) e.latch }; ¬((s.srcBits n ld).pend)) →
    exec (.esuEdgeArrive n ld) s = .next (let s := s.onEsu fun e => { e with latch := removeFirst (· == (n.val, ld.val)) e.latch }
  (s.esuPend n ld).esuEval)) ∧
  (∀ (s : State) (n : Fin 1024),
    ¬(directed n || s.level n == (s.srcBits n 0).input) →
    exec (.esuLevelChange n) s = .next ((s.esuSample n).esuEval)) ∧
  (∀ (s : State) (g : Fin 64) (y2 : _) (t : Nat),
    look s.esu.grps g = some (y2, t) →
    g.val ≠ 0 && decide (t + 1000 * s.fld (0xE01000 + 8 * g) 37 24 ≤ s.now) →
    exec (.esuGroupTimerExpire g) s = .next ((s.esuFire g).esuEval)) ∧
  (∀ (s : State) (view : View) (t : Fin 68),
    ¬(!s.viewOpen view) →
    ¬(!seesTarget view t) →
    (s.stackOf t).length ≥ 16 →
    exec (.esuClaimRead view t) s = .next ((((s.bump cntEsu 5 1).intr 0xE00028 2).post 0x0D03 [(1, t.val)]).emit (.claim t 0))) ∧
  (∀ (s : State) (view : View) (t : Fin 68),
    ¬(!s.viewOpen view) →
    ¬(!seesTarget view t) →
    ¬((s.stackOf t).length ≥ 16) →
    s.bestFor t = none →
    exec (.esuClaimRead view t) s = .next ((((s.bump cntEsu 0 1).intr 0xE00028 0).post 0x0D01 [(1, t.val)]).emit (.claim t 0))) ∧
  (∀ (s : State) (view : View) (t : Fin 68) (n : Nat),
    ¬(!s.viewOpen view) →
    ¬(!seesTarget view t) →
    ¬((s.stackOf t).length ≥ 16) →
    s.bestFor t = some n →
    exec (.esuClaimRead view t) s = .next (let ld := t.val - 4
  let b := s.srcBits n ld
  let s := s.setBits n ld { b with active := true, pend := false, rel := false }
  let s := s.onEsu fun e =>
        { e with stack := put e.stack t ((s.thresh t, n) :: s.stackOf t), thresh := put e.thresh t (ctlPrio (s.srcCtl n)) }
  ((s.bump cntEsu 3 1).esuEval).emit (.claim t n))) ∧
  (∀ (s : State) (view : View) (t : Fin 68) (v : Word) (th : _) (top : _) (rest : _),
    ¬(!s.viewOpen view || !seesTarget view t) →
    s.stackOf t = (th, top) :: rest →
    ¬(top ≠ (v.toNat % 1024)) →
    exec (.esuCompleteWrite view t v) s = .next (let n := v.toNat % 1024
  let ld := t.val - 4
  let b := s.srcBits n ld
  let s := s.setBits n ld { b with active := false }
  let s := s.onEsu fun e => { e with stack := put e.stack t rest, thresh := put e.thresh t th }
  (if directed n then s else s.esuSample n).esuEval)) ∧
  (∀ (s : State) (view : View) (t : Fin 68) (v : Word),
    s.viewOpen view && seesTarget view t →
    exec (.esuThreshWrite view t v) s = .next ((s.onEsu fun e => { e with thresh := put e.thresh t (v.toNat % 16) }).esuEval)) ∧
  (∀ (s : State) (n : Fin 1024) (v : Word),
    s.viewOpen .fm = true →
    exec (.esuSrcWrite .fm n v) s = .next (s.srcWritten n v)) ∧
  (∀ (s : State) (n : Fin 1024) (v : Word),
    s.viewOpen .core = true →
    exec (.esuSrcWrite .core n v) s = .next (s.srcWritten n v)) ∧
  (∀ (s : State) (k : Fin 64) (n : Fin 1024) (v : Word),
    exec (.esuSrcWrite (.ld k) n v) s = .next (s)) ∧
  (∀ (s : State) (ld : Fin 64) (en : Bool) (fmask : Bool) (vmask : BitVec 32),
    en && !fmask →
    exec (.msixVectorUnmask ld en fmask vmask) s = .next (let was := s.esu.msixEn.contains ld
  let s := s.onEsu fun e =>
        { e with msixEn := if en then addNew e.msixEn ld else e.msixEn.filter (· != ld.val), msixFm := if fmask then addNew e.msixFm ld else e.msixFm.filter (· != ld.val), msixUnmask := put e.msixUnmask ld (2 ^ 32 - 1 - vmask.toNat) }
  let s := if en && !was then
        s.each ((keys s.esu.srcs).filter fun k => s.targetOf (k / 64) (k % 64) == 4 + ld.val && s.deliverable (k / 64) (k % 64))
        fun s k => s.msix ld (ctlVec (s.srcCtl (k / 64)))
        else s
  let pend := (look s.esu.msixPend ld).getD 0
  let go := (List.range 32).filter fun v => pend.testBit v && !vmask.getLsbD v
  let s := s.onEsu fun e => { e with msixPend := put e.msixPend ld (pend &&& vmask.toNat) }
  s.each go fun s v => s.emit (.msix ld v))) ∧
  (∀ (s : State) (ld : Fin 64) (en : Bool) (fmask : Bool) (vmask : BitVec 32),
    ¬(en && !fmask) →
    exec (.msixVectorUnmask ld en fmask vmask) s = .next (let was := s.esu.msixEn.contains ld
  let s := s.onEsu fun e =>
        { e with msixEn := if en then addNew e.msixEn ld else e.msixEn.filter (· != ld.val), msixFm := if fmask then addNew e.msixFm ld else e.msixFm.filter (· != ld.val), msixUnmask := put e.msixUnmask ld (2 ^ 32 - 1 - vmask.toNat) }
  let s := if en && !was then
        s.each ((keys s.esu.srcs).filter fun k => s.targetOf (k / 64) (k % 64) == 4 + ld.val && s.deliverable (k / 64) (k % 64))
        fun s k => s.msix ld (ctlVec (s.srcCtl (k / 64)))
        else s
  s)) ∧
  (∀ (s : State) (ld : Fin 64),
    s.host.ldReset.contains ld.val && !s.reqs.any (ofLd ld) →
    exec (.ldResetDrainEnd ld) s = .next (s.ldDrained ld))

/-- The log's commands, registers and events have their effect. -/
def Obligations.StookActs : Prop :=
  (∀ (s : State),
    exec (.stookSpill) s = .next (let s := s.each (unsent s.stk.sram) fun s r => s.putSpill r
  s.onStk fun k => { k with sram := k.sram.map fun x => (x.1, true) })) ∧
  (∀ (s : State) (ok : Bool),
    ok →
    exec (.stookArchive ok) s = .next (let s := s.each (unsent s.stk.spill) fun s r => s.putArchive r
  s.onStk fun k => { k with spill := k.spill.map (fun x => (x.1, true)), archErr := false })) ∧
  (∀ (s : State) (ok : Bool),
    ¬(ok) →
    ¬(s.stk.archErr) →
    exec (.stookArchive ok) s = .next (((s.onStk fun k => { k with archErr := true }).intr 0xF00028 3).post 0x0E06 [])) ∧
  (∀ (s : State) (code : Nat),
    ¬((s.bucketNow code).suppr = 0 ∨ (s.bucketNow code).level < s.burstOf code ∨ (s.bucketNow code).level < tokenUnit) →
    exec (.stookSummaryEmit code) s = .next (let k := s.bucketNow code
  let s := s.onStk fun t => { t with buckets := put t.buckets code { k with level := k.level - tokenUnit, suppr := 0 } }
  s.arrive { s.newRec code 64 (min k.suppr (2 ^ 32 - 1)) k.payload with lds := k.lds })) ∧
  (∀ (s : State) (x : Mbx),
    s.sent x .fm false 16 = true →
    ¬((mb16 x 4) = 0 ∨ (mb16 x 4) > 256) →
    exec (.stkRead x) s = .next (let s := s.taken
  let n := mb16 x 4
  let rs := ((vals s.allRecs).filter fun r => decide (mb64 x 8 ≤ r.seq)).take n
  s.okOut x (zeros 3 ++ toLe 2 rs.length ++ zeros 58 ++ rs.flatMap SRec.bytes))) ∧
  (∀ (s : State) (x : Mbx),
    s.sent x .fm false 5 = true →
    mb8 x 4 = 1 →
    exec (.freeze x) s = .next (let s := s.taken
  s.startFreeze.status x 0)) ∧
  (∀ (s : State) (x : Mbx),
    s.sent x .fm false 5 = true →
    ¬(mb8 x 4 = 1) →
    mb8 x 4 = 0 →
    exec (.freezeThaw x) s = .next (let s := s.taken
  s.thaw.status x 0)) ∧
  (∀ (s : State) (x : Mbx),
    s.sent x .fm false 0 = true →
    exec (.gaspRead x) s = .next (let s := s.taken
  s.okOut x (zeros 3 ++ toLe 4 s.stk.partnerGasp.length ++ toLe 1 (twinOf s.me) ++ zeros 55 ++ s.stk.partnerGasp.flatMap id))) ∧
  (∀ (s : State) (v : Word),
    v.getLsbD 0 →
    exec (.stkCtlFreeze v) s = .next (s.stkCtl v)) ∧
  (∀ (s : State) (v : Word),
    v.getLsbD 1 →
    exec (.stkCtlThaw v) s = .next (s.stkCtl v)) ∧
  (∀ (s : State) (v : Word),
    v.getLsbD 2 →
    exec (.stkCtlGaspClr v) s = .next (s.stkCtl v)) ∧
  (∀ (s : State) (t : _),
    s.stk.frozenAt = some t →
    s.now ≥ t + freezeNs →
    exec (.freezeTimeout) s = .next (s.thaw)) ∧
  (∀ (s : State) (first : Nat) (last : Nat),
    ¬(first > last ∨ last ≥ sramCap) →
    exec (.stookSramFail first last) s = .next (let used := (List.range sramCap).filter fun n => !s.slotBad n
  let gone := (used.filter fun n => decide (first ≤ n ∧ n ≤ last)).length
  let kept := ((s.stk.sram.zip used).filter fun p => !decide (first ≤ p.2 ∧ p.2 ≤ last)).map Prod.fst
  let s := s.onStk fun k => { k with sram := kept, failed := k.failed + gone, badSlots := k.badSlots ++ [(first, last)], gaspOn := true }
  s.post 0x0E04 [(2, first), (2, last)]))

/-- The standard CXL commands that no check refuses answer and act. -/
def Obligations.StandardCommandsAct : Prop :=
  (∀ (s : State) (x : Mbx),
    s.sent x .any false 0 = true →
    exec (.identify x) s = .next (let s := s.taken
  s.freeOut x 18)) ∧
  (∀ (s : State) (x : Mbx),
    s.sent x .any false 0 = true →
    look s.taken.host.bg (mbWho x) = none →
    exec (.backgroundOperationStatus x) s = .next (let s := s.taken
  s.reply x rcSuccess (zeros 8))) ∧
  (∀ (s : State) (x : Mbx) (b : _),
    s.sent x .any false 0 = true →
    look s.taken.host.bg (mbWho x) = some b →
    exec (.backgroundOperationStatus x) s = .next (let s := s.taken
  s.reply x rcSuccess (toLe 2 (if b.running then 1 else 200) ++ toLe 2 b.opcode ++ toLe 2 b.rc ++ zeros 2 ++ b.out))) ∧
  (∀ (s : State) (x : Mbx),
    s.sent x .any false 1 = true →
    ¬(mb8 x 0 > 3) →
    exec (.getEventRecords x) s = .next (let s := s.taken
  let l := (look s.stk.logs (logKey x)).getD []
  let o := (look s.stk.logOvf (logKey x)).getD (0, 0, 0)
  s.drew.reply x rcSuccess (toLe 2 (if o.1 = 0 then 0 else 1) ++ toLe 2 (min o.1 65535) ++ toLe 8 o.2.1 ++ toLe 8 o.2.2 ++ toLe 2 l.length
    ++ zeros 10 ++ l.flatMap fun e => s.evtRecord e.1 e.2))) ∧
  (∀ (s : State) (x : Mbx),
    s.sent x .any false 6 = true →
    ¬(mb8 x 0 > 3 ∨ (mb8 x 1 % 2 = 0 ∧ x.data.length < 6 + 2 * (mb8 x 2))) →
    mb8 x 1 % 2 = 1 →
    exec (.clearEventRecords x) s = .next (let s := s.taken
  let k := logKey x
  (s.onStk fun t => { t with logs := del t.logs k, logOvf := del t.logOvf k }).reply x rcSuccess [])) ∧
  (∀ (s : State) (x : Mbx),
    s.sent x .any false 6 = true →
    ¬(mb8 x 0 > 3 ∨ (mb8 x 1 % 2 = 0 ∧ x.data.length < 6 + 2 * (mb8 x 2))) →
    ¬(mb8 x 1 % 2 = 1) →
    (let s := s.taken; let k := logKey x; let l := (look s.stk.logs k).getD []; let n := mb8 x 2; let hs := (List.range n).map fun i => mb16 x (6 + 2 * i); ¬(hs.any fun h => !(l.any fun e => e.1 == h))) →
    exec (.clearEventRecords x) s = .next (let s := s.taken
  let k := logKey x
  let l := (look s.stk.logs k).getD []
  let n := mb8 x 2
  let hs := (List.range n).map fun i => mb16 x (6 + 2 * i)
  (s.onStk fun t => { t with logs := put t.logs k (l.filter fun e => !hs.contains e.1), logOvf := del t.logOvf k }).reply x rcSuccess [])) ∧
  (∀ (s : State) (x : Mbx),
    s.sent x .any false 0 = true →
    exec (.getFwInfo x) s = .next (let s := s.taken
  s.freeOut x 80)) ∧
  (∀ (s : State) (x : Mbx),
    s.sent x .any false 0 = true →
    exec (.getTimestamp x) s = .next (let s := s.taken
  s.reply x rcSuccess (toLe 8 s.wall))) ∧
  (∀ (s : State) (x : Mbx),
    s.sent x .fm false 8 = true →
    exec (.setTimestamp x) s = .next (let s := s.taken
  (s.setWall (mb64 x 0)).reply x rcSuccess [])) ∧
  (∀ (s : State) (x : Mbx),
    s.sent x .any false 0 = true →
    exec (.getSupportedLogs x) s = .next (let s := s.taken
  s.reply x rcSuccess (toLe 2 1 ++ zeros 6 ++ celUuid ++ toLe 4 (4 * (stdOpcodes ++ vendorOpcodes).length)))) ∧
  (∀ (s : State) (x : Mbx),
    s.sent x .any false 24 = true →
    ¬(x.data.take 16 ≠ celUuid ∨ mb32 x 16 + mb32 x 20 > s.taken.celBytes.length) →
    exec (.getLog x) s = .next (let s := s.taken
  let d := s.celBytes
  s.drew.reply x rcSuccess ((d.drop (mb32 x 16)).take (mb32 x 20)))) ∧
  (∀ (s : State) (x : Mbx),
    s.sent x .any false 0 = true →
    exec (.identifyMemoryDevice x) s = .next (let s := s.taken
  let f (i n : Nat) : Bytes := (List.range n).map fun j => Config.answerByte s.draws (i + j)
  s.drew.reply x rcSuccess (f 0 16 ++ toLe 8 (2 ^ 21) ++ toLe 8 (2 ^ 21) ++ toLe 8 0 ++ f 40 8 ++ toLe 2 256 ++ toLe 2 256 ++ toLe 2 256
    ++ toLe 2 256 ++ f 56 11))) ∧
  (∀ (s : State) (x : Mbx),
    s.sent x .any false 0 = true →
    exec (.getHealthInfo x) s = .next (let s := s.taken
  s.freeOut x 18)) ∧
  (∀ (s : State) (x : Mbx),
    s.sent x .any false 16 = true →
    exec (.getPoisonList x) s = .next (let s := s.taken
  let here := (s.poisonRecs (mbWho x)).filter fun r => decide (mb64 x 0 < r.1 + 64 * r.2.1 ∧ r.1 < mb64 x 0 + 64 * mb64 x 8)
  let far := if s.mapsRemote (mbWho x) then Config.peerAnswer s.draws % 65536 else 0
  let full := decide (plistCap ≤ s.integ.plist.length) || (s.mapsRemote (mbWho x) && Config.peerAdmits s.draws)
  s.drew.reply x rcSuccess (toLe 2 (if full then 2 else 0) ++ zeros 8 ++ toLe 2 (here.length + far) ++ zeros 20
    ++ (here.flatMap fun r => toLe 8 (r.1 + r.2.2) ++ toLe 4 r.2.1 ++ zeros 4)
    ++ (List.range (16 * far)).map fun i => Config.answerByte s.draws i))) ∧
  (∀ (s : State) (x : Mbx) (sa : Nat),
    s.sent x .any false 8 = true →
    s.taken.poisonTarget (mbWho x) (mb64 x 0) = some sa →
    exec (.injectPoison x) s = .next (let s := s.taken
  let s := if s.homes (saPage sa) then (s.poisonWritten (saLine sa) 1).poisonLine (saLine sa) 1 true
        else s.copyTo (s.pageHome (saPage sa)) (.poison (saLine sa))
  s.reply x rcSuccess [])) ∧
  (∀ (s : State) (x : Mbx) (sa : Nat),
    s.sent x .any false 72 = true →
    s.taken.poisonTarget (mbWho x) (mb64 x 0) = some sa →
    exec (.clearPoison x) s = .next (let s := s.taken
  s.accept (.cmd (mbWho x)) .wr (sa / 64 * 64) 0 (s.holderOf (mbWho x)) .invalid fullMask ((x.data.drop 8).take 64))) ∧
  (∀ (s : State) (x : Mbx) (opcode : Fin 65536),
    ¬((stdOpcodes ++ vendorOpcodes).contains opcode.val) →
    s.reaches x →
    exec (.mailboxUnsupported x opcode) s = .next (((s.unidle).bump cntHp 2 1).reply x rcUnsupported []))

/-- The firmware and seed commands that no check refuses act. -/
def Obligations.FirmwareCommandsAct : Prop :=
  (∀ (s : State) (x : Mbx),
    s.sent x .fm false 128 = true →
    (mb8 x 0) = 4 →
    exec (.transferFw x) s = .next (let s := s.taken
  (s.onHost fun h => { h with fwStage := [] }).reply x rcSuccess [])) ∧
  (∀ (s : State) (x : Mbx),
    s.sent x .fm false 128 = true →
    ¬((mb8 x 0) = 4) →
    ¬((mb8 x 0) > 4) →
    ¬(((mb8 x 0) = 0 ∨ (mb8 x 0) = 3) ∧ ((mb8 x 1) = 0 ∨ (mb8 x 1) > 2 ∨ (mb8 x 1) = s.taken.pwr.fwBank + 1)) →
    (mb8 x 0) = 0 ∨ (mb8 x 0) = 1 →
    ¬(s.taken.host.fwStage.length ≠ 0) →
    ¬((128 * mb32 x 4) ≠ 0 ∨ (x.data.drop 128).length > bankSize 0) →
    (mb8 x 0) = 0 →
    exec (.transferFw x) s = .next (let s := s.taken
  let slot := mb8 x 1
  let d := x.data.drop 128
  let s := s.onHost fun h => { h with fwStage := d }
  s.fwEnd x (slot - 1))) ∧
  (∀ (s : State) (x : Mbx),
    s.sent x .fm false 128 = true →
    ¬((mb8 x 0) = 4) →
    ¬((mb8 x 0) > 4) →
    ¬(((mb8 x 0) = 0 ∨ (mb8 x 0) = 3) ∧ ((mb8 x 1) = 0 ∨ (mb8 x 1) > 2 ∨ (mb8 x 1) = s.taken.pwr.fwBank + 1)) →
    (mb8 x 0) = 0 ∨ (mb8 x 0) = 1 →
    ¬(s.taken.host.fwStage.length ≠ 0) →
    ¬((128 * mb32 x 4) ≠ 0 ∨ (x.data.drop 128).length > bankSize 0) →
    ¬((mb8 x 0) = 0) →
    exec (.transferFw x) s = .next (let s := s.taken
  let d := x.data.drop 128
  let s := s.onHost fun h => { h with fwStage := d }
  s.reply x rcSuccess [])) ∧
  (∀ (s : State) (x : Mbx),
    s.sent x .fm false 128 = true →
    ¬((mb8 x 0) = 4) →
    ¬((mb8 x 0) > 4) →
    ¬(((mb8 x 0) = 0 ∨ (mb8 x 0) = 3) ∧ ((mb8 x 1) = 0 ∨ (mb8 x 1) > 2 ∨ (mb8 x 1) = s.taken.pwr.fwBank + 1)) →
    ¬((mb8 x 0) = 0 ∨ (mb8 x 0) = 1) →
    ¬(s.taken.host.fwStage.length = 0 ∨ (128 * mb32 x 4) ≠ s.taken.host.fwStage.length) →
    ¬(s.taken.host.fwStage.length + (x.data.drop 128).length > bankSize 0) →
    (mb8 x 0) = 3 →
    exec (.transferFw x) s = .next (let s := s.taken
  let slot := mb8 x 1
  let d := x.data.drop 128
  let s := s.onHost fun h => { h with fwStage := h.fwStage ++ d }
  s.fwEnd x (slot - 1))) ∧
  (∀ (s : State) (x : Mbx),
    s.sent x .fm false 128 = true →
    ¬((mb8 x 0) = 4) →
    ¬((mb8 x 0) > 4) →
    ¬(((mb8 x 0) = 0 ∨ (mb8 x 0) = 3) ∧ ((mb8 x 1) = 0 ∨ (mb8 x 1) > 2 ∨ (mb8 x 1) = s.taken.pwr.fwBank + 1)) →
    ¬((mb8 x 0) = 0 ∨ (mb8 x 0) = 1) →
    ¬(s.taken.host.fwStage.length = 0 ∨ (128 * mb32 x 4) ≠ s.taken.host.fwStage.length) →
    ¬(s.taken.host.fwStage.length + (x.data.drop 128).length > bankSize 0) →
    ¬((mb8 x 0) = 3) →
    exec (.transferFw x) s = .next (let s := s.taken
  let d := x.data.drop 128
  let s := s.onHost fun h => { h with fwStage := h.fwStage ++ d }
  s.reply x rcSuccess [])) ∧
  (∀ (s : State) (x : Mbx),
    s.sent x .fm false 2 = true →
    ¬(mb8 x 0 > 1) →
    ¬((mb8 x 1) = 0 ∨ (mb8 x 1) > 2) →
    exec (.activateFw x) s = .next (let s := s.taken
  let slot := mb8 x 1
  if !((look s.pwr.banks (slot - 1)).any bankOk) then s.reply x rcFwAuth []
    else if mb8 x 0 = 1 then s.reply x rcSuccess []
    else ((s.reply x rcSuccess []).onPwr fun p => { p with fwBank := slot - 1, fwNew := false }).startWarm)) ∧
  (∀ (s : State) (x : Mbx),
    s.sent x .fm false 16 = true →
    ¬((mb8 x 4) > 1) →
    ¬((mb32 x 8) = 2 ^ 32 - 1) →
    ¬((mb32 x 8) + (mb32 x 12) > bankSize (mb8 x 4) ∨ x.data.length < 64 + (mb32 x 12)) →
    exec (.seedWrite x) s = .next (let s := s.taken
  let kind := mb8 x 4
  let off := mb32 x 8
  let len := mb32 x 12
  (s.writeBank (s.spareBank kind) off ((x.data.drop 64).take len)).status x 0)) ∧
  (∀ (s : State) (x : Mbx),
    s.sent x .fm false 16 = true →
    ¬((mb8 x 4) > 1) →
    (mb32 x 8) = 2 ^ 32 - 1 →
    exec (.seedWriteEnd x) s = .next (let s := s.taken
  let kind := mb8 x 4
  let pq := s.verifyBank kind (s.spareBank kind)
  let s := pq.1
  let ok := pq.2
  (s.onPwr fun p => { p with fwNew := p.fwNew || (ok && kind == 0) }).status x (if ok then 0 else 0x90))) ∧
  (∀ (s : State) (x : Mbx),
    s.sent x .fm false 0 = true →
    exec (.seedQuery x) s = .next (let s := s.taken
  let seq (b : Nat) : Nat := (look s.pwr.banks b).elim 0 fun k => k.seq
  s.okOut x (zeros 3 ++ toLe 1 s.pwr.fwBank ++ toLe 1 s.pwr.seedBank ++ zeros 2 ++ toLe 8 (seq 2) ++ toLe 8 (seq 3))))

/-- The events of the host ports, decoders and management endpoint have their effect. -/
def Obligations.HostPortsAct : Prop :=
  (∀ (s : State) (ld : Fin 64) (i : Fin 8) (base : Nat) (size : Nat) (k : _),
    ¬(!s.hostOpen ld) →
    spanOf base size = some k →
    s.spanSum (ld.val * 8 + i.val) + 2 ^ k ≤ 2 ^ 47 →
    exec (.hdmDecoderCommit ld i base size) s = .next (let key := ld.val * 8 + i.val
  s.awake.onSpc fun c => { c with windows := put c.windows key ⟨base, k⟩ })) ∧
  (∀ (s : State) (ld : Fin 64) (i : Fin 8) (base : Nat) (size : Nat) (k : _),
    ¬(!s.hostOpen ld) →
    spanOf base size = some k →
    ¬(s.spanSum (ld.val * 8 + i.val) + 2 ^ k ≤ 2 ^ 47) →
    exec (.hdmDecoderCommit ld i base size) s = .next ((s.awake.intr 0x100028 2).postFor [ld] 0x0103 [(1, ld), (1, i)])) ∧
  (∀ (s : State) (ld : Fin 64) (i : Fin 8) (base : Nat) (size : Nat),
    ¬(!s.hostOpen ld) →
    spanOf base size = none →
    exec (.hdmDecoderCommit ld i base size) s = .next ((s.awake.intr 0x100028 2).postFor [ld] 0x0103 [(1, ld), (1, i)])) ∧
  (∀ (s : State) (p : Fin 4),
    s.portUp p →
    exec (.hostLinkDown p) s = .next ((s.portOff p).portTry p)) ∧
  (∀ (s : State) (p : Fin 4),
    (s.setPort p { s.portH p with perst := true }).pwr.on →
    exec (.hpnPerstAssert p) s = .next (let s := s.setPort p { s.portH p with perst := true }
  s.portOff p)) ∧
  (∀ (s : State) (p : Fin 4),
    exec (.hpnPerstRelease p) s = .next ((s.setPort p { s.portH p with perst := false }).portTry p)) ∧
  (∀ (s : State) (p : Fin 4),
    exec (.hostCablePresent p) s = .next ((s.setPort p { s.portH p with cable := true }).portTry p)) ∧
  (∀ (s : State) (p : Fin 4),
    (s.setPort p { s.portH p with cable := false }).portUp p →
    exec (.hostCableRemoved p) s = .next (let s := s.setPort p { s.portH p with cable := false }
  s.portOff p)) ∧
  (∀ (s : State) (p : Fin 4),
    ¬((s.setPort p { s.portH p with cable := false }).portUp p) →
    exec (.hostCableRemoved p) s = .next (let s := s.setPort p { s.portH p with cable := false }
  s.portTry p)) ∧
  (∀ (s : State) (p : Fin 4) (width : Nat),
    ¬((s.portH p).st ≠ 1 ∨ ¬ (width = 4 ∨ width = 8 ∨ width = 16)) →
    exec (.hostLinkUp p width) s = .next (let x := s.portH p
  ((s.setPort p { x with st := 2, width := if s.pwr.state = 2 then 1 else width, trained := width }).post 0x0100 [(1, p), (1, width)]).rescaled s)) ∧
  (∀ (s : State) (p : Fin 4) (width : Nat),
    ¬((s.portH p).st ≠ 2 ∨ (s.portH p).width = width ∨ width > (s.portH p).trained ∨ ¬ (width = 1 ∨ width = 2 ∨ width = 4 ∨ width = 8 ∨ width = 16)) →
    exec (.l0pWidthChange p width) s = .next (s.hostWidth p width)) ∧
  (∀ (s : State) (eid : Byte),
    ¬(!s.sideband) →
    8 ≤ eid.toNat ∧ eid.toNat ≤ 254 →
    exec (.setEndpointId eid) s = .next ((s.onHost fun h => { h with eid := eid.toNat }).emit (.mctp 0 [0, eid, 0]))) ∧
  (∀ (s : State) (eid : Byte),
    ¬(!s.sideband) →
    ¬(8 ≤ eid.toNat ∧ eid.toNat ≤ 254) →
    exec (.setEndpointId eid) s = .next (s.emit (.mctp 2 []))) ∧
  (∀ (s : State) (binding : Fin 3) (_data : Bytes),
    ¬(!s.sideband || (binding.val == 2 && !((s.reg 0x100008).testBit 8 && s.portUp 0))) →
    s.host.mctp < 8 →
    exec (.mctpPacket binding _data) s = .next (s.onHost fun h => { h with mctp := h.mctp + 1 })) ∧
  (∀ (s : State) (binding : Fin 3) (_data : Bytes),
    ¬(!s.sideband || (binding.val == 2 && !((s.reg 0x100008).testBit 8 && s.portUp 0))) →
    ¬(s.host.mctp < 8) →
    exec (.mctpPacket binding _data) s = .next (((s.bump cntHp 3 1).intr 0x100028 3).post 0x0104 [])) ∧
  (∀ (s : State) (_data : Bytes),
    ¬(!s.sideband) →
    s.fmSession →
    exec (.getLdInfo _data) s = .next (s.drew.emit (.mctp rcSuccess ((List.range 8).map (fun i => Config.answerByte s.draws i) ++ toLe 2 64 ++ [Config.answerByte s.draws 8])))) ∧
  (∀ (s : State) (_data : Bytes),
    ¬(!s.sideband) →
    s.fmSession →
    exec (.getLdAllocations _data) s = .next (s.drew.emit (.mctp rcSuccess ((List.range (4 + 16 * 64)).map fun i => Config.answerByte s.draws i)))) ∧
  (∀ (s : State) (_data : Bytes),
    ¬(!s.sideband) →
    s.fmSession →
    exec (.getQosStatus _data) s = .next (s.drew.emit (.mctp rcSuccess ([Config.answerByte s.draws 0]))))

/-- A register write by a view that may write it changes the register by its own rule. -/
def Obligations.RegisterWritesAct : Prop :=
  (∀ (s : State) (off : Nat) (v : Word),
    s.viewOpen .fm = true →
    ownCommand off = false →
    exec (.registerWrite .fm off v) s = .next (s.regWrite none off v.toNat)) ∧
  (∀ (s : State) (off : Nat) (v : Word),
    s.viewOpen .core = true →
    ownCommand off = false →
    exec (.registerWrite .core off v) s = .next (s.regWrite none off v.toNat)) ∧
  (∀ (s : State) (m : Fin 64) (off : Nat) (v : Word),
    s.viewOpen (.ld m) = true →
    ownCommand off = false →
    ldWrites off = true →
    exec (.registerWrite (.ld m) off v) s = .next (s.regWrite (some m.val) off v.toNat)) ∧
  (∀ (s : State) (m : Fin 64) (off : Nat) (v : Word),
    ldWrites off = false →
    exec (.registerWrite (.ld m) off v) s = .next (s))

/-- Doze, Idle, throttling and the rail act where their conditions hold. -/
def Obligations.PowerEventsAct : Prop :=
  (∀ (s : State) (x : Mbx),
    s.sent x .fm false 5 = true →
    ¬((mb8 x 4) > 1) →
    ¬(s.taken.pwr.state = 4) →
    (let s := s.taken; let all := mb8 x 4; let s := if all = 1 then s.copyAll s.peers (.doze true) else s; ¬(s.pwr.state = 2)) →
    (let s := s.taken; let all := mb8 x 4; let s := if all = 1 then s.copyAll s.peers (.doze true) else s; s).bgBusy (mbWho x) = false →
    (let s := s.taken; let all := mb8 x 4; let s := if all = 1 then s.copyAll s.peers (.doze true) else s; ¬(s.pwr.state = 3)) →
    exec (.dozeEnter x) s = .next (let s := s.taken
  let all := mb8 x 4
  let s := if all = 1 then s.copyAll s.peers (.doze true) else s
  (s.startBg x 0xCB00).startDoze)) ∧
  (∀ (s : State) (k : Nat),
    s.pwr.dozeStep = some k →
    ¬(!s.dozeReady k) →
    s.pwr.dozeAbort →
    exec (.dozeEntryStepDone) s = .next (s.dozeAbandon)) ∧
  (∀ (s : State) (k : Nat),
    s.pwr.dozeStep = some k →
    ¬(!s.dozeReady k) →
    ¬(s.pwr.dozeAbort) →
    k = 1 →
    exec (.dozeEntryStepDone) s = .next ((s.dozeClose).dozeGo 2)) ∧
  (∀ (s : State) (k : Nat),
    s.pwr.dozeStep = some k →
    ¬(!s.dozeReady k) →
    ¬(s.pwr.dozeAbort) →
    ¬(k = 1) →
    k = 2 →
    exec (.dozeEntryStepDone) s = .next ((s.dozeDemote).dozeGo 3)) ∧
  (∀ (s : State) (k : Nat),
    s.pwr.dozeStep = some k →
    ¬(!s.dozeReady k) →
    ¬(s.pwr.dozeAbort) →
    ¬(k = 1) →
    ¬(k = 2) →
    k = 3 →
    exec (.dozeEntryStepDone) s = .next ((s.dozeDiscard.gather).dozeGo 4)) ∧
  (∀ (s : State) (k : Nat),
    s.pwr.dozeStep = some k →
    ¬(!s.dozeReady k) →
    ¬(s.pwr.dozeAbort) →
    ¬(k = 1) →
    ¬(k = 2) →
    ¬(k = 3) →
    k = 4 →
    exec (.dozeEntryStepDone) s = .next ((s.dozeMask).dozeGo 5)) ∧
  (∀ (s : State) (k : Nat),
    s.pwr.dozeStep = some k →
    ¬(!s.dozeReady k) →
    ¬(s.pwr.dozeAbort) →
    ¬(k = 1) →
    ¬(k = 2) →
    ¬(k = 3) →
    ¬(k = 4) →
    k = 5 →
    exec (.dozeEntryStepDone) s = .next ((s.portsNarrow).dozeGo 6)) ∧
  (∀ (s : State) (k : Nat),
    s.pwr.dozeStep = some k →
    ¬(!s.dozeReady k) →
    ¬(s.pwr.dozeAbort) →
    ¬(k = 1) →
    ¬(k = 2) →
    ¬(k = 3) →
    ¬(k = 4) →
    ¬(k = 5) →
    exec (.dozeEntryStepDone) s = .next (s.dozeIn)) ∧
  (∀ (s : State) (x : Mbx),
    s.sent x .fm false 5 = true →
    ¬(mb8 x 4 > 1) →
    (let s := s.taken; let s := if mb8 x 4 = 1 then s.copyAll s.peers (.doze false) else s; s.pwr.state ≤ 1) →
    exec (.dozeExit x) s = .next (let s := s.taken
  let s := if mb8 x 4 = 1 then s.copyAll s.peers (.doze false) else s
  s.status x 0)) ∧
  (∀ (s : State) (x : Mbx),
    s.sent x .fm false 5 = true →
    ¬(mb8 x 4 > 1) →
    (let s := s.taken; let s := if mb8 x 4 = 1 then s.copyAll s.peers (.doze false) else s; ¬(s.pwr.state ≤ 1)) →
    exec (.dozeExit x) s = .next (let s := s.taken
  let s := if mb8 x 4 = 1 then s.copyAll s.peers (.doze false) else s
  (s.dozeLeave).onPwr fun p => { p with exitReply := true })) ∧
  (∀ (s : State),
    ¬(s.pwr.state ≠ 4) →
    exec (.dozeExitDone) s = .next (let was := (List.range 96).filter fun n => (s.chan n).sref
  let s := s.each was fun s n => (s.setChan n fun c => { c with sref := false, lastTrain := s.now }).setReg (0xB00018 + 0x1000 * n) 0
  let s := (s.portsWide).onPwr fun p => { p with state := 0, lastActive := s.now }
  let s := ((s.dozeMark false).intr 0x1000028 1).post 0x0F02 []
  let s := if s.pwr.exitReply then (s.onPwr fun p => { p with exitReply := false }).emit (.mbox 64 rcSuccess [0]) else s
  s.serveHeld.retryMoves)) ∧
  (∀ (s : State),
    (let quiet := s.reqs.isEmpty && !(s.tlr.ctxs.any fun e => e.2.resident) && s.tier.moves.isEmpty && s.husk.bgWant.isEmpty && s.husk.slots.all (fun x => x.ph != .recoding) && s.integ.broom.isNone && !(s.integ.movers.any fun m => m.2.st == 1 || m.2.st == 2) && s.hdg.ports.all fun e => e.2.txq.isEmpty && e.2.part.isEmpty; s.serving && s.pwr.boot.isNone && s.pwr.state == 0 && quiet && decide (s.now ≥ s.pwr.lastActive + 1000 * s.fld 0x1000008 13 0)) →
    exec (.idleEntry) s = .next (s.onPwr fun p => { p with state := 1 })) ∧
  (∀ (s : State) (mv : Nat),
    ¬(!s.regulates) →
    s.pwr.state = 2 →
    exec (.railEvaluate mv) s = .next (s.onPwr fun p => { p with railMv := 660 })) ∧
  (∀ (s : State) (mv : Nat),
    ¬(!s.regulates) →
    ¬(s.pwr.state = 2) →
    660 ≤ mv ∧ mv ≤ 800 →
    exec (.railEvaluate mv) s = .next (s.onPwr fun p => { p with railMv := mv })) ∧
  (∀ (s : State) (inputW tj : Nat),
    ¬(!s.regulates) →
    (let calm := decide (20 * inputW < 19 * s.limit10) && decide (tj < 100); let s := s.onPwr fun p => { p with inputW := inputW, tj := tj, lastRaise := if calm then p.lastRaise else s.now }; (inputW > s.limit10 ∨ tj > 103) ∧ s.pwr.throttle > 8) →
    exec (.throttleSample inputW tj) s = .next (let calm := decide (20 * inputW < 19 * s.limit10) && decide (tj < 100)
  let s := s.onPwr fun p => { p with inputW := inputW, tj := tj, lastRaise := if calm then p.lastRaise else s.now }
  s.setThrottle (s.pwr.throttle - 1))) ∧
  (∀ (s : State) (inputW tj : Nat),
    ¬(!s.regulates) →
    (let calm := decide (20 * inputW < 19 * s.limit10) && decide (tj < 100); let s := s.onPwr fun p => { p with inputW := inputW, tj := tj, lastRaise := if calm then p.lastRaise else s.now }; ¬((inputW > s.limit10 ∨ tj > 103) ∧ s.pwr.throttle > 8)) →
    exec (.throttleSample inputW tj) s = .next (let calm := decide (20 * inputW < 19 * s.limit10) && decide (tj < 100)
  let s := s.onPwr fun p => { p with inputW := inputW, tj := tj, lastRaise := if calm then p.lastRaise else s.now }
  s)) ∧
  (∀ (s : State),
    s.regulates && decide (s.pwr.throttle < 16) && decide (20 * s.pwr.inputW < 19 * s.limit10) && decide (s.pwr.tj < 100) && decide (s.now ≥ s.pwr.lastRaise + 10 ^ 7) →
    exec (.throttleRaise) s = .next ((s.setThrottle (s.pwr.throttle + 1)).onPwr fun p => { p with lastRaise := s.now }))

/-- Power, pins and reset commands act where their conditions hold. -/
def Obligations.ResetsAct : Prop :=
  (∀ (s : State),
    exec (.thermalShutdown) s = .next (s.powerLoss)) ∧
  (∀ (s : State) (x : Mbx),
    ¬(mbFm x && s.sideband && s.pwr.boot.isSome) →
    s.sent x .fm false 0 = true →
    exec (.warmReset x) s = .next (let s := s.taken
  (s.status x 0).startWarm)) ∧
  (∀ (s : State) (x : Mbx),
    s.sent x .fm false 0 = true →
    exec (.moduleReset x) s = .next (let s := s.taken
  (s.status x 0).resetKind 1)) ∧
  (∀ (s : State) (x : Mbx),
    s.sent x .fm false 5 = true →
    ¬((mb8 x 4) ≥ 96) →
    ¬((s.taken.chan (mb8 x 4)).st = 2 ∨ (s.taken.chan (mb8 x 4)).st = 3) →
    ¬((s.taken.chan (mb8 x 4)).st = 1 ∨ (s.taken.chan (mb8 x 4)).st = 4) →
    exec (.channelReset x) s = .next (let s := s.taken
  let n := mb8 x 4
  let s : State := { s with regs := s.regs.filter fun e => !inDrc n e.1 }
  (s.setChan n fun c => { c with st := 4, attempts := 0, openRows := [], hits := [] }).status x 0)) ∧
  (∀ (s : State),
    s.sideband && s.pwr.boot.isNone && s.pwr.fit →
    exec (.mgmtWatchdogExpire) s = .next (s.startWarm)) ∧
  (∀ (s : State),
    ¬(s.pwr.pwrgd) →
    (let s := s.onPwr fun p => { p with pwrgd := true, inputOk := true }; s.pwr.flush.isSome) →
    exec (.modPwrgdRise) s = .next (let s := s.onPwr fun p => { p with pwrgd := true, inputOk := true }
  s.onPwr fun p => { p with rose := true })) ∧
  (∀ (s : State),
    ¬(s.pwr.pwrgd) →
    (let s := s.onPwr fun p => { p with pwrgd := true, inputOk := true }; ¬(s.pwr.flush.isSome)) →
    exec (.modPwrgdRise) s = .next (let s := s.onPwr fun p => { p with pwrgd := true, inputOk := true }
  s.resetKind 0)) ∧
  (∀ (s : State),
    exec (.modPwrgdFall) s = .next ((s.onPwr fun p => { p with pwrgd := false, rose := false }).powerLoss)) ∧
  (∀ (s : State),
    exec (.inputUndervoltage) s = .next ((s.onPwr fun p => { p with inputOk := false }).powerLoss)) ∧
  (∀ (s : State),
    ¬(s.pwr.flush.isNone) →
    (let s := s.onFar fun f => { f with jrnlDone := f.jrnlNext - 1 }; let s := s.each s.gaspRecs fun s r => s.putArchive r; let rose := s.pwr.rose; rose) →
    exec (.powerLossFlushDone) s = .next (let s := s.onFar fun f => { f with jrnlDone := f.jrnlNext - 1 }
  let s := s.each s.gaspRecs fun s r => s.putArchive r
  let s := (s.wipe).onPwr fun p => { p with on := false }
  s.resetKind 0)) ∧
  (∀ (s : State),
    ¬(s.pwr.flush.isNone) →
    (let s := s.onFar fun f => { f with jrnlDone := f.jrnlNext - 1 }; let s := s.each s.gaspRecs fun s r => s.putArchive r; let rose := s.pwr.rose; ¬(rose)) →
    exec (.powerLossFlushDone) s = .next (let s := s.onFar fun f => { f with jrnlDone := f.jrnlNext - 1 }
  let s := s.each s.gaspRecs fun s r => s.putArchive r
  let s := (s.wipe).onPwr fun p => { p with on := false }
  s)) ∧
  (∀ (s : State),
    ¬(s.pwr.inputOk || s.pwr.flush.isSome) →
    (let s := s.onPwr fun p => { p with inputOk := true }; s.pwr.pwrgd && !s.pwr.on) →
    exec (.inputReturnStable) s = .next (let s := s.onPwr fun p => { p with inputOk := true }
  s.resetKind 0)) ∧
  (∀ (s : State),
    ¬(s.pwr.inputOk || s.pwr.flush.isSome) →
    (let s := s.onPwr fun p => { p with inputOk := true }; ¬(s.pwr.pwrgd && !s.pwr.on)) →
    exec (.inputReturnStable) s = .next (let s := s.onPwr fun p => { p with inputOk := true }
  s)) ∧
  (∀ (s : State),
    ¬(!s.pwr.resetN) →
    (let s := s.onPwr fun p => { p with resetN := false }; s.pwr.pwrgd && s.pwr.on && s.pwr.flush.isNone) →
    exec (.modResetAssert) s = .next (let s := s.onPwr fun p => { p with resetN := false }
  s.resetKind 1)) ∧
  (∀ (s : State),
    ¬(s.pwr.resetN) →
    (let s := s.onPwr fun p => { p with resetN := true }; s.pwr.on && s.pwr.flush.isNone) →
    exec (.modResetRelease) s = .next (let s := s.onPwr fun p => { p with resetN := true }
  s.startBoot s.pwr.last)) ∧
  (∀ (s : State) (ms : Nat) (ok : Bool) (k : Nat),
    s.pwr.boot = some k →
    s.pwr.last = 2 →
    exec (.bootStepDone ms ok) s = .next (s.warmStep k)) ∧
  (∀ (s : State) (ms : Nat) (ok : Bool) (k : Nat),
    s.pwr.boot = some k →
    ¬(s.pwr.last = 2) →
    exec (.bootStepDone ms ok) s = .next (s.bootStep k ms ok)) ∧
  (∀ (s : State),
    ¬(s.host.refLostAt.isSome || !s.sideband) →
    exec (.refclkLoss) s = .next (((s.onHost fun h => { h with locked := false, refLostAt := some s.now }).intr 0x1100028 0).post 0x1001 [])) ∧
  (∀ (s : State) (t : Nat),
    s.host.refLostAt = some t →
    s.sideband && decide (s.now ≥ t + 10 ^ 7) →
    exec (.refclkLossReset) s = .next (s.resetKind 1)) ∧
  (∀ (s : State),
    ¬(s.host.locked || !s.sideband) →
    exec (.referenceLock) s = .next ((s.onHost fun h => { h with locked := true, refLostAt := none }).post 0x1000 [])) ∧
  (∀ (s : State) (p : Fin 6) (mw : Nat),
    ¬(!s.pwr.on || !s.pwr.resetN || s.pwr.flush.isSome) →
    mw > 4000 →
    exec (.hedgerowCageInsert p mw) s = .next ((s.setHport p { HPort.blank with off := true }).post 0x0202 [(1, p), (1, 0)])) ∧
  (∀ (s : State) (p : Fin 6) (mw : Nat),
    ¬(!s.pwr.on || !s.pwr.resetN || s.pwr.flush.isSome) →
    ¬(mw > 4000) →
    exec (.hedgerowCageInsert p mw) s = .next ((s.setHport p { s.hport p with off := false }).trainPort p)) ∧
  (∀ (s : State) (p : Fin 6) (lanes : Nat) (spaceId : Nat) (nmod : Fin 64) (nport : Fin 6),
    ¬((s.hport p).st ≠ 1) →
    (s.trainedWidth (s.hport p) lanes) = 0 →
    exec (.hedgerowPortUp p lanes spaceId nmod nport) s = .next (s.portDown p)) ∧
  (∀ (s : State) (p : Fin 6) (lanes : Nat) (spaceId : Nat) (nmod : Fin 64) (nport : Fin 6),
    ¬((s.hport p).st ≠ 1) →
    ¬((s.trainedWidth (s.hport p) lanes) = 0) →
    spaceId ≠ s.hdg.spaceId →
    exec (.hedgerowPortUp p lanes spaceId nmod nport) s = .next (let x := s.hport p
  let w := s.trainedWidth x lanes
  s.setHport p { HPort.blank with want := x.want, off := x.off, st := 3, width := w, nport := nport, nmod := nmod })) ∧
  (∀ (s : State) (p : Fin 6) (lanes : Nat) (spaceId : Nat) (nmod : Fin 64) (nport : Fin 6),
    ¬((s.hport p).st ≠ 1) →
    ¬((s.trainedWidth (s.hport p) lanes) = 0) →
    ¬(spaceId ≠ s.hdg.spaceId) →
    (let x := s.hport p; let w := s.trainedWidth x lanes; let s := s.setHport p { x with st := 2, width := w, weight := lanesOf w * 256, nport := nport, nmod := nmod, lastRx := s.now, fails := 0, resend := x.replay.map fun e => e.1, txBytes := [], rxBytes := [], rxLost := false, txPos := roundUp x.txPos 256, rxPos := roundUp x.rxPos 256 }; let s := if w = 3 then s else (s.intr 0x200028 1).post 0x0202 [(1, p), (1, lanesOf w)]; s.hdg.bench || !s.hdg.formed) →
    exec (.hedgerowPortUp p lanes spaceId nmod nport) s = .next (let x := s.hport p
  let w := s.trainedWidth x lanes
  let s := s.setHport p { x with st := 2, width := w, weight := lanesOf w * 256, nport := nport, nmod := nmod, lastRx := s.now, fails := 0, resend := x.replay.map fun e => e.1, txBytes := [], rxBytes := [], rxLost := false, txPos := roundUp x.txPos 256, rxPos := roundUp x.rxPos 256 }
  let s := if w = 3 then s else (s.intr 0x200028 1).post 0x0202 [(1, p), (1, lanesOf w)]
  s)) ∧
  (∀ (s : State) (p : Fin 6) (lanes : Nat) (spaceId : Nat) (nmod : Fin 64) (nport : Fin 6),
    ¬((s.hport p).st ≠ 1) →
    ¬((s.trainedWidth (s.hport p) lanes) = 0) →
    ¬(spaceId ≠ s.hdg.spaceId) →
    (let x := s.hport p; let w := s.trainedWidth x lanes; let s := s.setHport p { x with st := 2, width := w, weight := lanesOf w * 256, nport := nport, nmod := nmod, lastRx := s.now, fails := 0, resend := x.replay.map fun e => e.1, txBytes := [], rxBytes := [], rxLost := false, txPos := roundUp x.txPos 256, rxPos := roundUp x.rxPos 256 }; let s := if w = 3 then s else (s.intr 0x200028 1).post 0x0202 [(1, p), (1, lanesOf w)]; ¬(s.hdg.bench || !s.hdg.formed)) →
    exec (.hedgerowPortUp p lanes spaceId nmod nport) s = .next (let x := s.hport p
  let w := s.trainedWidth x lanes
  let s := s.setHport p { x with st := 2, width := w, weight := lanesOf w * 256, nport := nport, nmod := nmod, lastRx := s.now, fails := 0, resend := x.replay.map fun e => e.1, txBytes := [], rxBytes := [], rxLost := false, txPos := roundUp x.txPos 256, rxPos := roundUp x.rxPos 256 }
  let s := if w = 3 then s else (s.intr 0x200028 1).post 0x0202 [(1, p), (1, lanesOf w)]
  let gone : Nat × Nat → Bool := fun l => l == (s.me, p.val) || l == (nmod.val, nport.val)
  (s.onHdg fun h => { h with linksDown := h.linksDown.filter fun l => !gone l }).emit (.memb (.link s.me p true))))

/-- A step runs the command at the front of the queue; with an empty queue one nanosecond passes and the waiting work goes on (log entry 2). -/
def Obligations.StepRunsTheFrontCommand : Prop :=
  (∀ (c : Instr) (rest : List Instr) (s : State), s.pending = c :: rest → step s = exec c { s with pending := rest }) ∧
  (∀ s : State, s.pending = [] → step s = .next s.tick.drainLanes.diesGo.lanesGo.recodesGo.trainsGo.buildGo.fetchesGo.moveCtxs.keysGo.rolesGo ∧
    s.tick.now = s.now + 1)

/-- Every command answers a next state but two, on a chunk outside the near tier, and no command is refused. -/
def Obligations.EveryCommandGoesOn : Prop :=
  ∀ (i : Instr) (s : State),
    (∃ t, exec i s = .next t) ∨
    (exec i s = .fault .nearAddressAbsent ∧
      ((∃ (n : Fin 96) (k : Nat), i = .parityDeltaApply n k ∧ s.chanChunks ≤ k) ∨
       (∃ (n : Fin 96) (k : Nat), i = .stripeReconstruct n k ∧ s.chanChunks ≤ k)))

/-- Right after reset the stored data stand in canonical forms and the registers read their reset values. -/
def Obligations.ResetState : Prop :=
  State.reset.canonical = true ∧ State.reset.now = 2 ^ 40 ∧ State.reset.viewRead .fm 0x1100000 = 2 ^ 40 ∧
    State.reset.pending = [] ∧ State.reset.out = [] ∧ State.reset.reqs = [] ∧
    ∀ e ∈ [(0x0, 0x840101), (0x100008, 0x15C), (0x200008, 0xA0005), (0x300008, 0x1E07D00000), (0x500000, 0x100040314),
       (0x500010, 0x1003E800138810), (0x600008, 0xA0FA07D000000), (0x600010, 0x290014), (0x700008, 0x6464186A0A06018),
       (0x700010, 0xE100096), (0x980000, 0x410008060), (0x980008, 0x14040000000000), (0xA00008, 0x3),
       (0xA00050, 0x301000000000000), (0xA00200, 0x100010001000), (0xA00400, 0xFAC688), (0xB80008, 0x503E8),
       (0xC00008, 0x10000000003), (0xE00000, 0x1003F22400), (0xE01008, 0xA000001), (0xF00100, 0x1000000064),
       (0x1000008, 0x1A464000000064)],
      State.reset.viewRead .fm e.1 = e.2

/-- Every step keeps the canonical forms of near-tier lines, far-tier chunks and parity, and held registers. -/
def Obligations.StepKeepsTheForms : Prop :=
  ∀ s t : State, s.canonical = true → step s = .next t → t.canonical = true

/-- A message's header and data are read back from its bytes with every field at every value. -/
def Obligations.HeaderRoundTrip : Prop :=
  ∀ (op dirs : Nat) (m : Msg) (n : Nat), op < 256 → dirs < 8 → m.holder < 4096 → m.tag < 65536 → m.cxl < 4 → m.synd < 256 → m.addr < 2 ^ 50 →
    m.data.length = 32 * n → n < 256 →
    msgOf (msgBytes op dirs m) = m ∧ headOp (msgBytes op dirs m) = op ∧ headDirs (msgBytes op dirs m) = dirs ∧ headLen (msgBytes op dirs m) = n ∧
      (msgBytes op dirs m).length = 16 + 32 * n

/-- In bench mode a message is discarded and counted; in a space one for another module is forwarded and counted. -/
def Obligations.BenchDiscardsAndOthersForward : Prop :=
  ∀ (m : Msg) (o : MOp) (i : Instr) (s : State),
    (o, i) ∈ [(.rd, .msgRd m), (.wr, .msgWr m), (.wrp, .msgWrp m), (.atom, .msgAtom m), (.place, .msgPlace m), (.snpinv, .msgSnpinv m),
        (.snpdata, .msgSnpdata m), (.snpcur, .msgSnpcur m), (.data, .msgData m), (.cmp, .msgCmp m), (.birsp, .msgBirsp m),
        (.wbk, .msgWbk m), (.mirror, .msgMirror m), (.close, .msgClose m), (.jack, .msgJack m), (.gasp, .msgGasp m),
        (.mack, .msgMack m)] →
    (s.hdg.bench = true → exec i s = .next (s.bump cntHdg 3 1)) ∧
    (s.hdg.bench = false → m.dst.val ≠ s.me → exec i s = .next ((s.emit (.msg o m)).bump cntHdg 4 1))

/-- A command that only the fabric manager may issue is refused to an LD, and has no effect but its count. -/
def Obligations.OnlyTheFabricManager : Prop :=
  ∀ (x : Mbx) (i : Instr) (s : State), s.reaches x = true → mbFm x = false →
    (i ∈ [.dirQuery x, .farWearQuery x, .farDieRetire x, .tableLoad x, .tablePublish x, .tableBind x, .tableRetire x, .tableQuery x,
        .broomStart x, .broomQuery x, .leaseRevoke x, .accountSet x, .accountQuery x, .accountBindRemove x, .formQuery x,
        .formAdopt x, .witnessForce x, .linkRetrain x, .resyncQuery x, .moduleReset x, .channelReset x, .seedQuery x,
        .qosClassSet x, .qosReserve x, .extentRespread x, .retire x, .chaffQuery x, .keyQuery x, .accountErase x, .spaceKeyRoll x,
        .ctxCancel x, .policyActivate x, .stkRead x, .gaspRead x, .dozeEnter x, .dozeExit x, .accountBindAdd x, .freeze x,
        .freezeThaw x, .seedWrite x, .seedWriteEnd x] →
      exec i s = .next (s.taken.status x 8)) ∧
    (i ∈ [.setTimestamp x, .transferFw x, .activateFw x] → exec i s = .next (s.taken.reply x rcUnsupported []))

/-- A lease or key command outside a session is refused with status 0x08 and counted, and has no other effect. -/
def Obligations.PlainCommandsAreRefused : Prop :=
  ∀ (x : Mbx) (i : Instr) (s : State), s.reaches x = true → s.inSession x = false →
    (mbFm x = false ∧ i ∈ [.leaseGrant x, .leaseRenew x, .leaseRelease x, .leaseAttach x]) ∨
    (mbFm x = true ∧ i ∈ [.leaseRevoke x, .accountSet x, .accountBindAdd x, .accountBindRemove x, .extentRespread x, .keyQuery x, .accountErase x,
        .spaceKeyRoll x]) →
    exec i s = .next ((s.taken.bump cntSec 3 1).status x 8)

/-- A Ralath instruction that touches registers alone changes its own context and nothing else, or traps. -/
def Obligations.RegisterInstructionsChangeTheirContext : Prop :=
  ∀ (c : Fin 4096) (i : Instr) (s : State) (x : Ctx) (w : Word),
    i ∈ [.br c, .brc c, .ret c, .yield c, .trap c, .add c, .sub c, .mul c, .mulh c, .and c, .or c, .xor c, .shl c, .shr c, .sar c,
        .min c, .max c, .cmp c, .li c, .topkIns c, .topkDrain c, .mma c, .tzero c, .tstore c, .vld c, .vst c, .vadd c, .vmul c,
        .vmac c, .vmax c, .vdot c, .vred c, .vscale c, .vcvt c] →
    s.issues c x w = true →
    exec i s = .next s ∨
    (∃ y, exec i s = .next { s with tlr := { s.tlr with ctxs := put s.tlr.ctxs c y, turns := put s.tlr.turns x.tiller c } }) ∨
    (∃ k d a, exec i s = .next ((s.ctxTrap c x x.pc k d a false).took c x.tiller))

/-- A command that asks changes no memory, map, lease, queue or context: it counts, ends Idle, draws and answers. -/
def Obligations.QueriesOnlyAnswer : Prop :=
  ∀ (x : Mbx) (i : Instr) (s : State),
    i ∈ [.leaseQuery x, .accountQuery x, .dirQuery x, .tableQuery x, .streamQuery x, .farWearQuery x, .sheafQuery x, .formQuery x,
        .resyncQuery x, .qosQuery x, .broomQuery x, .chaffQuery x, .keyQuery x, .seedQuery x, .getTimestamp x, .identify x,
        .getHealthInfo x, .getFwInfo x, .getSupportedLogs x, .getLog x, .identifyMemoryDevice x, .backgroundOperationStatus x,
        .getEventRecords x, .getPoisonList x, .stkRead x, .gaspRead x] →
    ∃ regs pwr draws new, exec i s = .next { s with regs := regs, pwr := pwr, draws := draws, out := s.out ++ new }

/-- An offset that holds no register in a view reads as zero, and a write to it is ignored. -/
def Obligations.OffsetsWithoutARegister : Prop :=
  ∀ (s : State) (v : View) (off : Nat) (d : Word),
    (s.viewHolds v off = true → ∃ r ∈ regTable, r.covers off = true) ∧
    (v = .fm ∨ v = .core → (s.viewHolds v off = true ↔ ∃ r ∈ regTable, r.covers off = true)) ∧
    (s.viewHolds v off = false → s.viewRead v off = 0 ∧ exec (.registerWrite v off d) s = .next s) ∧
    (0x1200000 ≤ off → off ≤ 0x3FFFFF8 → s.viewHolds v off = false)

/-- CALL beyond 16 entries and RET with an empty call stack trap with cause 0x02. -/
def Obligations.CallStackTraps : Prop :=
  (∀ (s : State) (c : Fin 4096) (x : Ctx) (w : Word), s.issues c x w = true → majorOf w = 0x2A → onlyBits w (cHead + cImm) = true →
    x.guard w = true → 16 ≤ x.calls.length → exec (.call c) s = .next ((s.ctxTrap c x x.pc 0x02 0 0 false).took c x.tiller)) ∧
  (∀ (s : State) (c : Fin 4096) (x : Ctx) (w : Word), s.issues c x w = true → majorOf w = 0x2B → onlyBits w cHead = true →
    x.guard w = true → x.calls = [] → exec (.ret c) s = .next ((s.ctxTrap c x x.pc 0x02 0 0 false).took c x.tiller))

/-- SIGNAL appends CTXID and payload to its tiller's queue and raises its source; with a full queue it waits. -/
def Obligations.SignalQueues : Prop :=
  ∀ (s : State) (c : Fin 4096) (x : Ctx) (w : Word), s.issues c x w = true → majorOf w = 0x30 → onlyBits w (cHead + bm 49 45) = true →
    x.guard w = true →
    ((s.tiller x.tiller).sig.length < 16 → x.tiller < 96 → ∃ t, exec (.signal c) s = .next t ∧
      (t.tiller x.tiller).sig = (s.tiller x.tiller).sig ++ [(s.ctxId c x, x.sreg (cSa w))] ∧ look t.tlr.ctxs c = some x.advance ∧
      t.level (512 + 2 * x.tiller) = true) ∧
    (16 ≤ (s.tiller x.tiller).sig.length → exec (.signal c) s = .next (s.took c x.tiller))

/-- A write to a window's lease page renews the ACTIVE lease in it, and is ignored where there is none. -/
def Obligations.HeartbeatsRenew : Prop :=
  ∀ (s : State) (ld : Fin 64) (w : Fin 8) (off : Fin 512) (v : Word), s.hostOpen ld = true →
    (∀ (h : Nat) (l : Lease), s.leaseAt ld w = some (h, l) → l.st = .active → s.now < l.deadline →
      exec (.spcHbWrite ld w off v) s = .next (s.setLease h (some { l with deadline := s.now + l.dur * 10 ^ 9, quarter := false }))) ∧
    ((∀ (h : Nat) (l : Lease), s.leaseAt ld w = some (h, l) → l.st ≠ .active) → exec (.spcHbWrite ld w off v) s = .next s)

/-- A completion of another source is ignored, counted and posted; a threshold write replaces the top threshold alone. -/
def Obligations.CompletesAndThresholds : Prop :=
  (∀ (s : State) (view : View) (t : Fin 68) (v : Word), s.viewOpen view = true → seesTarget view t = true →
    ((s.stackOf t).head?).map Prod.snd ≠ some (v.toNat % 1024) →
    exec (.esuCompleteWrite view t v) s = .next (((s.bump cntEsu 1 1).intr 0xE00028 1).post 0x0D00 [(1, t.val), (2, v.toNat % 1024)])) ∧
  (∀ (s : State) (view : View) (t : Fin 68) (v : Word), s.viewOpen view = true → seesTarget view t = true →
    ∃ u, exec (.esuThreshWrite view t v) s = .next u ∧ u.thresh t = v.toNat % 16 ∧ u.esu.stack = s.esu.stack ∧
      ∀ k, k ≠ t.val → u.thresh k = s.thresh k)
end

