-- ==== Sys2Proof/Laws/Bytes.lean ====
section
/-! SUPPORT. Little-endian bytes: what a number written as bytes reads as, and how long its bytes are. -/

namespace Sys2Proof.Machine

open Sys2Proof

@[simp] theorem toLe_length (n v : Nat) : (toLe n v).length = n := by
  induction n generalizing v with
  | zero => rfl
  | succ n ih => simp [toLe, ih]

@[simp] theorem zeros_length (n : Nat) : (zeros n).length = n := by simp [zeros]

@[simp] theorem fit_length (n : Nat) (d : Bytes) : (fit n d).length = n := by simp [fit]

/-- A run that has the length already is left as it is. -/
theorem fit_self {n : Nat} {d : Bytes} (h : d.length = n) : fit n d = d := by simp [fit, ← h]

/-- A number written as n bytes reads as its low 8n bits. -/
theorem le_toLe (n v : Nat) : le (toLe n v) = v % 256 ^ n := by
  induction n generalizing v with
  | zero => simp [toLe, le, Nat.mod_one]
  | succ n ih =>
    simp only [toLe, le, ih, BitVec.toNat_ofNat]
    rw [show (256 : Nat) ^ (n + 1) = 256 * 256 ^ n from by rw [Nat.pow_succ, Nat.mul_comm], Nat.mod_mul]

/-- The first bytes of a run that begins with a number. -/
theorem leAt_toLe (n v : Nat) (d : Bytes) : leAt (toLe n v ++ d) 0 n = v % 256 ^ n := by
  unfold leAt
  rw [List.drop_zero, List.take_append_of_le_length (by simp), List.take_of_length_le (by simp), le_toLe]

/-- Bits of a number as a quotient and a remainder. -/
theorem bits_div (w hi lo : Nat) : bits w hi lo = w / 2 ^ lo % 2 ^ (hi + 1 - lo) := by simp [bits, Nat.shiftRight_eq_div_pow]

end Sys2Proof.Machine
end

