-- ==== Sys2Proof/Laws/FMap.lean ====
section
/-! SUPPORT. The sparse maps: what a look-up finds after a write or an erasure, and that every map operation keeps the canonical form. -/

namespace Sys2Proof.Machine

open Sys2Proof

variable {α : Type}

/-! ## Look up after write and erasure -/

@[simp] theorem look_put_same (m : FMap α) (k : Nat) (v : α) : look (put m k v) k = some v := by
  induction m with
  | nil => simp [put, look]
  | cons e t ih =>
    obtain ⟨a, w⟩ := e
    simp only [put]
    split_ifs with h h'
    · simp [look]
    · simp [look]
    · simp [look, h', ih]

@[simp] theorem look_put_other (m : FMap α) {k j : Nat} (v : α) (h : j ≠ k) : look (put m k v) j = look m j := by
  induction m with
  | nil => simp [put, look, Ne.symm h]
  | cons e t ih =>
    obtain ⟨a, w⟩ := e
    simp only [put]
    split_ifs with h1 h2
    · simp [look, Ne.symm h]
    · subst h2; simp [look, Ne.symm h]
    · simp [look, ih]

theorem look_put (m : FMap α) (k j : Nat) (v : α) : look (put m k v) j = if j = k then some v else look m j := by
  split_ifs with h
  · subst h; simp
  · simp [h]

@[simp] theorem look_del_other (m : FMap α) {k j : Nat} (h : j ≠ k) : look (del m k) j = look m j := by
  induction m with
  | nil => simp [del]
  | cons e t ih =>
    obtain ⟨a, w⟩ := e
    simp only [del]
    split_ifs with h2
    · subst h2; simp [look, Ne.symm h]
    · simp [look, ih]

@[simp] theorem look_upd_other (m : FMap α) {k j : Nat} (f : α → α) (h : j ≠ k) : look (upd m k f) j = look m j := by
  unfold upd
  split <;> simp [h]

@[simp] theorem look_upd_same (m : FMap α) (k : Nat) (f : α → α) : look (upd m k f) k = (look m k).map f := by
  unfold upd
  split <;> simp_all

/-! ## The canonical form -/

theorem risingFrom_mono {b c : Nat} {m : FMap α} (h : b ≤ c) (hm : risingFrom c m = true) : risingFrom b m = true := by
  cases m with
  | nil => rfl
  | cons e t =>
    obtain ⟨a, v⟩ := e
    simp only [risingFrom, Bool.and_eq_true, decide_eq_true_eq] at hm ⊢
    exact ⟨le_trans h hm.1, hm.2⟩

/-- A key below the bound of a rising map is not listed. -/
theorem look_none_of_rising {m : FMap α} {b k : Nat} (hm : risingFrom b m = true) (h : k < b) : look m k = none := by
  induction m generalizing b with
  | nil => rfl
  | cons e t ih =>
    obtain ⟨a, v⟩ := e
    simp only [risingFrom, Bool.and_eq_true, decide_eq_true_eq] at hm
    have h1 : a ≠ k := by omega
    simp only [look, h1, if_false]
    exact ih hm.2 (by omega)

theorem risingFrom_put {m : FMap α} {b k : Nat} {v : α} (hm : risingFrom b m = true) (h : b ≤ k) : risingFrom b (put m k v) = true := by
  induction m generalizing b with
  | nil => simp [put, risingFrom, h]
  | cons e t ih =>
    obtain ⟨a, w⟩ := e
    simp only [risingFrom, Bool.and_eq_true, decide_eq_true_eq] at hm
    simp only [put]
    split_ifs with h1 h2
    · simp only [risingFrom, Bool.and_eq_true, decide_eq_true_eq]
      exact ⟨h, by omega, hm.2⟩
    · subst h2
      simp only [risingFrom, Bool.and_eq_true, decide_eq_true_eq]
      exact ⟨h, hm.2⟩
    · simp only [risingFrom, Bool.and_eq_true, decide_eq_true_eq]
      exact ⟨hm.1, ih hm.2 (by omega)⟩

theorem risingFrom_del {m : FMap α} {b k : Nat} (hm : risingFrom b m = true) : risingFrom b (del m k) = true := by
  induction m generalizing b with
  | nil => rfl
  | cons e t ih =>
    obtain ⟨a, w⟩ := e
    simp only [risingFrom, Bool.and_eq_true, decide_eq_true_eq] at hm
    simp only [del]
    split_ifs with h1
    · exact risingFrom_mono (by omega) hm.2
    · simp only [risingFrom, Bool.and_eq_true, decide_eq_true_eq]
      exact ⟨hm.1, ih hm.2⟩

theorem risingFrom_filter {m : FMap α} {b : Nat} (p : Nat × α → Bool) (hm : risingFrom b m = true) : risingFrom b (m.filter p) = true := by
  induction m generalizing b with
  | nil => rfl
  | cons e t ih =>
    obtain ⟨a, w⟩ := e
    simp only [risingFrom, Bool.and_eq_true, decide_eq_true_eq] at hm
    simp only [List.filter_cons]
    split_ifs
    · simp only [risingFrom, Bool.and_eq_true, decide_eq_true_eq]
      exact ⟨hm.1, ih hm.2⟩
    · exact risingFrom_mono (by omega) (ih hm.2)

@[simp] theorem rising_nil : rising ([] : FMap α) = true := rfl
theorem rising_put {m : FMap α} (k : Nat) (v : α) (hm : rising m = true) : rising (put m k v) = true := risingFrom_put hm (Nat.zero_le _)
theorem rising_del {m : FMap α} (k : Nat) (hm : rising m = true) : rising (del m k) = true := risingFrom_del hm
theorem rising_filter {m : FMap α} (p : Nat × α → Bool) (hm : rising m = true) : rising (m.filter p) = true := risingFrom_filter p hm

theorem rising_upd {m : FMap α} (k : Nat) (f : α → α) (hm : rising m = true) : rising (upd m k f) = true := by
  unfold upd
  split
  · exact rising_put _ _ hm
  · exact hm

theorem rising_putOpt {m : FMap α} (k : Nat) (v : Option α) (hm : rising m = true) : rising (putOpt m k v) = true := by
  cases v with
  | none => exact rising_del _ hm
  | some v => exact rising_put _ _ hm

/-- In a rising map the erased key is gone. -/
theorem look_del_same {m : FMap α} (k : Nat) (hm : rising m = true) : look (del m k) k = none := by
  suffices h : ∀ b, risingFrom b m = true → look (del m k) k = none from h 0 hm
  clear hm
  induction m with
  | nil => intro _ _; rfl
  | cons e t ih =>
    obtain ⟨a, w⟩ := e
    intro b hm
    simp only [risingFrom, Bool.and_eq_true, decide_eq_true_eq] at hm
    simp only [del]
    split_ifs with h1
    · subst h1; exact look_none_of_rising hm.2 (by omega)
    · simp only [look, h1, if_false]
      exact ih _ hm.2

/-- Every entry of a map that is put, erased or filtered was there or is the one that is written. -/
theorem all_put {m : FMap α} {p : Nat × α → Bool} (k : Nat) (v : α) (hm : m.all p = true) (hv : p (k, v) = true) : (put m k v).all p = true := by
  induction m with
  | nil => simp [put, hv]
  | cons e t ih =>
    obtain ⟨a, w⟩ := e
    simp only [List.all_cons, Bool.and_eq_true] at hm
    simp only [put]
    split_ifs with h1 h2
    · simp [hv, hm.1, hm.2]
    · simp [hv, hm.2]
    · simp [hm.1, ih hm.2]

theorem all_del {m : FMap α} {p : Nat × α → Bool} (k : Nat) (hm : m.all p = true) : (del m k).all p = true := by
  induction m with
  | nil => rfl
  | cons e t ih =>
    obtain ⟨a, w⟩ := e
    simp only [List.all_cons, Bool.and_eq_true] at hm
    simp only [del]
    split_ifs with h1
    · exact hm.2
    · simp [hm.1, ih hm.2]

theorem all_filter {m : FMap α} {p : Nat × α → Bool} (q : Nat × α → Bool) (hm : m.all p = true) : (m.filter q).all p = true := by
  rw [List.all_eq_true] at hm ⊢
  intro e he
  exact hm e (List.mem_filter.mp he).1

end Sys2Proof.Machine
end

