-- ==== Sys2Proof/Laws/State.lean ====
section
/-! SUPPORT. What the plain updates of the state change and what they leave: one lemma per update and field, true by unfolding. -/

namespace Sys2Proof.Machine

open Sys2Proof

variable (s : State)

/-! ## Change of the spc block -/

@[simp] theorem State.onSpc_sku (g : Spc → Spc) : (s.onSpc g).sku = s.sku := rfl
@[simp] theorem State.onSpc_regs (g : Spc → Spc) : (s.onSpc g).regs = s.regs := rfl
@[simp] theorem State.onSpc_now (g : Spc → Spc) : (s.onSpc g).now = s.now := rfl
@[simp] theorem State.onSpc_draws (g : Spc → Spc) : (s.onSpc g).draws = s.draws := rfl
@[simp] theorem State.onSpc_spc (g : Spc → Spc) : (s.onSpc g).spc = g s.spc := rfl
@[simp] theorem State.onSpc_dir (g : Spc → Spc) : (s.onSpc g).dir = s.dir := rfl
@[simp] theorem State.onSpc_husk (g : Spc → Spc) : (s.onSpc g).husk = s.husk := rfl
@[simp] theorem State.onSpc_tier (g : Spc → Spc) : (s.onSpc g).tier = s.tier := rfl
@[simp] theorem State.onSpc_near (g : Spc → Spc) : (s.onSpc g).near = s.near := rfl
@[simp] theorem State.onSpc_far (g : Spc → Spc) : (s.onSpc g).far = s.far := rfl
@[simp] theorem State.onSpc_tlr (g : Spc → Spc) : (s.onSpc g).tlr = s.tlr := rfl
@[simp] theorem State.onSpc_hdg (g : Spc → Spc) : (s.onSpc g).hdg = s.hdg := rfl
@[simp] theorem State.onSpc_qos (g : Spc → Spc) : (s.onSpc g).qos = s.qos := rfl
@[simp] theorem State.onSpc_integ (g : Spc → Spc) : (s.onSpc g).integ = s.integ := rfl
@[simp] theorem State.onSpc_sec (g : Spc → Spc) : (s.onSpc g).sec = s.sec := rfl
@[simp] theorem State.onSpc_esu (g : Spc → Spc) : (s.onSpc g).esu = s.esu := rfl
@[simp] theorem State.onSpc_stk (g : Spc → Spc) : (s.onSpc g).stk = s.stk := rfl
@[simp] theorem State.onSpc_host (g : Spc → Spc) : (s.onSpc g).host = s.host := rfl
@[simp] theorem State.onSpc_pwr (g : Spc → Spc) : (s.onSpc g).pwr = s.pwr := rfl
@[simp] theorem State.onSpc_reqs (g : Spc → Spc) : (s.onSpc g).reqs = s.reqs := rfl
@[simp] theorem State.onSpc_nextId (g : Spc → Spc) : (s.onSpc g).nextId = s.nextId := rfl
@[simp] theorem State.onSpc_out (g : Spc → Spc) : (s.onSpc g).out = s.out := rfl
@[simp] theorem State.onSpc_pending (g : Spc → Spc) : (s.onSpc g).pending = s.pending := rfl

/-! ## Change of the dir block -/

@[simp] theorem State.onDir_sku (g : Dir → Dir) : (s.onDir g).sku = s.sku := rfl
@[simp] theorem State.onDir_regs (g : Dir → Dir) : (s.onDir g).regs = s.regs := rfl
@[simp] theorem State.onDir_now (g : Dir → Dir) : (s.onDir g).now = s.now := rfl
@[simp] theorem State.onDir_draws (g : Dir → Dir) : (s.onDir g).draws = s.draws := rfl
@[simp] theorem State.onDir_spc (g : Dir → Dir) : (s.onDir g).spc = s.spc := rfl
@[simp] theorem State.onDir_dir (g : Dir → Dir) : (s.onDir g).dir = g s.dir := rfl
@[simp] theorem State.onDir_husk (g : Dir → Dir) : (s.onDir g).husk = s.husk := rfl
@[simp] theorem State.onDir_tier (g : Dir → Dir) : (s.onDir g).tier = s.tier := rfl
@[simp] theorem State.onDir_near (g : Dir → Dir) : (s.onDir g).near = s.near := rfl
@[simp] theorem State.onDir_far (g : Dir → Dir) : (s.onDir g).far = s.far := rfl
@[simp] theorem State.onDir_tlr (g : Dir → Dir) : (s.onDir g).tlr = s.tlr := rfl
@[simp] theorem State.onDir_hdg (g : Dir → Dir) : (s.onDir g).hdg = s.hdg := rfl
@[simp] theorem State.onDir_qos (g : Dir → Dir) : (s.onDir g).qos = s.qos := rfl
@[simp] theorem State.onDir_integ (g : Dir → Dir) : (s.onDir g).integ = s.integ := rfl
@[simp] theorem State.onDir_sec (g : Dir → Dir) : (s.onDir g).sec = s.sec := rfl
@[simp] theorem State.onDir_esu (g : Dir → Dir) : (s.onDir g).esu = s.esu := rfl
@[simp] theorem State.onDir_stk (g : Dir → Dir) : (s.onDir g).stk = s.stk := rfl
@[simp] theorem State.onDir_host (g : Dir → Dir) : (s.onDir g).host = s.host := rfl
@[simp] theorem State.onDir_pwr (g : Dir → Dir) : (s.onDir g).pwr = s.pwr := rfl
@[simp] theorem State.onDir_reqs (g : Dir → Dir) : (s.onDir g).reqs = s.reqs := rfl
@[simp] theorem State.onDir_nextId (g : Dir → Dir) : (s.onDir g).nextId = s.nextId := rfl
@[simp] theorem State.onDir_out (g : Dir → Dir) : (s.onDir g).out = s.out := rfl
@[simp] theorem State.onDir_pending (g : Dir → Dir) : (s.onDir g).pending = s.pending := rfl

/-! ## Change of the husk block -/

@[simp] theorem State.onHusk_sku (g : HuskB → HuskB) : (s.onHusk g).sku = s.sku := rfl
@[simp] theorem State.onHusk_regs (g : HuskB → HuskB) : (s.onHusk g).regs = s.regs := rfl
@[simp] theorem State.onHusk_now (g : HuskB → HuskB) : (s.onHusk g).now = s.now := rfl
@[simp] theorem State.onHusk_draws (g : HuskB → HuskB) : (s.onHusk g).draws = s.draws := rfl
@[simp] theorem State.onHusk_spc (g : HuskB → HuskB) : (s.onHusk g).spc = s.spc := rfl
@[simp] theorem State.onHusk_dir (g : HuskB → HuskB) : (s.onHusk g).dir = s.dir := rfl
@[simp] theorem State.onHusk_husk (g : HuskB → HuskB) : (s.onHusk g).husk = g s.husk := rfl
@[simp] theorem State.onHusk_tier (g : HuskB → HuskB) : (s.onHusk g).tier = s.tier := rfl
@[simp] theorem State.onHusk_near (g : HuskB → HuskB) : (s.onHusk g).near = s.near := rfl
@[simp] theorem State.onHusk_far (g : HuskB → HuskB) : (s.onHusk g).far = s.far := rfl
@[simp] theorem State.onHusk_tlr (g : HuskB → HuskB) : (s.onHusk g).tlr = s.tlr := rfl
@[simp] theorem State.onHusk_hdg (g : HuskB → HuskB) : (s.onHusk g).hdg = s.hdg := rfl
@[simp] theorem State.onHusk_qos (g : HuskB → HuskB) : (s.onHusk g).qos = s.qos := rfl
@[simp] theorem State.onHusk_integ (g : HuskB → HuskB) : (s.onHusk g).integ = s.integ := rfl
@[simp] theorem State.onHusk_sec (g : HuskB → HuskB) : (s.onHusk g).sec = s.sec := rfl
@[simp] theorem State.onHusk_esu (g : HuskB → HuskB) : (s.onHusk g).esu = s.esu := rfl
@[simp] theorem State.onHusk_stk (g : HuskB → HuskB) : (s.onHusk g).stk = s.stk := rfl
@[simp] theorem State.onHusk_host (g : HuskB → HuskB) : (s.onHusk g).host = s.host := rfl
@[simp] theorem State.onHusk_pwr (g : HuskB → HuskB) : (s.onHusk g).pwr = s.pwr := rfl
@[simp] theorem State.onHusk_reqs (g : HuskB → HuskB) : (s.onHusk g).reqs = s.reqs := rfl
@[simp] theorem State.onHusk_nextId (g : HuskB → HuskB) : (s.onHusk g).nextId = s.nextId := rfl
@[simp] theorem State.onHusk_out (g : HuskB → HuskB) : (s.onHusk g).out = s.out := rfl
@[simp] theorem State.onHusk_pending (g : HuskB → HuskB) : (s.onHusk g).pending = s.pending := rfl

/-! ## Change of the tier block -/

@[simp] theorem State.onTier_sku (g : Tier → Tier) : (s.onTier g).sku = s.sku := rfl
@[simp] theorem State.onTier_regs (g : Tier → Tier) : (s.onTier g).regs = s.regs := rfl
@[simp] theorem State.onTier_now (g : Tier → Tier) : (s.onTier g).now = s.now := rfl
@[simp] theorem State.onTier_draws (g : Tier → Tier) : (s.onTier g).draws = s.draws := rfl
@[simp] theorem State.onTier_spc (g : Tier → Tier) : (s.onTier g).spc = s.spc := rfl
@[simp] theorem State.onTier_dir (g : Tier → Tier) : (s.onTier g).dir = s.dir := rfl
@[simp] theorem State.onTier_husk (g : Tier → Tier) : (s.onTier g).husk = s.husk := rfl
@[simp] theorem State.onTier_tier (g : Tier → Tier) : (s.onTier g).tier = g s.tier := rfl
@[simp] theorem State.onTier_near (g : Tier → Tier) : (s.onTier g).near = s.near := rfl
@[simp] theorem State.onTier_far (g : Tier → Tier) : (s.onTier g).far = s.far := rfl
@[simp] theorem State.onTier_tlr (g : Tier → Tier) : (s.onTier g).tlr = s.tlr := rfl
@[simp] theorem State.onTier_hdg (g : Tier → Tier) : (s.onTier g).hdg = s.hdg := rfl
@[simp] theorem State.onTier_qos (g : Tier → Tier) : (s.onTier g).qos = s.qos := rfl
@[simp] theorem State.onTier_integ (g : Tier → Tier) : (s.onTier g).integ = s.integ := rfl
@[simp] theorem State.onTier_sec (g : Tier → Tier) : (s.onTier g).sec = s.sec := rfl
@[simp] theorem State.onTier_esu (g : Tier → Tier) : (s.onTier g).esu = s.esu := rfl
@[simp] theorem State.onTier_stk (g : Tier → Tier) : (s.onTier g).stk = s.stk := rfl
@[simp] theorem State.onTier_host (g : Tier → Tier) : (s.onTier g).host = s.host := rfl
@[simp] theorem State.onTier_pwr (g : Tier → Tier) : (s.onTier g).pwr = s.pwr := rfl
@[simp] theorem State.onTier_reqs (g : Tier → Tier) : (s.onTier g).reqs = s.reqs := rfl
@[simp] theorem State.onTier_nextId (g : Tier → Tier) : (s.onTier g).nextId = s.nextId := rfl
@[simp] theorem State.onTier_out (g : Tier → Tier) : (s.onTier g).out = s.out := rfl
@[simp] theorem State.onTier_pending (g : Tier → Tier) : (s.onTier g).pending = s.pending := rfl

/-! ## Change of the near block -/

@[simp] theorem State.onNear_sku (g : Near → Near) : (s.onNear g).sku = s.sku := rfl
@[simp] theorem State.onNear_regs (g : Near → Near) : (s.onNear g).regs = s.regs := rfl
@[simp] theorem State.onNear_now (g : Near → Near) : (s.onNear g).now = s.now := rfl
@[simp] theorem State.onNear_draws (g : Near → Near) : (s.onNear g).draws = s.draws := rfl
@[simp] theorem State.onNear_spc (g : Near → Near) : (s.onNear g).spc = s.spc := rfl
@[simp] theorem State.onNear_dir (g : Near → Near) : (s.onNear g).dir = s.dir := rfl
@[simp] theorem State.onNear_husk (g : Near → Near) : (s.onNear g).husk = s.husk := rfl
@[simp] theorem State.onNear_tier (g : Near → Near) : (s.onNear g).tier = s.tier := rfl
@[simp] theorem State.onNear_near (g : Near → Near) : (s.onNear g).near = g s.near := rfl
@[simp] theorem State.onNear_far (g : Near → Near) : (s.onNear g).far = s.far := rfl
@[simp] theorem State.onNear_tlr (g : Near → Near) : (s.onNear g).tlr = s.tlr := rfl
@[simp] theorem State.onNear_hdg (g : Near → Near) : (s.onNear g).hdg = s.hdg := rfl
@[simp] theorem State.onNear_qos (g : Near → Near) : (s.onNear g).qos = s.qos := rfl
@[simp] theorem State.onNear_integ (g : Near → Near) : (s.onNear g).integ = s.integ := rfl
@[simp] theorem State.onNear_sec (g : Near → Near) : (s.onNear g).sec = s.sec := rfl
@[simp] theorem State.onNear_esu (g : Near → Near) : (s.onNear g).esu = s.esu := rfl
@[simp] theorem State.onNear_stk (g : Near → Near) : (s.onNear g).stk = s.stk := rfl
@[simp] theorem State.onNear_host (g : Near → Near) : (s.onNear g).host = s.host := rfl
@[simp] theorem State.onNear_pwr (g : Near → Near) : (s.onNear g).pwr = s.pwr := rfl
@[simp] theorem State.onNear_reqs (g : Near → Near) : (s.onNear g).reqs = s.reqs := rfl
@[simp] theorem State.onNear_nextId (g : Near → Near) : (s.onNear g).nextId = s.nextId := rfl
@[simp] theorem State.onNear_out (g : Near → Near) : (s.onNear g).out = s.out := rfl
@[simp] theorem State.onNear_pending (g : Near → Near) : (s.onNear g).pending = s.pending := rfl

/-! ## Change of the far block -/

@[simp] theorem State.onFar_sku (g : Far → Far) : (s.onFar g).sku = s.sku := rfl
@[simp] theorem State.onFar_regs (g : Far → Far) : (s.onFar g).regs = s.regs := rfl
@[simp] theorem State.onFar_now (g : Far → Far) : (s.onFar g).now = s.now := rfl
@[simp] theorem State.onFar_draws (g : Far → Far) : (s.onFar g).draws = s.draws := rfl
@[simp] theorem State.onFar_spc (g : Far → Far) : (s.onFar g).spc = s.spc := rfl
@[simp] theorem State.onFar_dir (g : Far → Far) : (s.onFar g).dir = s.dir := rfl
@[simp] theorem State.onFar_husk (g : Far → Far) : (s.onFar g).husk = s.husk := rfl
@[simp] theorem State.onFar_tier (g : Far → Far) : (s.onFar g).tier = s.tier := rfl
@[simp] theorem State.onFar_near (g : Far → Far) : (s.onFar g).near = s.near := rfl
@[simp] theorem State.onFar_far (g : Far → Far) : (s.onFar g).far = g s.far := rfl
@[simp] theorem State.onFar_tlr (g : Far → Far) : (s.onFar g).tlr = s.tlr := rfl
@[simp] theorem State.onFar_hdg (g : Far → Far) : (s.onFar g).hdg = s.hdg := rfl
@[simp] theorem State.onFar_qos (g : Far → Far) : (s.onFar g).qos = s.qos := rfl
@[simp] theorem State.onFar_integ (g : Far → Far) : (s.onFar g).integ = s.integ := rfl
@[simp] theorem State.onFar_sec (g : Far → Far) : (s.onFar g).sec = s.sec := rfl
@[simp] theorem State.onFar_esu (g : Far → Far) : (s.onFar g).esu = s.esu := rfl
@[simp] theorem State.onFar_stk (g : Far → Far) : (s.onFar g).stk = s.stk := rfl
@[simp] theorem State.onFar_host (g : Far → Far) : (s.onFar g).host = s.host := rfl
@[simp] theorem State.onFar_pwr (g : Far → Far) : (s.onFar g).pwr = s.pwr := rfl
@[simp] theorem State.onFar_reqs (g : Far → Far) : (s.onFar g).reqs = s.reqs := rfl
@[simp] theorem State.onFar_nextId (g : Far → Far) : (s.onFar g).nextId = s.nextId := rfl
@[simp] theorem State.onFar_out (g : Far → Far) : (s.onFar g).out = s.out := rfl
@[simp] theorem State.onFar_pending (g : Far → Far) : (s.onFar g).pending = s.pending := rfl

/-! ## Change of the tlr block -/

@[simp] theorem State.onTlr_sku (g : Tlr → Tlr) : (s.onTlr g).sku = s.sku := rfl
@[simp] theorem State.onTlr_regs (g : Tlr → Tlr) : (s.onTlr g).regs = s.regs := rfl
@[simp] theorem State.onTlr_now (g : Tlr → Tlr) : (s.onTlr g).now = s.now := rfl
@[simp] theorem State.onTlr_draws (g : Tlr → Tlr) : (s.onTlr g).draws = s.draws := rfl
@[simp] theorem State.onTlr_spc (g : Tlr → Tlr) : (s.onTlr g).spc = s.spc := rfl
@[simp] theorem State.onTlr_dir (g : Tlr → Tlr) : (s.onTlr g).dir = s.dir := rfl
@[simp] theorem State.onTlr_husk (g : Tlr → Tlr) : (s.onTlr g).husk = s.husk := rfl
@[simp] theorem State.onTlr_tier (g : Tlr → Tlr) : (s.onTlr g).tier = s.tier := rfl
@[simp] theorem State.onTlr_near (g : Tlr → Tlr) : (s.onTlr g).near = s.near := rfl
@[simp] theorem State.onTlr_far (g : Tlr → Tlr) : (s.onTlr g).far = s.far := rfl
@[simp] theorem State.onTlr_tlr (g : Tlr → Tlr) : (s.onTlr g).tlr = g s.tlr := rfl
@[simp] theorem State.onTlr_hdg (g : Tlr → Tlr) : (s.onTlr g).hdg = s.hdg := rfl
@[simp] theorem State.onTlr_qos (g : Tlr → Tlr) : (s.onTlr g).qos = s.qos := rfl
@[simp] theorem State.onTlr_integ (g : Tlr → Tlr) : (s.onTlr g).integ = s.integ := rfl
@[simp] theorem State.onTlr_sec (g : Tlr → Tlr) : (s.onTlr g).sec = s.sec := rfl
@[simp] theorem State.onTlr_esu (g : Tlr → Tlr) : (s.onTlr g).esu = s.esu := rfl
@[simp] theorem State.onTlr_stk (g : Tlr → Tlr) : (s.onTlr g).stk = s.stk := rfl
@[simp] theorem State.onTlr_host (g : Tlr → Tlr) : (s.onTlr g).host = s.host := rfl
@[simp] theorem State.onTlr_pwr (g : Tlr → Tlr) : (s.onTlr g).pwr = s.pwr := rfl
@[simp] theorem State.onTlr_reqs (g : Tlr → Tlr) : (s.onTlr g).reqs = s.reqs := rfl
@[simp] theorem State.onTlr_nextId (g : Tlr → Tlr) : (s.onTlr g).nextId = s.nextId := rfl
@[simp] theorem State.onTlr_out (g : Tlr → Tlr) : (s.onTlr g).out = s.out := rfl
@[simp] theorem State.onTlr_pending (g : Tlr → Tlr) : (s.onTlr g).pending = s.pending := rfl

/-! ## Change of the hdg block -/

@[simp] theorem State.onHdg_sku (g : Hdg → Hdg) : (s.onHdg g).sku = s.sku := rfl
@[simp] theorem State.onHdg_regs (g : Hdg → Hdg) : (s.onHdg g).regs = s.regs := rfl
@[simp] theorem State.onHdg_now (g : Hdg → Hdg) : (s.onHdg g).now = s.now := rfl
@[simp] theorem State.onHdg_draws (g : Hdg → Hdg) : (s.onHdg g).draws = s.draws := rfl
@[simp] theorem State.onHdg_spc (g : Hdg → Hdg) : (s.onHdg g).spc = s.spc := rfl
@[simp] theorem State.onHdg_dir (g : Hdg → Hdg) : (s.onHdg g).dir = s.dir := rfl
@[simp] theorem State.onHdg_husk (g : Hdg → Hdg) : (s.onHdg g).husk = s.husk := rfl
@[simp] theorem State.onHdg_tier (g : Hdg → Hdg) : (s.onHdg g).tier = s.tier := rfl
@[simp] theorem State.onHdg_near (g : Hdg → Hdg) : (s.onHdg g).near = s.near := rfl
@[simp] theorem State.onHdg_far (g : Hdg → Hdg) : (s.onHdg g).far = s.far := rfl
@[simp] theorem State.onHdg_tlr (g : Hdg → Hdg) : (s.onHdg g).tlr = s.tlr := rfl
@[simp] theorem State.onHdg_hdg (g : Hdg → Hdg) : (s.onHdg g).hdg = g s.hdg := rfl
@[simp] theorem State.onHdg_qos (g : Hdg → Hdg) : (s.onHdg g).qos = s.qos := rfl
@[simp] theorem State.onHdg_integ (g : Hdg → Hdg) : (s.onHdg g).integ = s.integ := rfl
@[simp] theorem State.onHdg_sec (g : Hdg → Hdg) : (s.onHdg g).sec = s.sec := rfl
@[simp] theorem State.onHdg_esu (g : Hdg → Hdg) : (s.onHdg g).esu = s.esu := rfl
@[simp] theorem State.onHdg_stk (g : Hdg → Hdg) : (s.onHdg g).stk = s.stk := rfl
@[simp] theorem State.onHdg_host (g : Hdg → Hdg) : (s.onHdg g).host = s.host := rfl
@[simp] theorem State.onHdg_pwr (g : Hdg → Hdg) : (s.onHdg g).pwr = s.pwr := rfl
@[simp] theorem State.onHdg_reqs (g : Hdg → Hdg) : (s.onHdg g).reqs = s.reqs := rfl
@[simp] theorem State.onHdg_nextId (g : Hdg → Hdg) : (s.onHdg g).nextId = s.nextId := rfl
@[simp] theorem State.onHdg_out (g : Hdg → Hdg) : (s.onHdg g).out = s.out := rfl
@[simp] theorem State.onHdg_pending (g : Hdg → Hdg) : (s.onHdg g).pending = s.pending := rfl

/-! ## Change of the qos block -/

@[simp] theorem State.onQos_sku (g : Qos → Qos) : (s.onQos g).sku = s.sku := rfl
@[simp] theorem State.onQos_regs (g : Qos → Qos) : (s.onQos g).regs = s.regs := rfl
@[simp] theorem State.onQos_now (g : Qos → Qos) : (s.onQos g).now = s.now := rfl
@[simp] theorem State.onQos_draws (g : Qos → Qos) : (s.onQos g).draws = s.draws := rfl
@[simp] theorem State.onQos_spc (g : Qos → Qos) : (s.onQos g).spc = s.spc := rfl
@[simp] theorem State.onQos_dir (g : Qos → Qos) : (s.onQos g).dir = s.dir := rfl
@[simp] theorem State.onQos_husk (g : Qos → Qos) : (s.onQos g).husk = s.husk := rfl
@[simp] theorem State.onQos_tier (g : Qos → Qos) : (s.onQos g).tier = s.tier := rfl
@[simp] theorem State.onQos_near (g : Qos → Qos) : (s.onQos g).near = s.near := rfl
@[simp] theorem State.onQos_far (g : Qos → Qos) : (s.onQos g).far = s.far := rfl
@[simp] theorem State.onQos_tlr (g : Qos → Qos) : (s.onQos g).tlr = s.tlr := rfl
@[simp] theorem State.onQos_hdg (g : Qos → Qos) : (s.onQos g).hdg = s.hdg := rfl
@[simp] theorem State.onQos_qos (g : Qos → Qos) : (s.onQos g).qos = g s.qos := rfl
@[simp] theorem State.onQos_integ (g : Qos → Qos) : (s.onQos g).integ = s.integ := rfl
@[simp] theorem State.onQos_sec (g : Qos → Qos) : (s.onQos g).sec = s.sec := rfl
@[simp] theorem State.onQos_esu (g : Qos → Qos) : (s.onQos g).esu = s.esu := rfl
@[simp] theorem State.onQos_stk (g : Qos → Qos) : (s.onQos g).stk = s.stk := rfl
@[simp] theorem State.onQos_host (g : Qos → Qos) : (s.onQos g).host = s.host := rfl
@[simp] theorem State.onQos_pwr (g : Qos → Qos) : (s.onQos g).pwr = s.pwr := rfl
@[simp] theorem State.onQos_reqs (g : Qos → Qos) : (s.onQos g).reqs = s.reqs := rfl
@[simp] theorem State.onQos_nextId (g : Qos → Qos) : (s.onQos g).nextId = s.nextId := rfl
@[simp] theorem State.onQos_out (g : Qos → Qos) : (s.onQos g).out = s.out := rfl
@[simp] theorem State.onQos_pending (g : Qos → Qos) : (s.onQos g).pending = s.pending := rfl

/-! ## Change of the integ block -/

@[simp] theorem State.onInt_sku (g : Integ → Integ) : (s.onInt g).sku = s.sku := rfl
@[simp] theorem State.onInt_regs (g : Integ → Integ) : (s.onInt g).regs = s.regs := rfl
@[simp] theorem State.onInt_now (g : Integ → Integ) : (s.onInt g).now = s.now := rfl
@[simp] theorem State.onInt_draws (g : Integ → Integ) : (s.onInt g).draws = s.draws := rfl
@[simp] theorem State.onInt_spc (g : Integ → Integ) : (s.onInt g).spc = s.spc := rfl
@[simp] theorem State.onInt_dir (g : Integ → Integ) : (s.onInt g).dir = s.dir := rfl
@[simp] theorem State.onInt_husk (g : Integ → Integ) : (s.onInt g).husk = s.husk := rfl
@[simp] theorem State.onInt_tier (g : Integ → Integ) : (s.onInt g).tier = s.tier := rfl
@[simp] theorem State.onInt_near (g : Integ → Integ) : (s.onInt g).near = s.near := rfl
@[simp] theorem State.onInt_far (g : Integ → Integ) : (s.onInt g).far = s.far := rfl
@[simp] theorem State.onInt_tlr (g : Integ → Integ) : (s.onInt g).tlr = s.tlr := rfl
@[simp] theorem State.onInt_hdg (g : Integ → Integ) : (s.onInt g).hdg = s.hdg := rfl
@[simp] theorem State.onInt_qos (g : Integ → Integ) : (s.onInt g).qos = s.qos := rfl
@[simp] theorem State.onInt_integ (g : Integ → Integ) : (s.onInt g).integ = g s.integ := rfl
@[simp] theorem State.onInt_sec (g : Integ → Integ) : (s.onInt g).sec = s.sec := rfl
@[simp] theorem State.onInt_esu (g : Integ → Integ) : (s.onInt g).esu = s.esu := rfl
@[simp] theorem State.onInt_stk (g : Integ → Integ) : (s.onInt g).stk = s.stk := rfl
@[simp] theorem State.onInt_host (g : Integ → Integ) : (s.onInt g).host = s.host := rfl
@[simp] theorem State.onInt_pwr (g : Integ → Integ) : (s.onInt g).pwr = s.pwr := rfl
@[simp] theorem State.onInt_reqs (g : Integ → Integ) : (s.onInt g).reqs = s.reqs := rfl
@[simp] theorem State.onInt_nextId (g : Integ → Integ) : (s.onInt g).nextId = s.nextId := rfl
@[simp] theorem State.onInt_out (g : Integ → Integ) : (s.onInt g).out = s.out := rfl
@[simp] theorem State.onInt_pending (g : Integ → Integ) : (s.onInt g).pending = s.pending := rfl

/-! ## Change of the sec block -/

@[simp] theorem State.onSec_sku (g : Sec → Sec) : (s.onSec g).sku = s.sku := rfl
@[simp] theorem State.onSec_regs (g : Sec → Sec) : (s.onSec g).regs = s.regs := rfl
@[simp] theorem State.onSec_now (g : Sec → Sec) : (s.onSec g).now = s.now := rfl
@[simp] theorem State.onSec_draws (g : Sec → Sec) : (s.onSec g).draws = s.draws := rfl
@[simp] theorem State.onSec_spc (g : Sec → Sec) : (s.onSec g).spc = s.spc := rfl
@[simp] theorem State.onSec_dir (g : Sec → Sec) : (s.onSec g).dir = s.dir := rfl
@[simp] theorem State.onSec_husk (g : Sec → Sec) : (s.onSec g).husk = s.husk := rfl
@[simp] theorem State.onSec_tier (g : Sec → Sec) : (s.onSec g).tier = s.tier := rfl
@[simp] theorem State.onSec_near (g : Sec → Sec) : (s.onSec g).near = s.near := rfl
@[simp] theorem State.onSec_far (g : Sec → Sec) : (s.onSec g).far = s.far := rfl
@[simp] theorem State.onSec_tlr (g : Sec → Sec) : (s.onSec g).tlr = s.tlr := rfl
@[simp] theorem State.onSec_hdg (g : Sec → Sec) : (s.onSec g).hdg = s.hdg := rfl
@[simp] theorem State.onSec_qos (g : Sec → Sec) : (s.onSec g).qos = s.qos := rfl
@[simp] theorem State.onSec_integ (g : Sec → Sec) : (s.onSec g).integ = s.integ := rfl
@[simp] theorem State.onSec_sec (g : Sec → Sec) : (s.onSec g).sec = g s.sec := rfl
@[simp] theorem State.onSec_esu (g : Sec → Sec) : (s.onSec g).esu = s.esu := rfl
@[simp] theorem State.onSec_stk (g : Sec → Sec) : (s.onSec g).stk = s.stk := rfl
@[simp] theorem State.onSec_host (g : Sec → Sec) : (s.onSec g).host = s.host := rfl
@[simp] theorem State.onSec_pwr (g : Sec → Sec) : (s.onSec g).pwr = s.pwr := rfl
@[simp] theorem State.onSec_reqs (g : Sec → Sec) : (s.onSec g).reqs = s.reqs := rfl
@[simp] theorem State.onSec_nextId (g : Sec → Sec) : (s.onSec g).nextId = s.nextId := rfl
@[simp] theorem State.onSec_out (g : Sec → Sec) : (s.onSec g).out = s.out := rfl
@[simp] theorem State.onSec_pending (g : Sec → Sec) : (s.onSec g).pending = s.pending := rfl

/-! ## Change of the esu block -/

@[simp] theorem State.onEsu_sku (g : Esu → Esu) : (s.onEsu g).sku = s.sku := rfl
@[simp] theorem State.onEsu_regs (g : Esu → Esu) : (s.onEsu g).regs = s.regs := rfl
@[simp] theorem State.onEsu_now (g : Esu → Esu) : (s.onEsu g).now = s.now := rfl
@[simp] theorem State.onEsu_draws (g : Esu → Esu) : (s.onEsu g).draws = s.draws := rfl
@[simp] theorem State.onEsu_spc (g : Esu → Esu) : (s.onEsu g).spc = s.spc := rfl
@[simp] theorem State.onEsu_dir (g : Esu → Esu) : (s.onEsu g).dir = s.dir := rfl
@[simp] theorem State.onEsu_husk (g : Esu → Esu) : (s.onEsu g).husk = s.husk := rfl
@[simp] theorem State.onEsu_tier (g : Esu → Esu) : (s.onEsu g).tier = s.tier := rfl
@[simp] theorem State.onEsu_near (g : Esu → Esu) : (s.onEsu g).near = s.near := rfl
@[simp] theorem State.onEsu_far (g : Esu → Esu) : (s.onEsu g).far = s.far := rfl
@[simp] theorem State.onEsu_tlr (g : Esu → Esu) : (s.onEsu g).tlr = s.tlr := rfl
@[simp] theorem State.onEsu_hdg (g : Esu → Esu) : (s.onEsu g).hdg = s.hdg := rfl
@[simp] theorem State.onEsu_qos (g : Esu → Esu) : (s.onEsu g).qos = s.qos := rfl
@[simp] theorem State.onEsu_integ (g : Esu → Esu) : (s.onEsu g).integ = s.integ := rfl
@[simp] theorem State.onEsu_sec (g : Esu → Esu) : (s.onEsu g).sec = s.sec := rfl
@[simp] theorem State.onEsu_esu (g : Esu → Esu) : (s.onEsu g).esu = g s.esu := rfl
@[simp] theorem State.onEsu_stk (g : Esu → Esu) : (s.onEsu g).stk = s.stk := rfl
@[simp] theorem State.onEsu_host (g : Esu → Esu) : (s.onEsu g).host = s.host := rfl
@[simp] theorem State.onEsu_pwr (g : Esu → Esu) : (s.onEsu g).pwr = s.pwr := rfl
@[simp] theorem State.onEsu_reqs (g : Esu → Esu) : (s.onEsu g).reqs = s.reqs := rfl
@[simp] theorem State.onEsu_nextId (g : Esu → Esu) : (s.onEsu g).nextId = s.nextId := rfl
@[simp] theorem State.onEsu_out (g : Esu → Esu) : (s.onEsu g).out = s.out := rfl
@[simp] theorem State.onEsu_pending (g : Esu → Esu) : (s.onEsu g).pending = s.pending := rfl

/-! ## Change of the stk block -/

@[simp] theorem State.onStk_sku (g : Stk → Stk) : (s.onStk g).sku = s.sku := rfl
@[simp] theorem State.onStk_regs (g : Stk → Stk) : (s.onStk g).regs = s.regs := rfl
@[simp] theorem State.onStk_now (g : Stk → Stk) : (s.onStk g).now = s.now := rfl
@[simp] theorem State.onStk_draws (g : Stk → Stk) : (s.onStk g).draws = s.draws := rfl
@[simp] theorem State.onStk_spc (g : Stk → Stk) : (s.onStk g).spc = s.spc := rfl
@[simp] theorem State.onStk_dir (g : Stk → Stk) : (s.onStk g).dir = s.dir := rfl
@[simp] theorem State.onStk_husk (g : Stk → Stk) : (s.onStk g).husk = s.husk := rfl
@[simp] theorem State.onStk_tier (g : Stk → Stk) : (s.onStk g).tier = s.tier := rfl
@[simp] theorem State.onStk_near (g : Stk → Stk) : (s.onStk g).near = s.near := rfl
@[simp] theorem State.onStk_far (g : Stk → Stk) : (s.onStk g).far = s.far := rfl
@[simp] theorem State.onStk_tlr (g : Stk → Stk) : (s.onStk g).tlr = s.tlr := rfl
@[simp] theorem State.onStk_hdg (g : Stk → Stk) : (s.onStk g).hdg = s.hdg := rfl
@[simp] theorem State.onStk_qos (g : Stk → Stk) : (s.onStk g).qos = s.qos := rfl
@[simp] theorem State.onStk_integ (g : Stk → Stk) : (s.onStk g).integ = s.integ := rfl
@[simp] theorem State.onStk_sec (g : Stk → Stk) : (s.onStk g).sec = s.sec := rfl
@[simp] theorem State.onStk_esu (g : Stk → Stk) : (s.onStk g).esu = s.esu := rfl
@[simp] theorem State.onStk_stk (g : Stk → Stk) : (s.onStk g).stk = g s.stk := rfl
@[simp] theorem State.onStk_host (g : Stk → Stk) : (s.onStk g).host = s.host := rfl
@[simp] theorem State.onStk_pwr (g : Stk → Stk) : (s.onStk g).pwr = s.pwr := rfl
@[simp] theorem State.onStk_reqs (g : Stk → Stk) : (s.onStk g).reqs = s.reqs := rfl
@[simp] theorem State.onStk_nextId (g : Stk → Stk) : (s.onStk g).nextId = s.nextId := rfl
@[simp] theorem State.onStk_out (g : Stk → Stk) : (s.onStk g).out = s.out := rfl
@[simp] theorem State.onStk_pending (g : Stk → Stk) : (s.onStk g).pending = s.pending := rfl

/-! ## Change of the host block -/

@[simp] theorem State.onHost_sku (g : HostB → HostB) : (s.onHost g).sku = s.sku := rfl
@[simp] theorem State.onHost_regs (g : HostB → HostB) : (s.onHost g).regs = s.regs := rfl
@[simp] theorem State.onHost_now (g : HostB → HostB) : (s.onHost g).now = s.now := rfl
@[simp] theorem State.onHost_draws (g : HostB → HostB) : (s.onHost g).draws = s.draws := rfl
@[simp] theorem State.onHost_spc (g : HostB → HostB) : (s.onHost g).spc = s.spc := rfl
@[simp] theorem State.onHost_dir (g : HostB → HostB) : (s.onHost g).dir = s.dir := rfl
@[simp] theorem State.onHost_husk (g : HostB → HostB) : (s.onHost g).husk = s.husk := rfl
@[simp] theorem State.onHost_tier (g : HostB → HostB) : (s.onHost g).tier = s.tier := rfl
@[simp] theorem State.onHost_near (g : HostB → HostB) : (s.onHost g).near = s.near := rfl
@[simp] theorem State.onHost_far (g : HostB → HostB) : (s.onHost g).far = s.far := rfl
@[simp] theorem State.onHost_tlr (g : HostB → HostB) : (s.onHost g).tlr = s.tlr := rfl
@[simp] theorem State.onHost_hdg (g : HostB → HostB) : (s.onHost g).hdg = s.hdg := rfl
@[simp] theorem State.onHost_qos (g : HostB → HostB) : (s.onHost g).qos = s.qos := rfl
@[simp] theorem State.onHost_integ (g : HostB → HostB) : (s.onHost g).integ = s.integ := rfl
@[simp] theorem State.onHost_sec (g : HostB → HostB) : (s.onHost g).sec = s.sec := rfl
@[simp] theorem State.onHost_esu (g : HostB → HostB) : (s.onHost g).esu = s.esu := rfl
@[simp] theorem State.onHost_stk (g : HostB → HostB) : (s.onHost g).stk = s.stk := rfl
@[simp] theorem State.onHost_host (g : HostB → HostB) : (s.onHost g).host = g s.host := rfl
@[simp] theorem State.onHost_pwr (g : HostB → HostB) : (s.onHost g).pwr = s.pwr := rfl
@[simp] theorem State.onHost_reqs (g : HostB → HostB) : (s.onHost g).reqs = s.reqs := rfl
@[simp] theorem State.onHost_nextId (g : HostB → HostB) : (s.onHost g).nextId = s.nextId := rfl
@[simp] theorem State.onHost_out (g : HostB → HostB) : (s.onHost g).out = s.out := rfl
@[simp] theorem State.onHost_pending (g : HostB → HostB) : (s.onHost g).pending = s.pending := rfl

/-! ## Change of the pwr block -/

@[simp] theorem State.onPwr_sku (g : Pwr → Pwr) : (s.onPwr g).sku = s.sku := rfl
@[simp] theorem State.onPwr_regs (g : Pwr → Pwr) : (s.onPwr g).regs = s.regs := rfl
@[simp] theorem State.onPwr_now (g : Pwr → Pwr) : (s.onPwr g).now = s.now := rfl
@[simp] theorem State.onPwr_draws (g : Pwr → Pwr) : (s.onPwr g).draws = s.draws := rfl
@[simp] theorem State.onPwr_spc (g : Pwr → Pwr) : (s.onPwr g).spc = s.spc := rfl
@[simp] theorem State.onPwr_dir (g : Pwr → Pwr) : (s.onPwr g).dir = s.dir := rfl
@[simp] theorem State.onPwr_husk (g : Pwr → Pwr) : (s.onPwr g).husk = s.husk := rfl
@[simp] theorem State.onPwr_tier (g : Pwr → Pwr) : (s.onPwr g).tier = s.tier := rfl
@[simp] theorem State.onPwr_near (g : Pwr → Pwr) : (s.onPwr g).near = s.near := rfl
@[simp] theorem State.onPwr_far (g : Pwr → Pwr) : (s.onPwr g).far = s.far := rfl
@[simp] theorem State.onPwr_tlr (g : Pwr → Pwr) : (s.onPwr g).tlr = s.tlr := rfl
@[simp] theorem State.onPwr_hdg (g : Pwr → Pwr) : (s.onPwr g).hdg = s.hdg := rfl
@[simp] theorem State.onPwr_qos (g : Pwr → Pwr) : (s.onPwr g).qos = s.qos := rfl
@[simp] theorem State.onPwr_integ (g : Pwr → Pwr) : (s.onPwr g).integ = s.integ := rfl
@[simp] theorem State.onPwr_sec (g : Pwr → Pwr) : (s.onPwr g).sec = s.sec := rfl
@[simp] theorem State.onPwr_esu (g : Pwr → Pwr) : (s.onPwr g).esu = s.esu := rfl
@[simp] theorem State.onPwr_stk (g : Pwr → Pwr) : (s.onPwr g).stk = s.stk := rfl
@[simp] theorem State.onPwr_host (g : Pwr → Pwr) : (s.onPwr g).host = s.host := rfl
@[simp] theorem State.onPwr_pwr (g : Pwr → Pwr) : (s.onPwr g).pwr = g s.pwr := rfl
@[simp] theorem State.onPwr_reqs (g : Pwr → Pwr) : (s.onPwr g).reqs = s.reqs := rfl
@[simp] theorem State.onPwr_nextId (g : Pwr → Pwr) : (s.onPwr g).nextId = s.nextId := rfl
@[simp] theorem State.onPwr_out (g : Pwr → Pwr) : (s.onPwr g).out = s.out := rfl
@[simp] theorem State.onPwr_pending (g : Pwr → Pwr) : (s.onPwr g).pending = s.pending := rfl

/-! ## Draws -/

@[simp] theorem State.drew_sku : (s.drew).sku = s.sku := rfl
@[simp] theorem State.drew_regs : (s.drew).regs = s.regs := rfl
@[simp] theorem State.drew_now : (s.drew).now = s.now := rfl
@[simp] theorem State.drew_draws : (s.drew).draws = s.draws + 1 := rfl
@[simp] theorem State.drew_spc : (s.drew).spc = s.spc := rfl
@[simp] theorem State.drew_dir : (s.drew).dir = s.dir := rfl
@[simp] theorem State.drew_husk : (s.drew).husk = s.husk := rfl
@[simp] theorem State.drew_tier : (s.drew).tier = s.tier := rfl
@[simp] theorem State.drew_near : (s.drew).near = s.near := rfl
@[simp] theorem State.drew_far : (s.drew).far = s.far := rfl
@[simp] theorem State.drew_tlr : (s.drew).tlr = s.tlr := rfl
@[simp] theorem State.drew_hdg : (s.drew).hdg = s.hdg := rfl
@[simp] theorem State.drew_qos : (s.drew).qos = s.qos := rfl
@[simp] theorem State.drew_integ : (s.drew).integ = s.integ := rfl
@[simp] theorem State.drew_sec : (s.drew).sec = s.sec := rfl
@[simp] theorem State.drew_esu : (s.drew).esu = s.esu := rfl
@[simp] theorem State.drew_stk : (s.drew).stk = s.stk := rfl
@[simp] theorem State.drew_host : (s.drew).host = s.host := rfl
@[simp] theorem State.drew_pwr : (s.drew).pwr = s.pwr := rfl
@[simp] theorem State.drew_reqs : (s.drew).reqs = s.reqs := rfl
@[simp] theorem State.drew_nextId : (s.drew).nextId = s.nextId := rfl
@[simp] theorem State.drew_out : (s.drew).out = s.out := rfl
@[simp] theorem State.drew_pending : (s.drew).pending = s.pending := rfl

/-! ## Output -/

@[simp] theorem State.emit_sku (x : Out) : (s.emit x).sku = s.sku := rfl
@[simp] theorem State.emit_regs (x : Out) : (s.emit x).regs = s.regs := rfl
@[simp] theorem State.emit_now (x : Out) : (s.emit x).now = s.now := rfl
@[simp] theorem State.emit_draws (x : Out) : (s.emit x).draws = s.draws := rfl
@[simp] theorem State.emit_spc (x : Out) : (s.emit x).spc = s.spc := rfl
@[simp] theorem State.emit_dir (x : Out) : (s.emit x).dir = s.dir := rfl
@[simp] theorem State.emit_husk (x : Out) : (s.emit x).husk = s.husk := rfl
@[simp] theorem State.emit_tier (x : Out) : (s.emit x).tier = s.tier := rfl
@[simp] theorem State.emit_near (x : Out) : (s.emit x).near = s.near := rfl
@[simp] theorem State.emit_far (x : Out) : (s.emit x).far = s.far := rfl
@[simp] theorem State.emit_tlr (x : Out) : (s.emit x).tlr = s.tlr := rfl
@[simp] theorem State.emit_hdg (x : Out) : (s.emit x).hdg = s.hdg := rfl
@[simp] theorem State.emit_qos (x : Out) : (s.emit x).qos = s.qos := rfl
@[simp] theorem State.emit_integ (x : Out) : (s.emit x).integ = s.integ := rfl
@[simp] theorem State.emit_sec (x : Out) : (s.emit x).sec = s.sec := rfl
@[simp] theorem State.emit_esu (x : Out) : (s.emit x).esu = s.esu := rfl
@[simp] theorem State.emit_stk (x : Out) : (s.emit x).stk = s.stk := rfl
@[simp] theorem State.emit_host (x : Out) : (s.emit x).host = s.host := rfl
@[simp] theorem State.emit_pwr (x : Out) : (s.emit x).pwr = s.pwr := rfl
@[simp] theorem State.emit_reqs (x : Out) : (s.emit x).reqs = s.reqs := rfl
@[simp] theorem State.emit_nextId (x : Out) : (s.emit x).nextId = s.nextId := rfl
@[simp] theorem State.emit_out (x : Out) : (s.emit x).out = s.out ++ [x] := rfl
@[simp] theorem State.emit_pending (x : Out) : (s.emit x).pending = s.pending := rfl

/-! ## Outputs -/

@[simp] theorem State.emits_sku (xs : List Out) : (s.emits xs).sku = s.sku := rfl
@[simp] theorem State.emits_regs (xs : List Out) : (s.emits xs).regs = s.regs := rfl
@[simp] theorem State.emits_now (xs : List Out) : (s.emits xs).now = s.now := rfl
@[simp] theorem State.emits_draws (xs : List Out) : (s.emits xs).draws = s.draws := rfl
@[simp] theorem State.emits_spc (xs : List Out) : (s.emits xs).spc = s.spc := rfl
@[simp] theorem State.emits_dir (xs : List Out) : (s.emits xs).dir = s.dir := rfl
@[simp] theorem State.emits_husk (xs : List Out) : (s.emits xs).husk = s.husk := rfl
@[simp] theorem State.emits_tier (xs : List Out) : (s.emits xs).tier = s.tier := rfl
@[simp] theorem State.emits_near (xs : List Out) : (s.emits xs).near = s.near := rfl
@[simp] theorem State.emits_far (xs : List Out) : (s.emits xs).far = s.far := rfl
@[simp] theorem State.emits_tlr (xs : List Out) : (s.emits xs).tlr = s.tlr := rfl
@[simp] theorem State.emits_hdg (xs : List Out) : (s.emits xs).hdg = s.hdg := rfl
@[simp] theorem State.emits_qos (xs : List Out) : (s.emits xs).qos = s.qos := rfl
@[simp] theorem State.emits_integ (xs : List Out) : (s.emits xs).integ = s.integ := rfl
@[simp] theorem State.emits_sec (xs : List Out) : (s.emits xs).sec = s.sec := rfl
@[simp] theorem State.emits_esu (xs : List Out) : (s.emits xs).esu = s.esu := rfl
@[simp] theorem State.emits_stk (xs : List Out) : (s.emits xs).stk = s.stk := rfl
@[simp] theorem State.emits_host (xs : List Out) : (s.emits xs).host = s.host := rfl
@[simp] theorem State.emits_pwr (xs : List Out) : (s.emits xs).pwr = s.pwr := rfl
@[simp] theorem State.emits_reqs (xs : List Out) : (s.emits xs).reqs = s.reqs := rfl
@[simp] theorem State.emits_nextId (xs : List Out) : (s.emits xs).nextId = s.nextId := rfl
@[simp] theorem State.emits_out (xs : List Out) : (s.emits xs).out = s.out ++ xs := rfl
@[simp] theorem State.emits_pending (xs : List Out) : (s.emits xs).pending = s.pending := rfl

/-! ## Held registers of a bank -/

@[simp] theorem State.setRegB_sku (b off v : Nat) : (s.setRegB b off v).sku = s.sku := rfl
@[simp] theorem State.setRegB_regs (b off v : Nat) : (s.setRegB b off v).regs = put s.regs (regKey b off) (BitVec.ofNat 64 v) := rfl
@[simp] theorem State.setRegB_now (b off v : Nat) : (s.setRegB b off v).now = s.now := rfl
@[simp] theorem State.setRegB_draws (b off v : Nat) : (s.setRegB b off v).draws = s.draws := rfl
@[simp] theorem State.setRegB_spc (b off v : Nat) : (s.setRegB b off v).spc = s.spc := rfl
@[simp] theorem State.setRegB_dir (b off v : Nat) : (s.setRegB b off v).dir = s.dir := rfl
@[simp] theorem State.setRegB_husk (b off v : Nat) : (s.setRegB b off v).husk = s.husk := rfl
@[simp] theorem State.setRegB_tier (b off v : Nat) : (s.setRegB b off v).tier = s.tier := rfl
@[simp] theorem State.setRegB_near (b off v : Nat) : (s.setRegB b off v).near = s.near := rfl
@[simp] theorem State.setRegB_far (b off v : Nat) : (s.setRegB b off v).far = s.far := rfl
@[simp] theorem State.setRegB_tlr (b off v : Nat) : (s.setRegB b off v).tlr = s.tlr := rfl
@[simp] theorem State.setRegB_hdg (b off v : Nat) : (s.setRegB b off v).hdg = s.hdg := rfl
@[simp] theorem State.setRegB_qos (b off v : Nat) : (s.setRegB b off v).qos = s.qos := rfl
@[simp] theorem State.setRegB_integ (b off v : Nat) : (s.setRegB b off v).integ = s.integ := rfl
@[simp] theorem State.setRegB_sec (b off v : Nat) : (s.setRegB b off v).sec = s.sec := rfl
@[simp] theorem State.setRegB_esu (b off v : Nat) : (s.setRegB b off v).esu = s.esu := rfl
@[simp] theorem State.setRegB_stk (b off v : Nat) : (s.setRegB b off v).stk = s.stk := rfl
@[simp] theorem State.setRegB_host (b off v : Nat) : (s.setRegB b off v).host = s.host := rfl
@[simp] theorem State.setRegB_pwr (b off v : Nat) : (s.setRegB b off v).pwr = s.pwr := rfl
@[simp] theorem State.setRegB_reqs (b off v : Nat) : (s.setRegB b off v).reqs = s.reqs := rfl
@[simp] theorem State.setRegB_nextId (b off v : Nat) : (s.setRegB b off v).nextId = s.nextId := rfl
@[simp] theorem State.setRegB_out (b off v : Nat) : (s.setRegB b off v).out = s.out := rfl
@[simp] theorem State.setRegB_pending (b off v : Nat) : (s.setRegB b off v).pending = s.pending := rfl

/-! ## Held registers -/

@[simp] theorem State.setReg_sku (off v : Nat) : (s.setReg off v).sku = s.sku := rfl
@[simp] theorem State.setReg_regs (off v : Nat) : (s.setReg off v).regs = put s.regs (regKey 0 off) (BitVec.ofNat 64 v) := rfl
@[simp] theorem State.setReg_now (off v : Nat) : (s.setReg off v).now = s.now := rfl
@[simp] theorem State.setReg_draws (off v : Nat) : (s.setReg off v).draws = s.draws := rfl
@[simp] theorem State.setReg_spc (off v : Nat) : (s.setReg off v).spc = s.spc := rfl
@[simp] theorem State.setReg_dir (off v : Nat) : (s.setReg off v).dir = s.dir := rfl
@[simp] theorem State.setReg_husk (off v : Nat) : (s.setReg off v).husk = s.husk := rfl
@[simp] theorem State.setReg_tier (off v : Nat) : (s.setReg off v).tier = s.tier := rfl
@[simp] theorem State.setReg_near (off v : Nat) : (s.setReg off v).near = s.near := rfl
@[simp] theorem State.setReg_far (off v : Nat) : (s.setReg off v).far = s.far := rfl
@[simp] theorem State.setReg_tlr (off v : Nat) : (s.setReg off v).tlr = s.tlr := rfl
@[simp] theorem State.setReg_hdg (off v : Nat) : (s.setReg off v).hdg = s.hdg := rfl
@[simp] theorem State.setReg_qos (off v : Nat) : (s.setReg off v).qos = s.qos := rfl
@[simp] theorem State.setReg_integ (off v : Nat) : (s.setReg off v).integ = s.integ := rfl
@[simp] theorem State.setReg_sec (off v : Nat) : (s.setReg off v).sec = s.sec := rfl
@[simp] theorem State.setReg_esu (off v : Nat) : (s.setReg off v).esu = s.esu := rfl
@[simp] theorem State.setReg_stk (off v : Nat) : (s.setReg off v).stk = s.stk := rfl
@[simp] theorem State.setReg_host (off v : Nat) : (s.setReg off v).host = s.host := rfl
@[simp] theorem State.setReg_pwr (off v : Nat) : (s.setReg off v).pwr = s.pwr := rfl
@[simp] theorem State.setReg_reqs (off v : Nat) : (s.setReg off v).reqs = s.reqs := rfl
@[simp] theorem State.setReg_nextId (off v : Nat) : (s.setReg off v).nextId = s.nextId := rfl
@[simp] theorem State.setReg_out (off v : Nat) : (s.setReg off v).out = s.out := rfl
@[simp] theorem State.setReg_pending (off v : Nat) : (s.setReg off v).pending = s.pending := rfl

/-! ## Interrupt status -/

@[simp] theorem State.intr_sku (off i : Nat) : (s.intr off i).sku = s.sku := rfl
@[simp] theorem State.intr_regs (off i : Nat) : (s.intr off i).regs = put s.regs (regKey 0 off) (BitVec.ofNat 64 (s.reg off ||| 2 ^ i)) := rfl
@[simp] theorem State.intr_now (off i : Nat) : (s.intr off i).now = s.now := rfl
@[simp] theorem State.intr_draws (off i : Nat) : (s.intr off i).draws = s.draws := rfl
@[simp] theorem State.intr_spc (off i : Nat) : (s.intr off i).spc = s.spc := rfl
@[simp] theorem State.intr_dir (off i : Nat) : (s.intr off i).dir = s.dir := rfl
@[simp] theorem State.intr_husk (off i : Nat) : (s.intr off i).husk = s.husk := rfl
@[simp] theorem State.intr_tier (off i : Nat) : (s.intr off i).tier = s.tier := rfl
@[simp] theorem State.intr_near (off i : Nat) : (s.intr off i).near = s.near := rfl
@[simp] theorem State.intr_far (off i : Nat) : (s.intr off i).far = s.far := rfl
@[simp] theorem State.intr_tlr (off i : Nat) : (s.intr off i).tlr = s.tlr := rfl
@[simp] theorem State.intr_hdg (off i : Nat) : (s.intr off i).hdg = s.hdg := rfl
@[simp] theorem State.intr_qos (off i : Nat) : (s.intr off i).qos = s.qos := rfl
@[simp] theorem State.intr_integ (off i : Nat) : (s.intr off i).integ = s.integ := rfl
@[simp] theorem State.intr_sec (off i : Nat) : (s.intr off i).sec = s.sec := rfl
@[simp] theorem State.intr_esu (off i : Nat) : (s.intr off i).esu = s.esu := rfl
@[simp] theorem State.intr_stk (off i : Nat) : (s.intr off i).stk = s.stk := rfl
@[simp] theorem State.intr_host (off i : Nat) : (s.intr off i).host = s.host := rfl
@[simp] theorem State.intr_pwr (off i : Nat) : (s.intr off i).pwr = s.pwr := rfl
@[simp] theorem State.intr_reqs (off i : Nat) : (s.intr off i).reqs = s.reqs := rfl
@[simp] theorem State.intr_nextId (off i : Nat) : (s.intr off i).nextId = s.nextId := rfl
@[simp] theorem State.intr_out (off i : Nat) : (s.intr off i).out = s.out := rfl
@[simp] theorem State.intr_pending (off i : Nat) : (s.intr off i).pending = s.pending := rfl

/-! ## Counters -/

@[simp] theorem State.bump_sku (base x n : Nat) : (s.bump base x n).sku = s.sku := rfl
@[simp] theorem State.bump_regs (base x n : Nat) : (s.bump base x n).regs = put s.regs (regKey 0 (base + 8 * x)) (BitVec.ofNat 64 (min (s.reg (base + 8 * x) + n) (2 ^ 48 - 1))) := rfl
@[simp] theorem State.bump_now (base x n : Nat) : (s.bump base x n).now = s.now := rfl
@[simp] theorem State.bump_draws (base x n : Nat) : (s.bump base x n).draws = s.draws := rfl
@[simp] theorem State.bump_spc (base x n : Nat) : (s.bump base x n).spc = s.spc := rfl
@[simp] theorem State.bump_dir (base x n : Nat) : (s.bump base x n).dir = s.dir := rfl
@[simp] theorem State.bump_husk (base x n : Nat) : (s.bump base x n).husk = s.husk := rfl
@[simp] theorem State.bump_tier (base x n : Nat) : (s.bump base x n).tier = s.tier := rfl
@[simp] theorem State.bump_near (base x n : Nat) : (s.bump base x n).near = s.near := rfl
@[simp] theorem State.bump_far (base x n : Nat) : (s.bump base x n).far = s.far := rfl
@[simp] theorem State.bump_tlr (base x n : Nat) : (s.bump base x n).tlr = s.tlr := rfl
@[simp] theorem State.bump_hdg (base x n : Nat) : (s.bump base x n).hdg = s.hdg := rfl
@[simp] theorem State.bump_qos (base x n : Nat) : (s.bump base x n).qos = s.qos := rfl
@[simp] theorem State.bump_integ (base x n : Nat) : (s.bump base x n).integ = s.integ := rfl
@[simp] theorem State.bump_sec (base x n : Nat) : (s.bump base x n).sec = s.sec := rfl
@[simp] theorem State.bump_esu (base x n : Nat) : (s.bump base x n).esu = s.esu := rfl
@[simp] theorem State.bump_stk (base x n : Nat) : (s.bump base x n).stk = s.stk := rfl
@[simp] theorem State.bump_host (base x n : Nat) : (s.bump base x n).host = s.host := rfl
@[simp] theorem State.bump_pwr (base x n : Nat) : (s.bump base x n).pwr = s.pwr := rfl
@[simp] theorem State.bump_reqs (base x n : Nat) : (s.bump base x n).reqs = s.reqs := rfl
@[simp] theorem State.bump_nextId (base x n : Nat) : (s.bump base x n).nextId = s.nextId := rfl
@[simp] theorem State.bump_out (base x n : Nat) : (s.bump base x n).out = s.out := rfl
@[simp] theorem State.bump_pending (base x n : Nat) : (s.bump base x n).pending = s.pending := rfl

/-! ## A nanosecond -/

@[simp] theorem State.tick_sku : (s.tick).sku = s.sku := rfl
@[simp] theorem State.tick_regs : (s.tick).regs = s.regs := rfl
@[simp] theorem State.tick_now : (s.tick).now = s.now + 1 := rfl
@[simp] theorem State.tick_draws : (s.tick).draws = s.draws := rfl
@[simp] theorem State.tick_spc : (s.tick).spc = s.spc := rfl
@[simp] theorem State.tick_dir : (s.tick).dir = s.dir := rfl
@[simp] theorem State.tick_husk : (s.tick).husk = s.husk := rfl
@[simp] theorem State.tick_tier : (s.tick).tier = s.tier := rfl
@[simp] theorem State.tick_near : (s.tick).near = s.near := rfl
@[simp] theorem State.tick_far : (s.tick).far = s.far := rfl
@[simp] theorem State.tick_tlr : (s.tick).tlr = s.tlr := rfl
@[simp] theorem State.tick_hdg : (s.tick).hdg = s.hdg := rfl
@[simp] theorem State.tick_qos : (s.tick).qos = s.qos := rfl
@[simp] theorem State.tick_integ : (s.tick).integ = s.integ := rfl
@[simp] theorem State.tick_sec : (s.tick).sec = s.sec := rfl
@[simp] theorem State.tick_esu : (s.tick).esu = s.esu := rfl
@[simp] theorem State.tick_stk : (s.tick).stk = s.stk := rfl
@[simp] theorem State.tick_host : (s.tick).host = { s.host with mctp := s.host.mctp - 1 } := rfl
@[simp] theorem State.tick_pwr : (s.tick).pwr = s.pwr := rfl
@[simp] theorem State.tick_reqs : (s.tick).reqs = s.reqs := rfl
@[simp] theorem State.tick_nextId : (s.tick).nextId = s.nextId := rfl
@[simp] theorem State.tick_out : (s.tick).out = s.out := rfl
@[simp] theorem State.tick_pending : (s.tick).pending = s.pending := rfl

end Sys2Proof.Machine
end

