-- ==== Sys2Proof/Laws/Esu.lean ====
section
/-! SUPPORT. What an evaluation of the event steering unit leaves: the stacks, the thresholds and the registers. -/

namespace Sys2Proof.Machine

open Sys2Proof

/-- A step that leaves a view of the state as it is, repeated, leaves it. -/
theorem State.each_keeps {α β : Type} (g : State → β) (l : List α) (f : State → α → State) (h : ∀ z a, g (f z a) = g z) (s : State) :
    g (s.each l f) = g s := by
  unfold State.each
  induction l generalizing s with
  | nil => rfl
  | cons a t ih => rw [List.foldl_cons, ih, h]

/-- What of the unit an evaluation leaves. -/
def State.esuKept (s : State) : FMap (List (Nat × Nat)) × FMap Nat × FMap Word := (s.esu.stack, s.esu.thresh, s.regs)

theorem State.msix_keeps (s : State) (ld vec : Nat) : (s.msix ld vec).esuKept = s.esuKept := by
  unfold State.msix State.esuKept
  split_ifs <;> rfl

theorem State.esuLines_keeps (s : State) : (s.esuLines).esuKept = s.esuKept := by
  unfold State.esuLines
  refine State.each_keeps State.esuKept _ _ ?_ s
  intro z k
  simp only
  split_ifs <;> rfl

theorem State.esuEval_keeps (s : State) : (s.esuEval).esuKept = s.esuKept := by
  unfold State.esuEval
  rw [State.esuLines_keeps]
  refine State.each_keeps State.esuKept _ _ ?_ s
  intro z k
  simp only
  split_ifs
  · rfl
  · rw [State.msix_keeps]; rfl
  · rfl

@[simp] theorem State.esuEval_stack (s : State) : (s.esuEval).esu.stack = s.esu.stack := congrArg Prod.fst s.esuEval_keeps
@[simp] theorem State.esuEval_thresh (s : State) : (s.esuEval).esu.thresh = s.esu.thresh :=
  congrArg (fun p => p.2.1) s.esuEval_keeps
@[simp] theorem State.esuEval_regs (s : State) : (s.esuEval).regs = s.regs := congrArg (fun p => p.2.2) s.esuEval_keeps

end Sys2Proof.Machine
end

