-- ==== Sys2Proof/Laws/Forms.lean ====
section
/-! SUPPORT. The canonical forms of the stored data, and the steps by which an operation keeps them. -/

namespace Sys2Proof.Machine

open Sys2Proof

/-! ## The media -/

/-- A line that is stored keeps the near tier's form. -/
theorem Near.setLine_wf {r : Near} (key : Nat) (d : Bytes) (h : r.wf = true) : (r.setLine key d).wf = true := by
  unfold Near.wf Near.setLine at *
  simp only [Bool.and_eq_true] at h ⊢
  split_ifs with hd
  · exact ⟨rising_del _ h.1, all_del _ h.2⟩
  · exact ⟨rising_put _ _ h.1, all_put _ _ h.2 (by simp [hd])⟩

/-- Lines that are dropped by a filter leave the form. -/
theorem Near.filter_wf {r : Near} (p : Nat × Bytes → Bool) (h : r.wf = true) : ({ r with lines := r.lines.filter p } : Near).wf = true := by
  unfold Near.wf at *
  simp only [Bool.and_eq_true] at h ⊢
  exact ⟨rising_filter _ h.1, all_filter _ h.2⟩

/-- The form rests on the lines alone. -/
theorem Near.wf_of_lines {r q : Near} (h : q.wf = true) (e : r.lines = q.lines) : r.wf = true := by
  unfold Near.wf at *; rw [e]; exact h

theorem Far.wf_of_media {r q : Far} (h : q.wf = true) (e : r.flash = q.flash) (e' : r.parity = q.parity) : r.wf = true := by
  unfold Far.wf at *; rw [e, e']; exact h

/-! ## The state -/

theorem canonical_iff {s : State} : s.canonical = true ↔ s.near.wf = true ∧ s.far.wf = true ∧ rising s.regs = true := by
  unfold State.canonical; simp [and_assoc]

theorem State.near_wf {s : State} (h : s.canonical = true) : s.near.wf = true := (canonical_iff.mp h).1
theorem State.far_wf {s : State} (h : s.canonical = true) : s.far.wf = true := (canonical_iff.mp h).2.1
theorem State.regs_rising {s : State} (h : s.canonical = true) : rising s.regs = true := (canonical_iff.mp h).2.2

/-- The forms of a state that is written out rest on its media and registers. -/
theorem canonical_mk {a b c d e f g h} {n : Near} {fa : Far} {i j k l m o p q r s t u} {regs : FMap Word} :
    (State.mk a regs b c d e f g n fa h i j k l m o p q r s t u).canonical = (n.wf && fa.wf && rising regs) := rfl

/-- A goal restated, so that what is generalized in it stays so when its proof is checked. -/
theorem forms_hold {p : Prop} (h : p) : p := h

/-- What leaves the media and the registers as they are keeps the forms. -/
theorem canon {z : State} (h : z.canonical = true) : (z.near.wf && z.far.wf && rising z.regs) = true := h

theorem forms_and {a b c : Bool} (h1 : a = true) (h2 : b = true) (h3 : c = true) : (a && b && c) = true := by simp [h1, h2, h3]

/-- The form of the stored lines. -/
def linesOk (l : FMap Bytes) : Bool := rising l && l.all fun p => p.2 != blankLine

/-- The forms of media that are written out rest on their stored cells. -/
theorem near_mk {l a b c d e f g h i} : (Near.mk l a b c d e f g h i).wf = linesOk l := rfl
theorem far_mk {l l' b c d e f g h i j k m n o p q r s t u v w x y z} :
    (Far.mk l l' b c d e f g h i j k m n o p q r s t u v w x y z).wf = (chunksOk l && chunksOk l') := rfl
theorem Near.linesOk {r : Near} (h : r.wf = true) : Machine.linesOk r.lines = true := h
theorem Far.flashOk {r : Far} (h : r.wf = true) : chunksOk r.flash = true := by
  unfold Far.wf at h; simp only [Bool.and_eq_true] at h; exact h.1
theorem Far.parityOk {r : Far} (h : r.wf = true) : chunksOk r.parity = true := by
  unfold Far.wf at h; simp only [Bool.and_eq_true] at h; exact h.2
theorem media_and {a b : Bool} (h1 : a = true) (h2 : b = true) : (a && b) = true := by simp [h1, h2]
theorem linesOk_filter {l : FMap Bytes} {p : Nat × Bytes → Bool} (h : linesOk l = true) : linesOk (l.filter p) = true := by
  unfold linesOk at *
  simp only [Bool.and_eq_true] at h ⊢
  exact ⟨rising_filter _ h.1, all_filter _ h.2⟩
theorem chunksOk_filter {l : FMap Bytes} {p : Nat × Bytes → Bool} (h : chunksOk l = true) : chunksOk (l.filter p) = true := by
  unfold chunksOk at *
  simp only [Bool.and_eq_true] at h ⊢
  exact ⟨rising_filter _ h.1, all_filter _ h.2⟩

/-- A chunk that is set keeps the form of its medium. -/
theorem chunksOk_set {m : FMap Bytes} (a : Nat) (d : Bytes) (h : chunksOk m = true) : chunksOk (setChunk m a d) = true := by
  unfold chunksOk setChunk at *
  simp only [Bool.and_eq_true] at h ⊢
  split_ifs with hd
  · exact ⟨rising_del _ h.1, all_del _ h.2⟩
  · exact ⟨rising_put _ _ h.1, all_put _ _ h.2 (by simp [hd])⟩

theorem near_reset : Near.reset.wf = true := rfl
theorem far_reset : Far.reset.wf = true := rfl

/-- Entries that are dropped, or changed under their key, leave the keys rising. -/
theorem rising_filterMap {α β : Type} {m : FMap α} {f : Nat × α → Option (Nat × β)} (hf : ∀ e y, f e = some y → y.1 = e.1)
    (hm : rising m = true) : rising (m.filterMap f) = true := by
  suffices h : ∀ b, risingFrom b m = true → risingFrom b (m.filterMap f) = true from h 0 hm
  clear hm
  induction m with
  | nil => intro b _; rfl
  | cons e t ih =>
    obtain ⟨a, v⟩ := e
    intro b hm
    simp only [risingFrom, Bool.and_eq_true, decide_eq_true_eq] at hm
    rw [List.filterMap_cons]
    split
    · exact risingFrom_mono (by omega) (ih _ hm.2)
    · next y hy =>
      obtain ⟨c, w⟩ := y
      have e1 : c = a := hf _ _ hy
      subst e1
      simp only [risingFrom, Bool.and_eq_true, decide_eq_true_eq]
      exact ⟨hm.1, ih _ hm.2⟩

theorem forms_mk {a b c d e f g h} {n : Near} {fa : Far} {i j k l m o p q r s t u} {regs : FMap Word} (h1 : n.wf = true) (h2 : fa.wf = true)
    (h3 : rising regs = true) : (State.mk a regs b c d e f g n fa h i j k l m o p q r s t u).canonical = true :=
  canonical_iff.mpr ⟨h1, h2, h3⟩

/-- What leaves the media and the registers as they are keeps the forms. -/
theorem forms_same {z : State} {a b c d e f g h i j k l m o p q r s t u} (hz : z.canonical = true) :
    (State.mk a z.regs b c d e f g z.near z.far h i j k l m o p q r s t u).canonical = true := hz

theorem forms_sameNear {z : State} {n : Near} {a b c d e f g h i j k l m o p q r s t u} (hz : z.canonical = true) (hn : n.wf = true) :
    (State.mk a z.regs b c d e f g n z.far h i j k l m o p q r s t u).canonical = true :=
  forms_mk hn (State.far_wf hz) (State.regs_rising hz)

theorem forms_sameFar {z : State} {n : Far} {a b c d e f g h i j k l m o p q r s t u} (hz : z.canonical = true) (hn : n.wf = true) :
    (State.mk a z.regs b c d e f g z.near n h i j k l m o p q r s t u).canonical = true :=
  forms_mk (State.near_wf hz) hn (State.regs_rising hz)

theorem forms_nearMk {n : Near} {a b c d e f g h i} (h1 : n.wf = true) : (Near.mk n.lines a b c d e f g h i).wf = true :=
  Near.wf_of_lines h1 rfl

theorem forms_farMk {n : Far} {b c d e f g h i j k l m o p q r s t u v w x y z} (h1 : n.wf = true) :
    (Far.mk n.flash n.parity b c d e f g h i j k l m o p q r s t u v w x y z).wf = true := Far.wf_of_media h1 rfl rfl

/-! ## Branches and repetition -/

theorem forms_ite {c : Prop} [Decidable c] {a b : State} (ha : a.canonical = true) (hb : b.canonical = true) :
    (if c then a else b).canonical = true := by split_ifs <;> assumption

theorem forms_iteFst {α : Type} {c : Prop} [Decidable c] {a b : State × α} (ha : a.1.canonical = true) (hb : b.1.canonical = true) :
    (if c then a else b).1.canonical = true := by split_ifs <;> assumption

theorem forms_each {α : Type} {s : State} {l : List α} {f : State → α → State} (hs : s.canonical = true)
    (hf : ∀ z : State, z.canonical = true → ∀ a, (f z a).canonical = true) : (s.each l f).canonical = true := by
  unfold State.each
  induction l generalizing s with
  | nil => exact hs
  | cons a t ih => exact ih (hf s hs a)

theorem forms_foldl {α : Type} {s : State} {l : List α} {f : State → α → State} (hs : s.canonical = true)
    (hf : ∀ z : State, z.canonical = true → ∀ a, (f z a).canonical = true) : (l.foldl f s).canonical = true := forms_each hs hf

theorem forms_foldlFst {α β : Type} {s : State × β} {l : List α} {f : State × β → α → State × β} (hs : s.1.canonical = true)
    (hf : ∀ z : State × β, z.1.canonical = true → ∀ a, (f z a).1.canonical = true) : (l.foldl f s).1.canonical = true := by
  induction l generalizing s with
  | nil => exact hs
  | cons a t ih => exact ih (hf s hs a)

theorem forms_elim {α : Type} {o : Option α} {d : State} {f : α → State} (hd : d.canonical = true) (hf : ∀ a, (f a).canonical = true) :
    (o.elim d f).canonical = true := by cases o <;> simp_all

/-- What a function answers beside a state, once it is named. -/
theorem forms_ofEq {α : Type} {p : State × α} {a : State} {b : α} (h : p = (a, b)) (hp : p.1.canonical = true) : a.canonical = true := by
  rw [h] at hp; exact hp

/-- An answer whose next state keeps the forms. -/
def OkForms (o : Outcome) : Prop := ∀ t, o = .next t → t.canonical = true

theorem forms_next {s : State} (h : s.canonical = true) : OkForms (.next s) := by intro t e; injection e with e; exact e ▸ h
theorem forms_fault (f : Fault) : OkForms (.fault f) := by intro t e; injection e
theorem forms_oite {c : Prop} [Decidable c] {a b : Outcome} (ha : OkForms a) (hb : OkForms b) : OkForms (if c then a else b) := by
  split_ifs <;> assumption

/-- A state that may be answered keeps the forms. -/
def OkSome (o : Option State) : Prop := ∀ t, o = some t → t.canonical = true

theorem forms_some {s : State} (h : s.canonical = true) : OkSome (some s) := by intro t e; injection e with e; exact e ▸ h
theorem forms_none : OkSome none := by intro t e; injection e
theorem forms_soite {c : Prop} [Decidable c] {a b : Option State} (ha : OkSome a) (hb : OkSome b) : OkSome (if c then a else b) := by
  split_ifs <;> assumption
theorem forms_ofSome {o : Option State} {t : State} (h : o = some t) (ho : OkSome o) : t.canonical = true := ho t h

theorem forms_map {α : Type} {o : Option α} {f : α → State} (hf : ∀ a, (f a).canonical = true) : OkSome (o.map f) := by
  intro t e
  cases o with
  | none => injection e
  | some a => injection e with e; exact e ▸ hf a

theorem forms_bind {o : Option State} {f : State → Option State} (ho : OkSome o) (hf : ∀ z : State, z.canonical = true → OkSome (f z)) :
    OkSome (o.bind f) := by
  intro t e
  cases o with
  | none => injection e
  | some a => exact hf a (ho a rfl) t e

theorem State.reset_canonical : State.reset.canonical = true := by decide

theorem State.setRegB_forms (s : State) (bank off v : Nat) (hs : s.canonical = true) : (State.setRegB s bank off v).canonical = true :=
  forms_mk (State.near_wf hs) (State.far_wf hs) (rising_put _ _ (State.regs_rising hs))

theorem State.onNear_forms (s : State) (f : Near → Near) (hs : s.canonical = true) (hf : ∀ r : Near, r.wf = true → (f r).wf = true) :
    (State.onNear s f).canonical = true := forms_mk (hf _ (State.near_wf hs)) (State.far_wf hs) (State.regs_rising hs)

theorem State.onFar_forms (s : State) (f : Far → Far) (hs : s.canonical = true) (hf : ∀ r : Far, r.wf = true → (f r).wf = true) :
    (State.onFar s f).canonical = true := forms_mk (State.near_wf hs) (hf _ (State.far_wf hs)) (State.regs_rising hs)

end Sys2Proof.Machine
end

