-- ==== Sys2Proof/Laws/FormsBase.lean ====
section
/-! SUPPORT. The canonical forms are kept by the operations that every block shares: registers, events, the event unit, the media, poison, bands, moves, metering. -/

set_option linter.all false

namespace Sys2Proof.Machine

open Sys2Proof

/-! ## Ops -/

theorem State.setReg_forms (s : State) (off v : Nat) (hyp_s : s.canonical = true) :
    (State.setReg s off v).canonical = true := by
  unfold State.setReg
  with_reducible repeat' first
    | assumption | apply State.setRegB_forms

theorem State.intr_forms (s : State) (off bit : Nat) (hyp_s : s.canonical = true) :
    (State.intr s off bit).canonical = true := by
  unfold State.intr
  with_reducible repeat' first
    | assumption | apply State.setReg_forms

theorem State.bump_forms (s : State) (base x n : Nat) (hyp_s : s.canonical = true) :
    (State.bump s base x n).canonical = true := by
  unfold State.bump
  with_reducible repeat' first
    | assumption | apply State.setReg_forms

theorem State.bumpDrc_forms (s : State) (n x k : Nat) (hyp_s : s.canonical = true) :
    (State.bumpDrc s n x k).canonical = true := by
  unfold State.bumpDrc
  with_reducible repeat' first
    | assumption | apply State.bump_forms

theorem State.intrDrc_forms (s : State) (n bit : Nat) (hyp_s : s.canonical = true) :
    (State.intrDrc s n bit).canonical = true := by
  unfold State.intrDrc
  with_reducible repeat' first
    | assumption | apply State.intr_forms

theorem State.drew_forms (s : State) (hyp_s : s.canonical = true) :
    (State.drew s).canonical = true := by
  unfold State.drew
  with_reducible repeat' first
    | (simp -zeta only [canonical_mk]; apply canon; assumption)

theorem State.emit_forms (s : State) (o : Out) (hyp_s : s.canonical = true) :
    (State.emit s o).canonical = true := by
  unfold State.emit
  with_reducible repeat' first
    | (simp -zeta only [canonical_mk]; apply canon; assumption)

theorem State.emits_forms (s : State) (os : List Out) (hyp_s : s.canonical = true) :
    (State.emits s os).canonical = true := by
  unfold State.emits
  with_reducible repeat' first
    | (simp -zeta only [canonical_mk]; apply canon; assumption)

theorem State.tick_forms (s : State) (hyp_s : s.canonical = true) :
    (State.tick s).canonical = true := by
  unfold State.tick
  with_reducible repeat' first
    | (simp -zeta only [canonical_mk]; apply canon; assumption)

theorem State.toTwin_forms (s : State) (k : JKind) (dur : Bool) (hyp_s : s.canonical = true) :
    (State.toTwin s k dur).canonical = true := by
  unfold State.toTwin
  with_reducible repeat' first
    | (simp -zeta only [canonical_mk]; apply canon; assumption) | assumption
    | (extract_lets +onlyGivenNames x; have hx : x.canonical = true := ?_; (on_goal 2 => subst x); clear_value x; revert x; intro _ _)
    | (extract_lets +onlyGivenNames x; clear_value x; revert x; intro _) | apply forms_ite | apply State.emit_forms

theorem State.toMeta_forms (s : State) (k : JKind) (dur : Bool) (hyp_s : s.canonical = true) :
    (State.toMeta s k dur).canonical = true := by
  unfold State.toMeta
  with_reducible repeat' first
    | simp -zeta only [canonical_mk, near_mk, far_mk] | apply forms_and | apply media_and | (apply State.near_wf; assumption)
    | (apply State.far_wf; assumption) | (apply State.regs_rising; assumption) | (apply Far.flashOk) | (apply Far.parityOk) | assumption
    | (extract_lets +onlyGivenNames x; have hx : x.wf = true := ?_; (on_goal 2 => subst x); clear_value x; revert x; intro _ _)

theorem State.journal_forms (s : State) (k : JKind) (hyp_s : s.canonical = true) :
    (State.journal s k).canonical = true := by
  unfold State.journal
  with_reducible repeat' first
    | assumption | apply State.toTwin_forms | apply State.toMeta_forms

theorem State.putPme_forms (s : State) (page : Nat) (p : Pme) (hyp_s : s.canonical = true) :
    (State.putPme s page p).canonical = true := by
  unfold State.putPme
  with_reducible repeat' first
    | (simp -zeta only [canonical_mk]; apply canon; assumption)

theorem State.setPme_forms (s : State) (page : Nat) (p : Pme) (dur : Bool) (hyp_s : s.canonical = true) :
    (State.setPme s page p dur).canonical = true := by
  unfold State.setPme
  with_reducible repeat' first
    | assumption | (extract_lets +onlyGivenNames x; have hx : x.canonical = true := ?_; (on_goal 2 => subst x); clear_value x; revert x; intro _ _)
    | (extract_lets +onlyGivenNames x; clear_value x; revert x; intro _) | apply forms_ite | apply State.putPme_forms | apply State.toTwin_forms
    | apply State.toMeta_forms

theorem State.setExtent_forms (s : State) (e : Nat) (x : Option Extent) (hyp_s : s.canonical = true) :
    (State.setExtent s e x).canonical = true := by
  unfold State.setExtent
  with_reducible repeat' first
    | (simp -zeta only [canonical_mk]; apply canon; assumption) | (extract_lets +onlyGivenNames x; clear_value x; revert x; intro _)
    | apply State.journal_forms

theorem State.tellBound_forms (s o : State) (ps : List (Nat × Nat)) (hyp_s : s.canonical = true) (hyp_o : o.canonical = true) :
    (State.tellBound s o ps).canonical = true := by
  unfold State.tellBound
  with_reducible repeat' first
    | assumption | intro _ | (extract_lets +onlyGivenNames x; clear_value x; revert x; intro _) | apply forms_ite | apply forms_each
    | apply State.emits_forms

theorem State.tellSheaves_forms (s : State) (h : Nat) (hyp_s : s.canonical = true) :
    (State.tellSheaves s h).canonical = true := by
  unfold State.tellSheaves
  with_reducible repeat' first
    | assumption | apply forms_ite | apply State.emits_forms

theorem State.recordLease_forms (s : State) (h : Nat) (l : Option Lease) (hyp_s : s.canonical = true) :
    (State.recordLease s h l).canonical = true := by
  unfold State.recordLease
  with_reducible repeat' first
    | (simp -zeta only [canonical_mk]; apply canon; assumption) | assumption
    | (extract_lets +onlyGivenNames x; have hx : x.canonical = true := ?_; (on_goal 2 => subst x); clear_value x; revert x; intro _ _)
    | (extract_lets +onlyGivenNames x; clear_value x; revert x; intro _) | apply State.journal_forms | apply State.tellBound_forms

theorem State.setLease_forms (s : State) (h : Nat) (l : Option Lease) (hyp_s : s.canonical = true) :
    (State.setLease s h l).canonical = true := by
  unfold State.setLease
  with_reducible repeat' first
    | assumption | apply State.recordLease_forms | apply State.tellSheaves_forms

theorem State.setAcct_forms (s : State) (a : Nat) (x : Account) (hyp_s : s.canonical = true) :
    (State.setAcct s a x).canonical = true := by
  unfold State.setAcct
  with_reducible repeat' first
    | (simp -zeta only [canonical_mk]; apply canon; assumption) | (extract_lets +onlyGivenNames x; clear_value x; revert x; intro _)
    | apply State.journal_forms

theorem State.modLease_forms (s : State) (h : Nat) (f : Lease → Lease) (hyp_s : s.canonical = true) :
    (State.modLease s h f).canonical = true := by
  unfold State.modLease
  with_reducible repeat' first
    | assumption | apply State.setLease_forms | (split <;> try (rename_i h; have hp := forms_ofEq h ?_; clear h))

theorem State.onSpc_forms (s : State) (f : Spc → Spc) (hyp_s : s.canonical = true) :
    (State.onSpc s f).canonical = true := by
  unfold State.onSpc
  with_reducible repeat' first
    | (simp -zeta only [canonical_mk]; apply canon; assumption)

theorem State.onDir_forms (s : State) (f : Dir → Dir) (hyp_s : s.canonical = true) :
    (State.onDir s f).canonical = true := by
  unfold State.onDir
  with_reducible repeat' first
    | (simp -zeta only [canonical_mk]; apply canon; assumption)

theorem State.onHusk_forms (s : State) (f : HuskB → HuskB) (hyp_s : s.canonical = true) :
    (State.onHusk s f).canonical = true := by
  unfold State.onHusk
  with_reducible repeat' first
    | (simp -zeta only [canonical_mk]; apply canon; assumption)

theorem State.onTier_forms (s : State) (f : Tier → Tier) (hyp_s : s.canonical = true) :
    (State.onTier s f).canonical = true := by
  unfold State.onTier
  with_reducible repeat' first
    | (simp -zeta only [canonical_mk]; apply canon; assumption)

theorem State.onTlr_forms (s : State) (f : Tlr → Tlr) (hyp_s : s.canonical = true) :
    (State.onTlr s f).canonical = true := by
  unfold State.onTlr
  with_reducible repeat' first
    | (simp -zeta only [canonical_mk]; apply canon; assumption)

theorem State.onHdg_forms (s : State) (f : Hdg → Hdg) (hyp_s : s.canonical = true) :
    (State.onHdg s f).canonical = true := by
  unfold State.onHdg
  with_reducible repeat' first
    | (simp -zeta only [canonical_mk]; apply canon; assumption)

theorem State.onQos_forms (s : State) (f : Qos → Qos) (hyp_s : s.canonical = true) :
    (State.onQos s f).canonical = true := by
  unfold State.onQos
  with_reducible repeat' first
    | (simp -zeta only [canonical_mk]; apply canon; assumption)

theorem State.onInt_forms (s : State) (f : Integ → Integ) (hyp_s : s.canonical = true) :
    (State.onInt s f).canonical = true := by
  unfold State.onInt
  with_reducible repeat' first
    | (simp -zeta only [canonical_mk]; apply canon; assumption)

theorem State.onSec_forms (s : State) (f : Sec → Sec) (hyp_s : s.canonical = true) :
    (State.onSec s f).canonical = true := by
  unfold State.onSec
  with_reducible repeat' first
    | (simp -zeta only [canonical_mk]; apply canon; assumption)

theorem State.onEsu_forms (s : State) (f : Esu → Esu) (hyp_s : s.canonical = true) :
    (State.onEsu s f).canonical = true := by
  unfold State.onEsu
  with_reducible repeat' first
    | (simp -zeta only [canonical_mk]; apply canon; assumption)

theorem State.onStk_forms (s : State) (f : Stk → Stk) (hyp_s : s.canonical = true) :
    (State.onStk s f).canonical = true := by
  unfold State.onStk
  with_reducible repeat' first
    | (simp -zeta only [canonical_mk]; apply canon; assumption)

theorem State.onHost_forms (s : State) (f : HostB → HostB) (hyp_s : s.canonical = true) :
    (State.onHost s f).canonical = true := by
  unfold State.onHost
  with_reducible repeat' first
    | (simp -zeta only [canonical_mk]; apply canon; assumption)

theorem State.onPwr_forms (s : State) (f : Pwr → Pwr) (hyp_s : s.canonical = true) :
    (State.onPwr s f).canonical = true := by
  unfold State.onPwr
  with_reducible repeat' first
    | (simp -zeta only [canonical_mk]; apply canon; assumption)

theorem State.edge_forms (s : State) (n ld : Nat) (hyp_s : s.canonical = true) :
    (State.edge s n ld).canonical = true := by
  unfold State.edge
  with_reducible repeat' first
    | assumption | apply State.onEsu_forms

/-! ## Events -/

theorem State.putSpill_forms (s : State) (r : SRec) (hyp_s : s.canonical = true) :
    (State.putSpill s r).canonical = true := by
  unfold State.putSpill
  with_reducible repeat' first
    | simp -zeta only [canonical_mk, near_mk, far_mk] | assumption
    | (extract_lets +onlyGivenNames x; have hx : x.canonical = true := ?_; (on_goal 2 => subst x); clear_value x; revert x; intro _ _)
    | apply forms_ite | apply State.onStk_forms | apply State.bump_forms | apply State.intr_forms

theorem State.putArchive_forms (s : State) (r : SRec) (hyp_s : s.canonical = true) :
    (State.putArchive s r).canonical = true := by
  unfold State.putArchive
  with_reducible repeat' first
    | simp -zeta only [canonical_mk, near_mk, far_mk] | assumption
    | (extract_lets +onlyGivenNames x; have hx : x.canonical = true := ?_; (on_goal 2 => subst x); clear_value x; revert x; intro _ _)
    | apply forms_ite | apply State.onStk_forms | apply State.bump_forms | apply State.intr_forms

theorem State.gaspTake_forms (s : State) (r : SRec) (hyp_s : s.canonical = true) :
    (State.gaspTake s r).1.canonical = true := by
  unfold State.gaspTake
  with_reducible repeat' first
    | simp -zeta only [canonical_mk, near_mk, far_mk] | assumption
    | (extract_lets +onlyGivenNames x; have hx : x.canonical = true := ?_; (on_goal 2 => subst x); clear_value x; revert x; intro _ _)
    | (extract_lets +onlyGivenNames x; clear_value x; revert x; intro _) | apply forms_ite | apply forms_iteFst | apply State.onStk_forms
    | apply State.intr_forms | apply State.onPwr_forms | apply State.putSpill_forms | apply State.emit_forms | apply State.bump_forms

theorem State.logFor_forms (s : State) (lds : List Nat) (r : SRec) (hyp_s : s.canonical = true) :
    (State.logFor s lds r).canonical = true := by
  unfold State.logFor
  with_reducible repeat' first
    | assumption | intro _ | (extract_lets +onlyGivenNames x; clear_value x; revert x; intro _) | apply forms_ite | apply forms_each
    | apply State.onStk_forms

theorem State.putRec_forms (s : State) (r : SRec) (hyp_s : s.canonical = true) :
    (State.putRec s r).canonical = true := by
  unfold State.putRec
  with_reducible repeat' first
    | simp -zeta only [canonical_mk, near_mk, far_mk] | assumption
    | (extract_lets +onlyGivenNames x; have hx : x.canonical = true := ?_; (on_goal 2 => subst x); clear_value x; revert x; intro _ _)
    | (extract_lets +onlyGivenNames x; clear_value x; revert x; intro _) | apply forms_ite | apply State.gaspTake_forms | apply State.putSpill_forms
    | apply State.onStk_forms | apply State.logFor_forms | apply State.bump_forms | apply State.intr_forms

theorem State.storeRec_forms (s : State) (r : SRec) (hyp_s : s.canonical = true) :
    (State.storeRec s r).canonical = true := by
  unfold State.storeRec
  with_reducible repeat' first
    | assumption | (extract_lets +onlyGivenNames x; clear_value x; revert x; intro _) | apply forms_ite | apply State.putRec_forms
    | apply State.onStk_forms

theorem State.startStk_forms (s : State) (hyp_s : s.canonical = true) :
    (State.startStk s).canonical = true := by
  unfold State.startStk
  with_reducible repeat' first
    | assumption | (extract_lets +onlyGivenNames x; have hx : x.canonical = true := ?_; (on_goal 2 => subst x); clear_value x; revert x; intro _ _)
    | (extract_lets +onlyGivenNames x; clear_value x; revert x; intro _) | apply forms_ite | apply State.onStk_forms | apply State.putRec_forms

theorem State.thaw_forms (s : State) (hyp_s : s.canonical = true) :
    (State.thaw s).canonical = true := by
  unfold State.thaw
  with_reducible repeat' first
    | assumption | intro _
    | (extract_lets +onlyGivenNames x; have hx : x.canonical = true := ?_; (on_goal 2 => subst x); clear_value x; revert x; intro _ _)
    | (extract_lets +onlyGivenNames x; clear_value x; revert x; intro _) | apply forms_ite | apply forms_each | apply State.onStk_forms
    | apply State.storeRec_forms | (split <;> try (rename_i h; have hp := forms_ofEq h ?_; clear h))

theorem State.arrive_forms (s : State) (r : SRec) (hyp_s : s.canonical = true) :
    (State.arrive s r).canonical = true := by
  unfold State.arrive
  with_reducible repeat' first
    | assumption | apply forms_ite | apply State.storeRec_forms | apply State.thaw_forms | apply State.onStk_forms | apply State.bump_forms
    | apply State.intr_forms | (split <;> try (rename_i h; have hp := forms_ofEq h ?_; clear h))

theorem State.postWith_forms (s : State) (code flags : Nat) (payload : Bytes) (lds : List Nat) (hyp_s : s.canonical = true) :
    (State.postWith s code flags payload lds).canonical = true := by
  unfold State.postWith
  with_reducible repeat' first
    | assumption | (extract_lets +onlyGivenNames x; have hx : x.canonical = true := ?_; (on_goal 2 => subst x); clear_value x; revert x; intro _ _)
    | (extract_lets +onlyGivenNames x; clear_value x; revert x; intro _) | apply forms_ite | apply State.startStk_forms | apply State.onStk_forms
    | apply State.bump_forms | apply State.arrive_forms

theorem State.postFor_forms (s : State) (lds : List Nat) (code : Nat) (items : List (Nat × Nat)) (hyp_s : s.canonical = true) :
    (State.postFor s lds code items).canonical = true := by
  unfold State.postFor
  with_reducible repeat' first
    | assumption | apply State.postWith_forms

theorem State.post_forms (s : State) (code : Nat) (items : List (Nat × Nat)) (hyp_s : s.canonical = true) :
    (State.post s code items).canonical = true := by
  unfold State.post
  with_reducible repeat' first
    | assumption | apply State.postFor_forms

theorem State.intError_forms (s : State) (code synd addr : Nat) (items : List (Nat × Nat)) (hyp_s : s.canonical = true) :
    (State.intError s code synd addr items).canonical = true := by
  unfold State.intError
  with_reducible repeat' first
    | assumption | (extract_lets +onlyGivenNames x; have hx : x.canonical = true := ?_; (on_goal 2 => subst x); clear_value x; revert x; intro _ _)
    | (extract_lets +onlyGivenNames x; clear_value x; revert x; intro _) | apply forms_ite | apply State.onInt_forms | apply State.setReg_forms
    | apply State.intr_forms | apply State.postFor_forms | apply State.postWith_forms | apply State.post_forms

/-! ## Esu -/

theorem State.setBits_forms (s : State) (n ld : Nat) (b : EsuBits) (hyp_s : s.canonical = true) :
    (State.setBits s n ld b).canonical = true := by
  unfold State.setBits
  with_reducible repeat' first
    | assumption | apply State.onEsu_forms

theorem State.msix_forms (s : State) (ld vec : Nat) (hyp_s : s.canonical = true) :
    (State.msix s ld vec).canonical = true := by
  unfold State.msix
  with_reducible repeat' first
    | assumption | apply forms_ite | apply State.onEsu_forms | apply State.emit_forms

theorem State.esuLines_forms (s : State) (hyp_s : s.canonical = true) :
    (State.esuLines s).canonical = true := by
  unfold State.esuLines
  with_reducible repeat' first
    | assumption | intro _ | (extract_lets +onlyGivenNames x; clear_value x; revert x; intro _) | apply forms_ite | apply forms_each
    | apply State.onEsu_forms | apply State.emit_forms

theorem State.esuEval_forms (s : State) (hyp_s : s.canonical = true) :
    (State.esuEval s).canonical = true := by
  unfold State.esuEval
  with_reducible repeat' first
    | assumption | intro _
    | (extract_lets +onlyGivenNames x; have hx : x.canonical = true := ?_; (on_goal 2 => subst x); clear_value x; revert x; intro _ _)
    | (extract_lets +onlyGivenNames x; clear_value x; revert x; intro _) | apply forms_ite | apply forms_each | apply State.esuLines_forms
    | apply State.setBits_forms | apply State.msix_forms

theorem State.esuFire_forms (s : State) (g : Nat) (hyp_s : s.canonical = true) :
    (State.esuFire s g).canonical = true := by
  unfold State.esuFire
  with_reducible repeat' first
    | assumption | intro _
    | (extract_lets +onlyGivenNames x; have hx : x.canonical = true := ?_; (on_goal 2 => subst x); clear_value x; revert x; intro _ _)
    | (extract_lets +onlyGivenNames x; clear_value x; revert x; intro _) | apply forms_ite | apply forms_each | apply State.onEsu_forms
    | apply State.setBits_forms

theorem State.esuArrival_forms (s : State) (g : Nat) (hyp_s : s.canonical = true) :
    (State.esuArrival s g).canonical = true := by
  unfold State.esuArrival
  with_reducible repeat' first
    | simp -zeta only [canonical_mk, near_mk, far_mk] | assumption
    | (extract_lets +onlyGivenNames x; have hx : x.canonical = true := ?_; (on_goal 2 => subst x); clear_value x; revert x; intro _ _)
    | apply forms_ite | apply State.onEsu_forms | apply State.esuFire_forms

theorem State.esuPend_forms (s : State) (n ld : Nat) (hyp_s : s.canonical = true) :
    (State.esuPend s n ld).canonical = true := by
  unfold State.esuPend
  with_reducible repeat' first
    | assumption | (extract_lets +onlyGivenNames x; have hx : x.canonical = true := ?_; (on_goal 2 => subst x); clear_value x; revert x; intro _ _)
    | (extract_lets +onlyGivenNames x; clear_value x; revert x; intro _) | apply forms_ite | apply State.setBits_forms
    | apply State.esuArrival_forms

theorem execEsuEdgeArrive_forms (n : Fin 1024) (ld : Fin 64) (s : State) (hyp_s : s.canonical = true) :
    OkForms (execEsuEdgeArrive n ld s) := by
  unfold execEsuEdgeArrive
  with_reducible repeat' first
    | assumption | apply forms_next
    | (extract_lets +onlyGivenNames x; have hx : x.canonical = true := ?_; (on_goal 2 => subst x); clear_value x; revert x; intro _ _)
    | apply forms_ite | apply State.onEsu_forms | apply State.bump_forms | apply State.esuPend_forms | apply State.esuEval_forms

theorem State.esuSample_forms (s : State) (n : Nat) (hyp_s : s.canonical = true) :
    (State.esuSample s n).canonical = true := by
  unfold State.esuSample
  with_reducible repeat' first
    | assumption | (extract_lets +onlyGivenNames x; have hx : x.canonical = true := ?_; (on_goal 2 => subst x); clear_value x; revert x; intro _ _)
    | (extract_lets +onlyGivenNames x; clear_value x; revert x; intro _) | apply forms_ite | apply State.setBits_forms | apply State.esuPend_forms

theorem execEsuLevelChange_forms (n : Fin 1024) (s : State) (hyp_s : s.canonical = true) :
    OkForms (execEsuLevelChange n s) := by
  unfold execEsuLevelChange
  with_reducible repeat' first
    | assumption | apply forms_next | apply forms_ite | apply State.esuSample_forms | apply State.esuEval_forms

theorem execEsuGroupTimerExpire_forms (g : Fin 64) (s : State) (hyp_s : s.canonical = true) :
    OkForms (execEsuGroupTimerExpire g s) := by
  unfold execEsuGroupTimerExpire
  with_reducible repeat' first
    | assumption | apply forms_next | apply forms_ite | apply State.esuFire_forms | apply State.esuEval_forms
    | (split <;> try (rename_i h; have hp := forms_ofEq h ?_; clear h))

theorem execEsuClaimRead_forms (view : View) (t : Fin 68) (s : State) (hyp_s : s.canonical = true) :
    OkForms (execEsuClaimRead view t s) := by
  unfold execEsuClaimRead
  with_reducible repeat' first
    | assumption | apply forms_next
    | (extract_lets +onlyGivenNames x; have hx : x.canonical = true := ?_; (on_goal 2 => subst x); clear_value x; revert x; intro _ _)
    | (extract_lets +onlyGivenNames x; clear_value x; revert x; intro _) | apply forms_ite | apply State.emit_forms | apply State.bump_forms
    | apply State.intr_forms | apply State.post_forms | apply State.setBits_forms | apply State.onEsu_forms | apply State.esuEval_forms
    | (split <;> try (rename_i h; have hp := forms_ofEq h ?_; clear h))

theorem execEsuCompleteWrite_forms (view : View) (t : Fin 68) (v : Word) (s : State) (hyp_s : s.canonical = true) :
    OkForms (execEsuCompleteWrite view t v s) := by
  unfold execEsuCompleteWrite
  with_reducible repeat' first
    | assumption | apply forms_next
    | (extract_lets +onlyGivenNames x; have hx : x.canonical = true := ?_; (on_goal 2 => subst x); clear_value x; revert x; intro _ _)
    | (extract_lets +onlyGivenNames x; clear_value x; revert x; intro _) | apply forms_ite | apply State.bump_forms | apply State.intr_forms
    | apply State.post_forms | apply State.setBits_forms | apply State.onEsu_forms | apply State.esuSample_forms | apply State.esuEval_forms
    | (split <;> try (rename_i h; have hp := forms_ofEq h ?_; clear h))

theorem execEsuThreshWrite_forms (view : View) (t : Fin 68) (v : Word) (s : State) (hyp_s : s.canonical = true) :
    OkForms (execEsuThreshWrite view t v s) := by
  unfold execEsuThreshWrite
  with_reducible repeat' first
    | assumption | apply forms_next | apply forms_ite | apply State.onEsu_forms | apply State.esuEval_forms

theorem State.srcWritten_forms (s : State) (n : Nat) (v : Word) (hyp_s : s.canonical = true) :
    (State.srcWritten s n v).canonical = true := by
  unfold State.srcWritten
  with_reducible repeat' first
    | assumption | intro _
    | (extract_lets +onlyGivenNames x; have hx : x.canonical = true := ?_; (on_goal 2 => subst x); clear_value x; revert x; intro _ _)
    | (extract_lets +onlyGivenNames x; clear_value x; revert x; intro _) | apply forms_ite | apply forms_each | apply State.setReg_forms
    | apply State.setBits_forms | apply State.esuArrival_forms | apply State.esuEval_forms

theorem execEsuSrcWrite_forms (view : View) (n : Fin 1024) (v : Word) (s : State) (hyp_s : s.canonical = true) :
    OkForms (execEsuSrcWrite view n v s) := by
  unfold execEsuSrcWrite
  with_reducible repeat' first
    | assumption | apply forms_next | apply forms_ite | apply State.srcWritten_forms
    | (split <;> try (rename_i h; have hp := forms_ofEq h ?_; clear h))

theorem execMsixVectorUnmask_forms (ld : Fin 64) (en : Bool) (fmask : Bool) (vmask : BitVec 32) (s : State) (hyp_s : s.canonical = true) :
    OkForms (execMsixVectorUnmask ld en fmask vmask s) := by
  unfold execMsixVectorUnmask
  with_reducible repeat' first
    | assumption | apply forms_next | intro _
    | (extract_lets +onlyGivenNames x; have hx : x.canonical = true := ?_; (on_goal 2 => subst x); clear_value x; revert x; intro _ _)
    | (extract_lets +onlyGivenNames x; clear_value x; revert x; intro _) | apply forms_ite | apply forms_each | apply State.onEsu_forms
    | apply State.msix_forms | apply State.emit_forms

theorem State.esuResetLd_forms (s : State) (m : Nat) (hyp_s : s.canonical = true) :
    (State.esuResetLd s m).canonical = true := by
  unfold State.esuResetLd
  with_reducible repeat' first
    | assumption | intro _
    | (extract_lets +onlyGivenNames x; have hx : x.canonical = true := ?_; (on_goal 2 => subst x); clear_value x; revert x; intro _ _)
    | (extract_lets +onlyGivenNames x; clear_value x; revert x; intro _) | apply forms_each | apply State.setBits_forms | apply State.onEsu_forms
    | apply State.bump_forms | apply State.postFor_forms

theorem State.esuResample_forms (s : State) (m : Nat) (hyp_s : s.canonical = true) :
    (State.esuResample s m).canonical = true := by
  unfold State.esuResample
  with_reducible repeat' first
    | assumption | intro _ | apply forms_each | apply State.esuSample_forms | apply State.esuEval_forms

/-! ## Media -/

theorem State.setChan_forms (s : State) (n : Nat) (f : Chan → Chan) (hyp_s : s.canonical = true) :
    (State.setChan s n f).canonical = true := by
  unfold State.setChan
  with_reducible repeat' first
    | simp -zeta only [canonical_mk, near_mk, far_mk] | (apply Near.linesOk) | assumption | apply State.onNear_forms

theorem State.openRow_forms (s : State) (n k : Nat) (hyp_s : s.canonical = true) :
    (State.openRow s n k).canonical = true := by
  unfold State.openRow
  with_reducible repeat' first
    | assumption | (extract_lets +onlyGivenNames x; clear_value x; revert x; intro _) | apply forms_ite | apply State.setChan_forms
    | apply State.bumpDrc_forms | (split <;> try (rename_i h; have hp := forms_ofEq h ?_; clear h))

theorem State.issueWrite_forms (s : State) (n key : Nat) (hyp_s : s.canonical = true) :
    (State.issueWrite s n key).canonical = true := by
  unfold State.issueWrite
  with_reducible repeat' first
    | apply Near.setLine_wf | assumption | intro _
    | (extract_lets +onlyGivenNames x; have hx : x.canonical = true := ?_; (on_goal 2 => subst x); clear_value x; revert x; intro _ _)
    | apply State.onNear_forms | apply State.setChan_forms | apply State.openRow_forms | apply State.bumpDrc_forms
    | (split <;> try (rename_i h; have hp := forms_ofEq h ?_; clear h))

theorem State.drainTo_forms (s : State) (n left : Nat) (hyp_s : s.canonical = true) :
    (State.drainTo s n left).canonical = true := by
  unfold State.drainTo
  with_reducible repeat' first
    | assumption | intro _ | (extract_lets +onlyGivenNames x; clear_value x; revert x; intro _) | apply forms_each | apply State.issueWrite_forms

theorem State.readLines_forms (s : State) (l : List Nat) (hyp_s : s.canonical = true) :
    (State.readLines s l).canonical = true := by
  unfold State.readLines
  with_reducible repeat' first
    | assumption | intro _
    | (extract_lets +onlyGivenNames x; have hx : x.canonical = true := ?_; (on_goal 2 => subst x); clear_value x; revert x; intro _ _)
    | (extract_lets +onlyGivenNames x; clear_value x; revert x; intro _) | apply forms_ite | apply forms_each | apply State.bumpDrc_forms
    | apply State.issueWrite_forms | apply State.openRow_forms

theorem State.queueLine_forms (s : State) (key : Nat) (d : Bytes) (hyp_s : s.canonical = true) :
    (State.queueLine s key d).canonical = true := by
  unfold State.queueLine
  repeat' first
    | (simp -zeta only [canonical_mk]; apply canon; assumption)
    | simp -zeta only [canonical_mk, near_mk, far_mk]
    | with_reducible apply forms_and
    | with_reducible apply media_and
    | (with_reducible apply State.near_wf; with_reducible assumption)
    | (with_reducible apply State.far_wf; with_reducible assumption)
    | (with_reducible apply State.regs_rising; with_reducible assumption)
    | (with_reducible apply Near.linesOk)
    | (with_reducible apply Far.flashOk)
    | (with_reducible apply Far.parityOk)
    | with_reducible assumption
    | intro _
    | (extract_lets +onlyGivenNames x; have hx : x.canonical = true := ?_; (on_goal 2 => subst x); clear_value x; revert x; intro _ _)
    | (extract_lets +onlyGivenNames x; have hx : x.1.canonical = true := ?_; (on_goal 2 => subst x); clear_value x; revert x; intro _ _)
    | (extract_lets +onlyGivenNames x; have hx : x.wf = true := ?_; (on_goal 2 => subst x); clear_value x; revert x; intro _ _)
    | (extract_lets +onlyGivenNames x; clear_value x; revert x; intro _)
    | with_reducible apply forms_ite
    | with_reducible apply forms_iteFst
    | with_reducible apply forms_oite
    | with_reducible apply State.setChan_forms
    | with_reducible apply State.drainTo_forms
    | with_reducible apply State.onNear_forms
    | (split <;> try (rename_i h; have hp := forms_ofEq h ?_; clear h))
    | (fail_if_no_progress beta_reduce)
    | (fail_if_no_progress dsimp only)
    | with_reducible apply State.near_wf
    | with_reducible apply State.far_wf
    | with_reducible apply State.regs_rising

theorem State.writeLine_forms (s : State) (key : Nat) (d : Bytes) (hyp_s : s.canonical = true) :
    (State.writeLine s key d).canonical = true := by
  unfold State.writeLine
  repeat' first
    | with_reducible assumption
    | intro _
    | (extract_lets +onlyGivenNames x; have hx : x.canonical = true := ?_; (on_goal 2 => subst x); clear_value x; revert x; intro _ _)
    | (extract_lets +onlyGivenNames x; have hx : x.1.canonical = true := ?_; (on_goal 2 => subst x); clear_value x; revert x; intro _ _)
    | (extract_lets +onlyGivenNames x; have hx : x.wf = true := ?_; (on_goal 2 => subst x); clear_value x; revert x; intro _ _)
    | (extract_lets +onlyGivenNames x; clear_value x; revert x; intro _)
    | with_reducible apply forms_ite
    | with_reducible apply forms_iteFst
    | with_reducible apply forms_oite
    | with_reducible apply State.intrDrc_forms
    | with_reducible apply State.post_forms
    | with_reducible apply State.queueLine_forms
    | (split <;> try (rename_i h; have hp := forms_ofEq h ?_; clear h))
    | (fail_if_no_progress beta_reduce)
    | (fail_if_no_progress dsimp only)

theorem State.applyDelta_forms (s : State) (key : Nat) (hyp_s : s.canonical = true) :
    (State.applyDelta s key).canonical = true := by
  unfold State.applyDelta
  repeat' first
    | (simp -zeta only [canonical_mk]; apply canon; assumption)
    | simp -zeta only [canonical_mk, near_mk, far_mk]
    | with_reducible apply forms_and
    | with_reducible apply media_and
    | (with_reducible apply State.near_wf; with_reducible assumption)
    | (with_reducible apply State.far_wf; with_reducible assumption)
    | (with_reducible apply State.regs_rising; with_reducible assumption)
    | (with_reducible apply Near.linesOk)
    | (with_reducible apply Far.flashOk)
    | (with_reducible apply Far.parityOk)
    | with_reducible assumption
    | intro _
    | (extract_lets +onlyGivenNames x; have hx : x.canonical = true := ?_; (on_goal 2 => subst x); clear_value x; revert x; intro _ _)
    | (extract_lets +onlyGivenNames x; have hx : x.1.canonical = true := ?_; (on_goal 2 => subst x); clear_value x; revert x; intro _ _)
    | (extract_lets +onlyGivenNames x; have hx : x.wf = true := ?_; (on_goal 2 => subst x); clear_value x; revert x; intro _ _)
    | (extract_lets +onlyGivenNames x; clear_value x; revert x; intro _)
    | with_reducible apply forms_ite
    | with_reducible apply forms_iteFst
    | with_reducible apply forms_oite
    | with_reducible apply State.onNear_forms
    | with_reducible apply State.writeLine_forms
    | (split <;> try (rename_i h; have hp := forms_ofEq h ?_; clear h))
    | (fail_if_no_progress beta_reduce)
    | (fail_if_no_progress dsimp only)
    | with_reducible apply State.near_wf
    | with_reducible apply State.far_wf
    | with_reducible apply State.regs_rising

theorem State.applyDeltas_forms (s : State) (a len : Nat) (hyp_s : s.canonical = true) :
    (State.applyDeltas s a len).canonical = true := by
  unfold State.applyDeltas
  repeat' first
    | (simp -zeta only [canonical_mk]; apply canon; assumption)
    | simp -zeta only [canonical_mk, near_mk, far_mk]
    | with_reducible apply forms_and
    | with_reducible apply media_and
    | (with_reducible apply State.near_wf; with_reducible assumption)
    | (with_reducible apply State.far_wf; with_reducible assumption)
    | (with_reducible apply State.regs_rising; with_reducible assumption)
    | (with_reducible apply Near.linesOk)
    | (with_reducible apply Far.flashOk)
    | (with_reducible apply Far.parityOk)
    | with_reducible assumption
    | intro _
    | (extract_lets +onlyGivenNames x; have hx : x.canonical = true := ?_; (on_goal 2 => subst x); clear_value x; revert x; intro _ _)
    | (extract_lets +onlyGivenNames x; have hx : x.1.canonical = true := ?_; (on_goal 2 => subst x); clear_value x; revert x; intro _ _)
    | (extract_lets +onlyGivenNames x; have hx : x.wf = true := ?_; (on_goal 2 => subst x); clear_value x; revert x; intro _ _)
    | (extract_lets +onlyGivenNames x; clear_value x; revert x; intro _)
    | with_reducible apply forms_each
    | with_reducible apply State.applyDelta_forms
    | (fail_if_no_progress beta_reduce)
    | (fail_if_no_progress dsimp only)

theorem State.writeHusk_forms (s : State) (a : Nat) (b : Bytes) (raw : List (Nat × Nat)) (hyp_s : s.canonical = true) :
    (State.writeHusk s a b raw).canonical = true := by
  unfold State.writeHusk
  with_reducible repeat' first
    | assumption | intro _ | apply forms_each | apply State.writeLine_forms

theorem State.takeNear_forms (s : State) (a len : Nat) (hyp_s : s.canonical = true) :
    (State.takeNear s a len).canonical = true := by
  unfold State.takeNear
  with_reducible repeat' first
    | simp -zeta only [canonical_mk, near_mk, far_mk] | apply forms_and | (apply State.near_wf; assumption) | (apply State.far_wf; assumption)
    | (apply State.regs_rising; assumption) | (apply Near.linesOk) | assumption
    | (extract_lets +onlyGivenNames x; have hx : x.wf = true := ?_; (on_goal 2 => subst x); clear_value x; revert x; intro _ _)
    | apply State.drew_forms

theorem State.freeNear_forms (s : State) (a : Nat) (hyp_s : s.canonical = true) :
    (State.freeNear s a).canonical = true := by
  unfold State.freeNear
  with_reducible repeat' first
    | simp -zeta only [canonical_mk, near_mk, far_mk] | apply forms_and | (apply State.near_wf; assumption) | (apply State.far_wf; assumption)
    | (apply State.regs_rising; assumption) | (apply Near.linesOk) | assumption
    | (extract_lets +onlyGivenNames x; have hx : x.wf = true := ?_; (on_goal 2 => subst x); clear_value x; revert x; intro _ _)

theorem State.setBand_forms (s : State) (b : Nat) (f : Band → Band) (hyp_s : s.canonical = true) :
    (State.setBand s b f).canonical = true := by
  unfold State.setBand
  with_reducible repeat' first
    | simp -zeta only [canonical_mk, near_mk, far_mk] | apply media_and | (apply Far.flashOk) | (apply Far.parityOk) | assumption | intro _
    | apply State.onFar_forms

theorem State.mapBand_forms (s : State) (b : Nat) (f : Band → Band) (hyp_s : s.canonical = true) :
    (State.mapBand s b f).canonical = true := by
  unfold State.mapBand
  with_reducible repeat' first
    | assumption | apply State.setBand_forms | apply State.toMeta_forms

theorem State.setDie_forms (s : State) (n : Nat) (f : Die → Die) (hyp_s : s.canonical = true) :
    (State.setDie s n f).canonical = true := by
  unfold State.setDie
  with_reducible repeat' first
    | simp -zeta only [canonical_mk, near_mk, far_mk] | apply media_and | (apply Far.flashOk) | (apply Far.parityOk) | assumption | intro _
    | apply State.onFar_forms

theorem State.farWriteChunk_forms (s : State) (a : Nat) (d : Bytes) (hyp_s : s.canonical = true) :
    (State.farWriteChunk s a d).canonical = true := by
  unfold State.farWriteChunk
  with_reducible repeat' first
    | simp -zeta only [canonical_mk, near_mk, far_mk] | apply media_and | (apply Far.flashOk) | (apply Far.parityOk) | apply chunksOk_set
    | assumption | intro _ | (extract_lets +onlyGivenNames x; clear_value x; revert x; intro _) | apply State.onFar_forms

theorem State.farWrite_forms (s : State) (a : Nat) (b : Bytes) (hyp_s : s.canonical = true) :
    (State.farWrite s a b).canonical = true := by
  unfold State.farWrite
  with_reducible repeat' first
    | assumption | intro _ | apply forms_each | apply State.farWriteChunk_forms

theorem State.dropFar_forms (s : State) (a len : Nat) (hyp_s : s.canonical = true) :
    (State.dropFar s a len).canonical = true := by
  unfold State.dropFar
  with_reducible repeat' first
    | assumption | apply State.setBand_forms

theorem State.freeFarAt_forms (s : State) (a len n : Nat) (hyp_s : s.canonical = true) :
    (State.freeFarAt s a len n).canonical = true := by
  unfold State.freeFarAt
  with_reducible repeat' first
    | assumption | apply State.setBand_forms

theorem State.freeFar_forms (s : State) (a len : Nat) (hyp_s : s.canonical = true) :
    (State.freeFar s a len).canonical = true := by
  unfold State.freeFar
  with_reducible repeat' first
    | assumption | apply State.freeFarAt_forms

/-! ## Poison -/

theorem State.notePoison_forms (s : State) (p : Poison) (clear : Bool) (hyp_s : s.canonical = true) :
    (State.notePoison s p clear).canonical = true := by
  unfold State.notePoison
  with_reducible repeat' first
    | assumption | apply forms_ite | apply State.toMeta_forms

theorem State.poisonGrain_forms (s : State) (page g synd : Nat) (hyp_s : s.canonical = true) :
    (State.poisonGrain s page g synd).canonical = true := by
  unfold State.poisonGrain
  with_reducible repeat' first
    | assumption | intro _ | (extract_lets +onlyGivenNames x; clear_value x; revert x; intro _) | apply forms_ite | apply forms_each
    | apply State.writeLine_forms | (split <;> try (rename_i h; have hp := forms_ofEq h ?_; clear h))

theorem State.poisonPlain_forms (s : State) (page j synd : Nat) (hyp_s : s.canonical = true) :
    (State.poisonPlain s page j synd).canonical = true := by
  unfold State.poisonPlain
  with_reducible repeat' first
    | assumption | (extract_lets +onlyGivenNames x; clear_value x; revert x; intro _) | apply forms_ite | apply State.writeLine_forms
    | (split <;> try (rename_i h; have hp := forms_ofEq h ?_; clear h))

theorem State.plistOvf_forms (s : State) (hyp_s : s.canonical = true) :
    (State.plistOvf s).canonical = true := by
  unfold State.plistOvf
  with_reducible repeat' first
    | assumption | apply State.intr_forms | apply State.post_forms

theorem State.poisonLine_forms (s : State) (l synd : Nat) (inj : Bool) (hyp_s : s.canonical = true) :
    (State.poisonLine s l synd inj).canonical = true := by
  unfold State.poisonLine
  with_reducible repeat' first
    | assumption | (extract_lets +onlyGivenNames x; clear_value x; revert x; intro _) | apply forms_ite | apply State.onInt_forms
    | apply State.notePoison_forms | apply State.poisonPlain_forms | apply State.poisonGrain_forms | apply State.plistOvf_forms

theorem State.poisonPageEntry_forms (s : State) (page synd : Nat) (hyp_s : s.canonical = true) :
    (State.poisonPageEntry s page synd).canonical = true := by
  unfold State.poisonPageEntry
  with_reducible repeat' first
    | assumption | (extract_lets +onlyGivenNames x; clear_value x; revert x; intro _) | apply forms_ite | apply State.onInt_forms
    | apply State.notePoison_forms | apply State.plistOvf_forms

theorem State.plistDrop_forms (s : State) (p : Poison → Bool) (hyp_s : s.canonical = true) :
    (State.plistDrop s p).canonical = true := by
  unfold State.plistDrop
  with_reducible repeat' first
    | assumption | intro _ | (extract_lets +onlyGivenNames x; clear_value x; revert x; intro _) | apply forms_ite | apply forms_each
    | apply State.onInt_forms | apply State.notePoison_forms

theorem State.clearLine_forms (s : State) (l : Nat) (hyp_s : s.canonical = true) :
    (State.clearLine s l).canonical = true := by
  unfold State.clearLine
  with_reducible repeat' first
    | assumption | apply State.plistDrop_forms

theorem State.clearPage_forms (s : State) (page : Nat) (hyp_s : s.canonical = true) :
    (State.clearPage s page).canonical = true := by
  unfold State.clearPage
  with_reducible repeat' first
    | assumption | apply State.plistDrop_forms

theorem State.decFail_forms (s : State) (page g synd cause : Nat) (hyp_s : s.canonical = true) :
    (State.decFail s page g synd cause).canonical = true := by
  unfold State.decFail
  with_reducible repeat' first
    | assumption | (extract_lets +onlyGivenNames x; have hx : x.canonical = true := ?_; (on_goal 2 => subst x); clear_value x; revert x; intro _ _)
    | apply forms_ite | apply State.bump_forms | apply State.intr_forms | apply State.setReg_forms | apply State.intError_forms

theorem State.uncorrNear_forms (s : State) (page outcome : Nat) (hyp_s : s.canonical = true) :
    (State.uncorrNear s page outcome).canonical = true := by
  unfold State.uncorrNear
  with_reducible repeat' first
    | assumption | (extract_lets +onlyGivenNames x; have hx : x.canonical = true := ?_; (on_goal 2 => subst x); clear_value x; revert x; intro _ _)
    | apply forms_ite | apply State.bump_forms | apply State.intError_forms

theorem State.corrected_forms (s : State) (n : Nat) (hyp_s : s.canonical = true) :
    (State.corrected s n).canonical = true := by
  unfold State.corrected
  with_reducible repeat' first
    | assumption | apply forms_ite | apply State.bump_forms | apply State.post_forms

theorem State.hcrcFail_forms (s : State) (page : Nat) (hyp_s : s.canonical = true) :
    (State.hcrcFail s page).canonical = true := by
  unfold State.hcrcFail
  with_reducible repeat' first
    | assumption | apply State.intr_forms | apply State.intError_forms

theorem State.suggestRun_forms (s : State) (p : Pme) (hyp_s : s.canonical = true) :
    (State.suggestRun s p).canonical = true := by
  unfold State.suggestRun
  with_reducible repeat' first
    | assumption | apply State.onInt_forms

theorem State.chaffFull_forms (s : State) (hyp_s : s.canonical = true) :
    (State.chaffFull s).canonical = true := by
  unfold State.chaffFull
  with_reducible repeat' first
    | assumption | apply State.intr_forms | apply State.post_forms

theorem State.addChaff_forms (s : State) (c : Chaff) (hyp_s : s.canonical = true) :
    (State.addChaff s c).canonical = true := by
  unfold State.addChaff
  with_reducible repeat' first
    | assumption | (extract_lets +onlyGivenNames x; have hx : x.canonical = true := ?_; (on_goal 2 => subst x); clear_value x; revert x; intro _ _)
    | (extract_lets +onlyGivenNames x; clear_value x; revert x; intro _) | apply forms_ite | apply State.onInt_forms | apply State.toMeta_forms
    | apply State.chaffFull_forms

/-! ## FarBase -/

theorem State.govProgram_forms (s : State) (n : Nat) (hyp_s : s.canonical = true) :
    (State.govProgram s n).canonical = true := by
  unfold State.govProgram
  with_reducible repeat' first
    | simp -zeta only [canonical_mk, near_mk, far_mk] | apply media_and | (apply Far.flashOk) | (apply Far.parityOk) | assumption | intro _
    | (extract_lets +onlyGivenNames x; have hx : x.canonical = true := ?_; (on_goal 2 => subst x); clear_value x; revert x; intro _ _)
    | (extract_lets +onlyGivenNames x; clear_value x; revert x; intro _) | apply forms_ite | apply State.onFar_forms | apply State.bump_forms
    | apply State.post_forms | apply State.intr_forms

theorem State.setOpen_forms (s : State) (reloc : Bool) (o : Option OpenBand) (hyp_s : s.canonical = true) :
    (State.setOpen s reloc o).canonical = true := by
  unfold State.setOpen
  with_reducible repeat' first
    | simp -zeta only [canonical_mk, near_mk, far_mk] | apply media_and | (apply Far.flashOk) | (apply Far.parityOk) | assumption | intro _
    | apply State.onFar_forms | (split <;> try (rename_i h; have hp := forms_ofEq h ?_; clear h))

theorem State.setRow_forms (s : State) (reloc : Bool) (l : List RowItem) (hyp_s : s.canonical = true) :
    (State.setRow s reloc l).canonical = true := by
  unfold State.setRow
  with_reducible repeat' first
    | simp -zeta only [canonical_mk, near_mk, far_mk] | apply media_and | (apply Far.flashOk) | (apply Far.parityOk) | assumption | intro _
    | apply State.onFar_forms | (split <;> try (rename_i h; have hp := forms_ofEq h ?_; clear h))

theorem State.openNext_forms (s : State) (reloc : Bool) (hyp_s : s.canonical = true) :
    (State.openNext s reloc).canonical = true := by
  unfold State.openNext
  with_reducible repeat' first
    | assumption | (extract_lets +onlyGivenNames x; have hx : x.canonical = true := ?_; (on_goal 2 => subst x); clear_value x; revert x; intro _ _)
    | (extract_lets +onlyGivenNames x; clear_value x; revert x; intro _) | apply State.mapBand_forms | apply State.setOpen_forms
    | (split <;> try (rename_i h; have hp := forms_ofEq h ?_; clear h))

theorem State.farAppend_forms (s : State) (reloc : Bool) (it : RowItem) (hyp_s : s.canonical = true) :
    (State.farAppend s reloc it).1.canonical = true := by
  unfold State.farAppend
  with_reducible repeat' first
    | simp -zeta only [canonical_mk, near_mk, far_mk] | assumption
    | (extract_lets +onlyGivenNames x; have hx : x.canonical = true := ?_; (on_goal 2 => subst x); clear_value x; revert x; intro _ _)
    | (extract_lets +onlyGivenNames x; clear_value x; revert x; intro _) | apply forms_ite | apply State.openNext_forms | apply State.setOpen_forms
    | apply State.setBand_forms | apply State.setRow_forms | (split <;> try (rename_i h; have hp := forms_ofEq h ?_; clear h))

theorem State.padRow_forms (s : State) (reloc : Bool) (hyp_s : s.canonical = true) :
    (State.padRow s reloc).canonical = true := by
  unfold State.padRow
  with_reducible repeat' first
    | assumption | (extract_lets +onlyGivenNames x; clear_value x; revert x; intro _) | apply forms_ite | apply State.setOpen_forms
    | apply State.bump_forms | (split <;> try (rename_i h; have hp := forms_ofEq h ?_; clear h))

/-! ## TierBase -/

theorem State.pmeCache_forms (s : State) (page : Nat) (hyp_s : s.canonical = true) :
    (State.pmeCache s page).canonical = true := by
  unfold State.pmeCache
  with_reducible repeat' first
    | assumption | (extract_lets +onlyGivenNames x; have hx : x.canonical = true := ?_; (on_goal 2 => subst x); clear_value x; revert x; intro _ _)
    | (extract_lets +onlyGivenNames x; clear_value x; revert x; intro _) | apply forms_ite | apply State.bump_forms | apply State.onTier_forms

theorem State.countAccess_forms (s : State) (page : Nat) (hyp_s : s.canonical = true) :
    (State.countAccess s page).canonical = true := by
  unfold State.countAccess
  with_reducible repeat' first
    | assumption | (extract_lets +onlyGivenNames x; clear_value x; revert x; intro _) | apply State.setPme_forms

theorem State.hookDrop_forms (s : State) (hyp_s : s.canonical = true) :
    (State.hookDrop s).canonical = true := by
  unfold State.hookDrop
  with_reducible repeat' first
    | assumption | apply State.bump_forms | apply State.intr_forms | apply State.post_forms

theorem State.hook_forms (s : State) (r : Bytes) (hyp_s : s.canonical = true) :
    (State.hook s r).canonical = true := by
  unfold State.hook
  with_reducible repeat' first
    | simp -zeta only [canonical_mk, near_mk, far_mk] | assumption | intro _
    | (extract_lets +onlyGivenNames x; have hx : x.canonical = true := ?_; (on_goal 2 => subst x); clear_value x; revert x; intro _ _)
    | (extract_lets +onlyGivenNames x; have hx : ∀ y0 : Nat, ∀ y1 : State, y1.canonical = true → (x y0 y1).canonical = true := ?_; (on_goal 2 => subst x); clear_value x; revert x; intro _ _)
    | apply forms_ite | apply State.onTier_forms | apply State.hookDrop_forms | apply_assumption

theorem State.hookSpace_forms (s : State) (kind : Nat) (hyp_s : s.canonical = true) :
    (State.hookSpace s kind).canonical = true := by
  unfold State.hookSpace
  with_reducible repeat' first
    | assumption | apply State.hook_forms

theorem State.checkMark_forms (s : State) (hyp_s : s.canonical = true) :
    (State.checkMark s).canonical = true := by
  unfold State.checkMark
  with_reducible repeat' first
    | assumption | (extract_lets +onlyGivenNames x; have hx : x.canonical = true := ?_; (on_goal 2 => subst x); clear_value x; revert x; intro _ _)
    | (extract_lets +onlyGivenNames x; clear_value x; revert x; intro _) | apply forms_ite | apply State.onTier_forms | apply State.intr_forms
    | apply State.post_forms | apply State.hookSpace_forms

theorem State.noSpace_forms (s : State) (hyp_s : s.canonical = true) :
    (State.noSpace s).canonical = true := by
  unfold State.noSpace
  with_reducible repeat' first
    | assumption | (extract_lets +onlyGivenNames x; have hx : x.canonical = true := ?_; (on_goal 2 => subst x); clear_value x; revert x; intro _ _)
    | apply forms_ite | apply State.onTier_forms | apply State.intr_forms | apply State.post_forms

theorem State.dropNear_forms (s : State) (page : Nat) (hyp_s : s.canonical = true) :
    (State.dropNear s page).canonical = true := by
  unfold State.dropNear
  with_reducible repeat' first
    | assumption | (extract_lets +onlyGivenNames x; clear_value x; revert x; intro _) | apply forms_ite | apply State.freeNear_forms
    | apply State.checkMark_forms

theorem State.setMove_forms (s : State) (page : Nat) (m : Option Move) (hyp_s : s.canonical = true) :
    (State.setMove s page m).canonical = true := by
  unfold State.setMove
  with_reducible repeat' first
    | assumption | apply State.onTier_forms

theorem State.chargeMove_forms (s : State) (a n : Nat) (hyp_s : s.canonical = true) :
    (State.chargeMove s a n).canonical = true := by
  unfold State.chargeMove
  with_reducible repeat' first
    | assumption | (extract_lets +onlyGivenNames x; clear_value x; revert x; intro _) | apply State.onSpc_forms

theorem State.movePlace_forms (s : State) (page : Nat) (m : Move) (hyp_s : s.canonical = true) :
    (State.movePlace s page m).canonical = true := by
  unfold State.movePlace
  with_reducible repeat' first
    | assumption | (extract_lets +onlyGivenNames x; have hx : x.canonical = true := ?_; (on_goal 2 => subst x); clear_value x; revert x; intro _ _)
    | (extract_lets +onlyGivenNames x; clear_value x; revert x; intro _) | apply forms_ite | apply State.takeNear_forms | apply State.setMove_forms
    | apply State.setPme_forms | apply State.checkMark_forms | apply State.noSpace_forms
    | (split <;> try (rename_i h; have hp := forms_ofEq h ?_; clear h))

theorem State.startPull_forms (s : State) (page cls : Nat) (hyp_s : s.canonical = true) :
    (State.startPull s page cls).canonical = true := by
  unfold State.startPull
  with_reducible repeat' first
    | assumption | (extract_lets +onlyGivenNames x; have hx : x.canonical = true := ?_; (on_goal 2 => subst x); clear_value x; revert x; intro _ _)
    | (extract_lets +onlyGivenNames x; clear_value x; revert x; intro _) | apply State.bump_forms | apply State.hook_forms
    | apply State.onTier_forms | apply State.movePlace_forms

theorem State.needPull_forms (s : State) (page cls : Nat) (hyp_s : s.canonical = true) :
    (State.needPull s page cls).canonical = true := by
  unfold State.needPull
  with_reducible repeat' first
    | assumption | apply forms_ite | apply State.startPull_forms | (split <;> try (rename_i h; have hp := forms_ofEq h ?_; clear h))

theorem State.modSched_forms (s : State) (i : Nat) (f : Sched → Sched) (hyp_s : s.canonical = true) :
    (State.modSched s i f).canonical = true := by
  unfold State.modSched
  with_reducible repeat' first
    | assumption | apply State.onTier_forms

theorem State.carryPoison_forms (s : State) (page : Nat) (hyp_s : s.canonical = true) :
    (State.carryPoison s page).canonical = true := by
  unfold State.carryPoison
  with_reducible repeat' first
    | assumption | intro _ | (extract_lets +onlyGivenNames x; clear_value x; revert x; intro _) | apply forms_ite | apply forms_each
    | apply State.poisonLine_forms | (split <;> try (rename_i h; have hp := forms_ofEq h ?_; clear h))

theorem State.discardNear_forms (s : State) (page : Nat) (hyp_s : s.canonical = true) :
    (State.discardNear s page).canonical = true := by
  unfold State.discardNear
  with_reducible repeat' first
    | assumption | (extract_lets +onlyGivenNames x; clear_value x; revert x; intro _) | apply forms_ite | apply State.carryPoison_forms
    | apply State.dropNear_forms | apply State.setPme_forms | apply State.bump_forms

theorem State.unpinAway_forms (s : State) (i : Nat) (c : Sched) (k : Nat) (drop : Bool) (hyp_s : s.canonical = true) :
    (State.unpinAway s i c k drop).canonical = true := by
  unfold State.unpinAway
  with_reducible repeat' first
    | assumption | intro _ | apply forms_each | apply State.emit_forms

theorem State.peerPin_forms (s : State) (page owner : Nat) (on drop : Bool) (hyp_s : s.canonical = true) :
    (State.peerPin s page owner on drop).canonical = true := by
  unfold State.peerPin
  with_reducible repeat' first
    | assumption | (extract_lets +onlyGivenNames x; have hx : x.canonical = true := ?_; (on_goal 2 => subst x); clear_value x; revert x; intro _ _)
    | (extract_lets +onlyGivenNames x; clear_value x; revert x; intro _) | apply forms_ite | apply State.onTier_forms
    | apply State.discardNear_forms

theorem State.endSched_forms (s : State) (i st : Nat) (hyp_s : s.canonical = true) :
    (State.endSched s i st).canonical = true := by
  unfold State.endSched
  with_reducible repeat' first
    | assumption | intro _
    | (extract_lets +onlyGivenNames x; have hx : x.canonical = true := ?_; (on_goal 2 => subst x); clear_value x; revert x; intro _ _)
    | apply forms_each | apply State.unpinAway_forms | apply State.modSched_forms | apply State.post_forms
    | (split <;> try (rename_i h; have hp := forms_ofEq h ?_; clear h))

theorem State.consume_forms (s : State) (i : Nat) (k : Nat) (hyp_s : s.canonical = true) :
    (State.consume s i k).canonical = true := by
  unfold State.consume
  with_reducible repeat' first
    | assumption | intro _
    | (extract_lets +onlyGivenNames x; have hx : x.canonical = true := ?_; (on_goal 2 => subst x); clear_value x; revert x; intro _ _)
    | (extract_lets +onlyGivenNames x; clear_value x; revert x; intro _) | apply forms_ite | apply forms_each | apply State.modSched_forms
    | apply State.unpinAway_forms | apply State.discardNear_forms | apply State.intr_forms | apply State.post_forms | apply State.endSched_forms
    | (split <;> try (rename_i h; have hp := forms_ofEq h ?_; clear h))

theorem State.consumeRead_forms (s : State) (page label ld : Nat) (hyp_s : s.canonical = true) :
    (State.consumeRead s page label ld).canonical = true := by
  unfold State.consumeRead
  with_reducible repeat' first
    | assumption | intro _ | (extract_lets +onlyGivenNames x; clear_value x; revert x; intro _) | apply forms_ite | apply forms_each
    | apply State.consume_forms | (split <;> try (rename_i h; have hp := forms_ofEq h ?_; clear h))

theorem State.consumeWord_forms (s : State) (page : Nat) (w : Nat) (hyp_s : s.canonical = true) :
    (State.consumeWord s page w).canonical = true := by
  unfold State.consumeWord
  with_reducible repeat' first
    | assumption | intro _ | apply forms_ite | apply forms_each | apply State.consume_forms

/-! ## QosBase -/

theorem State.rescaled_forms (s before : State) (hyp_s : s.canonical = true) (hyp_before : before.canonical = true) :
    (State.rescaled s before).canonical = true := by
  unfold State.rescaled
  with_reducible repeat' first
    | assumption | intro _ | apply forms_ite | apply forms_each | apply State.intr_forms | apply State.post_forms

theorem State.hostWidth_forms (s : State) (p w : Nat) (hyp_s : s.canonical = true) :
    (State.hostWidth s p w).canonical = true := by
  unfold State.hostWidth
  with_reducible repeat' first
    | assumption | apply forms_ite | apply State.onHost_forms | apply State.intr_forms | apply State.post_forms | apply State.rescaled_forms
    | (split <;> try (rename_i h; have hp := forms_ofEq h ?_; clear h))

theorem State.modLat_forms (s : State) (holder c : Nat) (f : Lat → Lat) (hyp_s : s.canonical = true) :
    (State.modLat s holder c f).canonical = true := by
  unfold State.modLat
  with_reducible repeat' first
    | assumption | apply State.onQos_forms

theorem State.demand_forms (s : State) (holder c r n : Nat) (hyp_s : s.canonical = true) :
    (State.demand s holder c r n).canonical = true := by
  unfold State.demand
  with_reducible repeat' first
    | assumption | apply State.onQos_forms

theorem State.grant_forms (s : State) (holder c r n : Nat) (hyp_s : s.canonical = true) :
    (State.grant s holder c r n).canonical = true := by
  unfold State.grant
  with_reducible repeat' first
    | assumption | (extract_lets +onlyGivenNames x; have hx : x.canonical = true := ?_; (on_goal 2 => subst x); clear_value x; revert x; intro _ _)
    | apply forms_ite | apply State.onQos_forms | apply State.modLat_forms

theorem State.meter_forms (s : State) (holder c r n : Nat) (hyp_s : s.canonical = true) :
    (State.meter s holder c r n).canonical = true := by
  unfold State.meter
  with_reducible repeat' first
    | assumption | apply State.demand_forms | apply State.grant_forms

theorem State.finished_forms (s : State) (holder c ns : Nat) (hyp_s : s.canonical = true) :
    (State.finished s holder c ns).canonical = true := by
  unfold State.finished
  with_reducible repeat' first
    | assumption | (extract_lets +onlyGivenNames x; clear_value x; revert x; intro _) | apply forms_ite | apply State.modLat_forms

end Sys2Proof.Machine
end

