-- ==== Sys2Proof/Laws/FormsHome.lean ====
section
/-! SUPPORT. The canonical forms are kept by the merge buffer, the directory, the page home, the portal, mailboxes and slots. -/

set_option linter.all false

namespace Sys2Proof.Machine

open Sys2Proof

/-! ## Merge -/

theorem State.modSlot_forms (s : State) (i : Nat) (f : Slot → Slot) (hyp_s : s.canonical = true) :
    (State.modSlot s i f).canonical = true := by
  unfold State.modSlot
  with_reducible repeat' first
    | assumption | apply State.onHusk_forms

theorem State.freeSlot_forms (s : State) (i : Nat) (hyp_s : s.canonical = true) :
    (State.freeSlot s i).canonical = true := by
  unfold State.freeSlot
  with_reducible repeat' first
    | assumption | apply State.onHusk_forms

theorem State.closeSlot_forms (s : State) (i : Nat) (hyp_s : s.canonical = true) :
    (State.closeSlot s i).canonical = true := by
  unfold State.closeSlot
  with_reducible repeat' first
    | assumption | apply State.modSlot_forms

theorem State.closeCheck_forms (s : State) (i : Nat) (hyp_s : s.canonical = true) :
    (State.closeCheck s i).canonical = true := by
  unfold State.closeCheck
  with_reducible repeat' first
    | assumption | (extract_lets +onlyGivenNames x; clear_value x; revert x; intro _) | apply forms_ite | apply State.closeSlot_forms
    | (split <;> try (rename_i h; have hp := forms_ofEq h ?_; clear h))

theorem State.takeSlot_forms (s : State) (page : Nat) (twin bg : Bool) (hyp_s : s.canonical = true) :
    (State.takeSlot s page twin bg).canonical = true := by
  unfold State.takeSlot
  with_reducible repeat' first
    | (simp -zeta only [canonical_mk]; apply canon; assumption) | (extract_lets +onlyGivenNames x; clear_value x; revert x; intro _)
    | apply State.onHusk_forms

theorem State.closeOldest_forms (s : State) (hyp_s : s.canonical = true) :
    (State.closeOldest s).canonical = true := by
  unfold State.closeOldest
  with_reducible repeat' first
    | assumption | apply State.closeSlot_forms | (split <;> try (rename_i h; have hp := forms_ofEq h ?_; clear h))

theorem State.slotStore_forms (s : State) (page j mask : Nat) (d : Bytes) (hidden twin : Bool) (hyp_s : s.canonical = true) :
    (State.slotStore s page j mask d hidden twin).1.canonical = true := by
  unfold State.slotStore
  with_reducible repeat' first
    | simp -zeta only [canonical_mk, near_mk, far_mk] | assumption
    | (extract_lets +onlyGivenNames x; have hx : x.canonical = true := ?_; (on_goal 2 => subst x); clear_value x; revert x; intro _ _)
    | apply forms_ite | apply State.takeSlot_forms | apply State.modSlot_forms | apply State.closeCheck_forms
    | (split <;> try (rename_i h; have hp := forms_ofEq h ?_; clear h))

theorem State.slotWait_forms (s : State) (hyp_s : s.canonical = true) :
    (State.slotWait s).canonical = true := by
  unfold State.slotWait
  with_reducible repeat' first
    | assumption | apply State.closeOldest_forms | apply State.bump_forms | apply State.intr_forms | apply State.post_forms

theorem State.branWatch_forms (s : State) (a : Nat) (f : State → State) (hyp_s : s.canonical = true) (hyp_f : ∀ z : State, z.canonical = true → (f z).canonical = true) :
    (State.branWatch s a f).canonical = true := by
  unfold State.branWatch
  with_reducible repeat' first
    | assumption | (extract_lets +onlyGivenNames x; have hx : x.canonical = true := ?_; (on_goal 2 => subst x); clear_value x; revert x; intro _ _)
    | (extract_lets +onlyGivenNames x; clear_value x; revert x; intro _) | apply forms_ite | apply State.intr_forms | apply State.post_forms
    | apply_assumption

theorem State.fetchTwin_forms (s : State) (page : Nat) (hyp_s : s.canonical = true) :
    (State.fetchTwin s page).canonical = true := by
  unfold State.fetchTwin
  repeat' first
    | (simp -zeta only [canonical_mk]; apply canon; assumption)
    | simp -zeta only [canonical_mk, near_mk, far_mk]
    | with_reducible apply forms_and
    | with_reducible apply media_and
    | (with_reducible apply State.near_wf; with_reducible assumption)
    | (with_reducible apply State.far_wf; with_reducible assumption)
    | (with_reducible apply State.regs_rising; with_reducible assumption)
    | (with_reducible apply Near.linesOk)
    | (with_reducible apply Far.flashOk)
    | (with_reducible apply Far.parityOk)
    | with_reducible assumption
    | intro _
    | (extract_lets +onlyGivenNames x; have hx : x.canonical = true := ?_; (on_goal 2 => subst x); clear_value x; revert x; intro _ _)
    | (extract_lets +onlyGivenNames x; have hx : x.1.canonical = true := ?_; (on_goal 2 => subst x); clear_value x; revert x; intro _ _)
    | (extract_lets +onlyGivenNames x; have hx : x.wf = true := ?_; (on_goal 2 => subst x); clear_value x; revert x; intro _ _)
    | (extract_lets +onlyGivenNames x; clear_value x; revert x; intro _)
    | with_reducible apply forms_each
    | with_reducible apply State.modSlot_forms
    | with_reducible apply State.takeSlot_forms
    | with_reducible apply State.emit_forms
    | (split <;> try (rename_i h; have hp := forms_ofEq h ?_; clear h))
    | (fail_if_no_progress beta_reduce)
    | (fail_if_no_progress dsimp only)
    | with_reducible apply State.near_wf
    | with_reducible apply State.far_wf
    | with_reducible apply State.regs_rising

theorem State.fromParity_forms (s : State) (page : Nat) (hyp_s : s.canonical = true) :
    (State.fromParity s page).1.canonical = true := by
  unfold State.fromParity
  with_reducible repeat' first
    | simp -zeta only [canonical_mk, near_mk, far_mk] | assumption | intro _
    | (extract_lets +onlyGivenNames x; have hx : x.canonical = true := ?_; (on_goal 2 => subst x); clear_value x; revert x; intro _ _)
    | (extract_lets +onlyGivenNames x; clear_value x; revert x; intro _) | apply forms_iteFst | apply forms_each | apply State.intr_forms
    | apply State.intError_forms | apply State.suggestRun_forms | apply State.writeLine_forms | apply State.bump_forms | apply State.post_forms
    | apply State.takeNear_forms | apply State.freeNear_forms | apply State.setPme_forms
    | (split <;> try (rename_i h; have hp := forms_ofEq h ?_; clear h))

theorem State.losePage_forms (s : State) (page synd : Nat) (hyp_s : s.canonical = true) :
    (State.losePage s page synd).canonical = true := by
  unfold State.losePage
  with_reducible repeat' first
    | assumption | intro _
    | (extract_lets +onlyGivenNames x; have hx : x.canonical = true := ?_; (on_goal 2 => subst x); clear_value x; revert x; intro _ _)
    | (extract_lets +onlyGivenNames x; clear_value x; revert x; intro _) | apply forms_ite | apply State.dropNear_forms
    | apply State.clearPage_forms | apply State.branWatch_forms | apply State.setPme_forms | apply State.poisonPageEntry_forms
    | apply State.freeFar_forms

theorem State.recover_forms (s : State) (page cls : Nat) (hyp_s : s.canonical = true) :
    (State.recover s page cls).1.canonical = true := by
  unfold State.recover
  with_reducible repeat' first
    | simp -zeta only [canonical_mk, near_mk, far_mk] | assumption
    | (extract_lets +onlyGivenNames x; have hx : x.canonical = true := ?_; (on_goal 2 => subst x); clear_value x; revert x; intro _ _)
    | (extract_lets +onlyGivenNames x; clear_value x; revert x; intro _) | apply forms_iteFst | apply State.suggestRun_forms
    | apply State.dropNear_forms | apply State.setPme_forms | apply State.startPull_forms | apply State.uncorrNear_forms
    | apply State.fetchTwin_forms | apply State.closeOldest_forms | apply State.fromParity_forms | apply State.losePage_forms
    | (split <;> try (rename_i h; have hp := forms_ofEq h ?_; clear h))

theorem State.noteGrains_forms (s : State) (page : Nat) (ins : List GIn) (hyp_s : s.canonical = true) :
    (State.noteGrains s page ins).canonical = true := by
  unfold State.noteGrains
  with_reducible repeat' first
    | assumption | intro _
    | (extract_lets +onlyGivenNames x; have hx : x.canonical = true := ?_; (on_goal 2 => subst x); clear_value x; revert x; intro _ _)
    | (extract_lets +onlyGivenNames x; clear_value x; revert x; intro _) | apply forms_ite | apply forms_each | apply State.corrected_forms
    | apply State.decFail_forms | apply State.bump_forms | apply State.post_forms

theorem State.noteHusk_forms (s : State) (h : Husk) (hyp_s : s.canonical = true) :
    (State.noteHusk s h).canonical = true := by
  unfold State.noteHusk
  with_reducible repeat' first
    | assumption | (extract_lets +onlyGivenNames x; have hx : x.canonical = true := ?_; (on_goal 2 => subst x); clear_value x; revert x; intro _ _)
    | apply forms_ite | apply State.bump_forms | apply State.post_forms

theorem State.capExhausted_forms (s : State) (page : Nat) (x : Slot) (hyp_s : s.canonical = true) :
    (State.capExhausted s page x).canonical = true := by
  unfold State.capExhausted
  with_reducible repeat' first
    | assumption | intro _
    | (extract_lets +onlyGivenNames x; have hx : x.canonical = true := ?_; (on_goal 2 => subst x); clear_value x; revert x; intro _ _)
    | apply forms_each | apply State.freeSlot_forms | apply State.poisonLine_forms | apply State.bump_forms | apply State.intr_forms
    | apply State.post_forms

theorem State.recodePoison_forms (s : State) (page : Nat) (x : Slot) (h : Husk) (hyp_s : s.canonical = true) :
    (State.recodePoison s page x h).canonical = true := by
  unfold State.recodePoison
  with_reducible repeat' first
    | assumption | intro _
    | (extract_lets +onlyGivenNames x; have hx : x.canonical = true := ?_; (on_goal 2 => subst x); clear_value x; revert x; intro _ _)
    | apply forms_ite | apply forms_each | apply State.plistDrop_forms | apply State.clearLine_forms | apply State.poisonLine_forms

theorem State.sendClose_forms (s : State) (page seq : Nat) (hyp_s : s.canonical = true) :
    (State.sendClose s page seq).canonical = true := by
  unfold State.sendClose
  with_reducible repeat' first
    | assumption | apply State.emit_forms

theorem State.storeHusk_forms (s : State) (page : Nat) (h : Husk) (id : Nat) (durable : Bool) (hyp_s : s.canonical = true) :
    (State.storeHusk s page h id durable).1.canonical = true := by
  unfold State.storeHusk
  repeat' first
    | (simp -zeta only [canonical_mk]; apply canon; assumption)
    | simp -zeta only [canonical_mk, near_mk, far_mk]
    | with_reducible apply forms_and
    | with_reducible apply media_and
    | (with_reducible apply State.near_wf; with_reducible assumption)
    | (with_reducible apply State.far_wf; with_reducible assumption)
    | (with_reducible apply State.regs_rising; with_reducible assumption)
    | (with_reducible apply Near.linesOk)
    | (with_reducible apply Far.flashOk)
    | (with_reducible apply Far.parityOk)
    | with_reducible assumption
    | intro _
    | (extract_lets +onlyGivenNames x; have hx : x.canonical = true := ?_; (on_goal 2 => subst x); clear_value x; revert x; intro _ _)
    | (extract_lets +onlyGivenNames x; have hx : x.1.canonical = true := ?_; (on_goal 2 => subst x); clear_value x; revert x; intro _ _)
    | (extract_lets +onlyGivenNames x; have hx : x.wf = true := ?_; (on_goal 2 => subst x); clear_value x; revert x; intro _ _)
    | (extract_lets +onlyGivenNames x; clear_value x; revert x; intro _)
    | with_reducible apply forms_ite
    | with_reducible apply forms_iteFst
    | with_reducible apply forms_oite
    | with_reducible apply State.noSpace_forms
    | with_reducible apply State.farAppend_forms
    | with_reducible apply State.takeNear_forms
    | with_reducible apply State.writeHusk_forms
    | with_reducible apply State.applyDeltas_forms
    | with_reducible apply State.freeNear_forms
    | with_reducible apply State.branWatch_forms
    | with_reducible apply State.setPme_forms
    | with_reducible apply State.freeFar_forms
    | with_reducible apply State.checkMark_forms
    | (split <;> try (rename_i h; have hp := forms_ofEq h ?_; clear h))
    | (fail_if_no_progress beta_reduce)
    | (fail_if_no_progress dsimp only)
    | with_reducible apply State.near_wf
    | with_reducible apply State.far_wf
    | with_reducible apply State.regs_rising

/-! ## Directory -/

theorem State.dirPut_forms (s : State) (l : Nat) (e : DirEnt) (hyp_s : s.canonical = true) :
    (State.dirPut s l e).canonical = true := by
  unfold State.dirPut
  with_reducible repeat' first
    | assumption | (extract_lets +onlyGivenNames x; clear_value x; revert x; intro _) | apply State.onDir_forms

theorem State.dirDel_forms (s : State) (l : Nat) (hyp_s : s.canonical = true) :
    (State.dirDel s l).canonical = true := by
  unfold State.dirDel
  with_reducible repeat' first
    | assumption | (extract_lets +onlyGivenNames x; clear_value x; revert x; intro _) | apply State.onDir_forms

theorem State.dirMod_forms (s : State) (l : Nat) (f : DirEnt → DirEnt) (hyp_s : s.canonical = true) :
    (State.dirMod s l f).canonical = true := by
  unfold State.dirMod
  with_reducible repeat' first
    | assumption | apply State.onDir_forms

theorem State.dirPutOpt_forms (s : State) (l : Nat) (y0 : Option DirEnt) (hyp_s : s.canonical = true) :
    (State.dirPutOpt s l y0).canonical = true := by
  unfold State.dirPutOpt
  with_reducible repeat' first
    | assumption | apply State.dirPut_forms | apply State.dirDel_forms | (split <;> try (rename_i h; have hp := forms_ofEq h ?_; clear h))

theorem State.markHeld_forms (s : State) (l : Nat) (hyp_s : s.canonical = true) :
    (State.markHeld s l).canonical = true := by
  unfold State.markHeld
  with_reducible repeat' first
    | (simp -zeta only [canonical_mk]; apply canon; assumption) | assumption | (extract_lets +onlyGivenNames x; clear_value x; revert x; intro _)
    | apply forms_ite | apply State.toTwin_forms | (split <;> try (rename_i h; have hp := forms_ofEq h ?_; clear h))

theorem State.send_forms (s : State) (op : MOp) (dst label holder tag cxl synd addr : Nat) (data : Bytes) (hyp_s : s.canonical = true) :
    (State.send s op dst label holder tag cxl synd addr data).canonical = true := by
  unfold State.send
  with_reducible repeat' first
    | assumption | apply State.emit_forms

theorem State.sendSnoop_forms (s : State) (k : SnpKind) (l n h : Nat) (hyp_s : s.canonical = true) :
    (State.sendSnoop s k l n h).canonical = true := by
  unfold State.sendSnoop
  with_reducible repeat' first
    | assumption | (extract_lets +onlyGivenNames x; have hx : x.canonical = true := ?_; (on_goal 2 => subst x); clear_value x; revert x; intro _ _)
    | apply forms_ite | apply State.bump_forms | apply State.emit_forms | apply State.send_forms

theorem State.snoop_forms (s : State) (k : SnpKind) (l : Nat) (req : Option Nat) (hs : List Nat) (victim excl : Bool) (hyp_s : s.canonical = true) :
    (State.snoop s k l req hs victim excl).canonical = true := by
  unfold State.snoop
  with_reducible repeat' first
    | assumption | intro _
    | (extract_lets +onlyGivenNames x; have hx : x.canonical = true := ?_; (on_goal 2 => subst x); clear_value x; revert x; intro _ _)
    | (extract_lets +onlyGivenNames x; clear_value x; revert x; intro _) | apply forms_each | apply State.onDir_forms | apply State.sendSnoop_forms

theorem State.dirPend_forms (s : State) (l : Nat) (hyp_s : s.canonical = true) :
    (State.dirPend s l).canonical = true := by
  unfold State.dirPend
  with_reducible repeat' first
    | assumption | apply State.dirPut_forms | (split <;> try (rename_i h; have hp := forms_ofEq h ?_; clear h))

theorem State.dirAlloc_forms (s : State) (l : Nat) (e : DirEnt) (hyp_s : s.canonical = true) :
    (State.dirAlloc s l e).1.canonical = true := by
  unfold State.dirAlloc
  with_reducible repeat' first
    | simp -zeta only [canonical_mk, near_mk, far_mk] | assumption
    | (extract_lets +onlyGivenNames x; have hx : x.canonical = true := ?_; (on_goal 2 => subst x); clear_value x; revert x; intro _ _)
    | (extract_lets +onlyGivenNames x; clear_value x; revert x; intro _) | apply forms_ite | apply forms_iteFst | apply State.dirPut_forms
    | apply State.markHeld_forms | apply State.intr_forms | apply State.post_forms | apply State.bump_forms | apply State.dirDel_forms
    | apply State.onDir_forms | apply State.snoop_forms | (split <;> try (rename_i h; have hp := forms_ofEq h ?_; clear h))

theorem State.lostCap_forms (s : State) (h cause : Nat) (hyp_s : s.canonical = true) :
    (State.lostCap s h cause).canonical = true := by
  unfold State.lostCap
  with_reducible repeat' first
    | assumption | apply forms_ite | apply State.setReg_forms

theorem State.ownerLost_forms (s : State) (l h : Nat) (hyp_s : s.canonical = true) :
    (State.ownerLost s l h).canonical = true := by
  unfold State.ownerLost
  with_reducible repeat' first
    | assumption | (extract_lets +onlyGivenNames x; have hx : x.canonical = true := ?_; (on_goal 2 => subst x); clear_value x; revert x; intro _ _)
    | (extract_lets +onlyGivenNames x; clear_value x; revert x; intro _) | apply forms_ite | apply State.dirDel_forms | apply State.onHusk_forms
    | apply State.poisonLine_forms | apply State.bump_forms | apply State.intr_forms | apply State.postFor_forms | apply State.setReg_forms

/-! ## Grant -/

theorem State.toLane_forms (s : State) (lossless : Bool) (bytes cost : Nat) (hyp_s : s.canonical = true) :
    OkSome (State.toLane s lossless bytes cost) := by
  unfold State.toLane
  with_reducible repeat' first
    | assumption | apply forms_map | intro _ | (extract_lets +onlyGivenNames x; clear_value x; revert x; intro _) | apply State.onHusk_forms

theorem State.toLanes_forms (s : State) (lossless : Bool) (bytes cost : Nat) (y0 : Nat) (hyp_s : s.canonical = true) :
    OkSome (State.toLanes s lossless bytes cost y0) := by
  induction y0 generalizing s lossless bytes cost with
  | zero =>
    unfold State.toLanes
    with_reducible repeat' first
      | assumption | apply forms_some
  | succ n ih =>
    unfold State.toLanes
    with_reducible repeat' first
      | assumption | apply forms_bind | intro _ | apply ih | apply State.toLane_forms

theorem State.drainLanes_forms (s : State) (hyp_s : s.canonical = true) :
    (State.drainLanes s).canonical = true := by
  unfold State.drainLanes
  with_reducible repeat' first
    | assumption | apply forms_ite | apply State.onHusk_forms

/-! ## Home -/

theorem State.modReq_forms (s : State) (id : Nat) (f : Req → Req) (hyp_s : s.canonical = true) :
    (State.modReq s id f).canonical = true := by
  unfold State.modReq
  with_reducible repeat' first
    | (simp -zeta only [canonical_mk]; apply canon; assumption)

theorem State.dropReq_forms (s : State) (id : Nat) (hyp_s : s.canonical = true) :
    (State.dropReq s id).canonical = true := by
  unfold State.dropReq
  with_reducible repeat' first
    | (simp -zeta only [canonical_mk]; apply canon; assumption)

theorem State.await_forms (s : State) (id : Nat) (w : Wait) (hyp_s : s.canonical = true) :
    (State.await s id w).canonical = true := by
  unfold State.await
  with_reducible repeat' first
    | assumption | apply State.modReq_forms

theorem State.ctxLine_forms (s : State) (n k line : Nat) (d : Bytes) (synd : Nat) (rd : Bool) (hyp_s : s.canonical = true) :
    (State.ctxLine s n k line d synd rd).canonical = true := by
  unfold State.ctxLine
  with_reducible repeat' first
    | assumption | (extract_lets +onlyGivenNames x; clear_value x; revert x; intro _) | apply State.onTlr_forms
    | (split <;> try (rename_i h; have hp := forms_ofEq h ?_; clear h))

theorem State.ringLine_forms (s : State) (ld r idx : Nat) (d : Bytes) (rd : Bool) (hyp_s : s.canonical = true) :
    (State.ringLine s ld r idx d rd).canonical = true := by
  unfold State.ringLine
  with_reducible repeat' first
    | assumption | apply forms_ite | apply State.onTlr_forms

theorem State.poisonWritten_forms (s : State) (l synd : Nat) (hyp_s : s.canonical = true) :
    (State.poisonWritten s l synd).canonical = true := by
  unfold State.poisonWritten
  with_reducible repeat' first
    | assumption | (extract_lets +onlyGivenNames x; have hx : x.canonical = true := ?_; (on_goal 2 => subst x); clear_value x; revert x; intro _ _)
    | apply forms_ite | apply State.onHusk_forms | apply State.poisonLine_forms

theorem State.moverLine_forms (s : State) (m : Nat) (r : Req) (d : Bytes) (synd : Nat) (hyp_s : s.canonical = true) :
    (State.moverLine s m r d synd).canonical = true := by
  unfold State.moverLine
  with_reducible repeat' first
    | simp -zeta only [canonical_mk, near_mk, far_mk] | assumption | intro _
    | (extract_lets +onlyGivenNames x; have hx : x.canonical = true := ?_; (on_goal 2 => subst x); clear_value x; revert x; intro _ _)
    | (extract_lets +onlyGivenNames x; have hx : ∀ y0 : State, y0.canonical = true → ∀ y1 : Mover, (x y0 y1).canonical = true := ?_; (on_goal 2 => subst x); clear_value x; revert x; intro _ _)
    | (extract_lets +onlyGivenNames x; clear_value x; revert x; intro _) | apply forms_ite | apply State.modSlot_forms
    | apply State.poisonLine_forms | apply State.onInt_forms | apply State.poisonWritten_forms
    | (split <;> try (rename_i h; have hp := forms_ofEq h ?_; clear h)) | apply_assumption

theorem State.answer_forms (s : State) (r : Req) (d : Bytes) (synd : Nat) (hyp_s : s.canonical = true) :
    (State.answer s r d synd).canonical = true := by
  unfold State.answer
  with_reducible repeat' first
    | assumption | (extract_lets +onlyGivenNames x; have hx : x.canonical = true := ?_; (on_goal 2 => subst x); clear_value x; revert x; intro _ _)
    | (extract_lets +onlyGivenNames x; clear_value x; revert x; intro _) | apply forms_ite | apply State.dropReq_forms | apply State.bump_forms
    | apply State.finished_forms | apply State.grant_forms | apply State.emit_forms | apply State.send_forms | apply State.ctxLine_forms
    | apply State.ringLine_forms | apply State.moverLine_forms | (split <;> try (rename_i h; have hp := forms_ofEq h ?_; clear h))

theorem State.settle_forms (s : State) (id : Nat) (p : Wait → Bool) (hyp_s : s.canonical = true) :
    (State.settle s id p).canonical = true := by
  unfold State.settle
  with_reducible repeat' first
    | assumption | (extract_lets +onlyGivenNames x; have hx : x.canonical = true := ?_; (on_goal 2 => subst x); clear_value x; revert x; intro _ _)
    | (extract_lets +onlyGivenNames x; clear_value x; revert x; intro _) | apply forms_ite | apply State.modReq_forms | apply State.answer_forms
    | (split <;> try (rename_i h; have hp := forms_ofEq h ?_; clear h))

theorem State.awake_forms (s : State) (hyp_s : s.canonical = true) :
    (State.awake s).canonical = true := by
  unfold State.awake
  with_reducible repeat' first
    | assumption | apply forms_ite | apply State.onPwr_forms

theorem State.storedLine_forms (s : State) (page j cls : Nat) (hyp_s : s.canonical = true) :
    (State.storedLine s page j cls).1.canonical = true := by
  unfold State.storedLine
  with_reducible repeat' first
    | simp -zeta only [canonical_mk, near_mk, far_mk] | assumption | intro _
    | (extract_lets +onlyGivenNames x; have hx : ∀ y0 : State, y0.canonical = true → ∀ y1 : GrainRes, (x y0 y1).1.canonical = true := ?_; (on_goal 2 => subst x); clear_value x; revert x; intro _ _)
    | (extract_lets +onlyGivenNames x; clear_value x; revert x; intro _) | apply forms_ite | apply forms_iteFst | apply State.intrDrc_forms
    | apply State.post_forms | apply State.corrected_forms | apply State.decFail_forms | apply State.recover_forms
    | (split <;> try (rename_i h; have hp := forms_ofEq h ?_; clear h)) | apply_assumption

theorem State.readLine_forms (s : State) (page j cls : Nat) (hyp_s : s.canonical = true) :
    (State.readLine s page j cls).1.canonical = true := by
  unfold State.readLine
  with_reducible repeat' first
    | simp -zeta only [canonical_mk, near_mk, far_mk] | assumption | intro _
    | (extract_lets +onlyGivenNames x; have hx : ∀ y0 : State × RdRes, y0.1.canonical = true → (x y0).1.canonical = true := ?_; (on_goal 2 => subst x); clear_value x; revert x; intro _ _)
    | (extract_lets +onlyGivenNames x; clear_value x; revert x; intro _) | apply forms_iteFst | apply State.needPull_forms
    | apply State.storedLine_forms | (split <;> try (rename_i h; have hp := forms_ofEq h ?_; clear h)) | apply_assumption

theorem State.expandIn_forms (s : State) (c page : Nat) (hyp_s : s.canonical = true) :
    (State.expandIn s c page).canonical = true := by
  unfold State.expandIn
  with_reducible repeat' first
    | assumption | apply State.onTlr_forms

theorem State.wantExpansion_forms (s : State) (page : Nat) (hyp_s : s.canonical = true) :
    (State.wantExpansion s page).canonical = true := by
  unfold State.wantExpansion
  with_reducible repeat' first
    | assumption | apply forms_ite | apply State.expandIn_forms | apply State.onTlr_forms | apply State.bump_forms | apply State.post_forms
    | (split <;> try (rename_i h; have hp := forms_ofEq h ?_; clear h))

theorem State.dirWait_forms (s : State) (hyp_s : s.canonical = true) :
    (State.dirWait s).canonical = true := by
  unfold State.dirWait
  with_reducible repeat' first
    | assumption | apply State.bump_forms

theorem State.dirRead_forms (s : State) (r : Req) (hyp_s : s.canonical = true) :
    (State.dirRead s r).1.canonical = true := by
  unfold State.dirRead
  with_reducible repeat' first
    | simp -zeta only [canonical_mk, near_mk, far_mk] | assumption | intro _
    | (extract_lets +onlyGivenNames x; have hx : ∀ y0 : State, y0.canonical = true → ∀ y1 : SnpKind, ∀ y2 : List Nat, ∀ y3 : DirEnt, (x y0 y1 y2 y3).1.canonical = true := ?_; (on_goal 2 => subst x); clear_value x; revert x; intro _ _)
    | (extract_lets +onlyGivenNames x; clear_value x; revert x; intro _) | apply forms_iteFst | apply State.dirWait_forms | apply State.dirPut_forms
    | apply State.snoop_forms | apply State.dirAlloc_forms | (split <;> try (rename_i h; have hp := forms_ofEq h ?_; clear h)) | apply_assumption

theorem State.dirAfterWrite_forms (s : State) (l w : Nat) (mv : MetaV) (hyp_s : s.canonical = true) :
    (State.dirAfterWrite s l w mv).1.canonical = true := by
  unfold State.dirAfterWrite
  with_reducible repeat' first
    | simp -zeta only [canonical_mk, near_mk, far_mk] | assumption | (extract_lets +onlyGivenNames x; clear_value x; revert x; intro _)
    | apply State.dirDel_forms | apply State.dirPut_forms | apply State.dirAlloc_forms
    | (split <;> try (rename_i h; have hp := forms_ofEq h ?_; clear h))

theorem State.sendMirror_forms (s : State) (r : Req) (hyp_s : s.canonical = true) :
    (State.sendMirror s r).1.canonical = true := by
  unfold State.sendMirror
  with_reducible repeat' first
    | simp -zeta only [canonical_mk, near_mk, far_mk] | assumption | (extract_lets +onlyGivenNames x; clear_value x; revert x; intro _)
    | apply forms_iteFst | apply State.send_forms | apply State.onHdg_forms

theorem State.accepted_forms (s : State) (r : Req) (slot : Nat) (snoop : Bool) (hyp_s : s.canonical = true) :
    (State.accepted s r slot snoop).canonical = true := by
  unfold State.accepted
  with_reducible repeat' first
    | simp -zeta only [canonical_mk, near_mk, far_mk] | assumption
    | (extract_lets +onlyGivenNames x; have hx : x.canonical = true := ?_; (on_goal 2 => subst x); clear_value x; revert x; intro _ _)
    | (extract_lets +onlyGivenNames x; clear_value x; revert x; intro _) | apply forms_ite | apply forms_iteFst | apply State.sendMirror_forms
    | apply State.onHdg_forms | apply State.modReq_forms | apply State.answer_forms

theorem State.noteConsumer_forms (s : State) (r : Req) (hyp_s : s.canonical = true) :
    (State.noteConsumer s r).canonical = true := by
  unfold State.noteConsumer
  with_reducible repeat' first
    | assumption | apply forms_ite | apply State.consumeWord_forms

theorem State.storeWrite_forms (s : State) (r : Req) (hidden : Bool) (hyp_s : s.canonical = true) :
    (State.storeWrite s r hidden).canonical = true := by
  unfold State.storeWrite
  with_reducible repeat' first
    | simp -zeta only [canonical_mk, near_mk, far_mk] | assumption
    | (extract_lets +onlyGivenNames x; have hx : x.canonical = true := ?_; (on_goal 2 => subst x); clear_value x; revert x; intro _ _)
    | apply forms_ite | apply State.modReq_forms | apply State.answer_forms | apply State.slotStore_forms | apply State.slotWait_forms
    | apply State.await_forms | apply State.accepted_forms | apply State.noteConsumer_forms

theorem State.hold_forms (s : State) (r : Req) (w : Wait) (hyp_s : s.canonical = true) :
    (State.hold s r w).canonical = true := by
  unfold State.hold
  with_reducible repeat' first
    | assumption | apply forms_ite | apply State.bump_forms | apply State.await_forms

theorem State.meterRead_forms (s : State) (r : Req) (cls : Nat) (hyp_s : s.canonical = true) :
    (State.meterRead s r cls).canonical = true := by
  unfold State.meterRead
  with_reducible repeat' first
    | assumption | (extract_lets +onlyGivenNames x; have hx : x.canonical = true := ?_; (on_goal 2 => subst x); clear_value x; revert x; intro _ _)
    | (extract_lets +onlyGivenNames x; clear_value x; revert x; intro _) | apply forms_ite | apply State.readLines_forms | apply State.meter_forms
    | (split <;> try (rename_i h; have hp := forms_ofEq h ?_; clear h))

theorem State.readLane_forms (s : State) (r : Req) (hyp_s : s.canonical = true) :
    OkSome (State.readLane s r) := by
  unfold State.readLane
  with_reducible repeat' first
    | assumption | apply forms_some | apply forms_soite | (extract_lets +onlyGivenNames x; clear_value x; revert x; intro _)
    | apply State.toLane_forms

theorem State.serveRead_forms (s : State) (r : Req) (cls : Nat) (hyp_s : s.canonical = true) :
    (State.serveRead s r cls).canonical = true := by
  unfold State.serveRead
  with_reducible repeat' first
    | simp -zeta only [canonical_mk, near_mk, far_mk] | assumption | (refine forms_ofSome (by assumption) ?_) | intro _
    | (extract_lets +onlyGivenNames x; have hx : x.canonical = true := ?_; (on_goal 2 => subst x); clear_value x; revert x; intro _ _)
    | (extract_lets +onlyGivenNames x; have hx : ∀ y0 : State, y0.canonical = true → ∀ y1 : Wait, (x y0 y1).canonical = true := ?_; (on_goal 2 => subst x); clear_value x; revert x; intro _ _)
    | apply State.modReq_forms | apply State.readLane_forms | apply State.meterRead_forms | apply State.readLine_forms | apply State.onTier_forms
    | apply State.answer_forms | (split <;> try (rename_i h; have hp := forms_ofEq h ?_; clear h)) | apply_assumption

theorem State.serveWrite_forms (s : State) (r : Req) (hyp_s : s.canonical = true) :
    (State.serveWrite s r).canonical = true := by
  unfold State.serveWrite
  with_reducible repeat' first
    | simp -zeta only [canonical_mk, near_mk, far_mk] | assumption | intro _
    | (extract_lets +onlyGivenNames x; have hx : ∀ y0 : State, y0.canonical = true → (x y0).1.canonical = true := ?_; (on_goal 2 => subst x); clear_value x; revert x; intro _ _)
    | (extract_lets +onlyGivenNames x; have hx : ∀ y0 : State, y0.canonical = true → (x y0).canonical = true := ?_; (on_goal 2 => subst x); clear_value x; revert x; intro _ _)
    | (extract_lets +onlyGivenNames x; clear_value x; revert x; intro _) | apply forms_ite | apply forms_iteFst | apply State.readLine_forms
    | apply State.await_forms | apply State.storeWrite_forms | apply State.dirAfterWrite_forms | apply State.dirWait_forms | apply State.hold_forms
    | apply State.snoop_forms | apply State.dirPut_forms | apply State.slotWait_forms
    | (split <;> try (rename_i h; have hp := forms_ofEq h ?_; clear h)) | apply_assumption

theorem State.forward_forms (s : State) (r : Req) (m : Nat) (hyp_s : s.canonical = true) :
    (State.forward s r m).canonical = true := by
  unfold State.forward
  with_reducible repeat' first
    | (simp -zeta only [canonical_mk]; apply canon; assumption) | assumption
    | (extract_lets +onlyGivenNames x; have hx : x.canonical = true := ?_; (on_goal 2 => subst x); clear_value x; revert x; intro _ _)
    | (extract_lets +onlyGivenNames x; clear_value x; revert x; intro _) | apply State.dropReq_forms | apply State.emit_forms
    | (split <;> try (rename_i h; have hp := forms_ofEq h ?_; clear h))

theorem State.homeAbsent_forms (s : State) (r : Req) (hyp_s : s.canonical = true) :
    (State.homeAbsent s r).canonical = true := by
  unfold State.homeAbsent
  with_reducible repeat' first
    | assumption | apply forms_ite | apply State.dropReq_forms | apply State.answer_forms | apply State.bump_forms

theorem State.serveEvict_forms (s : State) (r : Req) (hyp_s : s.canonical = true) :
    (State.serveEvict s r).canonical = true := by
  unfold State.serveEvict
  with_reducible repeat' first
    | assumption | apply forms_ite | apply State.dropReq_forms | apply State.hold_forms | apply State.dirPutOpt_forms
    | (split <;> try (rename_i h; have hp := forms_ofEq h ?_; clear h))

theorem State.vlrDrop_forms (s : State) (hyp_s : s.canonical = true) :
    (State.vlrDrop s).canonical = true := by
  unfold State.vlrDrop
  with_reducible repeat' first
    | assumption | apply State.bump_forms | apply State.post_forms

theorem State.serveHere_forms (s : State) (r : Req) (cls : Nat) (rd vlr : Bool) (hyp_s : s.canonical = true) :
    (State.serveHere s r cls rd vlr).canonical = true := by
  unfold State.serveHere
  with_reducible repeat' first
    | simp -zeta only [canonical_mk, near_mk, far_mk] | assumption | apply forms_ite | apply forms_iteFst | apply State.countAccess_forms
    | apply State.answer_forms | apply State.wantExpansion_forms | apply State.await_forms | apply State.storeWrite_forms | apply State.hold_forms
    | apply State.serveEvict_forms | apply State.dirRead_forms | apply State.serveRead_forms | apply State.serveWrite_forms
    | (split <;> try (rename_i h; have hp := forms_ofEq h ?_; clear h))

theorem State.serveAt_forms (s : State) (r : Req) (cls : Nat) (hyp_s : s.canonical = true) :
    (State.serveAt s r cls).canonical = true := by
  unfold State.serveAt
  with_reducible repeat' first
    | assumption | (extract_lets +onlyGivenNames x; have hx : x.canonical = true := ?_; (on_goal 2 => subst x); clear_value x; revert x; intro _ _)
    | (extract_lets +onlyGivenNames x; clear_value x; revert x; intro _) | apply forms_ite | apply State.awake_forms | apply State.await_forms
    | apply State.bump_forms | apply State.post_forms | apply State.answer_forms | apply State.pmeCache_forms | apply State.vlrDrop_forms
    | apply State.serveHere_forms | apply State.forward_forms | apply State.homeAbsent_forms
    | (split <;> try (rename_i h; have hp := forms_ofEq h ?_; clear h))

theorem State.serveOne_forms (s : State) (id : Nat) (hyp_s : s.canonical = true) :
    (State.serveOne s id).canonical = true := by
  unfold State.serveOne
  with_reducible repeat' first
    | assumption | apply forms_ite | apply State.serveAt_forms | (split <;> try (rename_i h; have hp := forms_ofEq h ?_; clear h))

theorem State.serveLine_forms (s : State) (l : Nat) (hyp_s : s.canonical = true) :
    (State.serveLine s l).canonical = true := by
  unfold State.serveLine
  with_reducible repeat' first
    | assumption | intro _ | apply forms_each | apply State.serveOne_forms

theorem State.serve_forms (s : State) (id : Nat) (hyp_s : s.canonical = true) :
    (State.serve s id).canonical = true := by
  unfold State.serve
  with_reducible repeat' first
    | assumption | (extract_lets +onlyGivenNames x; have hx : x.canonical = true := ?_; (on_goal 2 => subst x); clear_value x; revert x; intro _ _)
    | apply forms_ite | apply State.serveOne_forms | apply State.serveLine_forms | (split <;> try (rename_i h; have hp := forms_ofEq h ?_; clear h))

theorem State.grantEach_forms (arb res : Nat) (p : Req → Bool) (y0 : Nat) (y1 : List Nat) (y2 : State) (hyp_y2 : y2.canonical = true) :
    (State.grantEach arb res p y0 y1 y2).canonical = true := by
  induction y0 generalizing arb res y1 y2 with
  | zero =>
    unfold State.grantEach
    repeat' first
      | (simp -zeta only [canonical_mk]; apply canon; assumption)
      | simp -zeta only [canonical_mk, near_mk, far_mk]
      | with_reducible apply forms_and
      | with_reducible apply media_and
      | (with_reducible apply State.near_wf; with_reducible assumption)
      | (with_reducible apply State.far_wf; with_reducible assumption)
      | (with_reducible apply State.regs_rising; with_reducible assumption)
      | (with_reducible apply Near.linesOk)
      | (with_reducible apply Far.flashOk)
      | (with_reducible apply Far.parityOk)
      | with_reducible apply linesOk_filter
      | with_reducible apply chunksOk_filter
      | with_reducible assumption
      | intro _
      | (extract_lets +onlyGivenNames x; have hx : x.canonical = true := ?_; (on_goal 2 => subst x); clear_value x; revert x; intro _ _)
      | (extract_lets +onlyGivenNames x; have hx : x.1.canonical = true := ?_; (on_goal 2 => subst x); clear_value x; revert x; intro _ _)
      | (extract_lets +onlyGivenNames x; have hx : x.wf = true := ?_; (on_goal 2 => subst x); clear_value x; revert x; intro _ _)
      | (extract_lets +onlyGivenNames x; clear_value x; revert x; intro _)
      | with_reducible apply State.accepted_forms
      | with_reducible apply State.onQos_forms
      | with_reducible apply State.serve_forms
      | (split <;> try (rename_i h; have hp := forms_ofEq h ?_; clear h))
      | (fail_if_no_progress beta_reduce)
      | (fail_if_no_progress dsimp only)
      | with_reducible apply State.near_wf
      | with_reducible apply State.far_wf
      | with_reducible apply State.regs_rising
  | succ n ih =>
    unfold State.grantEach
    repeat' first
      | (simp -zeta only [canonical_mk]; apply canon; assumption)
      | simp -zeta only [canonical_mk, near_mk, far_mk]
      | with_reducible apply forms_and
      | with_reducible apply media_and
      | (with_reducible apply State.near_wf; with_reducible assumption)
      | (with_reducible apply State.far_wf; with_reducible assumption)
      | (with_reducible apply State.regs_rising; with_reducible assumption)
      | (with_reducible apply Near.linesOk)
      | (with_reducible apply Far.flashOk)
      | (with_reducible apply Far.parityOk)
      | with_reducible apply linesOk_filter
      | with_reducible apply chunksOk_filter
      | with_reducible assumption
      | intro _
      | with_reducible apply ih
      | (extract_lets +onlyGivenNames x; have hx : x.canonical = true := ?_; (on_goal 2 => subst x); clear_value x; revert x; intro _ _)
      | (extract_lets +onlyGivenNames x; have hx : x.1.canonical = true := ?_; (on_goal 2 => subst x); clear_value x; revert x; intro _ _)
      | (extract_lets +onlyGivenNames x; have hx : x.wf = true := ?_; (on_goal 2 => subst x); clear_value x; revert x; intro _ _)
      | (extract_lets +onlyGivenNames x; clear_value x; revert x; intro _)
      | with_reducible apply State.accepted_forms
      | with_reducible apply State.onQos_forms
      | with_reducible apply State.serve_forms
      | (split <;> try (rename_i h; have hp := forms_ofEq h ?_; clear h))
      | (fail_if_no_progress beta_reduce)
      | (fail_if_no_progress dsimp only)
      | with_reducible apply State.near_wf
      | with_reducible apply State.far_wf
      | with_reducible apply State.regs_rising

theorem State.wakeAt_forms (s : State) (arb res : Nat) (p : Req → Bool) (hyp_s : s.canonical = true) :
    (State.wakeAt s arb res p).canonical = true := by
  unfold State.wakeAt
  repeat' first
    | with_reducible apply linesOk_filter
    | with_reducible apply chunksOk_filter
    | with_reducible assumption
    | intro _
    | (extract_lets +onlyGivenNames x; have hx : x.canonical = true := ?_; (on_goal 2 => subst x); clear_value x; revert x; intro _ _)
    | (extract_lets +onlyGivenNames x; have hx : x.1.canonical = true := ?_; (on_goal 2 => subst x); clear_value x; revert x; intro _ _)
    | (extract_lets +onlyGivenNames x; have hx : x.wf = true := ?_; (on_goal 2 => subst x); clear_value x; revert x; intro _ _)
    | (extract_lets +onlyGivenNames x; clear_value x; revert x; intro _)
    | with_reducible apply forms_ite
    | with_reducible apply forms_iteFst
    | with_reducible apply forms_oite
    | with_reducible apply forms_each
    | with_reducible apply State.accepted_forms
    | with_reducible apply State.serve_forms
    | with_reducible apply State.grantEach_forms
    | (split <;> try (rename_i h; have hp := forms_ofEq h ?_; clear h))
    | (fail_if_no_progress beta_reduce)
    | (fail_if_no_progress dsimp only)

theorem State.wake_forms (s : State) (p : Req → Bool) (hyp_s : s.canonical = true) :
    (State.wake s p).canonical = true := by
  unfold State.wake
  with_reducible repeat' first
    | assumption | apply State.wakeAt_forms

theorem State.chanGo_forms (s : State) (n : Nat) (hyp_s : s.canonical = true) :
    (State.chanGo s n).canonical = true := by
  unfold State.chanGo
  with_reducible repeat' first
    | assumption | apply State.wakeAt_forms

theorem State.chanFail_forms (s : State) (n : Nat) (hyp_s : s.canonical = true) :
    (State.chanFail s n).canonical = true := by
  unfold State.chanFail
  repeat' first
    | with_reducible assumption | intro _ | with_reducible apply forms_each | with_reducible apply State.serveLine_forms
    | with_reducible apply State.answer_forms

theorem State.wakePage_forms (s : State) (page : Nat) (w : Wait) (hyp_s : s.canonical = true) :
    (State.wakePage s page w).canonical = true := by
  unfold State.wakePage
  with_reducible repeat' first
    | assumption | apply State.wake_forms

theorem State.newReq_forms (s : State) (src : Src) (op : ROp) (sa label holder : Nat) (mv : MetaV) (mask : Nat) (d : Bytes) (hyp_s : s.canonical = true) :
    (State.newReq s src op sa label holder mv mask d).1.canonical = true := by
  unfold State.newReq
  repeat' first
    | (simp -zeta only [canonical_mk]; apply canon; assumption)
    | simp -zeta only [canonical_mk, near_mk, far_mk]
    | with_reducible apply forms_and
    | with_reducible apply media_and
    | (with_reducible apply State.near_wf; with_reducible assumption)
    | (with_reducible apply State.far_wf; with_reducible assumption)
    | (with_reducible apply State.regs_rising; with_reducible assumption)
    | (with_reducible apply Near.linesOk)
    | (with_reducible apply Far.flashOk)
    | (with_reducible apply Far.parityOk)
    | with_reducible assumption
    | intro _
    | (extract_lets +onlyGivenNames x; have hx : x.canonical = true := ?_; (on_goal 2 => subst x); clear_value x; revert x; intro _ _)
    | (extract_lets +onlyGivenNames x; have hx : x.1.canonical = true := ?_; (on_goal 2 => subst x); clear_value x; revert x; intro _ _)
    | (extract_lets +onlyGivenNames x; have hx : x.wf = true := ?_; (on_goal 2 => subst x); clear_value x; revert x; intro _ _)
    | (extract_lets +onlyGivenNames x; clear_value x; revert x; intro _)
    | (fail_if_no_progress beta_reduce)
    | (fail_if_no_progress dsimp only)
    | with_reducible apply State.near_wf
    | with_reducible apply State.far_wf
    | with_reducible apply State.regs_rising

theorem State.atHome_forms (s : State) (r : Req) (counted : Bool) (hyp_s : s.canonical = true) :
    (State.atHome s r counted).canonical = true := by
  unfold State.atHome
  with_reducible repeat' first
    | assumption | (extract_lets +onlyGivenNames x; have hx : x.canonical = true := ?_; (on_goal 2 => subst x); clear_value x; revert x; intro _ _)
    | apply forms_ite | apply State.countAccess_forms | apply State.serve_forms

theorem State.sendReq_forms (s : State) (r : Req) (m : Nat) (hyp_s : s.canonical = true) :
    (State.sendReq s r m).canonical = true := by
  unfold State.sendReq
  with_reducible repeat' first
    | assumption | apply forms_ite | apply State.send_forms | apply State.dropReq_forms | apply State.emit_forms
    | (split <;> try (rename_i h; have hp := forms_ofEq h ?_; clear h))

theorem State.toRemote_forms (s : State) (r : Req) (m : Nat) (hyp_s : s.canonical = true) :
    (State.toRemote s r m).canonical = true := by
  unfold State.toRemote
  with_reducible repeat' first
    | assumption | (extract_lets +onlyGivenNames x; clear_value x; revert x; intro _) | apply forms_ite | apply State.await_forms
    | apply State.modReq_forms | apply State.sendReq_forms

theorem State.paceNext_forms (s : State) (m : Nat) (hyp_s : s.canonical = true) :
    (State.paceNext s m).canonical = true := by
  unfold State.paceNext
  with_reducible repeat' first
    | assumption | intro _ | apply forms_each | apply State.toRemote_forms

theorem State.route_forms (s : State) (r : Req) (counted : Bool) (hyp_s : s.canonical = true) :
    (State.route s r counted).canonical = true := by
  unfold State.route
  with_reducible repeat' first
    | assumption | (extract_lets +onlyGivenNames x; clear_value x; revert x; intro _) | apply forms_ite | apply State.atHome_forms
    | apply State.modReq_forms | apply State.toRemote_forms | apply State.homeAbsent_forms | apply State.bump_forms | apply State.post_forms
    | apply State.answer_forms

theorem State.reroute_forms (s : State) (p : Req → Bool) (hyp_s : s.canonical = true) :
    (State.reroute s p).canonical = true := by
  unfold State.reroute
  with_reducible repeat' first
    | assumption | intro _
    | (extract_lets +onlyGivenNames x; have hx : x.canonical = true := ?_; (on_goal 2 => subst x); clear_value x; revert x; intro _ _)
    | (extract_lets +onlyGivenNames x; clear_value x; revert x; intro _) | apply forms_each | apply State.modReq_forms | apply State.route_forms

theorem State.accept_forms (s : State) (src : Src) (op : ROp) (sa label holder : Nat) (mv : MetaV) (mask : Nat) (d : Bytes) (hyp_s : s.canonical = true) :
    (State.accept s src op sa label holder mv mask d).canonical = true := by
  unfold State.accept
  with_reducible repeat' first
    | assumption | apply State.awake_forms | apply State.newReq_forms | apply State.route_forms

theorem State.evictLine_forms (s : State) (sa holder : Nat) (hyp_s : s.canonical = true) :
    (State.evictLine s sa holder).canonical = true := by
  unfold State.evictLine
  with_reducible repeat' first
    | assumption | apply State.awake_forms | apply State.newReq_forms | apply State.route_forms

theorem State.dirResolve_forms (s : State) (t : Trk) (r : Req) (hyp_s : s.canonical = true) :
    (State.dirResolve s t r).canonical = true := by
  unfold State.dirResolve
  with_reducible repeat' first
    | assumption | (extract_lets +onlyGivenNames x; clear_value x; revert x; intro _) | apply forms_ite | apply State.dirAfterWrite_forms
    | apply State.dirPut_forms | apply State.dirDel_forms | (split <;> try (rename_i h; have hp := forms_ofEq h ?_; clear h))

theorem State.reveal_forms (s : State) (page j : Nat) (hyp_s : s.canonical = true) :
    (State.reveal s page j).canonical = true := by
  unfold State.reveal
  with_reducible repeat' first
    | assumption | apply State.onHusk_forms

theorem State.takeoverDone_forms (s : State) (m : Nat) (hyp_s : s.canonical = true) :
    (State.takeoverDone s m).canonical = true := by
  unfold State.takeoverDone
  with_reducible repeat' first
    | assumption | apply forms_ite | apply State.intr_forms | apply State.post_forms

theorem State.releaseTaken_forms (s : State) (page : Nat) (hyp_s : s.canonical = true) :
    (State.releaseTaken s page).canonical = true := by
  unfold State.releaseTaken
  with_reducible repeat' first
    | assumption | (extract_lets +onlyGivenNames x; have hx : x.canonical = true := ?_; (on_goal 2 => subst x); clear_value x; revert x; intro _ _)
    | apply forms_ite | apply State.onHdg_forms | apply State.reroute_forms | apply State.takeoverDone_forms

theorem State.trkDone_forms (s : State) (t : Trk) (hyp_s : s.canonical = true) :
    (State.trkDone s t).canonical = true := by
  unfold State.trkDone
  with_reducible repeat' first
    | assumption | (extract_lets +onlyGivenNames x; have hx : x.canonical = true := ?_; (on_goal 2 => subst x); clear_value x; revert x; intro _ _)
    | (extract_lets +onlyGivenNames x; clear_value x; revert x; intro _) | apply forms_ite | apply State.onDir_forms | apply State.dirResolve_forms
    | apply State.modReq_forms | apply State.serve_forms | apply State.reveal_forms | apply State.noteConsumer_forms | apply State.settle_forms
    | apply State.dirDel_forms | apply State.dirPutOpt_forms | apply State.wake_forms | apply State.releaseTaken_forms
    | (split <;> try (rename_i h; have hp := forms_ofEq h ?_; clear h))

theorem State.storeWbk_forms (s : State) (l : Nat) (d : Bytes) (hyp_s : s.canonical = true) :
    (State.storeWbk s l d).canonical = true := by
  unfold State.storeWbk
  with_reducible repeat' first
    | simp -zeta only [canonical_mk, near_mk, far_mk] | apply forms_and | assumption
    | (extract_lets +onlyGivenNames x; have hx : x.canonical = true := ?_; (on_goal 2 => subst x); clear_value x; revert x; intro _ _)
    | (extract_lets +onlyGivenNames x; clear_value x; revert x; intro _) | apply forms_ite | apply State.vlrDrop_forms | apply State.modSlot_forms
    | apply State.slotStore_forms | apply State.slotWait_forms | apply State.newReq_forms | apply State.await_forms
    | (split <;> try (rename_i h; have hp := forms_ofEq h ?_; clear h)) | apply State.near_wf | apply State.far_wf | apply State.regs_rising

theorem State.snoopAnswer_forms (s : State) (l h : Nat) (a : SnpRsp) (hyp_s : s.canonical = true) :
    (State.snoopAnswer s l h a).canonical = true := by
  unfold State.snoopAnswer
  with_reducible repeat' first
    | assumption | (extract_lets +onlyGivenNames x; have hx : x.canonical = true := ?_; (on_goal 2 => subst x); clear_value x; revert x; intro _ _)
    | (extract_lets +onlyGivenNames x; clear_value x; revert x; intro _) | apply forms_ite | apply State.bump_forms | apply State.onDir_forms
    | apply State.dirMod_forms | apply State.dirPut_forms | apply State.trkDone_forms
    | (split <;> try (rename_i h; have hp := forms_ofEq h ?_; clear h))

theorem State.wbkStored_forms (s : State) (l : Nat) (hyp_s : s.canonical = true) :
    (State.wbkStored s l).canonical = true := by
  unfold State.wbkStored
  with_reducible repeat' first
    | assumption | apply forms_ite | apply State.trkDone_forms | (split <;> try (rename_i h; have hp := forms_ofEq h ?_; clear h))

/-! ## Portal -/

theorem State.noLease_forms (s : State) (ld hpa : Nat) (write : Bool) (hyp_s : s.canonical = true) :
    (State.noLease s ld hpa write).canonical = true := by
  unfold State.noLease
  with_reducible repeat' first
    | assumption | (extract_lets +onlyGivenNames x; have hx : x.canonical = true := ?_; (on_goal 2 => subst x); clear_value x; revert x; intro _ _)
    | apply forms_ite | apply State.bump_forms | apply State.postFor_forms

theorem execHostRead_forms (ld : Fin 64) (hpa : Nat) (mv : MetaV) (tag : Nat) (ide : Bool) (s : State) (hyp_s : s.canonical = true) :
    OkForms (execHostRead ld hpa mv tag ide s) := by
  unfold execHostRead
  with_reducible repeat' first
    | assumption | apply forms_next
    | (extract_lets +onlyGivenNames x; have hx : x.canonical = true := ?_; (on_goal 2 => subst x); clear_value x; revert x; intro _ _)
    | apply forms_ite | apply State.bump_forms | apply State.emit_forms | apply State.awake_forms | apply State.noLease_forms
    | apply State.demand_forms | apply State.consumeRead_forms | apply State.accept_forms
    | (split <;> try (rename_i h; have hp := forms_ofEq h ?_; clear h))

theorem State.ownWbk_forms (s : State) (ld l : Nat) (d : Bytes) (hyp_s : s.canonical = true) :
    (State.ownWbk s ld l d).canonical = true := by
  unfold State.ownWbk
  with_reducible repeat' first
    | assumption | apply State.send_forms | apply State.storeWbk_forms | (split <;> try (rename_i h; have hp := forms_ofEq h ?_; clear h))

theorem execHostWrite_forms (ld : Fin 64) (hpa : Nat) (mv : MetaV) (tag : Nat) (mask : BitVec 64) (data : Bytes) (ide : Bool) (s : State) (hyp_s : s.canonical = true) :
    OkForms (execHostWrite ld hpa mv tag mask data ide s) := by
  unfold execHostWrite
  with_reducible repeat' first
    | assumption | apply forms_next
    | (extract_lets +onlyGivenNames x; have hx : x.canonical = true := ?_; (on_goal 2 => subst x); clear_value x; revert x; intro _ _)
    | apply forms_ite | apply State.bump_forms | apply State.emit_forms | apply State.awake_forms | apply State.ownWbk_forms
    | apply State.noLease_forms | apply State.meter_forms | apply State.accept_forms
    | (split <;> try (rename_i h; have hp := forms_ofEq h ?_; clear h))

theorem execHostCleanEvict_forms (ld : Fin 64) (hpa : Nat) (s : State) (hyp_s : s.canonical = true) :
    OkForms (execHostCleanEvict ld hpa s) := by
  unfold execHostCleanEvict
  with_reducible repeat' first
    | assumption | apply forms_next | apply forms_ite | apply State.evictLine_forms | apply State.awake_forms
    | (split <;> try (rename_i h; have hp := forms_ofEq h ?_; clear h))

theorem execUioRequest_forms (ld : Fin 64) (hpa : Nat) (write : Bool) (tag : Nat) (mask : BitVec 64) (data : Bytes) (s : State) (hyp_s : s.canonical = true) :
    OkForms (execUioRequest ld hpa write tag mask data s) := by
  unfold execUioRequest
  with_reducible repeat' first
    | assumption | apply forms_next
    | (extract_lets +onlyGivenNames x; have hx : x.canonical = true := ?_; (on_goal 2 => subst x); clear_value x; revert x; intro _ _)
    | (extract_lets +onlyGivenNames x; clear_value x; revert x; intro _) | apply forms_ite | apply State.bump_forms | apply State.awake_forms
    | apply State.noLease_forms | apply State.emit_forms | apply State.meter_forms | apply State.accept_forms | apply State.consumeRead_forms
    | (split <;> try (rename_i h; have hp := forms_ofEq h ?_; clear h))

theorem execHdmDecoderCommit_forms (ld : Fin 64) (i : Fin 8) (base : Nat) (size : Nat) (s : State) (hyp_s : s.canonical = true) :
    OkForms (execHdmDecoderCommit ld i base size s) := by
  unfold execHdmDecoderCommit
  with_reducible repeat' first
    | assumption | apply forms_next | (extract_lets +onlyGivenNames x; clear_value x; revert x; intro _) | apply forms_ite | apply State.awake_forms
    | apply State.onSpc_forms | apply State.intr_forms | apply State.postFor_forms
    | (split <;> try (rename_i h; have hp := forms_ofEq h ?_; clear h))

/-! ## Mbox -/

theorem State.reply_forms (s : State) (x : Mbx) (rc : Nat) (out : Bytes) (hyp_s : s.canonical = true) :
    (State.reply s x rc out).canonical = true := by
  unfold State.reply
  with_reducible repeat' first
    | assumption | apply State.emit_forms

theorem State.status_forms (s : State) (x : Mbx) (st : Nat) (hyp_s : s.canonical = true) :
    (State.status s x st).canonical = true := by
  unfold State.status
  with_reducible repeat' first
    | assumption | apply State.reply_forms

theorem State.okOut_forms (s : State) (x : Mbx) (out : Bytes) (hyp_s : s.canonical = true) :
    (State.okOut s x out).canonical = true := by
  unfold State.okOut
  with_reducible repeat' first
    | assumption | apply State.reply_forms

theorem State.unidle_forms (s : State) (hyp_s : s.canonical = true) :
    (State.unidle s).canonical = true := by
  unfold State.unidle
  with_reducible repeat' first
    | assumption | apply forms_ite | apply State.awake_forms | apply State.onPwr_forms

theorem State.command_forms (s : State) (x : Mbx) (by_ : By) (secure : Bool) (need : Nat) (f : State → State) (hyp_s : s.canonical = true) (hyp_f : ∀ z : State, z.canonical = true → (f z).canonical = true) :
    (State.command s x by_ secure need f).canonical = true := by
  unfold State.command
  with_reducible repeat' first
    | assumption | (extract_lets +onlyGivenNames x; have hx : x.canonical = true := ?_; (on_goal 2 => subst x); clear_value x; revert x; intro _ _)
    | apply forms_ite | apply State.unidle_forms | apply State.bump_forms | apply State.status_forms | apply State.reply_forms | apply_assumption

theorem State.stdCommand_forms (s : State) (x : Mbx) (by_ : By) (need : Nat) (f : State → State) (hyp_s : s.canonical = true) (hyp_f : ∀ z : State, z.canonical = true → (f z).canonical = true) :
    (State.stdCommand s x by_ need f).canonical = true := by
  unfold State.stdCommand
  with_reducible repeat' first
    | assumption | (extract_lets +onlyGivenNames x; have hx : x.canonical = true := ?_; (on_goal 2 => subst x); clear_value x; revert x; intro _ _)
    | apply forms_ite | apply State.unidle_forms | apply State.bump_forms | apply State.reply_forms | apply_assumption

theorem State.startBg_forms (s : State) (x : Mbx) (opcode : Nat) (hyp_s : s.canonical = true) :
    (State.startBg s x opcode).canonical = true := by
  unfold State.startBg
  with_reducible repeat' first
    | assumption | apply State.onHost_forms | apply State.reply_forms

theorem State.endBg_forms (s : State) (who rc : Nat) (out : Bytes) (hyp_s : s.canonical = true) :
    (State.endBg s who rc out).canonical = true := by
  unfold State.endBg
  with_reducible repeat' first
    | assumption | apply State.onHost_forms

theorem State.bgCommand_forms (s : State) (x : Mbx) (f : State → State) (hyp_s : s.canonical = true) (hyp_f : ∀ z : State, z.canonical = true → (f z).canonical = true) :
    (State.bgCommand s x f).canonical = true := by
  unfold State.bgCommand
  with_reducible repeat' first
    | assumption | apply forms_ite | apply State.reply_forms | apply_assumption

/-! ## Slots -/

theorem State.flushRuns_forms (s : State) (hyp_s : s.canonical = true) :
    (State.flushRuns s).canonical = true := by
  unfold State.flushRuns
  with_reducible repeat' first
    | assumption | intro _ | (extract_lets +onlyGivenNames x; clear_value x; revert x; intro _) | apply forms_each | apply State.onTier_forms
    | apply State.endBg_forms | apply State.send_forms | apply State.hook_forms | (split <;> try (rename_i h; have hp := forms_ofEq h ?_; clear h))

theorem State.runEnded_forms (s : State) (page : Nat) (ok : Bool) (hyp_s : s.canonical = true) :
    (State.runEnded s page ok).canonical = true := by
  unfold State.runEnded
  with_reducible repeat' first
    | assumption | (extract_lets +onlyGivenNames x; clear_value x; revert x; intro _) | apply State.onTier_forms | apply State.flushRuns_forms

theorem State.startReloc_forms (s : State) (page : Nat) (hyp_s : s.canonical = true) :
    (State.startReloc s page).canonical = true := by
  unfold State.startReloc
  with_reducible repeat' first
    | assumption | (extract_lets +onlyGivenNames x; clear_value x; revert x; intro _) | apply forms_ite | apply State.setPme_forms
    | apply State.takeNear_forms | apply State.setMove_forms | apply State.noSpace_forms
    | (split <;> try (rename_i h; have hp := forms_ofEq h ?_; clear h))

theorem State.leaveRetired_forms (s : State) (hyp_s : s.canonical = true) :
    (State.leaveRetired s).canonical = true := by
  unfold State.leaveRetired
  with_reducible repeat' first
    | assumption | intro _ | (extract_lets +onlyGivenNames x; clear_value x; revert x; intro _) | apply forms_ite | apply forms_each
    | apply State.startReloc_forms

theorem State.retryMoves_forms (s : State) (hyp_s : s.canonical = true) :
    (State.retryMoves s).canonical = true := by
  unfold State.retryMoves
  with_reducible repeat' first
    | assumption | intro _
    | (extract_lets +onlyGivenNames x; have hx : x.canonical = true := ?_; (on_goal 2 => subst x); clear_value x; revert x; intro _ _)
    | (extract_lets +onlyGivenNames x; clear_value x; revert x; intro _) | apply forms_ite | apply forms_each | apply State.leaveRetired_forms
    | apply State.setMove_forms | apply State.runEnded_forms | apply State.movePlace_forms

theorem State.mirrorIn_forms (s : State) (m : Msg) (hyp_s : s.canonical = true) :
    (State.mirrorIn s m).1.canonical = true := by
  unfold State.mirrorIn
  with_reducible repeat' first
    | assumption | apply forms_iteFst | apply State.slotStore_forms | apply State.send_forms

theorem State.closeIn_forms (s : State) (m : Msg) (hyp_s : s.canonical = true) :
    (State.closeIn s m).canonical = true := by
  unfold State.closeIn
  with_reducible repeat' first
    | assumption | apply State.modSlot_forms | (split <;> try (rename_i h; have hp := forms_ofEq h ?_; clear h))

theorem State.mirrorPump_forms (s : State) (y0 : Nat) (hyp_s : s.canonical = true) :
    (State.mirrorPump s y0).canonical = true := by
  induction y0 generalizing s with
  | zero =>
    unfold State.mirrorPump
    with_reducible repeat' first
      | assumption
  | succ n ih =>
    unfold State.mirrorPump
    with_reducible repeat' first
      | simp -zeta only [canonical_mk, near_mk, far_mk] | assumption | apply ih | apply forms_ite | apply forms_iteFst | apply State.closeIn_forms
      | apply State.mirrorIn_forms | apply State.onHdg_forms | (split <;> try (rename_i h; have hp := forms_ofEq h ?_; clear h))

theorem execMbSlotWindowExpire_forms (page : Nat) (s : State) (hyp_s : s.canonical = true) :
    OkForms (execMbSlotWindowExpire page s) := by
  unfold execMbSlotWindowExpire
  with_reducible repeat' first
    | assumption | apply forms_next | apply forms_ite | apply State.closeSlot_forms
    | (split <;> try (rename_i h; have hp := forms_ofEq h ?_; clear h))

theorem execMbWriteSlotWaitEnd_forms (r : Nat) (s : State) (hyp_s : s.canonical = true) :
    OkForms (execMbWriteSlotWaitEnd r s) := by
  unfold execMbWriteSlotWaitEnd
  with_reducible repeat' first
    | assumption | apply forms_next | apply forms_ite | apply State.serve_forms | apply State.wbkStored_forms
    | (split <;> try (rename_i h; have hp := forms_ofEq h ?_; clear h))

theorem State.readyBase_forms (s : State) (page : Nat) (x : Slot) (hyp_s : s.canonical = true) :
    (State.readyBase s page x).1.canonical = true := by
  unfold State.readyBase
  with_reducible repeat' first
    | simp -zeta only [canonical_mk, near_mk, far_mk] | assumption | (extract_lets +onlyGivenNames x; clear_value x; revert x; intro _)
    | apply forms_iteFst | apply State.needPull_forms | apply State.recover_forms | apply State.hcrcFail_forms | apply State.losePage_forms
    | (split <;> try (rename_i h; have hp := forms_ofEq h ?_; clear h))

theorem State.recodeLanes_forms (s : State) (base : Base) (e : EncP) (h : Husk) (ins : List GIn) (hyp_s : s.canonical = true) :
    OkSome (State.recodeLanes s base e h ins) := by
  unfold State.recodeLanes
  with_reducible repeat' first
    | assumption | apply forms_some | apply forms_bind | intro _ | (extract_lets +onlyGivenNames x; clear_value x; revert x; intro _)
    | apply State.toLanes_forms | (split <;> try (rename_i h; have hp := forms_ofEq h ?_; clear h))

theorem State.recodeGo_forms (s : State) (page : Nat) (x : Slot) (xt : Extent) (hyp_s : s.canonical = true) :
    (State.recodeGo s page x xt).canonical = true := by
  unfold State.recodeGo
  with_reducible repeat' first
    | simp -zeta only [canonical_mk, near_mk, far_mk] | assumption | (refine forms_ofSome (by assumption) ?_)
    | (extract_lets +onlyGivenNames x; have hx : x.canonical = true := ?_; (on_goal 2 => subst x); clear_value x; revert x; intro _ _)
    | (extract_lets +onlyGivenNames x; clear_value x; revert x; intro _) | apply forms_ite | apply State.recodeLanes_forms
    | apply State.noteGrains_forms | apply State.capExhausted_forms | apply State.wakePage_forms | apply State.noteHusk_forms
    | apply State.modSlot_forms | (split <;> try (rename_i h; have hp := forms_ofEq h ?_; clear h))

theorem State.recodeTry_forms (s : State) (page : Nat) (hyp_s : s.canonical = true) :
    (State.recodeTry s page).canonical = true := by
  unfold State.recodeTry
  with_reducible repeat' first
    | simp -zeta only [canonical_mk, near_mk, far_mk] | assumption | apply forms_ite | apply State.freeSlot_forms | apply State.mirrorPump_forms
    | apply State.readyBase_forms | apply State.recodeGo_forms | (split <;> try (rename_i h; have hp := forms_ofEq h ?_; clear h))

theorem execSlotRecodeStart_forms (page : Nat) (s : State) (hyp_s : s.canonical = true) :
    OkForms (execSlotRecodeStart page s) := by
  unfold execSlotRecodeStart
  with_reducible repeat' first
    | assumption | apply forms_next
    | (extract_lets +onlyGivenNames x; have hx : x.canonical = true := ?_; (on_goal 2 => subst x); clear_value x; revert x; intro _ _)
    | apply forms_ite | apply State.recodeTry_forms | apply State.modSlot_forms | apply State.sendClose_forms
    | (split <;> try (rename_i h; have hp := forms_ofEq h ?_; clear h))

theorem State.recodesGo_forms (s : State) (hyp_s : s.canonical = true) :
    (State.recodesGo s).canonical = true := by
  unfold State.recodesGo
  with_reducible repeat' first
    | assumption | intro _ | apply forms_each | apply State.recodeTry_forms

theorem State.durWaits_forms (s : State) (slot : Nat) (hyp_s : s.canonical = true) :
    (State.durWaits s slot).canonical = true := by
  unfold State.durWaits
  with_reducible repeat' first
    | (simp -zeta only [canonical_mk]; apply canon; assumption) | (extract_lets +onlyGivenNames x; clear_value x; revert x; intro _)

theorem State.bgRecoded_forms (s : State) (page : Nat) (hyp_s : s.canonical = true) :
    (State.bgRecoded s page).canonical = true := by
  unfold State.bgRecoded
  with_reducible repeat' first
    | assumption | intro _
    | (extract_lets +onlyGivenNames x; have hx : x.canonical = true := ?_; (on_goal 2 => subst x); clear_value x; revert x; intro _ _)
    | (extract_lets +onlyGivenNames x; clear_value x; revert x; intro _) | apply forms_each | apply State.onHusk_forms | apply State.endBg_forms
    | apply State.intr_forms | apply State.post_forms

theorem execRecodeWriteDone_forms (page : Nat) (s : State) (hyp_s : s.canonical = true) :
    OkForms (execRecodeWriteDone page s) := by
  unfold execRecodeWriteDone
  with_reducible repeat' first
    | simp -zeta only [canonical_mk, near_mk, far_mk] | assumption | apply forms_next
    | (extract_lets +onlyGivenNames x; have hx : x.canonical = true := ?_; (on_goal 2 => subst x); clear_value x; revert x; intro _ _)
    | (extract_lets +onlyGivenNames x; clear_value x; revert x; intro _) | apply forms_ite | apply State.storeHusk_forms
    | apply State.recodePoison_forms | apply State.freeSlot_forms | apply State.plistDrop_forms | apply State.bump_forms
    | apply State.durWaits_forms | apply State.wakePage_forms | apply State.bgRecoded_forms | apply State.retryMoves_forms
    | apply State.mirrorPump_forms | (split <;> try (rename_i h; have hp := forms_ofEq h ?_; clear h))

end Sys2Proof.Machine
end

