-- ==== Sys2Proof/Laws/FormsMaps.lean ====
section
/-! SUPPORT. The canonical forms are kept by tiering, the far tier, leases, pages, re-spreads, and the commands on directory and husks. -/

set_option linter.all false

namespace Sys2Proof.Machine

open Sys2Proof

/-! ## Tier -/

theorem State.promote_forms (s : State) (page cls : Nat) (hyp_s : s.canonical = true) :
    (State.promote s page cls).1.canonical = true := by
  unfold State.promote
  with_reducible repeat' first
    | simp -zeta only [canonical_mk, near_mk, far_mk] | apply media_and | (apply Far.flashOk) | (apply Far.parityOk) | assumption | intro _
    | (extract_lets +onlyGivenNames x; have hx : x.canonical = true := ?_; (on_goal 2 => subst x); clear_value x; revert x; intro _ _)
    | (extract_lets +onlyGivenNames x; clear_value x; revert x; intro _) | apply forms_iteFst | apply State.bump_forms | apply State.setMove_forms
    | apply State.movePlace_forms | apply State.setPme_forms | apply State.setRow_forms | apply State.dropFar_forms | apply State.onFar_forms
    | apply State.runEnded_forms | (split <;> try (rename_i h; have hp := forms_ofEq h ?_; clear h))

theorem State.finishPromotion_forms (s : State) (page : Nat) (m : Move) (hyp_s : s.canonical = true) :
    (State.finishPromotion s page m).canonical = true := by
  unfold State.finishPromotion
  with_reducible repeat' first
    | assumption | (extract_lets +onlyGivenNames x; have hx : x.canonical = true := ?_; (on_goal 2 => subst x); clear_value x; revert x; intro _ _)
    | (extract_lets +onlyGivenNames x; clear_value x; revert x; intro _) | apply forms_ite | apply State.writeHusk_forms | apply State.setMove_forms
    | apply State.putPme_forms | apply State.wakePage_forms | apply State.recodeTry_forms | apply State.freeNear_forms | apply State.checkMark_forms
    | apply State.retryMoves_forms | apply State.runEnded_forms | apply State.setPme_forms | apply State.bump_forms | apply State.chargeMove_forms

theorem execPullThroughDone_forms (page : Nat) (s : State) (hyp_s : s.canonical = true) :
    OkForms (execPullThroughDone page s) := by
  unfold execPullThroughDone
  with_reducible repeat' first
    | assumption | apply forms_next | apply forms_ite | apply State.finishPromotion_forms
    | (split <;> try (rename_i h; have hp := forms_ofEq h ?_; clear h))

theorem execPromotionDone_forms (page : Nat) (s : State) (hyp_s : s.canonical = true) :
    OkForms (execPromotionDone page s) := by
  unfold execPromotionDone
  with_reducible repeat' first
    | assumption | apply forms_next | apply forms_ite | apply State.finishPromotion_forms
    | (split <;> try (rename_i h; have hp := forms_ofEq h ?_; clear h))

theorem execPullThroughRaise_forms (page : Nat) (s : State) (hyp_s : s.canonical = true) :
    OkForms (execPullThroughRaise page s) := by
  unfold execPullThroughRaise
  with_reducible repeat' first
    | assumption | apply forms_next | apply forms_ite | apply State.setMove_forms
    | (split <;> try (rename_i h; have hp := forms_ofEq h ?_; clear h))

theorem execPullThroughDlMiss_forms (page : Nat) (s : State) (hyp_s : s.canonical = true) :
    OkForms (execPullThroughDlMiss page s) := by
  unfold execPullThroughDlMiss
  with_reducible repeat' first
    | assumption | apply forms_next | apply forms_ite | apply State.setMove_forms | apply State.bump_forms | apply State.intr_forms
    | apply State.postFor_forms | (split <;> try (rename_i h; have hp := forms_ofEq h ?_; clear h))

theorem execStreamPtBoundExpire_forms (r : Nat) (s : State) (hyp_s : s.canonical = true) :
    OkForms (execStreamPtBoundExpire r s) := by
  unfold execStreamPtBoundExpire
  with_reducible repeat' first
    | assumption | apply forms_next | apply forms_ite | apply State.answer_forms | apply State.bump_forms | apply State.intr_forms
    | apply State.postFor_forms | (split <;> try (rename_i h; have hp := forms_ofEq h ?_; clear h))

theorem State.issueDemote_forms (s : State) (page : Nat) (hyp_s : s.canonical = true) :
    (State.issueDemote s page).canonical = true := by
  unfold State.issueDemote
  with_reducible repeat' first
    | simp -zeta only [canonical_mk, near_mk, far_mk] | apply media_and | (apply Far.flashOk) | (apply Far.parityOk) | assumption | intro _
    | (extract_lets +onlyGivenNames x; have hx : x.canonical = true := ?_; (on_goal 2 => subst x); clear_value x; revert x; intro _ _)
    | (extract_lets +onlyGivenNames x; clear_value x; revert x; intro _) | apply State.farAppend_forms | apply State.onFar_forms
    | apply State.setPme_forms | apply State.onTier_forms | (split <;> try (rename_i h; have hp := forms_ofEq h ?_; clear h))

theorem State.startDemote_forms (s : State) (page cls : Nat) (paced : Bool) (hyp_s : s.canonical = true) :
    (State.startDemote s page cls paced).canonical = true := by
  unfold State.startDemote
  with_reducible repeat' first
    | simp -zeta only [canonical_mk, near_mk, far_mk] | apply media_and | (apply Far.flashOk) | (apply Far.parityOk) | assumption | intro _
    | (extract_lets +onlyGivenNames x; have hx : x.canonical = true := ?_; (on_goal 2 => subst x); clear_value x; revert x; intro _ _)
    | (extract_lets +onlyGivenNames x; clear_value x; revert x; intro _) | apply forms_ite | apply forms_iteFst | apply State.recover_forms
    | apply State.losePage_forms | apply State.runEnded_forms | apply State.carryPoison_forms | apply State.setMove_forms | apply State.setPme_forms
    | apply State.onFar_forms | apply State.issueDemote_forms | (split <;> try (rename_i h; have hp := forms_ofEq h ?_; clear h))

theorem execDemotionDone_forms (page : Nat) (s : State) (hyp_s : s.canonical = true) :
    OkForms (execDemotionDone page s) := by
  unfold execDemotionDone
  with_reducible repeat' first
    | assumption | apply forms_next
    | (extract_lets +onlyGivenNames x; have hx : x.canonical = true := ?_; (on_goal 2 => subst x); clear_value x; revert x; intro _ _)
    | (extract_lets +onlyGivenNames x; clear_value x; revert x; intro _) | apply forms_ite | apply State.setMove_forms | apply State.setPme_forms
    | apply State.bump_forms | apply State.chargeMove_forms | apply State.runEnded_forms | apply State.dropNear_forms | apply State.retryMoves_forms
    | (split <;> try (rename_i h; have hp := forms_ofEq h ?_; clear h))

theorem execRelocationDone_forms (page : Nat) (s : State) (hyp_s : s.canonical = true) :
    OkForms (execRelocationDone page s) := by
  unfold execRelocationDone
  with_reducible repeat' first
    | assumption | apply forms_next | intro _
    | (extract_lets +onlyGivenNames x; have hx : x.canonical = true := ?_; (on_goal 2 => subst x); clear_value x; revert x; intro _ _)
    | (extract_lets +onlyGivenNames x; clear_value x; revert x; intro _) | apply forms_ite | apply forms_each | apply State.uncorrNear_forms
    | apply State.writeLine_forms | apply State.freeNear_forms | apply State.setMove_forms | apply State.setPme_forms | apply State.chargeMove_forms
    | apply State.checkMark_forms | apply State.retryMoves_forms | apply State.runEnded_forms
    | (split <;> try (rename_i h; have hp := forms_ofEq h ?_; clear h))

theorem execEpochBoundary_forms (s : State) (hyp_s : s.canonical = true) :
    OkForms (execEpochBoundary s) := by
  unfold execEpochBoundary
  with_reducible repeat' first
    | assumption | apply forms_next
    | (extract_lets +onlyGivenNames x; have hx : x.canonical = true := ?_; (on_goal 2 => subst x); clear_value x; revert x; intro _ _)
    | apply forms_ite | apply State.onTier_forms | apply State.hookSpace_forms

theorem execAgeWalkerVisit_forms (page : Nat) (s : State) (hyp_s : s.canonical = true) :
    OkForms (execAgeWalkerVisit page s) := by
  unfold execAgeWalkerVisit
  with_reducible repeat' first
    | assumption | apply forms_next
    | (extract_lets +onlyGivenNames x; have hx : x.canonical = true := ?_; (on_goal 2 => subst x); clear_value x; revert x; intro _ _)
    | (extract_lets +onlyGivenNames x; clear_value x; revert x; intro _) | apply forms_ite | apply State.setPme_forms | apply State.onTier_forms

theorem State.dropVirtual_forms (s : State) (page : Nat) (hyp_s : s.canonical = true) :
    (State.dropVirtual s page).canonical = true := by
  unfold State.dropVirtual
  with_reducible repeat' first
    | assumption | (extract_lets +onlyGivenNames x; clear_value x; revert x; intro _) | apply State.dropNear_forms | apply State.clearPage_forms
    | apply State.setPme_forms

theorem State.evict_forms (s : State) (page : Nat) (hyp_s : s.canonical = true) :
    (State.evict s page).canonical = true := by
  unfold State.evict
  with_reducible repeat' first
    | assumption | (extract_lets +onlyGivenNames x; have hx : x.canonical = true := ?_; (on_goal 2 => subst x); clear_value x; revert x; intro _ _)
    | (extract_lets +onlyGivenNames x; clear_value x; revert x; intro _) | apply forms_ite | apply State.onTier_forms
    | apply State.discardNear_forms | apply State.retryMoves_forms | apply State.dropVirtual_forms | apply State.bump_forms
    | apply State.startDemote_forms

theorem State.urgentDemote_forms (s : State) (hyp_s : s.canonical = true) :
    (State.urgentDemote s).canonical = true := by
  unfold State.urgentDemote
  with_reducible repeat' first
    | assumption | intro _ | apply forms_ite | apply forms_each | apply State.issueDemote_forms

theorem execEvictionPage_forms (page : Nat) (s : State) (hyp_s : s.canonical = true) :
    OkForms (execEvictionPage page s) := by
  unfold execEvictionPage
  with_reducible repeat' first
    | assumption | apply forms_next | apply forms_ite | apply State.evict_forms | apply State.urgentDemote_forms

theorem State.pinPage_forms (s : State) (page acct cls : Nat) (hyp_s : s.canonical = true) :
    (State.pinPage s page acct cls).1.canonical = true := by
  unfold State.pinPage
  with_reducible repeat' first
    | simp -zeta only [canonical_mk, near_mk, far_mk] | assumption
    | (extract_lets +onlyGivenNames x; have hx : x.canonical = true := ?_; (on_goal 2 => subst x); clear_value x; revert x; intro _ _)
    | (extract_lets +onlyGivenNames x; clear_value x; revert x; intro _) | apply forms_ite | apply forms_iteFst | apply State.onTier_forms
    | apply State.promote_forms

theorem State.placePage_forms (s : State) (op cls page : Nat) (hyp_s : s.canonical = true) :
    (State.placePage s op cls page).1.canonical = true := by
  unfold State.placePage
  with_reducible repeat' first
    | simp -zeta only [canonical_mk, near_mk, far_mk] | assumption
    | (extract_lets +onlyGivenNames x; have hx : x.canonical = true := ?_; (on_goal 2 => subst x); clear_value x; revert x; intro _ _)
    | (extract_lets +onlyGivenNames x; clear_value x; revert x; intro _) | apply forms_iteFst | apply State.promote_forms | apply State.bump_forms
    | apply State.startDemote_forms | apply State.discardNear_forms | apply State.pinPage_forms | apply State.onTier_forms
    | (split <;> try (rename_i h; have hp := forms_ofEq h ?_; clear h))

theorem State.runPlace_forms (s : State) (q : PlaceReq) (who : Option Nat) (hyp_s : s.canonical = true) :
    (State.runPlace s q who).canonical = true := by
  unfold State.runPlace
  with_reducible repeat' first
    | simp -zeta only [canonical_mk, near_mk, far_mk] | assumption | intro _
    | (extract_lets +onlyGivenNames x; have hx : x.1.canonical = true := ?_; (on_goal 2 => subst x); clear_value x; revert x; intro _ _)
    | (extract_lets +onlyGivenNames x; clear_value x; revert x; intro _) | apply forms_iteFst | apply forms_foldlFst | apply State.placePage_forms
    | apply State.onTier_forms | apply State.flushRuns_forms

theorem State.placeEnter_forms (s : State) (q : PlaceReq) (hyp_s : s.canonical = true) :
    (State.placeEnter s q).canonical = true := by
  unfold State.placeEnter
  with_reducible repeat' first
    | assumption | apply State.onTier_forms

theorem State.placeHead_forms (s : State) (op : Nat) (hyp_s : s.canonical = true) :
    (State.placeHead s op).canonical = true := by
  unfold State.placeHead
  with_reducible repeat' first
    | assumption | apply forms_ite | apply State.onTier_forms | apply State.runPlace_forms
    | (split <;> try (rename_i h; have hp := forms_ofEq h ?_; clear h))

theorem execPlacePromote_forms (s : State) (hyp_s : s.canonical = true) :
    OkForms (execPlacePromote s) := by
  unfold execPlacePromote
  with_reducible repeat' first
    | assumption | apply forms_next | apply State.placeHead_forms

theorem execPlaceDemote_forms (s : State) (hyp_s : s.canonical = true) :
    OkForms (execPlaceDemote s) := by
  unfold execPlaceDemote
  with_reducible repeat' first
    | assumption | apply forms_next | apply State.placeHead_forms

theorem execPlaceDiscard_forms (s : State) (hyp_s : s.canonical = true) :
    OkForms (execPlaceDiscard s) := by
  unfold execPlaceDiscard
  with_reducible repeat' first
    | assumption | apply forms_next | apply State.placeHead_forms

theorem execPlacePin_forms (s : State) (hyp_s : s.canonical = true) :
    OkForms (execPlacePin s) := by
  unfold execPlacePin
  with_reducible repeat' first
    | assumption | apply forms_next | apply State.placeHead_forms

theorem execPlaceUnpin_forms (s : State) (hyp_s : s.canonical = true) :
    OkForms (execPlaceUnpin s) := by
  unfold execPlaceUnpin
  with_reducible repeat' first
    | assumption | apply forms_next | apply State.placeHead_forms

theorem State.placeAway_forms (s : State) (op cls page : Nat) (hyp_s : s.canonical = true) :
    (State.placeAway s op cls page).1.canonical = true := by
  unfold State.placeAway
  with_reducible repeat' first
    | (simp -zeta only [canonical_mk]; apply canon; assumption) | simp -zeta only [canonical_mk, near_mk, far_mk]
    | (extract_lets +onlyGivenNames x; clear_value x; revert x; intro _) | apply State.send_forms

theorem State.placeAll_forms (s : State) (op cls : Nat) (l : List Nat) (hyp_s : s.canonical = true) :
    (State.placeAll s op cls l).1.canonical = true := by
  unfold State.placeAll
  with_reducible repeat' first
    | assumption | intro _ | (extract_lets +onlyGivenNames x; clear_value x; revert x; intro _) | apply forms_foldlFst | apply State.drew_forms
    | apply State.placeAway_forms

theorem execPagePin_forms (x : Mbx) (s : State) (hyp_s : s.canonical = true) :
    OkForms (execPagePin x s) := by
  unfold execPagePin
  with_reducible repeat' first
    | assumption | apply forms_next | intro _
    | (extract_lets +onlyGivenNames x; have hx : x.canonical = true := ?_; (on_goal 2 => subst x); clear_value x; revert x; intro _ _)
    | (extract_lets +onlyGivenNames x; clear_value x; revert x; intro _) | apply forms_ite | apply forms_each | apply State.command_forms
    | apply State.status_forms | apply State.pinPage_forms | apply State.placeAll_forms | apply State.okOut_forms

theorem execPageUnpin_forms (x : Mbx) (s : State) (hyp_s : s.canonical = true) :
    OkForms (execPageUnpin x s) := by
  unfold execPageUnpin
  with_reducible repeat' first
    | simp -zeta only [canonical_mk, near_mk, far_mk] | assumption | apply forms_next | intro _
    | (extract_lets +onlyGivenNames x; clear_value x; revert x; intro _) | apply forms_ite | apply State.command_forms | apply State.status_forms
    | apply State.onTier_forms | apply State.placeAll_forms | apply State.okOut_forms

theorem State.tierMove_forms (s : State) (x : Mbx) (op : Nat) (hyp_s : s.canonical = true) :
    (State.tierMove s x op).canonical = true := by
  unfold State.tierMove
  with_reducible repeat' first
    | simp -zeta only [canonical_mk, near_mk, far_mk] | assumption | intro _
    | (extract_lets +onlyGivenNames x; have hx : x.canonical = true := ?_; (on_goal 2 => subst x); clear_value x; revert x; intro _ _)
    | (extract_lets +onlyGivenNames x; have hx : x.1.canonical = true := ?_; (on_goal 2 => subst x); clear_value x; revert x; intro _ _)
    | (extract_lets +onlyGivenNames x; clear_value x; revert x; intro _) | apply forms_ite | apply forms_foldlFst | apply State.command_forms
    | apply State.status_forms | apply State.bgCommand_forms | apply State.startBg_forms | apply State.placeAll_forms | apply State.placePage_forms
    | apply State.onTier_forms | apply State.flushRuns_forms

theorem execTierMovePromote_forms (x : Mbx) (s : State) (hyp_s : s.canonical = true) :
    OkForms (execTierMovePromote x s) := by
  unfold execTierMovePromote
  with_reducible repeat' first
    | assumption | apply forms_next | apply State.tierMove_forms

theorem execTierMoveDemote_forms (x : Mbx) (s : State) (hyp_s : s.canonical = true) :
    OkForms (execTierMoveDemote x s) := by
  unfold execTierMoveDemote
  with_reducible repeat' first
    | assumption | apply forms_next | apply State.tierMove_forms

theorem execStreamStart_forms (x : Mbx) (s : State) (hyp_s : s.canonical = true) :
    OkForms (execStreamStart x s) := by
  unfold execStreamStart
  with_reducible repeat' first
    | assumption | apply forms_next | intro _
    | (extract_lets +onlyGivenNames x; have hx : x.canonical = true := ?_; (on_goal 2 => subst x); clear_value x; revert x; intro _ _)
    | (extract_lets +onlyGivenNames x; clear_value x; revert x; intro _) | apply forms_ite | apply State.command_forms | apply State.status_forms
    | apply State.onTier_forms | apply State.post_forms | apply State.okOut_forms
    | (split <;> try (rename_i h; have hp := forms_ofEq h ?_; clear h))

theorem execStreamStop_forms (x : Mbx) (s : State) (hyp_s : s.canonical = true) :
    OkForms (execStreamStop x s) := by
  unfold execStreamStop
  with_reducible repeat' first
    | assumption | apply forms_next | intro _ | apply forms_ite | apply State.command_forms | apply State.status_forms | apply State.endSched_forms
    | (split <;> try (rename_i h; have hp := forms_ofEq h ?_; clear h))

theorem execStreamQuery_forms (x : Mbx) (s : State) (hyp_s : s.canonical = true) :
    OkForms (execStreamQuery x s) := by
  unfold execStreamQuery
  with_reducible repeat' first
    | assumption | apply forms_next | intro _ | apply forms_ite | apply State.command_forms | apply State.status_forms | apply State.okOut_forms
    | (split <;> try (rename_i h; have hp := forms_ofEq h ?_; clear h))

theorem State.placeRemote_forms (s : State) (i k page cls : Nat) (hyp_s : s.canonical = true) :
    (State.placeRemote s i k page cls).canonical = true := by
  unfold State.placeRemote
  with_reducible repeat' first
    | simp -zeta only [canonical_mk, near_mk, far_mk] | assumption | apply State.emit_forms | apply State.placeAway_forms
    | apply State.modSched_forms

theorem execStreamLayerPromote_forms (i : Fin 32) (s : State) (hyp_s : s.canonical = true) :
    OkForms (execStreamLayerPromote i s) := by
  unfold execStreamLayerPromote
  with_reducible repeat' first
    | assumption | apply forms_next | intro _
    | (extract_lets +onlyGivenNames x; have hx : x.canonical = true := ?_; (on_goal 2 => subst x); clear_value x; revert x; intro _ _)
    | (extract_lets +onlyGivenNames x; clear_value x; revert x; intro _) | apply forms_ite | apply forms_each | apply State.modSched_forms
    | apply State.promote_forms | apply State.placeRemote_forms | (split <;> try (rename_i h; have hp := forms_ofEq h ?_; clear h))

theorem State.gateWrite_forms (s : State) (page word v : Nat) (hyp_s : s.canonical = true) :
    (State.gateWrite s page word v).canonical = true := by
  unfold State.gateWrite
  with_reducible repeat' first
    | assumption | apply State.newReq_forms | apply State.atHome_forms

theorem execStreamLayerResident_forms (i : Fin 32) (layer : Nat) (s : State) (hyp_s : s.canonical = true) :
    OkForms (execStreamLayerResident i layer s) := by
  unfold execStreamLayerResident
  with_reducible repeat' first
    | assumption | apply forms_next
    | (extract_lets +onlyGivenNames x; have hx : x.canonical = true := ?_; (on_goal 2 => subst x); clear_value x; revert x; intro _ _)
    | (extract_lets +onlyGivenNames x; clear_value x; revert x; intro _) | apply forms_ite | apply State.gateWrite_forms
    | apply State.modSched_forms | apply State.edge_forms | (split <;> try (rename_i h; have hp := forms_ofEq h ?_; clear h))

/-! ## FarTier -/

theorem State.farLost_forms (s : State) (page : Nat) (hyp_s : s.canonical = true) :
    (State.farLost s page).canonical = true := by
  unfold State.farLost
  with_reducible repeat' first
    | assumption | intro _
    | (extract_lets +onlyGivenNames x; have hx : x.canonical = true := ?_; (on_goal 2 => subst x); clear_value x; revert x; intro _ _)
    | (extract_lets +onlyGivenNames x; clear_value x; revert x; intro _) | apply forms_ite | apply State.bump_forms | apply State.intr_forms
    | apply State.intError_forms | apply State.farAppend_forms | apply State.setPme_forms | apply State.freeFar_forms | apply State.freeNear_forms
    | apply State.checkMark_forms | apply State.setMove_forms | apply State.clearPage_forms | apply State.branWatch_forms
    | apply State.poisonPageEntry_forms | apply State.wakePage_forms | apply State.runEnded_forms
    | (split <;> try (rename_i h; have hp := forms_ofEq h ?_; clear h))

theorem State.queueBand_forms (s : State) (b : Nat) (hyp_s : s.canonical = true) :
    (State.queueBand s b).canonical = true := by
  unfold State.queueBand
  with_reducible repeat' first
    | simp -zeta only [canonical_mk, near_mk, far_mk] | apply media_and | (apply Far.flashOk) | (apply Far.parityOk) | assumption | intro _
    | apply State.onFar_forms

theorem State.retireBands_forms (s : State) (d : Nat) (hyp_s : s.canonical = true) :
    (State.retireBands s d).canonical = true := by
  unfold State.retireBands
  with_reducible repeat' first
    | assumption | intro _ | apply forms_ite | apply forms_each | apply State.mapBand_forms

theorem State.retireDie_forms (s : State) (n : Nat) (hw : Bool) (hyp_s : s.canonical = true) :
    (State.retireDie s n hw).canonical = true := by
  unfold State.retireDie
  with_reducible repeat' first
    | assumption | intro _
    | (extract_lets +onlyGivenNames x; have hx : x.canonical = true := ?_; (on_goal 2 => subst x); clear_value x; revert x; intro _ _)
    | (extract_lets +onlyGivenNames x; clear_value x; revert x; intro _) | apply forms_ite | apply forms_each | apply State.setDie_forms
    | apply State.intr_forms | apply State.addChaff_forms | apply State.intError_forms | apply State.post_forms | apply State.queueBand_forms
    | apply State.retireBands_forms | apply State.rescaled_forms

theorem State.noteRead_forms (s : State) (a len : Nat) (hyp_s : s.canonical = true) :
    (State.noteRead s a len).canonical = true := by
  unfold State.noteRead
  with_reducible repeat' first
    | assumption | intro _
    | (extract_lets +onlyGivenNames x; have hx : x.canonical = true := ?_; (on_goal 2 => subst x); clear_value x; revert x; intro _ _)
    | (extract_lets +onlyGivenNames x; clear_value x; revert x; intro _) | apply forms_ite | apply forms_each | apply State.setBand_forms
    | apply State.queueBand_forms | apply State.post_forms

theorem State.noteRebuild_forms (s : State) (a : Nat) (needed : Bool) (hyp_s : s.canonical = true) :
    (State.noteRebuild s a needed).canonical = true := by
  unfold State.noteRebuild
  with_reducible repeat' first
    | assumption | (extract_lets +onlyGivenNames x; have hx : x.canonical = true := ?_; (on_goal 2 => subst x); clear_value x; revert x; intro _ _)
    | (extract_lets +onlyGivenNames x; clear_value x; revert x; intro _) | apply forms_ite | apply State.setDie_forms | apply State.retireDie_forms

theorem State.noteCw_forms (s : State) (c : Nat × FarRes) (hyp_s : s.canonical = true) :
    (State.noteCw s c).canonical = true := by
  unfold State.noteCw
  with_reducible repeat' first
    | assumption | apply forms_ite | apply State.noteRebuild_forms

theorem State.afterRead_forms (s : State) (a len : Nat) (res : List FarRes) (hyp_s : s.canonical = true) :
    (State.afterRead s a len res).canonical = true := by
  unfold State.afterRead
  with_reducible repeat' first
    | assumption | intro _
    | (extract_lets +onlyGivenNames x; have hx : x.canonical = true := ?_; (on_goal 2 => subst x); clear_value x; revert x; intro _ _)
    | (extract_lets +onlyGivenNames x; clear_value x; revert x; intro _) | apply forms_ite | apply forms_each | apply State.noteRead_forms
    | apply State.bump_forms | apply State.queueBand_forms | apply State.post_forms | apply State.noteCw_forms

theorem State.dieGo_forms (s : State) (n : Nat) (hyp_s : s.canonical = true) :
    (State.dieGo s n).canonical = true := by
  unfold State.dieGo
  with_reducible repeat' first
    | simp -zeta only [canonical_mk, near_mk, far_mk] | assumption | intro _
    | (extract_lets +onlyGivenNames x; have hx : ∀ y0 : State, y0.canonical = true → (x y0).canonical = true := ?_; (on_goal 2 => subst x); clear_value x; revert x; intro _ _)
    | (extract_lets +onlyGivenNames x; clear_value x; revert x; intro _) | apply forms_ite | apply State.setDie_forms | apply State.onQos_forms
    | (split <;> try (rename_i h; have hp := forms_ofEq h ?_; clear h)) | apply_assumption

theorem State.diesGo_forms (s : State) (hyp_s : s.canonical = true) :
    (State.diesGo s).canonical = true := by
  unfold State.diesGo
  with_reducible repeat' first
    | assumption | intro _ | apply forms_each | apply State.dieGo_forms

theorem State.checkRead_forms (s : State) (page : Nat) (m : Move) (hyp_s : s.canonical = true) :
    (State.checkRead s page m).canonical = true := by
  unfold State.checkRead
  with_reducible repeat' first
    | assumption | apply forms_ite | apply State.setMove_forms | apply State.hcrcFail_forms | apply State.farLost_forms

theorem execFarReadDone_forms (page : Nat) (res : List FarRes) (s : State) (hyp_s : s.canonical = true) :
    OkForms (execFarReadDone page res s) := by
  unfold execFarReadDone
  with_reducible repeat' first
    | assumption | apply forms_next
    | (extract_lets +onlyGivenNames x; have hx : x.canonical = true := ?_; (on_goal 2 => subst x); clear_value x; revert x; intro _ _)
    | (extract_lets +onlyGivenNames x; clear_value x; revert x; intro _) | apply forms_ite | apply State.checkRead_forms | apply State.dieGo_forms
    | apply State.setDie_forms | apply State.afterRead_forms | apply State.farLost_forms
    | (split <;> try (rename_i h; have hp := forms_ofEq h ?_; clear h))

theorem State.itemDone_forms (s : State) (it : RowItem) (hyp_s : s.canonical = true) :
    (State.itemDone s it).canonical = true := by
  unfold State.itemDone
  with_reducible repeat' first
    | assumption | intro _
    | (extract_lets +onlyGivenNames x; have hx : x.canonical = true := ?_; (on_goal 2 => subst x); clear_value x; revert x; intro _ _)
    | (extract_lets +onlyGivenNames x; clear_value x; revert x; intro _) | apply forms_ite | apply forms_each | apply State.freeFar_forms
    | apply State.settle_forms | apply State.setPme_forms | apply State.bump_forms | apply State.dropFar_forms

theorem State.programRows_forms (s : State) (reloc : Bool) (it : RowItem) (hyp_s : s.canonical = true) :
    (State.programRows s reloc it).canonical = true := by
  unfold State.programRows
  with_reducible repeat' first
    | simp -zeta only [canonical_mk, near_mk, far_mk] | apply media_and | (apply Far.flashOk) | (apply Far.parityOk) | assumption | intro _
    | (extract_lets +onlyGivenNames x; have hx : x.canonical = true := ?_; (on_goal 2 => subst x); clear_value x; revert x; intro _ _)
    | (extract_lets +onlyGivenNames x; clear_value x; revert x; intro _) | apply forms_each | apply State.setRow_forms | apply State.farWrite_forms
    | apply State.setBand_forms | apply State.onFar_forms | apply State.govProgram_forms | apply State.itemDone_forms

theorem State.jrnlProgram_forms (s : State) (n : Nat) (hyp_s : s.canonical = true) :
    (State.jrnlProgram s n).canonical = true := by
  unfold State.jrnlProgram
  with_reducible repeat' first
    | simp -zeta only [canonical_mk, near_mk, far_mk] | apply media_and | (apply Far.flashOk) | (apply Far.parityOk) | assumption | intro _
    | (extract_lets +onlyGivenNames x; have hx : x.canonical = true := ?_; (on_goal 2 => subst x); clear_value x; revert x; intro _ _)
    | (extract_lets +onlyGivenNames x; clear_value x; revert x; intro _) | apply forms_each | apply State.onFar_forms | apply State.govProgram_forms
    | apply State.settle_forms

theorem execFarRowProgramDone_forms (page : Nat) (journal : Bool) (s : State) (hyp_s : s.canonical = true) :
    OkForms (execFarRowProgramDone page journal s) := by
  unfold execFarRowProgramDone
  with_reducible repeat' first
    | assumption | apply forms_next | apply forms_ite | apply State.jrnlProgram_forms | apply State.programRows_forms
    | (split <;> try (rename_i h; have hp := forms_ofEq h ?_; clear h))

theorem execDurWinExpire_forms (page : Nat) (journal : Bool) (s : State) (hyp_s : s.canonical = true) :
    OkForms (execDurWinExpire page journal s) := by
  unfold execDurWinExpire
  with_reducible repeat' first
    | simp -zeta only [canonical_mk, near_mk, far_mk] | apply media_and | (apply Far.flashOk) | (apply Far.parityOk) | assumption | apply forms_next
    | intro _ | apply forms_ite | apply State.onFar_forms | apply State.bump_forms | apply State.padRow_forms
    | (split <;> try (rename_i h; have hp := forms_ofEq h ?_; clear h))

theorem State.blockRetire_forms (s : State) (chan die band : Nat) (hyp_s : s.canonical = true) :
    (State.blockRetire s chan die band).canonical = true := by
  unfold State.blockRetire
  with_reducible repeat' first
    | assumption | (extract_lets +onlyGivenNames x; have hx : x.canonical = true := ?_; (on_goal 2 => subst x); clear_value x; revert x; intro _ _)
    | (extract_lets +onlyGivenNames x; clear_value x; revert x; intro _) | apply forms_ite | apply State.intr_forms | apply State.intError_forms
    | apply State.addChaff_forms | apply State.mapBand_forms | apply State.setDie_forms | apply State.retireDie_forms

theorem execFarProgramFail_forms (chan : Fin 24) (die : Fin 4) (band : Nat) (s : State) (hyp_s : s.canonical = true) :
    OkForms (execFarProgramFail chan die band s) := by
  unfold execFarProgramFail
  with_reducible repeat' first
    | assumption | apply forms_next | apply forms_ite | apply State.blockRetire_forms | apply State.govProgram_forms

theorem execFarEraseFail_forms (chan : Fin 24) (band : Nat) (s : State) (hyp_s : s.canonical = true) :
    OkForms (execFarEraseFail chan band s) := by
  unfold execFarEraseFail
  with_reducible repeat' first
    | assumption | apply forms_next | apply forms_ite | apply State.blockRetire_forms

theorem State.copyHusk_forms (s : State) (page : Nat) (hyp_s : s.canonical = true) :
    (s.copyHusk page).canonical = true := by
  unfold State.copyHusk
  with_reducible repeat' first
    | assumption | intro _
    | (extract_lets +onlyGivenNames x; have hx : x.canonical = true := ?_; (on_goal 2 => subst x); clear_value x; revert x; intro _ _)
    | (extract_lets +onlyGivenNames x; clear_value x; revert x; intro _) | apply forms_ite | apply State.drew_forms
    | apply State.afterRead_forms | apply State.farLost_forms | apply State.hcrcFail_forms | apply State.farAppend_forms

theorem execGcBandCopy_forms (page : Nat) (s : State) (hyp_s : s.canonical = true) :
    OkForms (execGcBandCopy page s) := by
  unfold execGcBandCopy
  repeat' first
    | (simp -zeta only [canonical_mk]; apply canon; assumption)
    | simp -zeta only [canonical_mk, near_mk, far_mk]
    | with_reducible apply forms_and
    | with_reducible apply media_and
    | (with_reducible apply State.near_wf; with_reducible assumption)
    | (with_reducible apply State.far_wf; with_reducible assumption)
    | (with_reducible apply State.regs_rising; with_reducible assumption)
    | (with_reducible apply Near.linesOk)
    | (with_reducible apply Far.flashOk)
    | (with_reducible apply Far.parityOk)
    | with_reducible assumption
    | with_reducible apply forms_next
    | with_reducible apply forms_fault
    | with_reducible apply forms_oite
    | with_reducible intro _
    | (extract_lets +onlyGivenNames x; have hx : x.canonical = true := ?_; (on_goal 2 => subst x); clear_value x; revert x; intro _ _)
    | (extract_lets +onlyGivenNames x; have hx : x.1.canonical = true := ?_; (on_goal 2 => subst x); clear_value x; revert x; intro _ _)
    | (extract_lets +onlyGivenNames x; have hx : x.wf = true := ?_; (on_goal 2 => subst x); clear_value x; revert x; intro _ _)
    | (extract_lets +onlyGivenNames x; clear_value x; revert x; intro _)
    | with_reducible apply forms_ite
    | with_reducible apply forms_iteFst
    | with_reducible apply forms_oite
    | with_reducible apply forms_next
    | with_reducible apply State.onFar_forms
    | with_reducible apply State.intr_forms
    | with_reducible apply State.post_forms
    | with_reducible apply State.copyHusk_forms
    | (split <;> try (rename_i h; have hp := forms_ofEq h ?_; clear h))
    | (fail_if_no_progress beta_reduce)
    | (fail_if_no_progress dsimp only)
    | with_reducible apply State.near_wf
    | with_reducible apply State.far_wf
    | with_reducible apply State.regs_rising

theorem execBandErase_forms (band : Nat) (s : State) (hyp_s : s.canonical = true) :
    OkForms (execBandErase band s) := by
  unfold execBandErase
  with_reducible repeat' first
    | simp -zeta only [canonical_mk, near_mk, far_mk] | apply media_and | (apply Far.flashOk) | (apply Far.parityOk) | apply chunksOk_filter
    | assumption | apply forms_next | intro _
    | (extract_lets +onlyGivenNames x; have hx : x.canonical = true := ?_; (on_goal 2 => subst x); clear_value x; revert x; intro _ _)
    | (extract_lets +onlyGivenNames x; clear_value x; revert x; intro _) | apply forms_ite | apply forms_each | apply State.onFar_forms
    | apply State.mapBand_forms | apply State.setDie_forms | apply State.post_forms | apply State.endBg_forms
    | (split <;> try (rename_i h; have hp := forms_ofEq h ?_; clear h))

theorem execGovernorRefill_forms (s : State) (hyp_s : s.canonical = true) :
    OkForms (execGovernorRefill s) := by
  unfold execGovernorRefill
  with_reducible repeat' first
    | simp -zeta only [canonical_mk, near_mk, far_mk] | apply media_and | (apply Far.flashOk) | (apply Far.parityOk) | assumption | apply forms_next
    | intro _ | (extract_lets +onlyGivenNames x; have hx : x.canonical = true := ?_; (on_goal 2 => subst x); clear_value x; revert x; intro _ _)
    | apply forms_ite | apply forms_each | apply State.urgentDemote_forms | apply State.issueDemote_forms | apply State.onFar_forms
    | (split <;> try (rename_i h; have hp := forms_ofEq h ?_; clear h))

theorem execJournalCheckpoint_forms (s : State) (hyp_s : s.canonical = true) :
    OkForms (execJournalCheckpoint s) := by
  unfold execJournalCheckpoint
  with_reducible repeat' first
    | simp -zeta only [canonical_mk, near_mk, far_mk] | apply media_and | (apply Far.flashOk) | (apply Far.parityOk) | assumption | apply forms_next
    | intro _ | (extract_lets +onlyGivenNames x; clear_value x; revert x; intro _) | apply forms_ite | apply State.onFar_forms
    | apply State.jrnlProgram_forms | apply State.govProgram_forms | apply State.drew_forms

theorem execFarWearQuery_forms (x : Mbx) (s : State) (hyp_s : s.canonical = true) :
    OkForms (execFarWearQuery x s) := by
  unfold execFarWearQuery
  with_reducible repeat' first
    | assumption | apply forms_next | intro _ | (extract_lets +onlyGivenNames x; clear_value x; revert x; intro _) | apply State.command_forms
    | apply State.okOut_forms

theorem execFarDieRetire_forms (x : Mbx) (s : State) (hyp_s : s.canonical = true) :
    OkForms (execFarDieRetire x s) := by
  unfold execFarDieRetire
  with_reducible repeat' first
    | simp -zeta only [canonical_mk, near_mk, far_mk] | apply media_and | (apply Far.flashOk) | (apply Far.parityOk) | assumption | apply forms_next
    | intro _ | (extract_lets +onlyGivenNames x; have hx : x.canonical = true := ?_; (on_goal 2 => subst x); clear_value x; revert x; intro _ _)
    | (extract_lets +onlyGivenNames x; clear_value x; revert x; intro _) | apply forms_ite | apply State.command_forms | apply State.status_forms
    | apply State.bgCommand_forms | apply State.startBg_forms | apply State.retireDie_forms | apply State.endBg_forms | apply State.onFar_forms

/-! ## LeaseBase -/

theorem State.needKey_forms (s : State) (k : Nat) (hyp_s : s.canonical = true) :
    (State.needKey s k).canonical = true := by
  unfold State.needKey
  with_reducible repeat' first
    | assumption | (extract_lets +onlyGivenNames x; have hx : x.canonical = true := ?_; (on_goal 2 => subst x); clear_value x; revert x; intro _ _)
    | (extract_lets +onlyGivenNames x; clear_value x; revert x; intro _) | apply forms_ite | apply State.drew_forms | apply State.onSec_forms
    | apply State.toMeta_forms | apply State.bump_forms | apply State.post_forms

theorem State.unwrapNever_forms (s : State) (k : Nat) (hyp_s : s.canonical = true) :
    (State.unwrapNever s k).canonical = true := by
  unfold State.unwrapNever
  with_reducible repeat' first
    | simp -zeta only [canonical_mk, near_mk, far_mk] | apply media_and | (apply Far.flashOk) | (apply Far.parityOk) | assumption | intro _
    | (extract_lets +onlyGivenNames x; have hx : x.canonical = true := ?_; (on_goal 2 => subst x); clear_value x; revert x; intro _ _)
    | apply State.onFar_forms | apply State.onSec_forms | apply State.toMeta_forms

theorem State.dropKey_forms (s : State) (k : Nat) (hyp_s : s.canonical = true) :
    (State.dropKey s k).canonical = true := by
  unfold State.dropKey
  with_reducible repeat' first
    | assumption | apply State.onSec_forms | apply State.unwrapNever_forms

theorem State.replyAfter_forms (s : State) (o : Out) (hyp_s : s.canonical = true) :
    (State.replyAfter s o).canonical = true := by
  unfold State.replyAfter
  with_reducible repeat' first
    | assumption | apply forms_ite | apply State.onHdg_forms | apply State.emit_forms

theorem State.okAfter_forms (s : State) (x : Mbx) (out : Bytes) (hyp_s : s.canonical = true) :
    (State.okAfter s x out).canonical = true := by
  unfold State.okAfter
  with_reducible repeat' first
    | assumption | apply State.replyAfter_forms

theorem State.replyHeld_forms (s : State) (flip : Bool) (o : Out) (hyp_s : s.canonical = true) :
    (State.replyHeld s flip o).canonical = true := by
  unfold State.replyHeld
  with_reducible repeat' first
    | (simp -zeta only [canonical_mk]; apply canon; assumption) | assumption
    | (extract_lets +onlyGivenNames x; have hx : x.canonical = true := ?_; (on_goal 2 => subst x); clear_value x; revert x; intro _ _)
    | (extract_lets +onlyGivenNames x; clear_value x; revert x; intro _) | apply forms_ite | apply State.replyAfter_forms | apply State.emits_forms
    | apply State.onHdg_forms

theorem State.okHeld_forms (s : State) (x : Mbx) (out : Bytes) (hyp_s : s.canonical = true) :
    (State.okHeld s x out).canonical = true := by
  unfold State.okHeld
  with_reducible repeat' first
    | assumption | apply State.replyHeld_forms

theorem State.flipEnd_forms (s : State) (hyp_s : s.canonical = true) :
    (State.flipEnd s).canonical = true := by
  unfold State.flipEnd
  with_reducible repeat' first
    | assumption | apply State.intr_forms | apply State.post_forms

theorem State.syncedBy_forms (s : State) (m : Nat) (p : Sync → Bool) (hyp_s : s.canonical = true) :
    (State.syncedBy s m p).canonical = true := by
  unfold State.syncedBy
  with_reducible repeat' first
    | assumption | intro _
    | (extract_lets +onlyGivenNames x; have hx : x.canonical = true := ?_; (on_goal 2 => subst x); clear_value x; revert x; intro _ _)
    | (extract_lets +onlyGivenNames x; clear_value x; revert x; intro _) | apply forms_ite | apply forms_each | apply State.onHdg_forms
    | apply State.flipEnd_forms | apply State.replyAfter_forms

theorem State.flushReplies_forms (s : State) (hyp_s : s.canonical = true) :
    (State.flushReplies s).canonical = true := by
  unfold State.flushReplies
  with_reducible repeat' first
    | assumption | (extract_lets +onlyGivenNames x; clear_value x; revert x; intro _) | apply State.onHdg_forms | apply State.emits_forms

theorem State.copyTo_forms (s : State) (m : Nat) (b : CopyBody) (hyp_s : s.canonical = true) :
    (State.copyTo s m b).canonical = true := by
  unfold State.copyTo
  with_reducible repeat' first
    | assumption | apply State.emit_forms

theorem State.copyAll_forms (s : State) (ms : List Nat) (b : CopyBody) (hyp_s : s.canonical = true) :
    (State.copyAll s ms b).canonical = true := by
  unfold State.copyAll
  with_reducible repeat' first
    | assumption | intro _ | apply forms_each | apply State.copyTo_forms

theorem State.mapSlot_forms (s : State) (ld w slot e : Nat) (hyp_s : s.canonical = true) :
    (State.mapSlot s ld w slot e).canonical = true := by
  unfold State.mapSlot
  with_reducible repeat' first
    | assumption | apply State.onSpc_forms

theorem State.unmapSlots_forms (s : State) (ld w : Nat) (p : Nat → Nat → Bool) (hyp_s : s.canonical = true) :
    (State.unmapSlots s ld w p).canonical = true := by
  unfold State.unmapSlots
  with_reducible repeat' first
    | assumption | (extract_lets +onlyGivenNames x; clear_value x; revert x; intro _) | apply State.onSpc_forms
    | (split <;> try (rename_i h; have hp := forms_ofEq h ?_; clear h))

theorem State.wipePage_forms (s : State) (page : Nat) (hyp_s : s.canonical = true) :
    (State.wipePage s page).canonical = true := by
  unfold State.wipePage
  with_reducible repeat' first
    | simp -zeta only [canonical_mk, near_mk, far_mk] | apply media_and | (apply Far.flashOk) | (apply Far.parityOk) | assumption | intro _
    | (extract_lets +onlyGivenNames x; have hx : x.canonical = true := ?_; (on_goal 2 => subst x); clear_value x; revert x; intro _ _)
    | (extract_lets +onlyGivenNames x; clear_value x; revert x; intro _) | apply forms_ite | apply forms_each | apply State.freeNear_forms
    | apply State.freeFarAt_forms | apply State.dropFar_forms | apply State.onFar_forms | apply State.onTier_forms | apply State.onHusk_forms
    | apply State.clearPage_forms | apply State.checkMark_forms | (split <;> try (rename_i h; have hp := forms_ofEq h ?_; clear h))

theorem State.unwrite_forms (s : State) (page : Nat) (hyp_s : s.canonical = true) :
    (State.unwrite s page).canonical = true := by
  unfold State.unwrite
  with_reducible repeat' first
    | assumption | intro _
    | (extract_lets +onlyGivenNames x; have hx : x.canonical = true := ?_; (on_goal 2 => subst x); clear_value x; revert x; intro _ _)
    | (extract_lets +onlyGivenNames x; clear_value x; revert x; intro _) | apply State.branWatch_forms | apply State.wipePage_forms
    | apply State.setPme_forms | apply State.onTier_forms

theorem State.discardVlr_forms (s : State) (e : Nat) (hyp_s : s.canonical = true) :
    (State.discardVlr s e).canonical = true := by
  unfold State.discardVlr
  with_reducible repeat' first
    | assumption | intro _
    | (extract_lets +onlyGivenNames x; have hx : x.canonical = true := ?_; (on_goal 2 => subst x); clear_value x; revert x; intro _ _)
    | apply forms_each | apply State.dropVirtual_forms | apply State.onTlr_forms

theorem State.unbindFrom_forms (s : State) (e : Nat) (hyp_s : s.canonical = true) :
    (State.unbindFrom s e).canonical = true := by
  unfold State.unbindFrom
  with_reducible repeat' first
    | assumption | intro _
    | (extract_lets +onlyGivenNames x; have hx : x.canonical = true := ?_; (on_goal 2 => subst x); clear_value x; revert x; intro _ _)
    | (extract_lets +onlyGivenNames x; clear_value x; revert x; intro _) | apply forms_ite | apply forms_each | apply State.discardVlr_forms
    | apply State.setExtent_forms | apply State.intr_forms | apply State.post_forms | apply State.wake_forms
    | (split <;> try (rename_i h; have hp := forms_ofEq h ?_; clear h))

theorem State.faultScheds_forms (s : State) (e : Nat) (hyp_s : s.canonical = true) :
    (State.faultScheds s e).canonical = true := by
  unfold State.faultScheds
  with_reducible repeat' first
    | assumption | intro _ | (extract_lets +onlyGivenNames x; clear_value x; revert x; intro _) | apply forms_ite | apply forms_each
    | apply State.endSched_forms | (split <;> try (rename_i h; have hp := forms_ofEq h ?_; clear h))

theorem State.reclaimHere_forms (s : State) (e : Nat) (hyp_s : s.canonical = true) :
    (State.reclaimHere s e).canonical = true := by
  unfold State.reclaimHere
  with_reducible repeat' first
    | assumption | intro _
    | (extract_lets +onlyGivenNames x; have hx : x.canonical = true := ?_; (on_goal 2 => subst x); clear_value x; revert x; intro _ _)
    | (extract_lets +onlyGivenNames x; clear_value x; revert x; intro _) | apply forms_ite | apply forms_each | apply State.unbindFrom_forms
    | apply State.faultScheds_forms | apply State.unwrite_forms | apply State.onTlr_forms | apply State.onHusk_forms | apply State.plistDrop_forms
    | apply State.onDir_forms | apply State.onHdg_forms | apply State.setExtent_forms | apply State.dropKey_forms | apply State.post_forms
    | apply State.retryMoves_forms | (split <;> try (rename_i h; have hp := forms_ofEq h ?_; clear h))

theorem State.reclaim_forms (s : State) (e : Nat) (hyp_s : s.canonical = true) :
    (State.reclaim s e).canonical = true := by
  unfold State.reclaim
  with_reducible repeat' first
    | assumption | apply State.copyAll_forms | apply State.reclaimHere_forms

theorem State.unnameReplica_forms (s : State) (e h : Nat) (hyp_s : s.canonical = true) :
    (State.unnameReplica s e h).canonical = true := by
  unfold State.unnameReplica
  with_reducible repeat' first
    | assumption | apply forms_ite | apply State.onHdg_forms | apply State.reclaim_forms
    | (split <;> try (rename_i h; have hp := forms_ofEq h ?_; clear h))

theorem State.unname_forms (s : State) (e h : Nat) (hyp_s : s.canonical = true) :
    (State.unname s e h).canonical = true := by
  unfold State.unname
  with_reducible repeat' first
    | assumption | (extract_lets +onlyGivenNames x; have hx : x.canonical = true := ?_; (on_goal 2 => subst x); clear_value x; revert x; intro _ _)
    | (extract_lets +onlyGivenNames x; clear_value x; revert x; intro _) | apply forms_ite | apply State.reclaim_forms | apply State.setExtent_forms
    | apply State.unnameReplica_forms | apply State.copyTo_forms | (split <;> try (rename_i h; have hp := forms_ofEq h ?_; clear h))

theorem State.startSweep_forms (s : State) (h : Nat) (hyp_s : s.canonical = true) :
    (State.startSweep s h).canonical = true := by
  unfold State.startSweep
  with_reducible repeat' first
    | assumption | apply State.onDir_forms

theorem State.sweepHere_forms (s : State) (h : Nat) (es : List Nat) (hyp_s : s.canonical = true) :
    (State.sweepHere s h es).canonical = true := by
  unfold State.sweepHere
  with_reducible repeat' first
    | assumption | intro _
    | (extract_lets +onlyGivenNames x; have hx : x.canonical = true := ?_; (on_goal 2 => subst x); clear_value x; revert x; intro _ _)
    | (extract_lets +onlyGivenNames x; clear_value x; revert x; intro _) | apply forms_each | apply State.startSweep_forms
    | apply State.dirPend_forms | apply State.snoop_forms

theorem State.loseHere_forms (s : State) (h : Nat) (es : List Nat) (cause : Nat) (hyp_s : s.canonical = true) :
    (State.loseHere s h es cause).canonical = true := by
  unfold State.loseHere
  with_reducible repeat' first
    | assumption | intro _
    | (extract_lets +onlyGivenNames x; have hx : x.canonical = true := ?_; (on_goal 2 => subst x); clear_value x; revert x; intro _ _)
    | (extract_lets +onlyGivenNames x; clear_value x; revert x; intro _) | apply forms_ite | apply forms_each | apply State.startSweep_forms
    | apply State.lostCap_forms | apply State.ownerLost_forms | apply State.dirPutOpt_forms

theorem State.holderLeaves_forms (s : State) (h : Nat) (es : List Nat) (lost : Bool) (hyp_s : s.canonical = true) :
    (State.holderLeaves s h es lost).canonical = true := by
  unfold State.holderLeaves
  with_reducible repeat' first
    | assumption | (extract_lets +onlyGivenNames x; have hx : x.canonical = true := ?_; (on_goal 2 => subst x); clear_value x; revert x; intro _ _)
    | (extract_lets +onlyGivenNames x; clear_value x; revert x; intro _) | apply forms_ite | apply State.copyAll_forms | apply State.loseHere_forms
    | apply State.sweepHere_forms

theorem State.startDrain_forms (s : State) (h : Nat) (l : Lease) (es : List Nat) (bound : Nat) (whole : Bool) (hyp_s : s.canonical = true) :
    (State.startDrain s h l es bound whole).canonical = true := by
  unfold State.startDrain
  with_reducible repeat' first
    | assumption | (extract_lets +onlyGivenNames x; have hx : x.canonical = true := ?_; (on_goal 2 => subst x); clear_value x; revert x; intro _ _)
    | apply State.onSpc_forms | apply State.tellSheaves_forms | apply State.holderLeaves_forms
    | (split <;> try (rename_i h; have hp := forms_ofEq h ?_; clear h))

theorem State.retireKey_forms (s : State) (k : Nat) (hyp_s : s.canonical = true) :
    (State.retireKey s k).canonical = true := by
  unfold State.retireKey
  repeat' first
    | (simp -zeta only [canonical_mk]; apply canon; assumption)
    | simp -zeta only [canonical_mk, near_mk, far_mk]
    | with_reducible apply forms_and
    | with_reducible apply media_and
    | (with_reducible apply State.near_wf; with_reducible assumption)
    | (with_reducible apply State.far_wf; with_reducible assumption)
    | (with_reducible apply State.regs_rising; with_reducible assumption)
    | (with_reducible apply Near.linesOk)
    | (with_reducible apply Far.flashOk)
    | (with_reducible apply Far.parityOk)
    | with_reducible assumption
    | intro _
    | (extract_lets +onlyGivenNames x; have hx : x.canonical = true := ?_; (on_goal 2 => subst x); clear_value x; revert x; intro _ _)
    | (extract_lets +onlyGivenNames x; have hx : x.1.canonical = true := ?_; (on_goal 2 => subst x); clear_value x; revert x; intro _ _)
    | (extract_lets +onlyGivenNames x; have hx : x.wf = true := ?_; (on_goal 2 => subst x); clear_value x; revert x; intro _ _)
    | (extract_lets +onlyGivenNames x; clear_value x; revert x; intro _)
    | with_reducible apply forms_ite
    | with_reducible apply forms_iteFst
    | with_reducible apply forms_oite
    | with_reducible apply State.onSec_forms
    | with_reducible apply State.unwrapNever_forms
    | (split <;> try (rename_i h; have hp := forms_ofEq h ?_; clear h))
    | (fail_if_no_progress beta_reduce)
    | (fail_if_no_progress dsimp only)
    | with_reducible apply State.near_wf
    | with_reducible apply State.far_wf
    | with_reducible apply State.regs_rising

theorem State.keysGo_forms (s : State) (hyp_s : s.canonical = true) :
    (State.keysGo s).canonical = true := by
  unfold State.keysGo
  repeat' first
    | (simp -zeta only [canonical_mk]; apply canon; assumption)
    | simp -zeta only [canonical_mk, near_mk, far_mk]
    | with_reducible apply forms_and
    | with_reducible apply media_and
    | (with_reducible apply State.near_wf; with_reducible assumption)
    | (with_reducible apply State.far_wf; with_reducible assumption)
    | (with_reducible apply State.regs_rising; with_reducible assumption)
    | (with_reducible apply Near.linesOk)
    | (with_reducible apply Far.flashOk)
    | (with_reducible apply Far.parityOk)
    | with_reducible assumption
    | intro _
    | (extract_lets +onlyGivenNames x; have hx : x.canonical = true := ?_; (on_goal 2 => subst x); clear_value x; revert x; intro _ _)
    | (extract_lets +onlyGivenNames x; have hx : x.1.canonical = true := ?_; (on_goal 2 => subst x); clear_value x; revert x; intro _ _)
    | (extract_lets +onlyGivenNames x; have hx : x.wf = true := ?_; (on_goal 2 => subst x); clear_value x; revert x; intro _ _)
    | (extract_lets +onlyGivenNames x; clear_value x; revert x; intro _)
    | with_reducible apply forms_ite
    | with_reducible apply forms_iteFst
    | with_reducible apply forms_oite
    | with_reducible apply State.unwrite_forms
    | (split <;> try (rename_i h; have hp := forms_ofEq h ?_; clear h))
    | (fail_if_no_progress beta_reduce)
    | (fail_if_no_progress dsimp only)
    | with_reducible apply State.near_wf
    | with_reducible apply State.far_wf
    | with_reducible apply State.regs_rising

theorem State.eraseKeys_forms (s : State) (a : Nat) (hyp_s : s.canonical = true) :
    (State.eraseKeys s a).canonical = true := by
  unfold State.eraseKeys
  with_reducible repeat' first
    | assumption | apply State.retireKey_forms

theorem State.eraseCheck_forms (s : State) (hyp_s : s.canonical = true) :
    (State.eraseCheck s).canonical = true := by
  unfold State.eraseCheck
  with_reducible repeat' first
    | assumption | intro _
    | (extract_lets +onlyGivenNames x; have hx : x.canonical = true := ?_; (on_goal 2 => subst x); clear_value x; revert x; intro _ _)
    | apply forms_ite | apply forms_each | apply State.onSec_forms | apply State.copyAll_forms | apply State.eraseKeys_forms
    | apply State.endBg_forms | apply State.post_forms | apply State.copyTo_forms
    | (split <;> try (rename_i h; have hp := forms_ofEq h ?_; clear h))

theorem State.closeLease_forms (s : State) (h : Nat) (hyp_s : s.canonical = true) :
    (State.closeLease s h).canonical = true := by
  unfold State.closeLease
  with_reducible repeat' first
    | assumption | intro _
    | (extract_lets +onlyGivenNames x; have hx : x.canonical = true := ?_; (on_goal 2 => subst x); clear_value x; revert x; intro _ _)
    | apply forms_each | apply State.unmapSlots_forms | apply State.onSpc_forms | apply State.setLease_forms | apply State.unname_forms
    | apply State.eraseCheck_forms | (split <;> try (rename_i h; have hp := forms_ofEq h ?_; clear h))

theorem State.endDrain_forms (s : State) (d : Drain) (hyp_s : s.canonical = true) :
    (State.endDrain s d).canonical = true := by
  unfold State.endDrain
  with_reducible repeat' first
    | assumption | intro _
    | (extract_lets +onlyGivenNames x; have hx : x.canonical = true := ?_; (on_goal 2 => subst x); clear_value x; revert x; intro _ _)
    | apply forms_ite | apply forms_each | apply State.closeLease_forms | apply State.onSpc_forms | apply State.unname_forms
    | apply State.unmapSlots_forms | apply State.setLease_forms | (split <;> try (rename_i h; have hp := forms_ofEq h ?_; clear h))

theorem State.stragglers_forms (s : State) (d : Drain) (hyp_s : s.canonical = true) :
    (State.stragglers s d).canonical = true := by
  unfold State.stragglers
  with_reducible repeat' first
    | assumption | intro _
    | (extract_lets +onlyGivenNames x; have hx : x.canonical = true := ?_; (on_goal 2 => subst x); clear_value x; revert x; intro _ _)
    | (extract_lets +onlyGivenNames x; clear_value x; revert x; intro _) | apply forms_ite | apply forms_each | apply State.answer_forms
    | apply State.bump_forms | apply State.intr_forms | apply State.postFor_forms
    | (split <;> try (rename_i h; have hp := forms_ofEq h ?_; clear h))

theorem State.orphan_forms (s : State) (h : Nat) (lost : Bool) (hyp_s : s.canonical = true) :
    (State.orphan s h lost).canonical = true := by
  unfold State.orphan
  with_reducible repeat' first
    | assumption | (extract_lets +onlyGivenNames x; have hx : x.canonical = true := ?_; (on_goal 2 => subst x); clear_value x; revert x; intro _ _)
    | apply State.unmapSlots_forms | apply State.setLease_forms | apply State.postFor_forms | apply State.holderLeaves_forms
    | (split <;> try (rename_i h; have hp := forms_ofEq h ?_; clear h))

theorem State.orphanLd_forms (s : State) (ld : Nat) (p : Lease → Bool) (lost : Bool) (hyp_s : s.canonical = true) :
    (State.orphanLd s ld p lost).canonical = true := by
  unfold State.orphanLd
  with_reducible repeat' first
    | assumption | intro _ | apply forms_each | apply State.orphan_forms

/-! ## Lease -/

theorem State.doPlan_forms (s : State) (h : Nat) (p : Plan) (hyp_s : s.canonical = true) :
    (State.doPlan s h p).canonical = true := by
  unfold State.doPlan
  with_reducible repeat' first
    | assumption | intro _
    | (extract_lets +onlyGivenNames x; have hx : x.canonical = true := ?_; (on_goal 2 => subst x); clear_value x; revert x; intro _ _)
    | (extract_lets +onlyGivenNames x; clear_value x; revert x; intro _) | apply forms_ite | apply forms_each | apply State.needKey_forms
    | apply State.setExtent_forms | apply State.copyAll_forms | apply State.copyTo_forms
    | (split <;> try (rename_i h; have hp := forms_ofEq h ?_; clear h))

theorem State.respond_forms (s : State) (holder : Nat) (hyp_s : s.canonical = true) :
    (State.respond s holder).canonical = true := by
  unfold State.respond
  with_reducible repeat' first
    | assumption | apply State.onDir_forms

theorem State.fill_forms (s : State) (ld w : Nat) (es : List Nat) (hyp_s : s.canonical = true) :
    (State.fill s ld w es).1.canonical = true := by
  unfold State.fill
  with_reducible repeat' first
    | assumption | intro _ | (extract_lets +onlyGivenNames x; clear_value x; revert x; intro _) | apply forms_each | apply State.mapSlot_forms

theorem State.withExts_forms (s : State) (cmd : Nat) (x : Mbx) (asked es : List Nat) (f : State → State) (hyp_s : s.canonical = true) (hyp_f : ∀ z : State, z.canonical = true → (f z).canonical = true) :
    (State.withExts s cmd x asked es f).canonical = true := by
  unfold State.withExts
  with_reducible repeat' first
    | assumption | (extract_lets +onlyGivenNames x; clear_value x; revert x; intro _) | apply forms_ite | apply State.emits_forms
    | apply State.onSpc_forms | apply_assumption

theorem State.grantDo_forms (s : State) (x : Mbx) (rs : List GReq) (ext : Option (Nat × Lease)) (hyp_s : s.canonical = true) :
    (State.grantDo s x rs ext).canonical = true := by
  unfold State.grantDo
  with_reducible repeat' first
    | (simp -zeta only [canonical_mk]; apply canon; assumption) | simp -zeta only [canonical_mk, near_mk, far_mk] | assumption
    | (extract_lets +onlyGivenNames x; have hx : x.canonical = true := ?_; (on_goal 2 => subst x); clear_value x; revert x; intro _ _)
    | (extract_lets +onlyGivenNames x; clear_value x; revert x; intro _) | apply forms_ite | apply State.status_forms | apply State.doPlan_forms
    | apply State.fill_forms | apply State.setLease_forms | apply State.respond_forms | apply State.postFor_forms | apply State.okAfter_forms
    | (split <;> try (rename_i h; have hp := forms_ofEq h ?_; clear h))

theorem State.grantNow_forms (s : State) (x : Mbx) (rs : List GReq) (hyp_s : s.canonical = true) :
    (State.grantNow s x rs).canonical = true := by
  unfold State.grantNow
  with_reducible repeat' first
    | assumption | (extract_lets +onlyGivenNames x; clear_value x; revert x; intro _) | apply forms_ite | apply State.status_forms
    | apply State.grantDo_forms | (split <;> try (rename_i h; have hp := forms_ofEq h ?_; clear h))

theorem State.grantCmd_forms (s : State) (x : Mbx) (asked : List Nat) (hyp_s : s.canonical = true) :
    (State.grantCmd s x asked).canonical = true := by
  unfold State.grantCmd
  with_reducible repeat' first
    | assumption | intro _ | (extract_lets +onlyGivenNames x; clear_value x; revert x; intro _) | apply forms_ite | apply State.reply_forms
    | apply State.status_forms | apply State.withExts_forms | apply State.grantNow_forms
    | (split <;> try (rename_i h; have hp := forms_ofEq h ?_; clear h))

theorem execLeaseGrant_forms (x : Mbx) (s : State) (hyp_s : s.canonical = true) :
    OkForms (execLeaseGrant x s) := by
  unfold execLeaseGrant
  with_reducible repeat' first
    | assumption | apply forms_next | intro _ | apply State.command_forms | apply State.grantCmd_forms

theorem State.renew_forms (s : State) (h : Nat) (l : Lease) (dur : Nat) (hyp_s : s.canonical = true) :
    (State.renew s h l dur).canonical = true := by
  unfold State.renew
  with_reducible repeat' first
    | assumption | apply State.setLease_forms

theorem execLeaseRenew_forms (x : Mbx) (s : State) (hyp_s : s.canonical = true) :
    OkForms (execLeaseRenew x s) := by
  unfold execLeaseRenew
  with_reducible repeat' first
    | assumption | apply forms_next | intro _ | apply forms_ite | apply State.command_forms | apply State.status_forms | apply State.renew_forms
    | apply State.okAfter_forms | (split <;> try (rename_i h; have hp := forms_ofEq h ?_; clear h))

theorem execSpcHbWrite_forms (ld : Fin 64) (w : Fin 8) (_off : Fin 512) (_v : Word) (s : State) (hyp_s : s.canonical = true) :
    OkForms (execSpcHbWrite ld w _off _v s) := by
  unfold execSpcHbWrite
  with_reducible repeat' first
    | assumption | apply forms_next | apply forms_ite | apply State.renew_forms | (split <;> try (rename_i h; have hp := forms_ofEq h ?_; clear h))

theorem State.drainNamed_forms (s : State) (h : Nat) (l : Lease) (es : List Nat) (bound : Nat) (hyp_s : s.canonical = true) :
    (State.drainNamed s h l es bound).canonical = true := by
  unfold State.drainNamed
  with_reducible repeat' first
    | assumption | (extract_lets +onlyGivenNames x; have hx : x.canonical = true := ?_; (on_goal 2 => subst x); clear_value x; revert x; intro _ _)
    | (extract_lets +onlyGivenNames x; clear_value x; revert x; intro _) | apply forms_ite | apply State.setLease_forms | apply State.onSpc_forms
    | apply State.startDrain_forms

theorem execLeaseRelease_forms (x : Mbx) (s : State) (hyp_s : s.canonical = true) :
    OkForms (execLeaseRelease x s) := by
  unfold execLeaseRelease
  with_reducible repeat' first
    | assumption | apply forms_next | intro _ | (extract_lets +onlyGivenNames x; clear_value x; revert x; intro _) | apply forms_ite
    | apply State.command_forms | apply State.status_forms | apply State.drainNamed_forms | apply State.okAfter_forms
    | (split <;> try (rename_i h; have hp := forms_ofEq h ?_; clear h))

theorem State.revoke_forms (s : State) (h : Nat) (l : Lease) (es : List Nat) (boundUs : Nat) (hyp_s : s.canonical = true) :
    (State.revoke s h l es boundUs).canonical = true := by
  unfold State.revoke
  with_reducible repeat' first
    | assumption | intro _
    | (extract_lets +onlyGivenNames x; have hx : x.canonical = true := ?_; (on_goal 2 => subst x); clear_value x; revert x; intro _ _)
    | apply forms_each | apply State.postFor_forms | apply State.edge_forms | apply State.faultScheds_forms | apply State.drainNamed_forms
    | (split <;> try (rename_i h; have hp := forms_ofEq h ?_; clear h))

theorem State.revokeAcct_forms (s : State) (a : Nat) (hyp_s : s.canonical = true) :
    (State.revokeAcct s a).canonical = true := by
  unfold State.revokeAcct
  with_reducible repeat' first
    | assumption | intro _ | apply forms_each | apply State.revoke_forms

theorem execLeaseRevoke_forms (x : Mbx) (s : State) (hyp_s : s.canonical = true) :
    OkForms (execLeaseRevoke x s) := by
  unfold execLeaseRevoke
  with_reducible repeat' first
    | assumption | apply forms_next | intro _
    | (extract_lets +onlyGivenNames x; have hx : x.canonical = true := ?_; (on_goal 2 => subst x); clear_value x; revert x; intro _ _)
    | (extract_lets +onlyGivenNames x; clear_value x; revert x; intro _) | apply forms_ite | apply State.command_forms | apply State.status_forms
    | apply State.copyTo_forms | apply State.revoke_forms | apply State.drew_forms | apply State.okAfter_forms
    | (split <;> try (rename_i h; have hp := forms_ofEq h ?_; clear h))

theorem State.tokenRefused_forms (s : State) (ld : Nat) (counts : Bool) (hyp_s : s.canonical = true) :
    (State.tokenRefused s ld counts).canonical = true := by
  unfold State.tokenRefused
  with_reducible repeat' first
    | assumption | (extract_lets +onlyGivenNames x; have hx : x.canonical = true := ?_; (on_goal 2 => subst x); clear_value x; revert x; intro _ _)
    | (extract_lets +onlyGivenNames x; clear_value x; revert x; intro _) | apply forms_ite | apply State.bump_forms | apply State.postFor_forms
    | apply State.onSpc_forms

theorem State.bind_forms (s : State) (h : Nat) (l : Lease) (ld w sess : Nat) (hyp_s : s.canonical = true) :
    (State.bind s h l ld w sess).1.canonical = true := by
  unfold State.bind
  with_reducible repeat' first
    | simp -zeta only [canonical_mk, near_mk, far_mk] | assumption
    | (extract_lets +onlyGivenNames x; have hx : x.canonical = true := ?_; (on_goal 2 => subst x); clear_value x; revert x; intro _ _)
    | apply State.unmapSlots_forms | apply State.onSpc_forms | apply State.fill_forms | apply State.setLease_forms | apply State.respond_forms
    | apply State.postFor_forms | (split <;> try (rename_i h; have hp := forms_ofEq h ?_; clear h))

theorem State.adoptLease_forms (s : State) (h : Nat) (l : Lease) (hyp_s : s.canonical = true) :
    (State.adoptLease s h l).canonical = true := by
  unfold State.adoptLease
  with_reducible repeat' first
    | assumption | intro _
    | (extract_lets +onlyGivenNames x; have hx : x.canonical = true := ?_; (on_goal 2 => subst x); clear_value x; revert x; intro _ _)
    | apply forms_ite | apply forms_each | apply State.setExtent_forms | apply State.onHdg_forms
    | (split <;> try (rename_i h; have hp := forms_ofEq h ?_; clear h))

theorem execLeaseAttach_forms (x : Mbx) (s : State) (hyp_s : s.canonical = true) :
    OkForms (execLeaseAttach x s) := by
  unfold execLeaseAttach
  with_reducible repeat' first
    | simp -zeta only [canonical_mk, near_mk, far_mk] | assumption | apply forms_next | intro _
    | (extract_lets +onlyGivenNames x; have hx : x.canonical = true := ?_; (on_goal 2 => subst x); clear_value x; revert x; intro _ _)
    | (extract_lets +onlyGivenNames x; clear_value x; revert x; intro _) | apply forms_ite | apply State.command_forms
    | apply State.tokenRefused_forms | apply State.status_forms | apply State.adoptLease_forms | apply State.holderLeaves_forms
    | apply State.bind_forms | apply State.okAfter_forms | apply State.copyAll_forms | apply State.onSpc_forms
    | (split <;> try (rename_i h; have hp := forms_ofEq h ?_; clear h))

theorem execTokenLockoutEnd_forms (ld : Fin 64) (s : State) (hyp_s : s.canonical = true) :
    OkForms (execTokenLockoutEnd ld s) := by
  unfold execTokenLockoutEnd
  with_reducible repeat' first
    | assumption | apply forms_next | apply forms_ite | apply State.onSpc_forms | (split <;> try (rename_i h; have hp := forms_ofEq h ?_; clear h))

theorem execLeaseQuery_forms (x : Mbx) (s : State) (hyp_s : s.canonical = true) :
    OkForms (execLeaseQuery x s) := by
  unfold execLeaseQuery
  with_reducible repeat' first
    | assumption | apply forms_next | intro _ | (extract_lets +onlyGivenNames x; clear_value x; revert x; intro _) | apply forms_ite
    | apply State.command_forms | apply State.status_forms | apply State.drew_forms | apply State.okOut_forms
    | (split <;> try (rename_i h; have hp := forms_ofEq h ?_; clear h))

theorem execAccountSet_forms (x : Mbx) (s : State) (hyp_s : s.canonical = true) :
    OkForms (execAccountSet x s) := by
  unfold execAccountSet
  with_reducible repeat' first
    | assumption | apply forms_next | intro _
    | (extract_lets +onlyGivenNames x; have hx : x.canonical = true := ?_; (on_goal 2 => subst x); clear_value x; revert x; intro _ _)
    | (extract_lets +onlyGivenNames x; clear_value x; revert x; intro _) | apply forms_ite | apply State.command_forms | apply State.status_forms
    | apply State.branWatch_forms | apply State.setAcct_forms | apply State.okAfter_forms | apply State.copyTo_forms | apply State.drew_forms

theorem execAccountQuery_forms (x : Mbx) (s : State) (hyp_s : s.canonical = true) :
    OkForms (execAccountQuery x s) := by
  unfold execAccountQuery
  with_reducible repeat' first
    | assumption | apply forms_next | intro _ | (extract_lets +onlyGivenNames x; clear_value x; revert x; intro _) | apply forms_ite
    | apply State.command_forms | apply State.okOut_forms | apply State.status_forms | apply State.drew_forms

theorem State.bindAcct_forms (s : State) (x : Mbx) (hyp_s : s.canonical = true) :
    (State.bindAcct s x).canonical = true := by
  unfold State.bindAcct
  with_reducible repeat' first
    | assumption | intro _ | (extract_lets +onlyGivenNames x; clear_value x; revert x; intro _) | apply forms_ite | apply State.command_forms
    | apply State.status_forms | apply State.okAfter_forms | apply State.setAcct_forms | apply State.copyAll_forms | apply State.okHeld_forms

theorem execAccountBindAdd_forms (x : Mbx) (s : State) (hyp_s : s.canonical = true) :
    OkForms (execAccountBindAdd x s) := by
  unfold execAccountBindAdd
  with_reducible repeat' first
    | assumption | apply forms_next | apply State.bindAcct_forms

theorem execAccountBindRemove_forms (x : Mbx) (s : State) (hyp_s : s.canonical = true) :
    OkForms (execAccountBindRemove x s) := by
  unfold execAccountBindRemove
  with_reducible repeat' first
    | assumption | apply forms_next | apply State.bindAcct_forms

theorem execLeaseQuarterLeft_forms (h : Nat) (s : State) (hyp_s : s.canonical = true) :
    OkForms (execLeaseQuarterLeft h s) := by
  unfold execLeaseQuarterLeft
  with_reducible repeat' first
    | assumption | apply forms_next | apply forms_ite | apply State.onSpc_forms | apply State.edge_forms
    | (split <;> try (rename_i h; have hp := forms_ofEq h ?_; clear h))

theorem execLeaseTimerExpire_forms (h : Nat) (s : State) (hyp_s : s.canonical = true) :
    OkForms (execLeaseTimerExpire h s) := by
  unfold execLeaseTimerExpire
  with_reducible repeat' first
    | assumption | apply forms_next
    | (extract_lets +onlyGivenNames x; have hx : x.canonical = true := ?_; (on_goal 2 => subst x); clear_value x; revert x; intro _ _)
    | (extract_lets +onlyGivenNames x; clear_value x; revert x; intro _) | apply forms_ite | apply State.setLease_forms | apply State.intr_forms
    | apply State.postFor_forms | apply State.onSpc_forms | apply State.startDrain_forms
    | (split <;> try (rename_i h; have hp := forms_ofEq h ?_; clear h))

theorem execLeaseGraceExpire_forms (h : Nat) (s : State) (hyp_s : s.canonical = true) :
    OkForms (execLeaseGraceExpire h s) := by
  unfold execLeaseGraceExpire
  with_reducible repeat' first
    | assumption | apply forms_next | intro _
    | (extract_lets +onlyGivenNames x; have hx : x.canonical = true := ?_; (on_goal 2 => subst x); clear_value x; revert x; intro _ _)
    | apply forms_ite | apply forms_each | apply State.stragglers_forms | apply State.closeLease_forms
    | (split <;> try (rename_i h; have hp := forms_ofEq h ?_; clear h))

theorem execLeaseDrainEnd_forms (h : Nat) (s : State) (hyp_s : s.canonical = true) :
    OkForms (execLeaseDrainEnd h s) := by
  unfold execLeaseDrainEnd
  with_reducible repeat' first
    | assumption | apply forms_next | apply forms_ite | apply State.endDrain_forms
    | (split <;> try (rename_i h; have hp := forms_ofEq h ?_; clear h))

theorem execDrainBoundExpire_forms (h : Nat) (s : State) (hyp_s : s.canonical = true) :
    OkForms (execDrainBoundExpire h s) := by
  unfold execDrainBoundExpire
  with_reducible repeat' first
    | assumption | apply forms_next | apply forms_ite | apply State.stragglers_forms | apply State.endDrain_forms
    | (split <;> try (rename_i h; have hp := forms_ofEq h ?_; clear h))

/-! ## Pages -/

theorem State.storePage_forms (s : State) (page seq : Nat) (d : Bytes) (poison : List (Nat × Nat)) (hyp_s : s.canonical = true) :
    (State.storePage s page seq d poison).1.canonical = true := by
  unfold State.storePage
  with_reducible repeat' first
    | simp -zeta only [canonical_mk, near_mk, far_mk] | assumption | (refine forms_ofSome (by assumption) ?_) | intro _
    | (extract_lets +onlyGivenNames x; have hx : x.canonical = true := ?_; (on_goal 2 => subst x); clear_value x; revert x; intro _ _)
    | (extract_lets +onlyGivenNames x; clear_value x; revert x; intro _) | apply forms_ite | apply forms_iteFst | apply forms_each
    | apply State.clearPage_forms | apply State.recodeLanes_forms | apply State.storeHusk_forms | apply State.noteHusk_forms
    | apply State.plistDrop_forms | apply State.poisonLine_forms | (split <;> try (rename_i h; have hp := forms_ofEq h ?_; clear h))

theorem State.takePage_forms (s : State) (page : Nat) (st : PState) (seq synd : Nat) (d : Bytes) (poison : List (Nat × Nat)) (hyp_s : s.canonical = true) :
    (State.takePage s page st seq synd d poison).1.canonical = true := by
  unfold State.takePage
  with_reducible repeat' first
    | simp -zeta only [canonical_mk, near_mk, far_mk] | assumption
    | (extract_lets +onlyGivenNames x; have hx : x.canonical = true := ?_; (on_goal 2 => subst x); clear_value x; revert x; intro _ _)
    | (extract_lets +onlyGivenNames x; clear_value x; revert x; intro _) | apply State.unwrite_forms | apply State.setPme_forms
    | apply State.poisonPageEntry_forms | apply State.storePage_forms | (split <;> try (rename_i h; have hp := forms_ofEq h ?_; clear h))

/-! ## Respread -/

theorem State.putExtent_forms (s : State) (e : Nat) (x : Extent) (hyp_s : s.canonical = true) :
    (State.putExtent s e x).canonical = true := by
  unfold State.putExtent
  with_reducible repeat' first
    | assumption | apply State.setExtent_forms

theorem State.respreadNow_forms (s : State) (x : Mbx) (hyp_s : s.canonical = true) :
    (State.respreadNow s x).canonical = true := by
  unfold State.respreadNow
  with_reducible repeat' first
    | (simp -zeta only [canonical_mk]; apply canon; assumption) | assumption
    | (extract_lets +onlyGivenNames x; have hx : x.canonical = true := ?_; (on_goal 2 => subst x); clear_value x; revert x; intro _ _)
    | (extract_lets +onlyGivenNames x; clear_value x; revert x; intro _) | apply forms_ite | apply State.status_forms | apply State.needKey_forms
    | apply State.putExtent_forms | apply State.copyAll_forms | apply State.onSpc_forms | apply State.post_forms | apply State.startBg_forms
    | (split <;> try (rename_i h; have hp := forms_ofEq h ?_; clear h))

theorem State.respreadCmd_forms (s : State) (x : Mbx) (asked : List Nat) (hyp_s : s.canonical = true) :
    (State.respreadCmd s x asked).canonical = true := by
  unfold State.respreadCmd
  with_reducible repeat' first
    | assumption | intro _ | apply forms_ite | apply State.status_forms | apply State.bgCommand_forms | apply State.withExts_forms
    | apply State.respreadNow_forms

theorem execExtentRespread_forms (x : Mbx) (s : State) (hyp_s : s.canonical = true) :
    OkForms (execExtentRespread x s) := by
  unfold execExtentRespread
  with_reducible repeat' first
    | assumption | apply forms_next | intro _ | apply State.command_forms | apply State.respreadCmd_forms

theorem State.snoopPage_forms (s : State) (page : Nat) (hyp_s : s.canonical = true) :
    (State.snoopPage s page).canonical = true := by
  unfold State.snoopPage
  with_reducible repeat' first
    | assumption | intro _
    | (extract_lets +onlyGivenNames x; have hx : x.canonical = true := ?_; (on_goal 2 => subst x); clear_value x; revert x; intro _ _)
    | (extract_lets +onlyGivenNames x; clear_value x; revert x; intro _) | apply forms_each | apply State.dirPend_forms | apply State.onDir_forms
    | apply State.sendSnoop_forms

theorem execRespreadPageMove_forms (e page : Nat) (s : State) (hyp_s : s.canonical = true) :
    OkForms (execRespreadPageMove e page s) := by
  unfold execRespreadPageMove
  with_reducible repeat' first
    | simp -zeta only [canonical_mk, near_mk, far_mk] | assumption | apply forms_next | intro _
    | (extract_lets +onlyGivenNames x; have hx : ∀ y0 : State, y0.canonical = true → ∀ y1 : Move, (x y0 y1).canonical = true := ?_; (on_goal 2 => subst x); clear_value x; revert x; intro _ _)
    | (extract_lets +onlyGivenNames x; clear_value x; revert x; intro _) | apply forms_ite | apply State.copyTo_forms | apply State.setMove_forms
    | apply State.snoopPage_forms | (split <;> try (rename_i h; have hp := forms_ofEq h ?_; clear h)) | apply_assumption

theorem State.respreadSend_forms (s : State) (e : Nat) (hyp_s : s.canonical = true) :
    (State.respreadSend s e).canonical = true := by
  unfold State.respreadSend
  with_reducible repeat' first
    | assumption | (extract_lets +onlyGivenNames x; clear_value x; revert x; intro _) | apply forms_ite | apply State.putExtent_forms
    | apply State.copyAll_forms | (split <;> try (rename_i h; have hp := forms_ofEq h ?_; clear h))

theorem State.dropMirror_forms (s : State) (page : Nat) (x : Extent) (seq : Nat) (hyp_s : s.canonical = true) :
    (State.dropMirror s page x seq).canonical = true := by
  unfold State.dropMirror
  with_reducible repeat' first
    | assumption | apply forms_ite | apply State.copyTo_forms

theorem execRespreadPageMoved_forms (e page : Nat) (s : State) (hyp_s : s.canonical = true) :
    OkForms (execRespreadPageMoved e page s) := by
  unfold execRespreadPageMoved
  with_reducible repeat' first
    | assumption | apply forms_next
    | (extract_lets +onlyGivenNames x; have hx : x.canonical = true := ?_; (on_goal 2 => subst x); clear_value x; revert x; intro _ _)
    | apply forms_ite | apply State.dropMirror_forms | apply State.unwrite_forms | apply State.putExtent_forms | apply State.wakePage_forms
    | apply State.respreadSend_forms | apply State.retryMoves_forms | (split <;> try (rename_i h; have hp := forms_ofEq h ?_; clear h))

theorem State.respreadPause_forms (s : State) (m : Nat) (hyp_s : s.canonical = true) :
    (State.respreadPause s m).canonical = true := by
  unfold State.respreadPause
  with_reducible repeat' first
    | assumption | intro _ | apply forms_each | apply State.setMove_forms | apply State.wakePage_forms

theorem execRespreadPortalSwitch_forms (e : Nat) (s : State) (hyp_s : s.canonical = true) :
    OkForms (execRespreadPortalSwitch e s) := by
  unfold execRespreadPortalSwitch
  with_reducible repeat' first
    | assumption | apply forms_next
    | (extract_lets +onlyGivenNames x; have hx : x.canonical = true := ?_; (on_goal 2 => subst x); clear_value x; revert x; intro _ _)
    | (extract_lets +onlyGivenNames x; clear_value x; revert x; intro _) | apply forms_ite | apply State.putExtent_forms | apply State.onSpc_forms
    | apply State.endBg_forms | apply State.post_forms | (split <;> try (rename_i h; have hp := forms_ofEq h ?_; clear h))

/-! ## DirCmd -/

theorem execDirectoryWaitEnd_forms (r : Nat) (s : State) (hyp_s : s.canonical = true) :
    OkForms (execDirectoryWaitEnd r s) := by
  unfold execDirectoryWaitEnd
  with_reducible repeat' first
    | assumption | apply forms_next
    | (extract_lets +onlyGivenNames x; have hx : x.canonical = true := ?_; (on_goal 2 => subst x); clear_value x; revert x; intro _ _)
    | apply forms_ite | apply State.serve_forms | (split <;> try (rename_i h; have hp := forms_ofEq h ?_; clear h))

theorem State.revokeHolder_forms (s : State) (holder : Nat) (es : List Nat) (hyp_s : s.canonical = true) :
    (State.revokeHolder s holder es).canonical = true := by
  unfold State.revokeHolder
  with_reducible repeat' first
    | assumption | intro _ | (extract_lets +onlyGivenNames x; clear_value x; revert x; intro _) | apply forms_ite | apply forms_each
    | apply State.revoke_forms

theorem State.giveUp_forms (s : State) (holder : Nat) (t : Trk) (hyp_s : s.canonical = true) :
    (State.giveUp s holder t).canonical = true := by
  unfold State.giveUp
  with_reducible repeat' first
    | assumption | (extract_lets +onlyGivenNames x; have hx : x.canonical = true := ?_; (on_goal 2 => subst x); clear_value x; revert x; intro _ _)
    | (extract_lets +onlyGivenNames x; clear_value x; revert x; intro _) | apply forms_ite | apply State.onDir_forms | apply State.ownerLost_forms
    | apply State.modReq_forms | apply State.serve_forms | apply State.wake_forms | apply State.trkDone_forms | apply State.snoopAnswer_forms
    | (split <;> try (rename_i h; have hp := forms_ofEq h ?_; clear h))

theorem execSnoopTimeout_forms (holder : Nat) (s : State) (hyp_s : s.canonical = true) :
    OkForms (execSnoopTimeout holder s) := by
  unfold execSnoopTimeout
  with_reducible repeat' first
    | assumption | apply forms_next | intro _
    | (extract_lets +onlyGivenNames x; have hx : x.canonical = true := ?_; (on_goal 2 => subst x); clear_value x; revert x; intro _ _)
    | (extract_lets +onlyGivenNames x; clear_value x; revert x; intro _) | apply forms_ite | apply forms_each | apply State.intr_forms
    | apply State.postFor_forms | apply State.lostCap_forms | apply State.respond_forms | apply State.giveUp_forms | apply State.onDir_forms
    | apply State.ownerLost_forms | apply State.dirPutOpt_forms | apply State.revokeHolder_forms | apply State.copyTo_forms

theorem State.clearMarks_forms (s : State) (hyp_s : s.canonical = true) :
    (State.clearMarks s).canonical = true := by
  unfold State.clearMarks
  repeat' first
    | (simp -zeta only [canonical_mk]; apply canon; assumption)
    | simp -zeta only [canonical_mk, near_mk, far_mk]
    | with_reducible apply forms_and
    | with_reducible apply media_and
    | (with_reducible apply State.near_wf; with_reducible assumption)
    | (with_reducible apply State.far_wf; with_reducible assumption)
    | (with_reducible apply State.regs_rising; with_reducible assumption)
    | (with_reducible apply Near.linesOk)
    | (with_reducible apply Far.flashOk)
    | (with_reducible apply Far.parityOk)
    | with_reducible apply linesOk_filter
    | with_reducible apply chunksOk_filter
    | with_reducible assumption
    | intro _
    | (extract_lets +onlyGivenNames x; have hx : x.canonical = true := ?_; (on_goal 2 => subst x); clear_value x; revert x; intro _ _)
    | (extract_lets +onlyGivenNames x; have hx : x.1.canonical = true := ?_; (on_goal 2 => subst x); clear_value x; revert x; intro _ _)
    | (extract_lets +onlyGivenNames x; have hx : x.wf = true := ?_; (on_goal 2 => subst x); clear_value x; revert x; intro _ _)
    | (extract_lets +onlyGivenNames x; clear_value x; revert x; intro _)
    | with_reducible apply forms_each
    | with_reducible apply State.onHdg_forms
    | with_reducible apply State.toTwin_forms
    | (fail_if_no_progress beta_reduce)
    | (fail_if_no_progress dsimp only)
    | with_reducible apply State.near_wf
    | with_reducible apply State.far_wf
    | with_reducible apply State.regs_rising

theorem execHolderSweepDone_forms (s : State) (hyp_s : s.canonical = true) :
    OkForms (execHolderSweepDone s) := by
  unfold execHolderSweepDone
  repeat' first
    | (simp -zeta only [canonical_mk]; apply canon; assumption)
    | simp -zeta only [canonical_mk, near_mk, far_mk]
    | with_reducible apply forms_and
    | with_reducible apply media_and
    | (with_reducible apply State.near_wf; with_reducible assumption)
    | (with_reducible apply State.far_wf; with_reducible assumption)
    | (with_reducible apply State.regs_rising; with_reducible assumption)
    | (with_reducible apply Near.linesOk)
    | (with_reducible apply Far.flashOk)
    | (with_reducible apply Far.parityOk)
    | with_reducible assumption
    | with_reducible apply forms_next
    | with_reducible apply forms_fault
    | with_reducible apply forms_oite
    | with_reducible intro _
    | (extract_lets +onlyGivenNames x; have hx : x.canonical = true := ?_; (on_goal 2 => subst x); clear_value x; revert x; intro _ _)
    | (extract_lets +onlyGivenNames x; have hx : x.1.canonical = true := ?_; (on_goal 2 => subst x); clear_value x; revert x; intro _ _)
    | (extract_lets +onlyGivenNames x; have hx : x.wf = true := ?_; (on_goal 2 => subst x); clear_value x; revert x; intro _ _)
    | (extract_lets +onlyGivenNames x; clear_value x; revert x; intro _)
    | with_reducible apply forms_ite
    | with_reducible apply forms_iteFst
    | with_reducible apply forms_oite
    | with_reducible apply forms_next
    | with_reducible apply State.onDir_forms
    | with_reducible apply State.clearMarks_forms
    | with_reducible apply State.intr_forms
    | with_reducible apply State.post_forms
    | (split <;> try (rename_i h; have hp := forms_ofEq h ?_; clear h))
    | (fail_if_no_progress beta_reduce)
    | (fail_if_no_progress dsimp only)
    | with_reducible apply State.near_wf
    | with_reducible apply State.far_wf
    | with_reducible apply State.regs_rising

theorem execHostBirsp_forms (ld : Fin 64) (line : Nat) (lines : Nat) (rsp : SnpRsp) (wb : Option Bytes) (s : State) (hyp_s : s.canonical = true) :
    OkForms (execHostBirsp ld line lines rsp wb s) := by
  unfold execHostBirsp
  with_reducible repeat' first
    | assumption | apply forms_next | intro _
    | (extract_lets +onlyGivenNames x; have hx : x.canonical = true := ?_; (on_goal 2 => subst x); clear_value x; revert x; intro _ _)
    | (extract_lets +onlyGivenNames x; clear_value x; revert x; intro _) | apply forms_ite | apply forms_each | apply State.send_forms
    | apply State.onDir_forms | apply State.storeWbk_forms | apply State.bump_forms | apply State.snoopAnswer_forms
    | (split <;> try (rename_i h; have hp := forms_ofEq h ?_; clear h))

theorem State.flip_forms (s : State) (pairs : List (Nat × Nat)) (hyp_s : s.canonical = true) :
    (State.flip s pairs).canonical = true := by
  unfold State.flip
  with_reducible repeat' first
    | assumption | intro _
    | (extract_lets +onlyGivenNames x; have hx : x.canonical = true := ?_; (on_goal 2 => subst x); clear_value x; revert x; intro _ _)
    | (extract_lets +onlyGivenNames x; clear_value x; revert x; intro _) | apply forms_ite | apply forms_each | apply State.onSpc_forms
    | apply State.setLease_forms | apply State.setExtent_forms | apply State.discardVlr_forms | apply State.wantExpansion_forms
    | (split <;> try (rename_i h; have hp := forms_ofEq h ?_; clear h))

theorem execPubFlip_forms (x : Mbx) (s : State) (hyp_s : s.canonical = true) :
    OkForms (execPubFlip x s) := by
  unfold execPubFlip
  with_reducible repeat' first
    | assumption | apply forms_next | intro _
    | (extract_lets +onlyGivenNames x; have hx : x.canonical = true := ?_; (on_goal 2 => subst x); clear_value x; revert x; intro _ _)
    | (extract_lets +onlyGivenNames x; clear_value x; revert x; intro _) | apply forms_ite | apply State.command_forms | apply State.reply_forms
    | apply State.status_forms | apply State.flip_forms | apply State.copyAll_forms | apply State.flipEnd_forms | apply State.replyHeld_forms

theorem State.flipDrained_forms (s : State) (e m : Nat) (hyp_s : s.canonical = true) :
    (State.flipDrained s e m).canonical = true := by
  unfold State.flipDrained
  with_reducible repeat' first
    | assumption | (extract_lets +onlyGivenNames x; clear_value x; revert x; intro _) | apply forms_ite | apply State.onSpc_forms
    | apply State.reclaim_forms | (split <;> try (rename_i h; have hp := forms_ofEq h ?_; clear h))

theorem execPubOldReclaim_forms (e : Nat) (s : State) (hyp_s : s.canonical = true) :
    OkForms (execPubOldReclaim e s) := by
  unfold execPubOldReclaim
  with_reducible repeat' first
    | assumption | apply forms_next | apply forms_ite | apply State.flipDrained_forms | apply State.copyTo_forms
    | (split <;> try (rename_i h; have hp := forms_ofEq h ?_; clear h))

theorem execDirQuery_forms (x : Mbx) (s : State) (hyp_s : s.canonical = true) :
    OkForms (execDirQuery x s) := by
  unfold execDirQuery
  with_reducible repeat' first
    | assumption | apply forms_next | intro _ | (extract_lets +onlyGivenNames x; clear_value x; revert x; intro _) | apply forms_ite
    | apply State.command_forms | apply State.status_forms | apply State.okOut_forms | apply State.drew_forms

/-! ## HuskCmd -/

theorem State.trainCmd_forms (s : State) (x : Mbx) (asked : List Nat) (hyp_s : s.canonical = true) :
    (State.trainCmd s x asked).canonical = true := by
  unfold State.trainCmd
  with_reducible repeat' first
    | assumption | intro _ | (extract_lets +onlyGivenNames x; clear_value x; revert x; intro _) | apply forms_ite | apply State.status_forms
    | apply State.withExts_forms | apply State.bgCommand_forms | apply State.onHusk_forms | apply State.startBg_forms
    | (split <;> try (rename_i h; have hp := forms_ofEq h ?_; clear h))

theorem State.trainEnd_forms (s : State) (t : Train) (hyp_s : s.canonical = true) :
    (State.trainEnd s t).canonical = true := by
  unfold State.trainEnd
  with_reducible repeat' first
    | (simp -zeta only [canonical_mk]; apply canon; assumption) | simp -zeta only [canonical_mk, near_mk, far_mk] | assumption | intro _
    | (extract_lets +onlyGivenNames x; have hx : x.canonical = true := ?_; (on_goal 2 => subst x); clear_value x; revert x; intro _ _)
    | (extract_lets +onlyGivenNames x; have hx : ∀ y0 : State, y0.canonical = true → (x y0).canonical = true := ?_; (on_goal 2 => subst x); clear_value x; revert x; intro _ _)
    | (extract_lets +onlyGivenNames x; clear_value x; revert x; intro _) | apply forms_ite | apply State.onHusk_forms | apply State.intr_forms
    | apply State.post_forms | apply State.endBg_forms | apply_assumption

theorem State.trainsGo_forms (s : State) (hyp_s : s.canonical = true) :
    (State.trainsGo s).canonical = true := by
  unfold State.trainsGo
  with_reducible repeat' first
    | assumption | intro _ | apply forms_ite | apply forms_elim | apply State.trainEnd_forms

theorem execTrain_forms (x : Mbx) (s : State) (hyp_s : s.canonical = true) :
    OkForms (execTrain x s) := by
  unfold execTrain
  with_reducible repeat' first
    | assumption | apply forms_next | intro _ | apply State.command_forms | apply State.trainCmd_forms

theorem execTableLoad_forms (x : Mbx) (s : State) (hyp_s : s.canonical = true) :
    OkForms (execTableLoad x s) := by
  unfold execTableLoad
  with_reducible repeat' first
    | assumption | apply forms_next | intro _ | (extract_lets +onlyGivenNames x; clear_value x; revert x; intro _) | apply forms_ite
    | apply State.command_forms | apply State.status_forms | apply State.onHusk_forms

theorem execTablePublish_forms (x : Mbx) (s : State) (hyp_s : s.canonical = true) :
    OkForms (execTablePublish x s) := by
  unfold execTablePublish
  with_reducible repeat' first
    | assumption | apply forms_next | intro _
    | (extract_lets +onlyGivenNames x; have hx : x.canonical = true := ?_; (on_goal 2 => subst x); clear_value x; revert x; intro _ _)
    | (extract_lets +onlyGivenNames x; clear_value x; revert x; intro _) | apply forms_ite | apply State.command_forms | apply State.status_forms
    | apply State.intr_forms | apply State.post_forms | apply State.onHusk_forms | apply State.copyAll_forms | apply State.okHeld_forms
    | (split <;> try (rename_i h; have hp := forms_ofEq h ?_; clear h))

theorem State.bindCmd_forms (s : State) (x : Mbx) (asked : List Nat) (hyp_s : s.canonical = true) :
    (State.bindCmd s x asked).canonical = true := by
  unfold State.bindCmd
  with_reducible repeat' first
    | assumption | intro _
    | (extract_lets +onlyGivenNames x; have hx : x.canonical = true := ?_; (on_goal 2 => subst x); clear_value x; revert x; intro _ _)
    | (extract_lets +onlyGivenNames x; clear_value x; revert x; intro _) | apply forms_ite | apply State.withExts_forms | apply State.status_forms
    | apply State.setExtent_forms | apply State.copyAll_forms | (split <;> try (rename_i h; have hp := forms_ofEq h ?_; clear h))

theorem execTableBind_forms (x : Mbx) (s : State) (hyp_s : s.canonical = true) :
    OkForms (execTableBind x s) := by
  unfold execTableBind
  with_reducible repeat' first
    | assumption | apply forms_next | intro _ | apply State.command_forms | apply State.bindCmd_forms

theorem execTableRetire_forms (x : Mbx) (s : State) (hyp_s : s.canonical = true) :
    OkForms (execTableRetire x s) := by
  unfold execTableRetire
  with_reducible repeat' first
    | (simp -zeta only [canonical_mk]; apply canon; assumption) | assumption | apply forms_next | intro _
    | (extract_lets +onlyGivenNames x; clear_value x; revert x; intro _) | apply forms_ite | apply State.command_forms | apply State.status_forms
    | apply State.onHusk_forms | apply State.copyAll_forms | (split <;> try (rename_i h; have hp := forms_ofEq h ?_; clear h))

theorem execTableQuery_forms (x : Mbx) (s : State) (hyp_s : s.canonical = true) :
    OkForms (execTableQuery x s) := by
  unfold execTableQuery
  with_reducible repeat' first
    | (simp -zeta only [canonical_mk]; apply canon; assumption) | assumption | apply forms_next | intro _
    | (extract_lets +onlyGivenNames x; clear_value x; revert x; intro _) | apply forms_ite | apply State.command_forms | apply State.status_forms
    | apply State.okOut_forms

theorem execTableSlotFreed_forms (slot : Fin 64) (s : State) (hyp_s : s.canonical = true) :
    OkForms (execTableSlotFreed slot s) := by
  unfold execTableSlotFreed
  with_reducible repeat' first
    | assumption | apply forms_next
    | (extract_lets +onlyGivenNames x; have hx : x.canonical = true := ?_; (on_goal 2 => subst x); clear_value x; revert x; intro _ _)
    | apply forms_ite | apply State.copyAll_forms | apply State.onHusk_forms | apply State.post_forms
    | (split <;> try (rename_i h; have hp := forms_ofEq h ?_; clear h))

theorem State.recodeCmd_forms (s : State) (x : Mbx) (asked : List Nat) (hyp_s : s.canonical = true) :
    (State.recodeCmd s x asked).canonical = true := by
  unfold State.recodeCmd
  with_reducible repeat' first
    | (simp -zeta only [canonical_mk]; apply canon; assumption) | assumption | intro _
    | (extract_lets +onlyGivenNames x; have hx : x.canonical = true := ?_; (on_goal 2 => subst x); clear_value x; revert x; intro _ _)
    | (extract_lets +onlyGivenNames x; clear_value x; revert x; intro _) | apply forms_ite | apply State.withExts_forms | apply State.status_forms
    | apply State.bgCommand_forms | apply State.copyAll_forms | apply State.startBg_forms | apply State.endBg_forms | apply State.intr_forms
    | apply State.post_forms | apply State.onHusk_forms | (split <;> try (rename_i h; have hp := forms_ofEq h ?_; clear h))

theorem execRecode_forms (x : Mbx) (s : State) (hyp_s : s.canonical = true) :
    OkForms (execRecode x s) := by
  unfold execRecode
  with_reducible repeat' first
    | assumption | apply forms_next | intro _ | apply State.command_forms | apply State.recodeCmd_forms

theorem execBgRecodePage_forms (page : Nat) (s : State) (hyp_s : s.canonical = true) :
    OkForms (execBgRecodePage page s) := by
  unfold execBgRecodePage
  with_reducible repeat' first
    | assumption | apply forms_next
    | (extract_lets +onlyGivenNames x; have hx : x.canonical = true := ?_; (on_goal 2 => subst x); clear_value x; revert x; intro _ _)
    | (extract_lets +onlyGivenNames x; clear_value x; revert x; intro _) | apply forms_ite | apply State.bgRecoded_forms
    | apply State.takeSlot_forms | apply State.closeSlot_forms | (split <;> try (rename_i h; have hp := forms_ofEq h ?_; clear h))

theorem execVlrExpansionDone_forms (page : Nat) (s : State) (hyp_s : s.canonical = true) :
    OkForms (execVlrExpansionDone page s) := by
  unfold execVlrExpansionDone
  with_reducible repeat' first
    | simp -zeta only [canonical_mk, near_mk, far_mk] | apply forms_and | assumption | apply forms_next | apply forms_ite | apply State.onTlr_forms
    | apply State.wakePage_forms | apply State.storePage_forms | (split <;> try (rename_i h; have hp := forms_ofEq h ?_; clear h))
    | apply State.near_wf | apply State.far_wf | apply State.regs_rising

theorem execExpansionQueueStart_forms (s : State) (hyp_s : s.canonical = true) :
    OkForms (execExpansionQueueStart s) := by
  unfold execExpansionQueueStart
  with_reducible repeat' first
    | assumption | apply forms_next
    | (extract_lets +onlyGivenNames x; have hx : x.canonical = true := ?_; (on_goal 2 => subst x); clear_value x; revert x; intro _ _)
    | apply State.onTlr_forms | apply State.expandIn_forms | apply State.wantExpansion_forms
    | (split <;> try (rename_i h; have hp := forms_ofEq h ?_; clear h))

theorem State.reExpand_forms (s : State) (e : Nat) (hyp_s : s.canonical = true) :
    (State.reExpand s e).canonical = true := by
  unfold State.reExpand
  with_reducible repeat' first
    | assumption | intro _ | apply forms_each | apply State.wantExpansion_forms

theorem State.vlrNow_forms (s : State) (x : Mbx) (hyp_s : s.canonical = true) :
    (State.vlrNow s x).canonical = true := by
  unfold State.vlrNow
  with_reducible repeat' first
    | assumption | (extract_lets +onlyGivenNames x; have hx : x.canonical = true := ?_; (on_goal 2 => subst x); clear_value x; revert x; intro _ _)
    | (extract_lets +onlyGivenNames x; clear_value x; revert x; intro _) | apply forms_ite | apply State.status_forms | apply State.discardVlr_forms
    | apply State.setExtent_forms | apply State.copyAll_forms | apply State.reExpand_forms | apply State.okHeld_forms
    | (split <;> try (rename_i h; have hp := forms_ofEq h ?_; clear h))

theorem State.vlrCmd_forms (s : State) (x : Mbx) (asked : List Nat) (hyp_s : s.canonical = true) :
    (State.vlrCmd s x asked).canonical = true := by
  unfold State.vlrCmd
  with_reducible repeat' first
    | assumption | intro _ | (extract_lets +onlyGivenNames x; clear_value x; revert x; intro _) | apply State.withExts_forms
    | apply State.vlrNow_forms

theorem execVlrBind_forms (x : Mbx) (s : State) (hyp_s : s.canonical = true) :
    OkForms (execVlrBind x s) := by
  unfold execVlrBind
  with_reducible repeat' first
    | assumption | apply forms_next | intro _ | apply State.command_forms | apply State.vlrCmd_forms

theorem State.discardCmd_forms (s : State) (x : Mbx) (asked : List Nat) (hyp_s : s.canonical = true) :
    (State.discardCmd s x asked).canonical = true := by
  unfold State.discardCmd
  with_reducible repeat' first
    | assumption | intro _ | (extract_lets +onlyGivenNames x; clear_value x; revert x; intro _) | apply forms_ite | apply State.withExts_forms
    | apply State.status_forms | apply State.discardVlr_forms | apply State.copyAll_forms | apply State.reExpand_forms | apply State.okHeld_forms
    | (split <;> try (rename_i h; have hp := forms_ofEq h ?_; clear h))

theorem execVlrDiscard_forms (x : Mbx) (s : State) (hyp_s : s.canonical = true) :
    OkForms (execVlrDiscard x s) := by
  unfold execVlrDiscard
  with_reducible repeat' first
    | assumption | apply forms_next | intro _ | apply State.command_forms | apply State.discardCmd_forms

theorem execHuskLaneShareReduce_forms (n : Fin 32) (ratio : Fin 4096) (s : State) (hyp_s : s.canonical = true) :
    OkForms (execHuskLaneShareReduce n ratio s) := by
  unfold execHuskLaneShareReduce
  with_reducible repeat' first
    | assumption | apply forms_next | (extract_lets +onlyGivenNames x; clear_value x; revert x; intro _) | apply forms_ite
    | apply State.onHusk_forms | apply State.post_forms | apply State.rescaled_forms

theorem execHuskLaneRestore_forms (n : Fin 32) (ratio : Fin 65536) (s : State) (hyp_s : s.canonical = true) :
    OkForms (execHuskLaneRestore n ratio s) := by
  unfold execHuskLaneRestore
  with_reducible repeat' first
    | assumption | apply forms_next | (extract_lets +onlyGivenNames x; clear_value x; revert x; intro _) | apply forms_ite
    | apply State.onHusk_forms | apply State.post_forms | apply State.rescaled_forms

theorem execHskLaneDisWrite_forms (v : Word) (s : State) (hyp_s : s.canonical = true) :
    OkForms (execHskLaneDisWrite v s) := by
  unfold execHskLaneDisWrite
  with_reducible repeat' first
    | assumption | apply forms_next | apply State.setReg_forms | apply State.rescaled_forms

end Sys2Proof.Machine
end

