-- ==== Sys2Proof/Laws/FormsNear.lean ====
section
/-! SUPPORT. The canonical forms are kept by regulation, retirement, integrity and the DRAM controller. -/

set_option linter.all false

namespace Sys2Proof.Machine

open Sys2Proof

/-! ## QosCmd -/

theorem execQosClassSet_forms (x : Mbx) (s : State) (hyp_s : s.canonical = true) :
    OkForms (execQosClassSet x s) := by
  unfold execQosClassSet
  repeat' first
    | (simp -zeta only [canonical_mk]; apply canon; assumption)
    | simp -zeta only [canonical_mk, near_mk, far_mk]
    | with_reducible apply forms_and
    | with_reducible apply media_and
    | (with_reducible apply State.near_wf; with_reducible assumption)
    | (with_reducible apply State.far_wf; with_reducible assumption)
    | (with_reducible apply State.regs_rising; with_reducible assumption)
    | (with_reducible apply Near.linesOk)
    | (with_reducible apply Far.flashOk)
    | (with_reducible apply Far.parityOk)
    | with_reducible apply linesOk_filter
    | with_reducible apply chunksOk_filter
    | with_reducible assumption
    | with_reducible apply forms_next
    | with_reducible apply forms_fault
    | with_reducible apply forms_oite
    | with_reducible intro _
    | (extract_lets +onlyGivenNames x; have hx : x.canonical = true := ?_; (on_goal 2 => subst x); clear_value x; revert x; intro _ _)
    | (extract_lets +onlyGivenNames x; have hx : x.1.canonical = true := ?_; (on_goal 2 => subst x); clear_value x; revert x; intro _ _)
    | (extract_lets +onlyGivenNames x; have hx : x.wf = true := ?_; (on_goal 2 => subst x); clear_value x; revert x; intro _ _)
    | (extract_lets +onlyGivenNames x; clear_value x; revert x; intro _)
    | with_reducible apply forms_ite
    | with_reducible apply forms_iteFst
    | with_reducible apply forms_oite
    | with_reducible apply forms_next
    | with_reducible apply State.command_forms
    | with_reducible apply State.status_forms
    | with_reducible apply State.onQos_forms
    | with_reducible apply State.copyAll_forms
    | with_reducible apply State.rescaled_forms
    | with_reducible apply State.okHeld_forms
    | (split <;> try (rename_i h; have hp := forms_ofEq h ?_; clear h))
    | (fail_if_no_progress beta_reduce)
    | (fail_if_no_progress dsimp only)
    | with_reducible apply State.near_wf
    | with_reducible apply State.far_wf
    | with_reducible apply State.regs_rising

theorem State.resvRefused_forms (s : State) (x : Mbx) (st : Nat) (hyp_s : s.canonical = true) :
    (State.resvRefused s x st).canonical = true := by
  unfold State.resvRefused
  with_reducible repeat' first
    | assumption | apply State.bump_forms | apply State.post_forms | apply State.status_forms

theorem execQosReserve_forms (x : Mbx) (s : State) (hyp_s : s.canonical = true) :
    OkForms (execQosReserve x s) := by
  unfold execQosReserve
  with_reducible repeat' first
    | assumption | apply forms_next | intro _
    | (extract_lets +onlyGivenNames x; have hx : x.canonical = true := ?_; (on_goal 2 => subst x); clear_value x; revert x; intro _ _)
    | (extract_lets +onlyGivenNames x; clear_value x; revert x; intro _) | apply forms_ite | apply State.command_forms | apply State.status_forms
    | apply State.onQos_forms | apply State.rescaled_forms | apply State.okOut_forms | apply State.drew_forms | apply State.resvRefused_forms
    | (split <;> try (rename_i h; have hp := forms_ofEq h ?_; clear h))

theorem execQosQuery_forms (x : Mbx) (s : State) (hyp_s : s.canonical = true) :
    OkForms (execQosQuery x s) := by
  unfold execQosQuery
  with_reducible repeat' first
    | assumption | apply forms_next | intro _ | (extract_lets +onlyGivenNames x; clear_value x; revert x; intro _) | apply forms_ite
    | apply State.command_forms | apply State.status_forms | apply State.okOut_forms

theorem State.guaranteeMissed_forms (s : State) (e : Resv) (target : Nat) (hyp_s : s.canonical = true) :
    (State.guaranteeMissed s e target).canonical = true := by
  unfold State.guaranteeMissed
  repeat' first
    | with_reducible assumption
    | intro _
    | (extract_lets +onlyGivenNames x; have hx : x.canonical = true := ?_; (on_goal 2 => subst x); clear_value x; revert x; intro _ _)
    | (extract_lets +onlyGivenNames x; have hx : x.1.canonical = true := ?_; (on_goal 2 => subst x); clear_value x; revert x; intro _ _)
    | (extract_lets +onlyGivenNames x; have hx : x.wf = true := ?_; (on_goal 2 => subst x); clear_value x; revert x; intro _ _)
    | (extract_lets +onlyGivenNames x; clear_value x; revert x; intro _)
    | with_reducible apply forms_ite
    | with_reducible apply forms_iteFst
    | with_reducible apply forms_oite
    | with_reducible apply State.drew_forms
    | with_reducible apply State.bump_forms
    | with_reducible apply State.intr_forms
    | with_reducible apply State.postFor_forms
    | with_reducible apply State.setReg_forms
    | with_reducible apply State.edge_forms
    | with_reducible apply State.copyTo_forms
    | (split <;> try (rename_i h; have hp := forms_ofEq h ?_; clear h))
    | (fail_if_no_progress beta_reduce)
    | (fail_if_no_progress dsimp only)

theorem State.endResv_forms (s : State) (i : Nat) (hyp_s : s.canonical = true) :
    (State.endResv s i).canonical = true := by
  unfold State.endResv
  with_reducible repeat' first
    | assumption | (extract_lets +onlyGivenNames x; have hx : x.canonical = true := ?_; (on_goal 2 => subst x); clear_value x; revert x; intro _ _)
    | (extract_lets +onlyGivenNames x; clear_value x; revert x; intro _) | apply forms_ite | apply State.onQos_forms
    | apply State.guaranteeMissed_forms | apply State.postFor_forms | (split <;> try (rename_i h; have hp := forms_ofEq h ?_; clear h))

theorem State.endLat_forms (s : State) (x : Lat) (hyp_s : s.canonical = true) :
    (State.endLat s x).canonical = true := by
  unfold State.endLat
  with_reducible repeat' first
    | assumption | (extract_lets +onlyGivenNames x; have hx : x.canonical = true := ?_; (on_goal 2 => subst x); clear_value x; revert x; intro _ _)
    | (extract_lets +onlyGivenNames x; clear_value x; revert x; intro _) | apply forms_ite | apply State.modLat_forms | apply State.bump_forms
    | apply State.intr_forms | apply State.postFor_forms

theorem execQosWindowEnd_forms (s : State) (hyp_s : s.canonical = true) :
    OkForms (execQosWindowEnd s) := by
  unfold execQosWindowEnd
  with_reducible repeat' first
    | assumption | apply forms_next | intro _
    | (extract_lets +onlyGivenNames x; have hx : x.canonical = true := ?_; (on_goal 2 => subst x); clear_value x; revert x; intro _ _)
    | apply forms_ite | apply forms_each | apply State.onQos_forms | apply State.endResv_forms | apply State.endLat_forms

theorem execRtUrgencyChange_forms (m : RtMaster) (level : Fin 4) (chan : Option (Fin 96 × Fin 2 × Fin 16)) (s : State) (hyp_s : s.canonical = true) :
    OkForms (execRtUrgencyChange m level chan s) := by
  unfold execRtUrgencyChange
  with_reducible repeat' first
    | assumption | apply forms_next
    | (extract_lets +onlyGivenNames x; have hx : x.canonical = true := ?_; (on_goal 2 => subst x); clear_value x; revert x; intro _ _)
    | (extract_lets +onlyGivenNames x; clear_value x; revert x; intro _) | apply forms_ite | apply State.onQos_forms | apply State.intr_forms
    | apply State.bump_forms | apply State.post_forms | apply State.setChan_forms | apply State.bumpDrc_forms
    | (split <;> try (rename_i h; have hp := forms_ofEq h ?_; clear h))

/-! ## Retire -/

theorem State.excludeUnit_forms (s : State) (c : Chaff) (hyp_s : s.canonical = true) :
    (State.excludeUnit s c).canonical = true := by
  unfold State.excludeUnit
  with_reducible repeat' first
    | simp -zeta only [canonical_mk, near_mk, far_mk] | (apply Near.linesOk) | assumption
    | (extract_lets +onlyGivenNames x; clear_value x; revert x; intro _) | apply State.onNear_forms

theorem State.undemote_forms (s : State) (page : Nat) (hyp_s : s.canonical = true) :
    (State.undemote s page).canonical = true := by
  unfold State.undemote
  with_reducible repeat' first
    | simp -zeta only [canonical_mk, near_mk, far_mk] | apply media_and | (apply Far.flashOk) | (apply Far.parityOk) | assumption | intro _
    | (extract_lets +onlyGivenNames x; have hx : x.canonical = true := ?_; (on_goal 2 => subst x); clear_value x; revert x; intro _ _)
    | (extract_lets +onlyGivenNames x; clear_value x; revert x; intro _) | apply State.setRow_forms | apply State.dropFar_forms
    | apply State.onFar_forms | apply State.setMove_forms | apply State.setPme_forms
    | (split <;> try (rename_i h; have hp := forms_ofEq h ?_; clear h))

theorem State.recoverNear_forms (s : State) (page : Nat) (r : Recovered) (hyp_s : s.canonical = true) :
    (State.recoverNear s page r).1.canonical = true := by
  unfold State.recoverNear
  with_reducible repeat' first
    | simp -zeta only [canonical_mk, near_mk, far_mk] | assumption | (extract_lets +onlyGivenNames x; clear_value x; revert x; intro _)
    | apply forms_ite | apply forms_iteFst | apply State.dropVirtual_forms | apply State.fromParity_forms | apply State.fetchTwin_forms
    | apply State.losePage_forms | apply State.bump_forms

theorem State.recoverPage_forms (s : State) (n page : Nat) (r : Recovered) (hyp_s : s.canonical = true) :
    (State.recoverPage s n page r).1.canonical = true := by
  unfold State.recoverPage
  with_reducible repeat' first
    | simp -zeta only [canonical_mk, near_mk, far_mk] | assumption
    | (extract_lets +onlyGivenNames x; have hx : x.canonical = true := ?_; (on_goal 2 => subst x); clear_value x; revert x; intro _ _)
    | (extract_lets +onlyGivenNames x; clear_value x; revert x; intro _) | apply forms_ite | apply forms_iteFst | apply State.freeNear_forms
    | apply State.setPme_forms | apply State.recoverNear_forms | apply State.undemote_forms | apply State.setMove_forms
    | apply State.movePlace_forms | (split <;> try (rename_i h; have hp := forms_ofEq h ?_; clear h))

theorem State.zeroMember_forms (s : State) (n : Nat) (hyp_s : s.canonical = true) :
    (State.zeroMember s n).canonical = true := by
  unfold State.zeroMember
  with_reducible repeat' first
    | simp -zeta only [canonical_mk, near_mk, far_mk] | (apply Near.linesOk) | apply linesOk_filter | assumption | intro _
    | (extract_lets +onlyGivenNames x; have hx : x.canonical = true := ?_; (on_goal 2 => subst x); clear_value x; revert x; intro _ _)
    | (extract_lets +onlyGivenNames x; clear_value x; revert x; intro _) | apply forms_ite | apply forms_each | apply State.onNear_forms

theorem State.retireChannel_forms (s : State) (n origin : Nat) (hyp_s : s.canonical = true) :
    (State.retireChannel s n origin).canonical = true := by
  unfold State.retireChannel
  with_reducible repeat' first
    | simp -zeta only [canonical_mk, near_mk, far_mk] | (apply Near.linesOk) | apply Near.setLine_wf | assumption | intro _
    | (extract_lets +onlyGivenNames x; have hx : x.canonical = true := ?_; (on_goal 2 => subst x); clear_value x; revert x; intro _ _)
    | (extract_lets +onlyGivenNames x; clear_value x; revert x; intro _) | apply forms_ite | apply forms_foldlFst | apply forms_each
    | apply State.onNear_forms | apply State.setChan_forms | apply State.recoverPage_forms | apply State.zeroMember_forms
    | apply State.addChaff_forms | apply State.intrDrc_forms | apply State.intError_forms | apply State.post_forms | apply State.bump_forms
    | apply State.retryMoves_forms | apply State.checkMark_forms | apply State.rescaled_forms | apply State.chanFail_forms

theorem State.retireUnit_forms (s : State) (c : Chaff) (hyp_s : s.canonical = true) :
    (State.retireUnit s c).canonical = true := by
  unfold State.retireUnit
  with_reducible repeat' first
    | assumption | (extract_lets +onlyGivenNames x; have hx : x.canonical = true := ?_; (on_goal 2 => subst x); clear_value x; revert x; intro _ _)
    | apply State.excludeUnit_forms | apply State.addChaff_forms | apply State.bump_forms | apply State.post_forms | apply State.retryMoves_forms
    | apply State.checkMark_forms

theorem execRetire_forms (x : Mbx) (s : State) (hyp_s : s.canonical = true) :
    OkForms (execRetire x s) := by
  unfold execRetire
  with_reducible repeat' first
    | assumption | apply forms_next | intro _ | (extract_lets +onlyGivenNames x; clear_value x; revert x; intro _) | apply forms_ite
    | apply State.command_forms | apply State.status_forms | apply State.chaffFull_forms | apply State.retireChannel_forms
    | apply State.retireUnit_forms

theorem execChaffQuery_forms (x : Mbx) (s : State) (hyp_s : s.canonical = true) :
    OkForms (execChaffQuery x s) := by
  unfold execChaffQuery
  with_reducible repeat' first
    | assumption | apply forms_next | intro _ | (extract_lets +onlyGivenNames x; clear_value x; revert x; intro _) | apply State.command_forms
    | apply State.okOut_forms

theorem execParityDeltaApply_forms (n : Fin 96) (chunk : Nat) (s : State) (hyp_s : s.canonical = true) :
    OkForms (execParityDeltaApply n chunk s) := by
  unfold execParityDeltaApply
  repeat' first
    | (simp -zeta only [canonical_mk]; apply canon; assumption)
    | simp -zeta only [canonical_mk, near_mk, far_mk]
    | with_reducible apply forms_and
    | with_reducible apply media_and
    | (with_reducible apply State.near_wf; with_reducible assumption)
    | (with_reducible apply State.far_wf; with_reducible assumption)
    | (with_reducible apply State.regs_rising; with_reducible assumption)
    | (with_reducible apply Near.linesOk)
    | (with_reducible apply Far.flashOk)
    | (with_reducible apply Far.parityOk)
    | with_reducible assumption
    | with_reducible apply forms_next
    | with_reducible apply forms_fault
    | with_reducible apply forms_oite
    | with_reducible intro _
    | with_reducible apply forms_ite
    | with_reducible apply forms_iteFst
    | with_reducible apply forms_oite
    | with_reducible apply forms_each
    | with_reducible apply forms_next
    | with_reducible apply State.applyDelta_forms
    | (split <;> try (rename_i h; have hp := forms_ofEq h ?_; clear h))
    | (fail_if_no_progress beta_reduce)
    | (fail_if_no_progress dsimp only)

theorem State.rebuildMeta_forms (s : State) (n k : Nat) (hyp_s : s.canonical = true) :
    (State.rebuildMeta s n k).canonical = true := by
  unfold State.rebuildMeta
  with_reducible repeat' first
    | assumption | intro _ | (extract_lets +onlyGivenNames x; clear_value x; revert x; intro _) | apply forms_ite | apply forms_each
    | apply State.intr_forms | apply State.intError_forms | apply State.writeLine_forms | apply State.bump_forms | apply State.post_forms
    | (split <;> try (rename_i h; have hp := forms_ofEq h ?_; clear h))

theorem execStripeReconstruct_forms (n : Fin 96) (chunk : Nat) (s : State) (hyp_s : s.canonical = true) :
    OkForms (execStripeReconstruct n chunk s) := by
  unfold execStripeReconstruct
  with_reducible repeat' first
    | simp -zeta only [canonical_mk, near_mk, far_mk] | assumption | apply forms_next | apply forms_fault | apply forms_oite
    | (extract_lets +onlyGivenNames x; clear_value x; revert x; intro _) | apply forms_ite | apply State.rebuildMeta_forms
    | apply State.fromParity_forms | apply State.uncorrNear_forms | apply State.losePage_forms
    | (split <;> try (rename_i h; have hp := forms_ofEq h ?_; clear h))

/-! ## Integ -/

theorem State.broomEnd_forms (s : State) (hyp_s : s.canonical = true) :
    (State.broomEnd s).canonical = true := by
  unfold State.broomEnd
  with_reducible repeat' first
    | assumption | intro _
    | (extract_lets +onlyGivenNames x; have hx : x.canonical = true := ?_; (on_goal 2 => subst x); clear_value x; revert x; intro _ _)
    | (extract_lets +onlyGivenNames x; clear_value x; revert x; intro _) | apply forms_ite | apply forms_each | apply State.onInt_forms
    | apply State.endBg_forms | apply State.intr_forms | apply State.post_forms | (split <;> try (rename_i h; have hp := forms_ofEq h ?_; clear h))

theorem execBroomStart_forms (x : Mbx) (s : State) (hyp_s : s.canonical = true) :
    OkForms (execBroomStart x s) := by
  unfold execBroomStart
  with_reducible repeat' first
    | assumption | apply forms_next | intro _ | (extract_lets +onlyGivenNames x; clear_value x; revert x; intro _) | apply forms_ite
    | apply State.command_forms | apply State.status_forms | apply State.bgCommand_forms | apply State.startBg_forms | apply State.onInt_forms
    | apply State.broomEnd_forms

theorem State.onBroom_forms (s : State) (f : Broom → Broom) (hyp_s : s.canonical = true) :
    (State.onBroom s f).canonical = true := by
  unfold State.onBroom
  with_reducible repeat' first
    | assumption | apply State.onInt_forms

theorem State.broomLines_forms (s : State) (page : Nat) (repair : Bool) (hyp_s : s.canonical = true) :
    (State.broomLines s page repair).canonical = true := by
  unfold State.broomLines
  with_reducible repeat' first
    | simp -zeta only [canonical_mk, near_mk, far_mk] | assumption | intro _
    | (extract_lets +onlyGivenNames x; have hx : x.canonical = true := ?_; (on_goal 2 => subst x); clear_value x; revert x; intro _ _)
    | (extract_lets +onlyGivenNames x; clear_value x; revert x; intro _) | apply forms_ite | apply forms_each | apply State.readLines_forms
    | apply State.onBroom_forms | apply State.corrected_forms | apply State.writeLine_forms | apply State.suggestRun_forms
    | apply State.recover_forms | (split <;> try (rename_i h; have hp := forms_ofEq h ?_; clear h))

theorem State.broomDecode_forms (s : State) (page : Nat) (hyp_s : s.canonical = true) :
    (State.broomDecode s page).canonical = true := by
  unfold State.broomDecode
  with_reducible repeat' first
    | assumption | intro _
    | (extract_lets +onlyGivenNames x; have hx : x.canonical = true := ?_; (on_goal 2 => subst x); clear_value x; revert x; intro _ _)
    | (extract_lets +onlyGivenNames x; clear_value x; revert x; intro _) | apply forms_ite | apply forms_each | apply State.hcrcFail_forms
    | apply State.decFail_forms | (split <;> try (rename_i h; have hp := forms_ofEq h ?_; clear h))

theorem execBroomPageVisit_forms (page : Nat) (s : State) (hyp_s : s.canonical = true) :
    OkForms (execBroomPageVisit page s) := by
  unfold execBroomPageVisit
  with_reducible repeat' first
    | assumption | apply forms_next
    | (extract_lets +onlyGivenNames x; have hx : x.canonical = true := ?_; (on_goal 2 => subst x); clear_value x; revert x; intro _ _)
    | (extract_lets +onlyGivenNames x; clear_value x; revert x; intro _) | apply forms_ite | apply State.onBroom_forms | apply State.noteRead_forms
    | apply State.hcrcFail_forms | apply State.farLost_forms | apply State.broomLines_forms | apply State.broomDecode_forms
    | apply State.broomEnd_forms | (split <;> try (rename_i h; have hp := forms_ofEq h ?_; clear h))

theorem execBroomQuery_forms (x : Mbx) (s : State) (hyp_s : s.canonical = true) :
    OkForms (execBroomQuery x s) := by
  unfold execBroomQuery
  with_reducible repeat' first
    | assumption | apply forms_next | intro _ | apply State.command_forms | apply State.okOut_forms
    | (split <;> try (rename_i h; have hp := forms_ofEq h ?_; clear h))

theorem State.setMover_forms (s : State) (m : Nat) (x : Mover) (hyp_s : s.canonical = true) :
    (State.setMover s m x).canonical = true := by
  unfold State.setMover
  with_reducible repeat' first
    | assumption | apply State.onInt_forms

theorem State.startJob_forms (s : State) (m src dst len who : Nat) (newExt : Option Nat) (hyp_s : s.canonical = true) :
    (State.startJob s m src dst len who newExt).canonical = true := by
  unfold State.startJob
  with_reducible repeat' first
    | assumption | (extract_lets +onlyGivenNames x; clear_value x; revert x; intro _) | apply State.setMover_forms

theorem State.moverNow_forms (s : State) (x : Mbx) (hyp_s : s.canonical = true) :
    (State.moverNow s x).canonical = true := by
  unfold State.moverNow
  repeat' first
    | (simp -zeta only [canonical_mk]; apply canon; assumption)
    | simp -zeta only [canonical_mk, near_mk, far_mk]
    | with_reducible apply forms_and
    | with_reducible apply media_and
    | (with_reducible apply State.near_wf; with_reducible assumption)
    | (with_reducible apply State.far_wf; with_reducible assumption)
    | (with_reducible apply State.regs_rising; with_reducible assumption)
    | (with_reducible apply Near.linesOk)
    | (with_reducible apply Far.flashOk)
    | (with_reducible apply Far.parityOk)
    | with_reducible assumption
    | intro _
    | (extract_lets +onlyGivenNames x; have hx : x.canonical = true := ?_; (on_goal 2 => subst x); clear_value x; revert x; intro _ _)
    | (extract_lets +onlyGivenNames x; have hx : x.1.canonical = true := ?_; (on_goal 2 => subst x); clear_value x; revert x; intro _ _)
    | (extract_lets +onlyGivenNames x; have hx : x.wf = true := ?_; (on_goal 2 => subst x); clear_value x; revert x; intro _ _)
    | (extract_lets +onlyGivenNames x; clear_value x; revert x; intro _)
    | with_reducible apply forms_ite
    | with_reducible apply forms_iteFst
    | with_reducible apply forms_oite
    | with_reducible apply State.status_forms
    | with_reducible apply State.startJob_forms
    | with_reducible apply State.startBg_forms
    | (split <;> try (rename_i h; have hp := forms_ofEq h ?_; clear h))
    | (fail_if_no_progress beta_reduce)
    | (fail_if_no_progress dsimp only)
    | with_reducible apply State.near_wf
    | with_reducible apply State.far_wf
    | with_reducible apply State.regs_rising

theorem State.moverCmd_forms (s : State) (x : Mbx) (asked : List Nat) (hyp_s : s.canonical = true) :
    (State.moverCmd s x asked).canonical = true := by
  unfold State.moverCmd
  repeat' first
    | (simp -zeta only [canonical_mk]; apply canon; assumption)
    | simp -zeta only [canonical_mk, near_mk, far_mk]
    | with_reducible apply forms_and
    | with_reducible apply media_and
    | (with_reducible apply State.near_wf; with_reducible assumption)
    | (with_reducible apply State.far_wf; with_reducible assumption)
    | (with_reducible apply State.regs_rising; with_reducible assumption)
    | (with_reducible apply Near.linesOk)
    | (with_reducible apply Far.flashOk)
    | (with_reducible apply Far.parityOk)
    | with_reducible assumption
    | intro _
    | (extract_lets +onlyGivenNames x; have hx : x.canonical = true := ?_; (on_goal 2 => subst x); clear_value x; revert x; intro _ _)
    | (extract_lets +onlyGivenNames x; have hx : x.1.canonical = true := ?_; (on_goal 2 => subst x); clear_value x; revert x; intro _ _)
    | (extract_lets +onlyGivenNames x; have hx : x.wf = true := ?_; (on_goal 2 => subst x); clear_value x; revert x; intro _ _)
    | (extract_lets +onlyGivenNames x; clear_value x; revert x; intro _)
    | with_reducible apply forms_ite
    | with_reducible apply forms_iteFst
    | with_reducible apply forms_oite
    | with_reducible apply State.status_forms
    | with_reducible apply State.bgCommand_forms
    | with_reducible apply State.withExts_forms
    | with_reducible apply State.moverNow_forms
    | (split <;> try (rename_i h; have hp := forms_ofEq h ?_; clear h))
    | (fail_if_no_progress beta_reduce)
    | (fail_if_no_progress dsimp only)
    | with_reducible apply State.near_wf
    | with_reducible apply State.far_wf
    | with_reducible apply State.regs_rising

theorem execMoverCopy_forms (x : Mbx) (s : State) (hyp_s : s.canonical = true) :
    OkForms (execMoverCopy x s) := by
  unfold execMoverCopy
  repeat' first
    | with_reducible assumption
    | with_reducible apply forms_next
    | with_reducible apply forms_fault
    | with_reducible apply forms_oite
    | with_reducible intro _
    | with_reducible apply forms_next
    | with_reducible apply State.command_forms
    | with_reducible apply State.moverCmd_forms
    | (fail_if_no_progress beta_reduce)
    | (fail_if_no_progress dsimp only)

theorem State.buildEnd_forms (s : State) (who e : Nat) (hyp_s : s.canonical = true) :
    (State.buildEnd s who e).canonical = true := by
  unfold State.buildEnd
  with_reducible repeat' first
    | assumption | apply State.endBg_forms | apply State.post_forms

theorem State.buildGo_forms (s : State) (hyp_s : s.canonical = true) :
    (State.buildGo s).canonical = true := by
  unfold State.buildGo
  with_reducible repeat' first
    | assumption | intro _ | apply forms_each | apply State.onInt_forms | apply State.startJob_forms
    | (split <;> try (rename_i h; have hp := forms_ofEq h ?_; clear h))

theorem State.endJob_forms (s : State) (m : Nat) (hyp_s : s.canonical = true) :
    (State.endJob s m).canonical = true := by
  unfold State.endJob
  with_reducible repeat' first
    | assumption | (extract_lets +onlyGivenNames x; have hx : x.canonical = true := ?_; (on_goal 2 => subst x); clear_value x; revert x; intro _ _)
    | (extract_lets +onlyGivenNames x; clear_value x; revert x; intro _) | apply State.setMover_forms | apply State.buildEnd_forms
    | apply State.endBg_forms | apply State.buildGo_forms | (split <;> try (rename_i h; have hp := forms_ofEq h ?_; clear h))

theorem State.haltMover_forms (s : State) (m : Nat) (x : Mover) (hyp_s : s.canonical = true) :
    (State.haltMover s m x).canonical = true := by
  unfold State.haltMover
  with_reducible repeat' first
    | assumption | (extract_lets +onlyGivenNames x; have hx : x.canonical = true := ?_; (on_goal 2 => subst x); clear_value x; revert x; intro _ _)
    | apply forms_ite | apply State.setMover_forms | apply State.intr_forms | apply State.intError_forms | apply State.edge_forms

theorem State.jobReq_forms (s : State) (m : Nat) (op : ROp) (sa : Nat) (d : Bytes) (hyp_s : s.canonical = true) :
    (State.jobReq s m op sa d).canonical = true := by
  unfold State.jobReq
  with_reducible repeat' first
    | assumption | apply State.newReq_forms | apply State.route_forms

theorem State.jobStep_forms (s : State) (m : Nat) (hyp_s : s.canonical = true) :
    (State.jobStep s m).canonical = true := by
  unfold State.jobStep
  with_reducible repeat' first
    | assumption | (extract_lets +onlyGivenNames x; clear_value x; revert x; intro _) | apply forms_ite | apply State.endJob_forms
    | apply State.setMover_forms | apply State.jobReq_forms | apply State.haltMover_forms

theorem execMoverCopyChunk_forms (m : Fin 16) (lines : Nat) (s : State) (hyp_s : s.canonical = true) :
    OkForms (execMoverCopyChunk m lines s) := by
  unfold execMoverCopyChunk
  with_reducible repeat' first
    | assumption | apply forms_next | intro _ | apply forms_each | apply State.buildGo_forms | apply State.jobStep_forms

theorem State.moverCtl_forms (s : State) (x : Mbx) (op : Nat) (f : State → Nat → Mover → State) (hyp_s : s.canonical = true) (hyp_f : ∀ z : State, z.canonical = true → ∀ z0 z1, (f z z0 z1).canonical = true) :
    (State.moverCtl s x op f).canonical = true := by
  unfold State.moverCtl
  with_reducible repeat' first
    | assumption | intro _ | (extract_lets +onlyGivenNames x; clear_value x; revert x; intro _) | apply forms_ite | apply State.command_forms
    | apply State.status_forms | apply_assumption

theorem execMoverCtlResume_forms (x : Mbx) (s : State) (hyp_s : s.canonical = true) :
    OkForms (execMoverCtlResume x s) := by
  unfold execMoverCtlResume
  with_reducible repeat' first
    | simp -zeta only [canonical_mk, near_mk, far_mk] | assumption | apply forms_next | intro _
    | (extract_lets +onlyGivenNames x; have hx : x.canonical = true := ?_; (on_goal 2 => subst x); clear_value x; revert x; intro _ _)
    | (extract_lets +onlyGivenNames x; clear_value x; revert x; intro _) | apply forms_ite | apply State.moverCtl_forms | apply State.setMover_forms
    | apply State.jobReq_forms | apply State.newReq_forms | apply State.modReq_forms | apply State.send_forms

theorem execMoverCtlAbort_forms (x : Mbx) (s : State) (hyp_s : s.canonical = true) :
    OkForms (execMoverCtlAbort x s) := by
  unfold execMoverCtlAbort
  with_reducible repeat' first
    | assumption | apply forms_next | intro _ | apply State.moverCtl_forms | apply State.setMover_forms | apply State.endBg_forms
    | apply State.buildGo_forms

theorem State.buildNow_forms (s : State) (x : Mbx) (hyp_s : s.canonical = true) :
    (State.buildNow s x).canonical = true := by
  unfold State.buildNow
  with_reducible repeat' first
    | (simp -zeta only [canonical_mk]; apply canon; assumption) | assumption
    | (extract_lets +onlyGivenNames x; have hx : x.canonical = true := ?_; (on_goal 2 => subst x); clear_value x; revert x; intro _ _)
    | (extract_lets +onlyGivenNames x; clear_value x; revert x; intro _) | apply forms_ite | apply State.status_forms | apply State.doPlan_forms
    | apply State.startBg_forms | apply State.buildEnd_forms | apply State.onInt_forms | apply State.buildGo_forms
    | (split <;> try (rename_i h; have hp := forms_ofEq h ?_; clear h))

theorem State.buildCmd_forms (s : State) (x : Mbx) (asked : List Nat) (hyp_s : s.canonical = true) :
    (State.buildCmd s x asked).canonical = true := by
  unfold State.buildCmd
  with_reducible repeat' first
    | assumption | intro _ | (extract_lets +onlyGivenNames x; clear_value x; revert x; intro _) | apply forms_ite | apply State.status_forms
    | apply State.bgCommand_forms | apply State.withExts_forms | apply State.buildNow_forms

theorem execPubBuild_forms (x : Mbx) (s : State) (hyp_s : s.canonical = true) :
    OkForms (execPubBuild x s) := by
  unfold execPubBuild
  with_reducible repeat' first
    | assumption | apply forms_next | intro _ | apply State.command_forms | apply State.buildCmd_forms

theorem execIntErrqPopWrite_forms (v : Word) (s : State) (hyp_s : s.canonical = true) :
    OkForms (execIntErrqPopWrite v s) := by
  unfold execIntErrqPopWrite
  with_reducible repeat' first
    | assumption | apply forms_next | apply forms_ite | apply State.onInt_forms

theorem execCaptureReleaseWrite_forms (off : Nat) (v : Word) (s : State) (hyp_s : s.canonical = true) :
    OkForms (execCaptureReleaseWrite off v s) := by
  unfold execCaptureReleaseWrite
  with_reducible repeat' first
    | assumption | apply forms_next | apply forms_ite | apply State.setReg_forms

theorem execSpreadMemberSlow_forms (e : Nat) (m : Fin 64) (s : State) (hyp_s : s.canonical = true) :
    OkForms (execSpreadMemberSlow e m s) := by
  unfold execSpreadMemberSlow
  with_reducible repeat' first
    | assumption | apply forms_next | apply forms_ite | apply State.onInt_forms | apply State.intr_forms | apply State.post_forms
    | (split <;> try (rename_i h; have hp := forms_ofEq h ?_; clear h))

/-! ## Dram -/

theorem execRefreshDue_forms (n : Fin 96) (rank : Fin 2) (s : State) (hyp_s : s.canonical = true) :
    OkForms (execRefreshDue n rank s) := by
  unfold execRefreshDue
  repeat' first
    | with_reducible assumption
    | with_reducible apply forms_next
    | with_reducible apply forms_fault
    | with_reducible apply forms_oite
    | with_reducible intro _
    | (extract_lets +onlyGivenNames x; have hx : x.canonical = true := ?_; (on_goal 2 => subst x); clear_value x; revert x; intro _ _)
    | (extract_lets +onlyGivenNames x; have hx : x.1.canonical = true := ?_; (on_goal 2 => subst x); clear_value x; revert x; intro _ _)
    | (extract_lets +onlyGivenNames x; have hx : x.wf = true := ?_; (on_goal 2 => subst x); clear_value x; revert x; intro _ _)
    | (extract_lets +onlyGivenNames x; clear_value x; revert x; intro _)
    | with_reducible apply forms_ite
    | with_reducible apply forms_iteFst
    | with_reducible apply forms_oite
    | with_reducible apply forms_next
    | with_reducible apply State.setChan_forms
    | with_reducible apply State.bumpDrc_forms
    | with_reducible apply State.intrDrc_forms
    | with_reducible apply State.post_forms
    | (split <;> try (rename_i h; have hp := forms_ofEq h ?_; clear h))
    | (fail_if_no_progress beta_reduce)
    | (fail_if_no_progress dsimp only)

theorem execForcedRefreshDone_forms (n : Fin 96) (rank : Fin 2) (s : State) (hyp_s : s.canonical = true) :
    OkForms (execForcedRefreshDone n rank s) := by
  unfold execForcedRefreshDone
  repeat' first
    | with_reducible assumption
    | with_reducible apply forms_next
    | with_reducible apply forms_fault
    | with_reducible apply forms_oite
    | with_reducible intro _
    | with_reducible apply forms_ite
    | with_reducible apply forms_iteFst
    | with_reducible apply forms_oite
    | with_reducible apply forms_next
    | with_reducible apply State.setChan_forms
    | with_reducible apply State.chanGo_forms
    | (split <;> try (rename_i h; have hp := forms_ofEq h ?_; clear h))
    | (fail_if_no_progress beta_reduce)
    | (fail_if_no_progress dsimp only)

theorem execRefreshRatePoll_forms (n : Fin 96) (rate : Fin 3) (s : State) (hyp_s : s.canonical = true) :
    OkForms (execRefreshRatePoll n rate s) := by
  unfold execRefreshRatePoll
  with_reducible repeat' first
    | assumption | apply forms_next | apply forms_ite | apply State.setChan_forms

theorem execWriteQueueDrain_forms (n : Fin 96) (s : State) (hyp_s : s.canonical = true) :
    OkForms (execWriteQueueDrain n s) := by
  unfold execWriteQueueDrain
  repeat' first
    | with_reducible assumption
    | with_reducible apply forms_next
    | with_reducible apply forms_fault
    | with_reducible apply forms_oite
    | with_reducible intro _
    | with_reducible apply forms_ite
    | with_reducible apply forms_iteFst
    | with_reducible apply forms_oite
    | with_reducible apply forms_next
    | with_reducible apply State.drainTo_forms
    | (split <;> try (rename_i h; have hp := forms_ofEq h ?_; clear h))
    | (fail_if_no_progress beta_reduce)
    | (fail_if_no_progress dsimp only)

theorem State.queueRetrain_forms (s : State) (n : Nat) (hyp_s : s.canonical = true) :
    (State.queueRetrain s n).canonical = true := by
  unfold State.queueRetrain
  with_reducible repeat' first
    | simp -zeta only [canonical_mk, near_mk, far_mk] | (apply Near.linesOk) | assumption | apply forms_ite | apply State.setChan_forms
    | apply State.onNear_forms

theorem execRetrainPeriodExpire_forms (n : Fin 96) (s : State) (hyp_s : s.canonical = true) :
    OkForms (execRetrainPeriodExpire n s) := by
  unfold execRetrainPeriodExpire
  with_reducible repeat' first
    | assumption | apply forms_next | apply forms_ite | apply State.queueRetrain_forms

theorem execRetrainTempQueue_forms (n : Fin 96) (temp : Fin 256) (s : State) (hyp_s : s.canonical = true) :
    OkForms (execRetrainTempQueue n temp s) := by
  unfold execRetrainTempQueue
  with_reducible repeat' first
    | assumption | apply forms_next | (extract_lets +onlyGivenNames x; clear_value x; revert x; intro _) | apply forms_ite
    | apply State.queueRetrain_forms

theorem execDrcRetrainGo_forms (v : Word) (s : State) (hyp_s : s.canonical = true) :
    OkForms (execDrcRetrainGo v s) := by
  unfold execDrcRetrainGo
  with_reducible repeat' first
    | assumption | apply forms_next | apply forms_ite | apply State.queueRetrain_forms

theorem execRetrainStart_forms (n : Fin 96) (s : State) (hyp_s : s.canonical = true) :
    OkForms (execRetrainStart n s) := by
  unfold execRetrainStart
  with_reducible repeat' first
    | simp -zeta only [canonical_mk, near_mk, far_mk] | (apply Near.linesOk) | assumption | apply forms_next
    | (extract_lets +onlyGivenNames x; have hx : x.canonical = true := ?_; (on_goal 2 => subst x); clear_value x; revert x; intro _ _)
    | (extract_lets +onlyGivenNames x; clear_value x; revert x; intro _) | apply forms_ite | apply State.setChan_forms | apply State.onNear_forms

theorem State.trained_forms (s : State) (n : Nat) (dly : Word) (rd wr temp : Nat) (hyp_s : s.canonical = true) :
    (State.trained s n dly rd wr temp).canonical = true := by
  unfold State.trained
  with_reducible repeat' first
    | assumption | (extract_lets +onlyGivenNames x; clear_value x; revert x; intro _) | apply State.setChan_forms | apply State.setReg_forms

theorem execRetrainDone_forms (n : Fin 96) (dly : Option Word) (rd : Fin 256) (wr : Fin 256) (temp : Fin 256) (s : State) (hyp_s : s.canonical = true) :
    OkForms (execRetrainDone n dly rd wr temp s) := by
  unfold execRetrainDone
  with_reducible repeat' first
    | assumption | apply forms_next
    | (extract_lets +onlyGivenNames x; have hx : x.canonical = true := ?_; (on_goal 2 => subst x); clear_value x; revert x; intro _ _)
    | (extract_lets +onlyGivenNames x; clear_value x; revert x; intro _) | apply forms_ite | apply State.trained_forms | apply State.chanGo_forms
    | apply State.setChan_forms | apply State.intrDrc_forms | apply State.post_forms | apply State.retireChannel_forms
    | (split <;> try (rename_i h; have hp := forms_ofEq h ?_; clear h))

theorem execChannelSlowDetect_forms (n : Fin 96) (s : State) (hyp_s : s.canonical = true) :
    OkForms (execChannelSlowDetect n s) := by
  unfold execChannelSlowDetect
  with_reducible repeat' first
    | assumption | apply forms_next | apply forms_ite | apply State.setChan_forms | apply State.intrDrc_forms | apply State.post_forms

theorem execChannelSlowClear_forms (n : Fin 96) (s : State) (hyp_s : s.canonical = true) :
    OkForms (execChannelSlowClear n s) := by
  unfold execChannelSlowClear
  with_reducible repeat' first
    | assumption | apply forms_next | apply forms_ite | apply State.setChan_forms

end Sys2Proof.Machine
end

