-- ==== Sys2Proof/Laws/FormsRalath.lean ====
section
/-! SUPPORT. The canonical forms are kept by contexts, the Ralath instructions, tillers and sheaves. -/

set_option linter.all false
set_option maxRecDepth 10000

namespace Sys2Proof.Machine

open Sys2Proof

/-! ## Ctx -/

theorem State.setCtx_forms (s : State) (c : Nat) (x : Ctx) (hyp_s : s.canonical = true) :
    (State.setCtx s c x).canonical = true := by
  unfold State.setCtx
  with_reducible repeat' first
    | assumption | apply State.onTlr_forms

theorem State.setTiller_forms (s : State) (n : Nat) (f : Tiller → Tiller) (hyp_s : s.canonical = true) :
    (State.setTiller s n f).canonical = true := by
  unfold State.setTiller
  with_reducible repeat' first
    | assumption | apply State.onTlr_forms

theorem State.defaultPolicy_forms (s : State) (c : Nat) (hyp_s : s.canonical = true) :
    (State.defaultPolicy s c).canonical = true := by
  unfold State.defaultPolicy
  with_reducible repeat' first
    | assumption | (extract_lets +onlyGivenNames x; clear_value x; revert x; intro _) | apply State.setCtx_forms | apply State.onTlr_forms

theorem State.setRing_forms (s : State) (ld r : Nat) (f : Ring → Ring) (hyp_s : s.canonical = true) :
    (State.setRing s ld r f).canonical = true := by
  unfold State.setRing
  with_reducible repeat' first
    | assumption | apply State.onTlr_forms

theorem State.cqFire_forms (s : State) (ld r : Nat) (hyp_s : s.canonical = true) :
    (State.cqFire s ld r).canonical = true := by
  unfold State.cqFire
  with_reducible repeat' first
    | assumption | apply State.msix_forms | apply State.setRing_forms

theorem State.cqCount_forms (s : State) (ld r : Nat) (hyp_s : s.canonical = true) :
    (State.cqCount s ld r).canonical = true := by
  unfold State.cqCount
  with_reducible repeat' first
    | assumption | (extract_lets +onlyGivenNames x; have hx : x.canonical = true := ?_; (on_goal 2 => subst x); clear_value x; revert x; intro _ _)
    | apply forms_ite | apply State.setRing_forms | apply State.cqFire_forms

theorem State.ringStop_forms (s : State) (ld : Nat) (hyp_s : s.canonical = true) :
    (State.ringStop s ld).canonical = true := by
  unfold State.ringStop
  with_reducible repeat' first
    | assumption | apply State.postFor_forms

theorem State.cqWrite_forms (s : State) (ld r : Nat) (d : Bytes) (ci : Bool) (hyp_s : s.canonical = true) :
    (State.cqWrite s ld r d ci).canonical = true := by
  unfold State.cqWrite
  with_reducible repeat' first
    | assumption | (extract_lets +onlyGivenNames x; have hx : x.canonical = true := ?_; (on_goal 2 => subst x); clear_value x; revert x; intro _ _)
    | (extract_lets +onlyGivenNames x; clear_value x; revert x; intro _) | apply forms_ite | apply State.noLease_forms | apply State.ringStop_forms
    | apply State.setRing_forms | apply State.accept_forms | apply State.cqCount_forms
    | (split <;> try (rename_i h; have hp := forms_ofEq h ?_; clear h))

theorem State.cqPost_forms (s : State) (ld r : Nat) (d : Bytes) (ci : Bool) (hyp_s : s.canonical = true) :
    (State.cqPost s ld r d ci).1.canonical = true := by
  unfold State.cqPost
  with_reducible repeat' first
    | simp -zeta only [canonical_mk, near_mk, far_mk] | assumption | apply forms_iteFst | apply State.cqWrite_forms | apply State.setRing_forms

theorem State.startPost_forms (s : State) (i : Nat) (hyp_s : s.canonical = true) :
    (State.startPost s i).1.canonical = true := by
  unfold State.startPost
  with_reducible repeat' first
    | simp -zeta only [canonical_mk, near_mk, far_mk] | assumption | apply forms_iteFst | apply State.cqPost_forms | apply State.onTlr_forms
    | (split <;> try (rename_i h; have hp := forms_ofEq h ?_; clear h))

theorem State.cancelCount_forms (s : State) (ld r i : Nat) (e : MemberEnd) (hyp_s : s.canonical = true) :
    (State.cancelCount s ld r i e).canonical = true := by
  unfold State.cancelCount
  with_reducible repeat' first
    | assumption | apply forms_ite | apply State.setRing_forms | (split <;> try (rename_i h; have hp := forms_ofEq h ?_; clear h))

theorem State.memberEnded_forms (s : State) (i : Nat) (e : MemberEnd) (hyp_s : s.canonical = true) :
    (State.memberEnded s i e).1.canonical = true := by
  unfold State.memberEnded
  with_reducible repeat' first
    | simp -zeta only [canonical_mk, near_mk, far_mk] | assumption | (extract_lets +onlyGivenNames x; clear_value x; revert x; intro _)
    | apply State.cancelCount_forms | apply State.onTlr_forms | apply State.startPost_forms
    | (split <;> try (rename_i h; have hp := forms_ofEq h ?_; clear h))

theorem State.sheafFree_forms (s : State) (h : Nat) (hyp_s : s.canonical = true) :
    (State.sheafFree s h).canonical = true := by
  unfold State.sheafFree
  with_reducible repeat' first
    | assumption | apply forms_ite | apply State.onTlr_forms | apply State.post_forms
    | (split <;> try (rename_i h; have hp := forms_ofEq h ?_; clear h))

theorem State.policyFault_forms (s : State) (c : Nat) (hyp_s : s.canonical = true) :
    (State.policyFault s c).canonical = true := by
  unfold State.policyFault
  with_reducible repeat' first
    | assumption | apply State.onTier_forms | apply State.defaultPolicy_forms | apply State.intr_forms | apply State.post_forms

theorem State.ctxGone_forms (s : State) (c : Nat) (x : Ctx) (hyp_s : s.canonical = true) :
    (State.ctxGone s c x).canonical = true := by
  unfold State.ctxGone
  with_reducible repeat' first
    | assumption | apply State.onTlr_forms | apply State.sheafFree_forms

theorem State.ctxEnd_forms (s : State) (c : Nat) (x : Ctx) (status : Nat) (hyp_s : s.canonical = true) :
    (State.ctxEnd s c x status).canonical = true := by
  unfold State.ctxEnd
  with_reducible repeat' first
    | simp -zeta only [canonical_mk, near_mk, far_mk] | assumption | (extract_lets +onlyGivenNames x; clear_value x; revert x; intro _)
    | apply forms_ite | apply State.ctxGone_forms | apply State.policyFault_forms | apply State.setCtx_forms | apply State.copyTo_forms
    | apply State.memberEnded_forms | apply State.bump_forms

theorem State.endAnswered_forms (s : State) (src c : Nat) (ok : Bool) (hyp_s : s.canonical = true) :
    (State.endAnswered s src c ok).canonical = true := by
  unfold State.endAnswered
  with_reducible repeat' first
    | assumption | apply forms_ite | apply State.ctxGone_forms | apply State.bump_forms
    | (split <;> try (rename_i h; have hp := forms_ofEq h ?_; clear h))

theorem State.cancelDesc_forms (s : State) (portal desc : Nat) (hyp_s : s.canonical = true) :
    (State.cancelDesc s portal desc).canonical = true := by
  unfold State.cancelDesc
  with_reducible repeat' first
    | assumption | intro _ | apply forms_each | apply State.ctxEnd_forms | (split <;> try (rename_i h; have hp := forms_ofEq h ?_; clear h))

theorem State.cancelAll_forms (s : State) (desc : Nat) (hyp_s : s.canonical = true) :
    (State.cancelAll s desc).canonical = true := by
  unfold State.cancelAll
  with_reducible repeat' first
    | assumption | apply State.copyAll_forms | apply State.cancelDesc_forms | (split <;> try (rename_i h; have hp := forms_ofEq h ?_; clear h))

theorem State.abortOthers_forms (s : State) (desc : Nat) (hyp_s : s.canonical = true) :
    (State.abortOthers s desc).canonical = true := by
  unfold State.abortOthers
  with_reducible repeat' first
    | assumption | apply forms_ite | apply State.cancelAll_forms | (split <;> try (rename_i h; have hp := forms_ofEq h ?_; clear h))

theorem State.cqDrain_forms (s : State) (ld r : Nat) (hyp_s : s.canonical = true) :
    (State.cqDrain s ld r).canonical = true := by
  unfold State.cqDrain
  with_reducible repeat' first
    | assumption | intro _ | apply forms_ite | apply forms_each | apply State.setRing_forms | apply State.cqWrite_forms
    | (split <;> try (rename_i h; have hp := forms_ofEq h ?_; clear h))

theorem State.cqFlush_forms (s : State) (ld r : Nat) (hyp_s : s.canonical = true) :
    (State.cqFlush s ld r).canonical = true := by
  unfold State.cqFlush
  with_reducible repeat' first
    | simp -zeta only [canonical_mk, near_mk, far_mk] | assumption | intro _
    | (extract_lets +onlyGivenNames x; have hx : x.canonical = true := ?_; (on_goal 2 => subst x); clear_value x; revert x; intro _ _)
    | apply forms_ite | apply forms_each | apply State.cqDrain_forms | apply State.startPost_forms | apply State.ctxGone_forms
    | apply State.copyTo_forms | (split <;> try (rename_i h; have hp := forms_ofEq h ?_; clear h))

theorem State.ctxTrap_forms (s : State) (c : Nat) (x : Ctx) (pc cause detail addr : Nat) (imprecise : Bool) (hyp_s : s.canonical = true) :
    (State.ctxTrap s c x pc cause detail addr imprecise).canonical = true := by
  unfold State.ctxTrap
  with_reducible repeat' first
    | assumption | (extract_lets +onlyGivenNames x; have hx : x.canonical = true := ?_; (on_goal 2 => subst x); clear_value x; revert x; intro _ _)
    | (extract_lets +onlyGivenNames x; clear_value x; revert x; intro _) | apply forms_ite | apply State.setReg_forms | apply State.intr_forms
    | apply State.bump_forms | apply State.postFor_forms | apply State.ctxEnd_forms | apply State.abortOthers_forms

theorem State.fetchBad_forms (s : State) (c : Nat) (x : Ctx) (line synd : Nat) (hyp_s : s.canonical = true) :
    (State.fetchBad s c x line synd).canonical = true := by
  unfold State.fetchBad
  repeat' first
    | (simp -zeta only [canonical_mk]; apply canon; assumption)
    | simp -zeta only [canonical_mk, near_mk, far_mk]
    | with_reducible apply forms_and
    | with_reducible apply media_and
    | (with_reducible apply State.near_wf; with_reducible assumption)
    | (with_reducible apply State.far_wf; with_reducible assumption)
    | (with_reducible apply State.regs_rising; with_reducible assumption)
    | (with_reducible apply Near.linesOk)
    | (with_reducible apply Far.flashOk)
    | (with_reducible apply Far.parityOk)
    | with_reducible apply linesOk_filter
    | with_reducible apply chunksOk_filter
    | with_reducible assumption
    | intro _
    | (extract_lets +onlyGivenNames x; have hx : x.canonical = true := ?_; (on_goal 2 => subst x); clear_value x; revert x; intro _ _)
    | (extract_lets +onlyGivenNames x; have hx : x.1.canonical = true := ?_; (on_goal 2 => subst x); clear_value x; revert x; intro _ _)
    | (extract_lets +onlyGivenNames x; have hx : x.wf = true := ?_; (on_goal 2 => subst x); clear_value x; revert x; intro _ _)
    | (extract_lets +onlyGivenNames x; clear_value x; revert x; intro _)
    | with_reducible apply State.ctxTrap_forms
    | with_reducible apply State.onTlr_forms
    | with_reducible apply State.intr_forms
    | with_reducible apply State.bump_forms
    | with_reducible apply State.drew_forms
    | with_reducible apply State.intError_forms
    | (fail_if_no_progress beta_reduce)
    | (fail_if_no_progress dsimp only)
    | with_reducible apply State.near_wf
    | with_reducible apply State.far_wf
    | with_reducible apply State.regs_rising

theorem State.took_forms (s : State) (c n : Nat) (hyp_s : s.canonical = true) :
    (State.took s c n).canonical = true := by
  unfold State.took
  with_reducible repeat' first
    | assumption | apply State.onTlr_forms

theorem State.issue_forms (s : State) (c : Nat) (m : Nat → Bool) (f : Ctx → Word → State) (hyp_s : s.canonical = true) (hyp_f : ∀ z0 z1, (f z0 z1).canonical = true) :
    (State.issue s c m f).canonical = true := by
  unfold State.issue
  with_reducible repeat' first
    | assumption | (extract_lets +onlyGivenNames x; clear_value x; revert x; intro _) | apply forms_ite | apply State.ctxTrap_forms
    | apply State.fetchBad_forms | apply State.took_forms | (split <;> try (rename_i h; have hp := forms_ofEq h ?_; clear h)) | apply_assumption

theorem State.doEff_forms (s : State) (c : Nat) (x : Ctx) (y0 : Eff) (hyp_s : s.canonical = true) :
    (State.doEff s c x y0).canonical = true := by
  unfold State.doEff
  with_reducible repeat' first
    | assumption | apply State.setCtx_forms | apply State.ctxTrap_forms | (split <;> try (rename_i h; have hp := forms_ofEq h ?_; clear h))

theorem State.plainOp_forms (s : State) (c major : Nat) (f : Ctx → Word → Eff) (hyp_s : s.canonical = true) :
    (State.plainOp s c major f).canonical = true := by
  unfold State.plainOp
  with_reducible repeat' first
    | assumption | intro _ | apply State.issue_forms | apply State.doEff_forms

theorem State.setCons_forms (s : State) (v : Nat) (hyp_s : s.canonical = true) :
    (State.setCons s v).canonical = true := by
  unfold State.setCons
  with_reducible repeat' first
    | assumption | apply State.onTier_forms

theorem State.dropWrite_forms (s : State) (hyp_s : s.canonical = true) :
    (State.dropWrite s).canonical = true := by
  unfold State.dropWrite
  with_reducible repeat' first
    | assumption | apply State.bump_forms | apply State.post_forms

theorem State.ctxReq_forms (s : State) (c k : Nat) (x : Ctx) (op : ROp) (sa mask : Nat) (d : Bytes) (hyp_s : s.canonical = true) :
    (State.ctxReq s c k x op sa mask d).canonical = true := by
  unfold State.ctxReq
  with_reducible repeat' first
    | assumption | apply State.accept_forms

theorem State.syncRead_forms (s : State) (c : Nat) (x : Ctx) (sa n : Nat) (hyp_s : s.canonical = true) :
    (State.syncRead s c x sa n).1.canonical = true := by
  unfold State.syncRead
  with_reducible repeat' first
    | (simp -zeta only [canonical_mk]; apply canon; assumption) | simp -zeta only [canonical_mk, near_mk, far_mk] | assumption | intro _
    | (extract_lets +onlyGivenNames x; have hx : x.canonical = true := ?_; (on_goal 2 => subst x); clear_value x; revert x; intro _ _)
    | (extract_lets +onlyGivenNames x; have hx : ∀ y0 : State, y0.canonical = true → (x y0).1.canonical = true := ?_; (on_goal 2 => subst x); clear_value x; revert x; intro _ _)
    | (extract_lets +onlyGivenNames x; clear_value x; revert x; intro _) | apply forms_iteFst | apply State.setCtx_forms | apply State.post_forms
    | apply State.ctxReq_forms | (split <;> try (rename_i h; have hp := forms_ofEq h ?_; clear h)) | apply_assumption

theorem State.asyncWrite_forms (s : State) (c : Nat) (x : Ctx) (pc : Nat) (op : ROp) (sa mask : Nat) (d : Bytes) (hyp_s : s.canonical = true) :
    (State.asyncWrite s c x pc op sa mask d).canonical = true := by
  unfold State.asyncWrite
  with_reducible repeat' first
    | (simp -zeta only [canonical_mk]; apply canon; assumption) | (extract_lets +onlyGivenNames x; clear_value x; revert x; intro _)
    | apply State.setCtx_forms | apply State.ctxReq_forms

theorem State.withCtx_forms (s : State) (c : Nat) (f : Ctx → State) (hyp_s : s.canonical = true) (hyp_f : ∀ z0, (f z0).canonical = true) :
    (State.withCtx s c f).canonical = true := by
  unfold State.withCtx
  with_reducible repeat' first
    | assumption | (split <;> try (rename_i h; have hp := forms_ofEq h ?_; clear h)) | apply_assumption

/-! ## Scalar -/

theorem execAdd_forms (c : Fin 4096) (s : State) (hyp_s : s.canonical = true) :
    OkForms (execAdd c s) := by
  unfold execAdd
  with_reducible repeat' first
    | assumption | apply forms_next | apply State.plainOp_forms

theorem execSub_forms (c : Fin 4096) (s : State) (hyp_s : s.canonical = true) :
    OkForms (execSub c s) := by
  unfold execSub
  with_reducible repeat' first
    | assumption | apply forms_next | apply State.plainOp_forms

theorem execMul_forms (c : Fin 4096) (s : State) (hyp_s : s.canonical = true) :
    OkForms (execMul c s) := by
  unfold execMul
  with_reducible repeat' first
    | assumption | apply forms_next | apply State.plainOp_forms

theorem execMulh_forms (c : Fin 4096) (s : State) (hyp_s : s.canonical = true) :
    OkForms (execMulh c s) := by
  unfold execMulh
  with_reducible repeat' first
    | assumption | apply forms_next | apply State.plainOp_forms

theorem execAnd_forms (c : Fin 4096) (s : State) (hyp_s : s.canonical = true) :
    OkForms (execAnd c s) := by
  unfold execAnd
  with_reducible repeat' first
    | assumption | apply forms_next | apply State.plainOp_forms

theorem execOr_forms (c : Fin 4096) (s : State) (hyp_s : s.canonical = true) :
    OkForms (execOr c s) := by
  unfold execOr
  with_reducible repeat' first
    | assumption | apply forms_next | apply State.plainOp_forms

theorem execXor_forms (c : Fin 4096) (s : State) (hyp_s : s.canonical = true) :
    OkForms (execXor c s) := by
  unfold execXor
  with_reducible repeat' first
    | assumption | apply forms_next | apply State.plainOp_forms

theorem execShl_forms (c : Fin 4096) (s : State) (hyp_s : s.canonical = true) :
    OkForms (execShl c s) := by
  unfold execShl
  with_reducible repeat' first
    | assumption | apply forms_next | apply State.plainOp_forms

theorem execShr_forms (c : Fin 4096) (s : State) (hyp_s : s.canonical = true) :
    OkForms (execShr c s) := by
  unfold execShr
  with_reducible repeat' first
    | assumption | apply forms_next | apply State.plainOp_forms

theorem execSar_forms (c : Fin 4096) (s : State) (hyp_s : s.canonical = true) :
    OkForms (execSar c s) := by
  unfold execSar
  with_reducible repeat' first
    | assumption | apply forms_next | apply State.plainOp_forms

theorem execMin_forms (c : Fin 4096) (s : State) (hyp_s : s.canonical = true) :
    OkForms (execMin c s) := by
  unfold execMin
  with_reducible repeat' first
    | assumption | apply forms_next | apply State.plainOp_forms

theorem execMax_forms (c : Fin 4096) (s : State) (hyp_s : s.canonical = true) :
    OkForms (execMax c s) := by
  unfold execMax
  with_reducible repeat' first
    | assumption | apply forms_next | apply State.plainOp_forms

theorem execCmp_forms (c : Fin 4096) (s : State) (hyp_s : s.canonical = true) :
    OkForms (execCmp c s) := by
  unfold execCmp
  with_reducible repeat' first
    | assumption | apply forms_next | apply State.plainOp_forms

theorem execLi_forms (c : Fin 4096) (s : State) (hyp_s : s.canonical = true) :
    OkForms (execLi c s) := by
  unfold execLi
  with_reducible repeat' first
    | assumption | apply forms_next | apply State.plainOp_forms

theorem State.ldsSpace_forms (s : State) (c : Nat) (x : Ctx) (w : Word) (a : Nat) (hyp_s : s.canonical = true) :
    (State.ldsSpace s c x w a).canonical = true := by
  unfold State.ldsSpace
  with_reducible repeat' first
    | assumption | intro _ | (extract_lets +onlyGivenNames x; clear_value x; revert x; intro _) | apply forms_ite | apply State.doEff_forms
    | apply State.syncRead_forms | apply State.withCtx_forms | (split <;> try (rename_i h; have hp := forms_ofEq h ?_; clear h))

theorem execLds_forms (c : Fin 4096) (s : State) (hyp_s : s.canonical = true) :
    OkForms (execLds c s) := by
  unfold execLds
  with_reducible repeat' first
    | assumption | apply forms_next | intro _ | apply forms_ite | apply State.issue_forms | apply State.doEff_forms | apply State.ldsSpace_forms
    | (split <;> try (rename_i h; have hp := forms_ofEq h ?_; clear h))

theorem State.stsSpace_forms (s : State) (c : Nat) (x : Ctx) (w : Word) (a : Nat) (hyp_s : s.canonical = true) :
    (State.stsSpace s c x w a).canonical = true := by
  unfold State.stsSpace
  with_reducible repeat' first
    | assumption | (extract_lets +onlyGivenNames x; clear_value x; revert x; intro _) | apply forms_ite | apply State.doEff_forms
    | apply State.setCons_forms | apply State.setCtx_forms | apply State.dropWrite_forms | apply State.asyncWrite_forms
    | (split <;> try (rename_i h; have hp := forms_ofEq h ?_; clear h))

theorem execSts_forms (c : Fin 4096) (s : State) (hyp_s : s.canonical = true) :
    OkForms (execSts c s) := by
  unfold execSts
  with_reducible repeat' first
    | assumption | apply forms_next | intro _ | apply forms_ite | apply State.issue_forms | apply State.doEff_forms | apply State.stsSpace_forms
    | (split <;> try (rename_i h; have hp := forms_ofEq h ?_; clear h))

/-! ## Vector -/

theorem execVld_forms (c : Fin 4096) (s : State) (hyp_s : s.canonical = true) :
    OkForms (execVld c s) := by
  unfold execVld
  with_reducible repeat' first
    | assumption | apply forms_next | apply State.plainOp_forms

theorem execVst_forms (c : Fin 4096) (s : State) (hyp_s : s.canonical = true) :
    OkForms (execVst c s) := by
  unfold execVst
  with_reducible repeat' first
    | assumption | apply forms_next | apply State.plainOp_forms

theorem execVadd_forms (c : Fin 4096) (s : State) (hyp_s : s.canonical = true) :
    OkForms (execVadd c s) := by
  unfold execVadd
  with_reducible repeat' first
    | assumption | apply forms_next | apply State.plainOp_forms

theorem execVmul_forms (c : Fin 4096) (s : State) (hyp_s : s.canonical = true) :
    OkForms (execVmul c s) := by
  unfold execVmul
  with_reducible repeat' first
    | assumption | apply forms_next | apply State.plainOp_forms

theorem execVmac_forms (c : Fin 4096) (s : State) (hyp_s : s.canonical = true) :
    OkForms (execVmac c s) := by
  unfold execVmac
  with_reducible repeat' first
    | assumption | apply forms_next | apply State.plainOp_forms

theorem execVmax_forms (c : Fin 4096) (s : State) (hyp_s : s.canonical = true) :
    OkForms (execVmax c s) := by
  unfold execVmax
  with_reducible repeat' first
    | assumption | apply forms_next | apply State.plainOp_forms

theorem execVdot_forms (c : Fin 4096) (s : State) (hyp_s : s.canonical = true) :
    OkForms (execVdot c s) := by
  unfold execVdot
  with_reducible repeat' first
    | assumption | apply forms_next | apply State.plainOp_forms

theorem execVred_forms (c : Fin 4096) (s : State) (hyp_s : s.canonical = true) :
    OkForms (execVred c s) := by
  unfold execVred
  with_reducible repeat' first
    | assumption | apply forms_next | apply State.plainOp_forms

theorem execVscale_forms (c : Fin 4096) (s : State) (hyp_s : s.canonical = true) :
    OkForms (execVscale c s) := by
  unfold execVscale
  with_reducible repeat' first
    | assumption | apply forms_next | apply State.plainOp_forms

theorem execVcvt_forms (c : Fin 4096) (s : State) (hyp_s : s.canonical = true) :
    OkForms (execVcvt c s) := by
  unfold execVcvt
  with_reducible repeat' first
    | assumption | apply forms_next | apply State.plainOp_forms

/-! ## TileOps -/

theorem execMma_forms (c : Fin 4096) (s : State) (hyp_s : s.canonical = true) :
    OkForms (execMma c s) := by
  unfold execMma
  with_reducible repeat' first
    | assumption | apply forms_next | apply State.plainOp_forms

theorem execTzero_forms (c : Fin 4096) (s : State) (hyp_s : s.canonical = true) :
    OkForms (execTzero c s) := by
  unfold execTzero
  with_reducible repeat' first
    | assumption | apply forms_next | apply State.plainOp_forms

theorem execTstore_forms (c : Fin 4096) (s : State) (hyp_s : s.canonical = true) :
    OkForms (execTstore c s) := by
  unfold execTstore
  with_reducible repeat' first
    | assumption | apply forms_next | apply State.plainOp_forms

/-! ## Stream -/

theorem State.asyncRead_forms (s : State) (c : Nat) (x : Ctx) (kind : Nat) (units : List (Nat × Nat)) (dst : Nat) (hyp_s : s.canonical = true) :
    (State.asyncRead s c x kind units dst).canonical = true := by
  unfold State.asyncRead
  with_reducible repeat' first
    | (simp -zeta only [canonical_mk]; apply canon; assumption) | simp -zeta only [canonical_mk, near_mk, far_mk] | assumption | intro _
    | (extract_lets +onlyGivenNames x; have hx : x.canonical = true := ?_; (on_goal 2 => subst x); clear_value x; revert x; intro _ _)
    | (extract_lets +onlyGivenNames x; clear_value x; revert x; intro _) | apply forms_ite | apply forms_each | apply State.setCtx_forms
    | apply State.post_forms | apply State.ctxReq_forms

theorem State.asyncOut_forms (s : State) (c : Nat) (x : Ctx) (kind : Nat) (units : List (Nat × Nat)) (src : Nat) (hyp_s : s.canonical = true) :
    (State.asyncOut s c x kind units src).canonical = true := by
  unfold State.asyncOut
  with_reducible repeat' first
    | (simp -zeta only [canonical_mk]; apply canon; assumption) | simp -zeta only [canonical_mk, near_mk, far_mk] | assumption | intro _
    | (extract_lets +onlyGivenNames x; have hx : x.canonical = true := ?_; (on_goal 2 => subst x); clear_value x; revert x; intro _ _)
    | (extract_lets +onlyGivenNames x; clear_value x; revert x; intro _) | apply forms_each | apply State.setCtx_forms | apply State.dropWrite_forms
    | apply State.ctxReq_forms

theorem State.rowsOp_forms (s : State) (c : Nat) (x : Ctx) (w : Word) (kind : Nat) (hyp_s : s.canonical = true) :
    (State.rowsOp s c x w kind).canonical = true := by
  unfold State.rowsOp
  with_reducible repeat' first
    | assumption | (extract_lets +onlyGivenNames x; clear_value x; revert x; intro _) | apply forms_ite | apply State.doEff_forms
    | apply State.asyncRead_forms | apply State.asyncOut_forms

theorem execGather_forms (c : Fin 4096) (s : State) (hyp_s : s.canonical = true) :
    OkForms (execGather c s) := by
  unfold execGather
  with_reducible repeat' first
    | assumption | apply forms_next | intro _ | apply State.issue_forms | apply State.rowsOp_forms

theorem execScatter_forms (c : Fin 4096) (s : State) (hyp_s : s.canonical = true) :
    OkForms (execScatter c s) := by
  unfold execScatter
  with_reducible repeat' first
    | assumption | apply forms_next | intro _ | apply State.issue_forms | apply State.rowsOp_forms

theorem State.streamOp_forms (s : State) (c : Nat) (x : Ctx) (w : Word) (hyp_s : s.canonical = true) :
    (State.streamOp s c x w).canonical = true := by
  unfold State.streamOp
  with_reducible repeat' first
    | assumption | (extract_lets +onlyGivenNames x; clear_value x; revert x; intro _) | apply forms_ite | apply State.doEff_forms
    | apply State.asyncRead_forms | apply State.asyncOut_forms

theorem execStream_forms (c : Fin 4096) (s : State) (hyp_s : s.canonical = true) :
    OkForms (execStream c s) := by
  unfold execStream
  with_reducible repeat' first
    | assumption | apply forms_next | intro _ | apply State.issue_forms | apply State.streamOp_forms

theorem execAsyncOpDone_forms (c : Fin 4096) (op : Nat) (s : State) (hyp_s : s.canonical = true) :
    OkForms (execAsyncOpDone c op s) := by
  unfold execAsyncOpDone
  with_reducible repeat' first
    | assumption | apply forms_next | (extract_lets +onlyGivenNames x; clear_value x; revert x; intro _) | apply State.setCtx_forms
    | (split <;> try (rename_i h; have hp := forms_ofEq h ?_; clear h))

theorem State.putPlace_forms (s : State) (c : Nat) (x : Ctx) (d : Bytes) (hyp_s : s.canonical = true) :
    (State.putPlace s c x d).canonical = true := by
  unfold State.putPlace
  with_reducible repeat' first
    | assumption | (extract_lets +onlyGivenNames x; clear_value x; revert x; intro _) | apply forms_ite | apply State.onTier_forms
    | apply State.setCtx_forms | apply State.runPlace_forms

theorem State.putProgress_forms (s : State) (c : Nat) (x : Ctx) (d : Bytes) (hyp_s : s.canonical = true) :
    (State.putProgress s c x d).canonical = true := by
  unfold State.putProgress
  with_reducible repeat' first
    | simp -zeta only [canonical_mk, near_mk, far_mk] | assumption | (extract_lets +onlyGivenNames x; clear_value x; revert x; intro _)
    | apply forms_ite | apply State.setCtx_forms | apply State.copyTo_forms | apply State.cqPost_forms
    | (split <;> try (rename_i h; have hp := forms_ofEq h ?_; clear h))

theorem State.putPort_forms (s : State) (c : Nat) (x : Ctx) (w : Word) (hyp_s : s.canonical = true) :
    (State.putPort s c x w).canonical = true := by
  unfold State.putPort
  with_reducible repeat' first
    | assumption | (extract_lets +onlyGivenNames x; clear_value x; revert x; intro _) | apply forms_ite | apply State.doEff_forms
    | apply State.putPlace_forms | apply State.putProgress_forms

theorem execPutPortMessage_forms (c : Fin 4096) (s : State) (hyp_s : s.canonical = true) :
    OkForms (execPutPortMessage c s) := by
  unfold execPutPortMessage
  with_reducible repeat' first
    | assumption | apply forms_next | intro _ | apply forms_ite | apply State.issue_forms | apply State.putPort_forms

theorem State.putLine_forms (s : State) (c : Nat) (x : Ctx) (w : Word) (hyp_s : s.canonical = true) :
    (State.putLine s c x w).canonical = true := by
  unfold State.putLine
  with_reducible repeat' first
    | assumption | (extract_lets +onlyGivenNames x; clear_value x; revert x; intro _) | apply forms_ite | apply State.doEff_forms
    | apply State.asyncOut_forms

theorem execPutLineWrite_forms (c : Fin 4096) (s : State) (hyp_s : s.canonical = true) :
    OkForms (execPutLineWrite c s) := by
  unfold execPutLineWrite
  with_reducible repeat' first
    | assumption | apply forms_next | intro _ | apply forms_ite | apply State.issue_forms | apply State.putLine_forms

theorem State.fetchPage_forms (s : State) (page : Nat) (x : Extent) (et kc cls n k0 : Nat) (hyp_s : s.canonical = true) :
    (State.fetchPage s page x et kc cls n k0).1.canonical = true := by
  unfold State.fetchPage
  with_reducible repeat' first
    | simp -zeta only [canonical_mk, near_mk, far_mk] | assumption | (extract_lets +onlyGivenNames x; clear_value x; revert x; intro _)
    | apply forms_iteFst | apply State.needPull_forms | apply State.recover_forms
    | (split <;> try (rename_i h; have hp := forms_ofEq h ?_; clear h))

theorem State.fetchReply_forms (s : State) (q : FetchWait) (f : Fetched) (form : Option Nat) (hyp_s : s.canonical = true) :
    (State.fetchReply s q f form).canonical = true := by
  unfold State.fetchReply
  with_reducible repeat' first
    | assumption | apply State.copyTo_forms

theorem State.fetchServe_forms (s : State) (q : FetchWait) (hyp_s : s.canonical = true) :
    (State.fetchServe s q).canonical = true := by
  unfold State.fetchServe
  with_reducible repeat' first
    | simp -zeta only [canonical_mk, near_mk, far_mk] | assumption | intro _
    | (extract_lets +onlyGivenNames x; have hx : ∀ y0 : State, y0.canonical = true → (x y0).canonical = true := ?_; (on_goal 2 => subst x); clear_value x; revert x; intro _ _)
    | apply State.onTlr_forms | apply State.fetchPage_forms | apply State.fetchReply_forms | apply State.copyTo_forms
    | (split <;> try (rename_i h; have hp := forms_ofEq h ?_; clear h)) | apply_assumption

theorem State.fetchFrom_forms (s : State) (q : FetchWait) (hyp_s : s.canonical = true) :
    (State.fetchFrom s q).canonical = true := by
  unfold State.fetchFrom
  with_reducible repeat' first
    | assumption | apply State.awake_forms | apply State.countAccess_forms | apply State.fetchServe_forms

theorem State.fetchesGo_forms (s : State) (hyp_s : s.canonical = true) :
    (State.fetchesGo s).canonical = true := by
  unfold State.fetchesGo
  with_reducible repeat' first
    | assumption | intro _ | apply forms_ite | apply forms_each | apply State.onTlr_forms | apply State.fetchServe_forms

theorem State.fetchPut_forms (s : State) (c : Nat) (x : Ctx) (w : Word) (et kc : Nat) (f : Fetched) (hyp_s : s.canonical = true) :
    (State.fetchPut s c x w et kc f).canonical = true := by
  unfold State.fetchPut
  with_reducible repeat' first
    | assumption | (extract_lets +onlyGivenNames x; clear_value x; revert x; intro _) | apply State.setCtx_forms

theorem State.fetchEnd_forms (s : State) (c : Nat) (x : Ctx) (w : Word) (sa : Nat) (f : Fetched) (hyp_s : s.canonical = true) :
    (State.fetchEnd s c x w sa f).canonical = true := by
  unfold State.fetchEnd
  with_reducible repeat' first
    | assumption | (extract_lets +onlyGivenNames x; clear_value x; revert x; intro _) | apply forms_ite | apply State.doEff_forms
    | apply State.fetchPut_forms | (split <;> try (rename_i h; have hp := forms_ofEq h ?_; clear h))

theorem State.fetchTry_forms (s : State) (c : Nat) (x : Ctx) (w : Word) (e : Extent) (sa : Nat) (hyp_s : s.canonical = true) :
    (State.fetchTry s c x w e sa).canonical = true := by
  unfold State.fetchTry
  with_reducible repeat' first
    | (simp -zeta only [canonical_mk]; apply canon; assumption) | assumption | (extract_lets +onlyGivenNames x; clear_value x; revert x; intro _)
    | apply State.fetchPage_forms | apply State.setCtx_forms | apply State.doEff_forms | apply State.fetchEnd_forms | apply State.copyTo_forms
    | (split <;> try (rename_i h; have hp := forms_ofEq h ?_; clear h))

theorem State.fetchOp_forms (s : State) (c : Nat) (x : Ctx) (w : Word) (hyp_s : s.canonical = true) :
    (State.fetchOp s c x w).canonical = true := by
  unfold State.fetchOp
  with_reducible repeat' first
    | assumption | (extract_lets +onlyGivenNames x; clear_value x; revert x; intro _) | apply forms_ite | apply State.doEff_forms
    | apply State.post_forms | apply State.fetchEnd_forms | apply State.countAccess_forms | apply State.fetchTry_forms
    | (split <;> try (rename_i h; have hp := forms_ofEq h ?_; clear h))

theorem execFetchf_forms (c : Fin 4096) (s : State) (hyp_s : s.canonical = true) :
    OkForms (execFetchf c s) := by
  unfold execFetchf
  with_reducible repeat' first
    | assumption | apply forms_next | intro _ | apply State.issue_forms | apply State.fetchOp_forms

theorem State.fetchCame_forms (s : State) (c k : Nat) (f : Fetched) (form : Option Nat) (hyp_s : s.canonical = true) :
    (State.fetchCame s c k f form).canonical = true := by
  unfold State.fetchCame
  with_reducible repeat' first
    | assumption | (extract_lets +onlyGivenNames x; clear_value x; revert x; intro _) | apply forms_ite | apply State.doEff_forms
    | apply State.fetchEnd_forms | (split <;> try (rename_i h; have hp := forms_ofEq h ?_; clear h))

theorem execFetchfDone_forms (c : Fin 4096) (s : State) (hyp_s : s.canonical = true) :
    OkForms (execFetchfDone c s) := by
  unfold execFetchfDone
  with_reducible repeat' first
    | assumption | apply forms_next | (extract_lets +onlyGivenNames x; clear_value x; revert x; intro _) | apply forms_ite | apply State.doEff_forms
    | apply State.fetchTry_forms | (split <;> try (rename_i h; have hp := forms_ofEq h ?_; clear h))

theorem execTopkIns_forms (c : Fin 4096) (s : State) (hyp_s : s.canonical = true) :
    OkForms (execTopkIns c s) := by
  unfold execTopkIns
  with_reducible repeat' first
    | assumption | apply forms_next | apply State.plainOp_forms

theorem execTopkDrain_forms (c : Fin 4096) (s : State) (hyp_s : s.canonical = true) :
    OkForms (execTopkDrain c s) := by
  unfold execTopkDrain
  with_reducible repeat' first
    | assumption | apply forms_next | apply State.plainOp_forms

/-! ## Control -/

theorem execBr_forms (c : Fin 4096) (s : State) (hyp_s : s.canonical = true) :
    OkForms (execBr c s) := by
  unfold execBr
  with_reducible repeat' first
    | assumption | apply forms_next | apply State.plainOp_forms

theorem execBrc_forms (c : Fin 4096) (s : State) (hyp_s : s.canonical = true) :
    OkForms (execBrc c s) := by
  unfold execBrc
  with_reducible repeat' first
    | assumption | apply forms_next | apply State.plainOp_forms

theorem State.callOp_forms (s : State) (c : Nat) (x : Ctx) (w : Word) (hyp_s : s.canonical = true) :
    (State.callOp s c x w).canonical = true := by
  unfold State.callOp
  with_reducible repeat' first
    | assumption | apply forms_ite | apply State.doEff_forms | apply State.setCtx_forms

theorem execCall_forms (c : Fin 4096) (s : State) (hyp_s : s.canonical = true) :
    OkForms (execCall c s) := by
  unfold execCall
  with_reducible repeat' first
    | assumption | apply forms_next | intro _ | apply State.issue_forms | apply State.callOp_forms

theorem execRet_forms (c : Fin 4096) (s : State) (hyp_s : s.canonical = true) :
    OkForms (execRet c s) := by
  unfold execRet
  with_reducible repeat' first
    | assumption | apply forms_next | apply State.plainOp_forms

theorem State.loopOp_forms (s : State) (c : Nat) (x : Ctx) (w : Word) (hyp_s : s.canonical = true) :
    (State.loopOp s c x w).canonical = true := by
  unfold State.loopOp
  with_reducible repeat' first
    | assumption | (extract_lets +onlyGivenNames x; clear_value x; revert x; intro _) | apply forms_ite | apply State.doEff_forms
    | apply State.setCtx_forms

theorem execLoop_forms (c : Fin 4096) (s : State) (hyp_s : s.canonical = true) :
    OkForms (execLoop c s) := by
  unfold execLoop
  with_reducible repeat' first
    | assumption | apply forms_next | intro _ | apply State.issue_forms | apply State.loopOp_forms

theorem execYield_forms (c : Fin 4096) (s : State) (hyp_s : s.canonical = true) :
    OkForms (execYield c s) := by
  unfold execYield
  with_reducible repeat' first
    | assumption | apply forms_next | apply State.plainOp_forms

theorem State.gateTest_forms (s : State) (c : Nat) (x : Ctx) (w : Word) (sa : Nat) (d : Bytes) (y : Nat) (hyp_s : s.canonical = true) :
    (State.gateTest s c x w sa d y).canonical = true := by
  unfold State.gateTest
  with_reducible repeat' first
    | simp -zeta only [canonical_mk, near_mk, far_mk] | assumption | apply forms_ite | apply State.doEff_forms | apply State.setCtx_forms

theorem State.gateStep_forms (s : State) (c : Nat) (x : Ctx) (w : Word) (hyp_s : s.canonical = true) :
    (State.gateStep s c x w).canonical = true := by
  unfold State.gateStep
  with_reducible repeat' first
    | assumption | (extract_lets +onlyGivenNames x; clear_value x; revert x; intro _) | apply State.syncRead_forms | apply State.doEff_forms
    | apply State.gateTest_forms | (split <;> try (rename_i h; have hp := forms_ofEq h ?_; clear h))

theorem State.waitOp_forms (s : State) (c : Nat) (x : Ctx) (w : Word) (hyp_s : s.canonical = true) :
    (State.waitOp s c x w).canonical = true := by
  unfold State.waitOp
  with_reducible repeat' first
    | assumption | (extract_lets +onlyGivenNames x; clear_value x; revert x; intro _) | apply forms_ite | apply State.doEff_forms
    | apply State.gateStep_forms

theorem execWaitg_forms (c : Fin 4096) (s : State) (hyp_s : s.canonical = true) :
    OkForms (execWaitg c s) := by
  unfold execWaitg
  with_reducible repeat' first
    | assumption | apply forms_next | intro _ | apply State.issue_forms | apply State.waitOp_forms

theorem State.defaultTake_forms (s : State) (hyp_s : s.canonical = true) :
    (State.defaultTake s).canonical = true := by
  unfold State.defaultTake
  with_reducible repeat' first
    | assumption | (extract_lets +onlyGivenNames x; clear_value x; revert x; intro _) | apply forms_ite | apply State.setCons_forms
    | apply State.onTier_forms | (split <;> try (rename_i h; have hp := forms_ofEq h ?_; clear h))

theorem execWaitgReevaluate_forms (c : Fin 4096) (s : State) (hyp_s : s.canonical = true) :
    OkForms (execWaitgReevaluate c s) := by
  unfold execWaitgReevaluate
  with_reducible repeat' first
    | assumption | apply forms_next | intro _ | apply forms_ite | apply forms_each | apply State.defaultTake_forms | apply State.gateStep_forms
    | (split <;> try (rename_i h; have hp := forms_ofEq h ?_; clear h))

theorem execWaitgTimeout_forms (c : Fin 4096) (s : State) (hyp_s : s.canonical = true) :
    OkForms (execWaitgTimeout c s) := by
  unfold execWaitgTimeout
  with_reducible repeat' first
    | assumption | apply forms_next | apply forms_ite | apply State.doEff_forms | (split <;> try (rename_i h; have hp := forms_ofEq h ?_; clear h))

theorem State.setgOp_forms (s : State) (c : Nat) (x : Ctx) (w : Word) (hyp_s : s.canonical = true) :
    (State.setgOp s c x w).canonical = true := by
  unfold State.setgOp
  with_reducible repeat' first
    | assumption | (extract_lets +onlyGivenNames x; clear_value x; revert x; intro _) | apply forms_ite | apply State.doEff_forms
    | apply State.setCons_forms | apply State.setCtx_forms | apply State.dropWrite_forms | apply State.asyncWrite_forms
    | (split <;> try (rename_i h; have hp := forms_ofEq h ?_; clear h))

theorem execSetg_forms (c : Fin 4096) (s : State) (hyp_s : s.canonical = true) :
    OkForms (execSetg c s) := by
  unfold execSetg
  with_reducible repeat' first
    | assumption | apply forms_next | intro _ | apply State.issue_forms | apply State.setgOp_forms

theorem State.signalOp_forms (s : State) (c : Nat) (x : Ctx) (w : Word) (hyp_s : s.canonical = true) :
    (State.signalOp s c x w).canonical = true := by
  unfold State.signalOp
  with_reducible repeat' first
    | assumption | apply forms_ite | apply State.doEff_forms | apply State.setTiller_forms | apply State.setCtx_forms

theorem execSignal_forms (c : Fin 4096) (s : State) (hyp_s : s.canonical = true) :
    OkForms (execSignal c s) := by
  unfold execSignal
  with_reducible repeat' first
    | assumption | apply forms_next | intro _ | apply State.issue_forms | apply State.signalOp_forms

theorem State.fenceOp_forms (s : State) (c : Nat) (x : Ctx) (w : Word) (hyp_s : s.canonical = true) :
    (State.fenceOp s c x w).canonical = true := by
  unfold State.fenceOp
  with_reducible repeat' first
    | assumption | apply forms_ite | apply State.doEff_forms | apply State.setCtx_forms

theorem execFence_forms (c : Fin 4096) (s : State) (hyp_s : s.canonical = true) :
    OkForms (execFence c s) := by
  unfold execFence
  with_reducible repeat' first
    | assumption | apply forms_next | intro _ | apply State.issue_forms | apply State.fenceOp_forms

theorem execTrap_forms (c : Fin 4096) (s : State) (hyp_s : s.canonical = true) :
    OkForms (execTrap c s) := by
  unfold execTrap
  with_reducible repeat' first
    | assumption | apply forms_next | apply State.plainOp_forms

theorem State.haltOp_forms (s : State) (c : Nat) (x : Ctx) (w : Word) (hyp_s : s.canonical = true) :
    (State.haltOp s c x w).canonical = true := by
  unfold State.haltOp
  with_reducible repeat' first
    | assumption | apply forms_ite | apply State.doEff_forms | apply State.ctxEnd_forms

theorem execHalt_forms (c : Fin 4096) (s : State) (hyp_s : s.canonical = true) :
    OkForms (execHalt c s) := by
  unfold execHalt
  with_reducible repeat' first
    | assumption | apply forms_next | intro _ | apply State.issue_forms | apply State.haltOp_forms

theorem execIllegalMajorOpcode_forms (c : Fin 4096) (s : State) (hyp_s : s.canonical = true) :
    OkForms (execIllegalMajorOpcode c s) := by
  unfold execIllegalMajorOpcode
  with_reducible repeat' first
    | assumption | apply forms_next | intro _ | apply State.issue_forms | apply State.doEff_forms

/-! ## Tiller -/

theorem State.startCtx_forms (s : State) (c h tiller label : Nat) (ld : Option Nat) (portal desc member : Nat) (args : List Nat) (hyp_s : s.canonical = true) :
    (State.startCtx s c h tiller label ld portal desc member args).canonical = true := by
  unfold State.startCtx
  with_reducible repeat' first
    | assumption | (extract_lets +onlyGivenNames x; clear_value x; revert x; intro _) | apply State.setCtx_forms | apply State.bump_forms
    | (split <;> try (rename_i h; have hp := forms_ofEq h ?_; clear h))

theorem State.startMembers_forms (s : State) (portal desc ld h label count first : Nat) (tillers args : List Nat) (hyp_s : s.canonical = true) :
    (State.startMembers s portal desc ld h label count first tillers args).canonical = true := by
  unfold State.startMembers
  with_reducible repeat' first
    | assumption | intro _ | apply forms_each | apply State.drew_forms | apply State.startCtx_forms
    | (split <;> try (rename_i h; have hp := forms_ofEq h ?_; clear h))

theorem execContextQuantumExpire_forms (c : Fin 4096) (s : State) (hyp_s : s.canonical = true) :
    OkForms (execContextQuantumExpire c s) := by
  unfold execContextQuantumExpire
  with_reducible repeat' first
    | assumption | apply forms_next | apply forms_ite | apply State.setCtx_forms | (split <;> try (rename_i h; have hp := forms_ofEq h ?_; clear h))

theorem State.swapOut_forms (s : State) (c : Nat) (hyp_s : s.canonical = true) :
    (State.swapOut s c).canonical = true := by
  unfold State.swapOut
  with_reducible repeat' first
    | assumption | apply State.setCtx_forms | apply State.bump_forms | (split <;> try (rename_i h; have hp := forms_ofEq h ?_; clear h))

theorem State.makeRoom_forms (s : State) (n w k : Nat) (y0 : Nat) (hyp_s : s.canonical = true) :
    (State.makeRoom s n w k y0).canonical = true := by
  induction y0 generalizing s n w k with
  | zero =>
    unfold State.makeRoom
    with_reducible repeat' first
      | assumption
  | succ n ih =>
    unfold State.makeRoom
    with_reducible repeat' first
      | assumption | apply ih | (extract_lets +onlyGivenNames x; clear_value x; revert x; intro _) | apply forms_ite | apply State.swapOut_forms
      | (split <;> try (rename_i h; have hp := forms_ofEq h ?_; clear h))

theorem execContextSwapDone_forms (c : Fin 4096) (s : State) (hyp_s : s.canonical = true) :
    OkForms (execContextSwapDone c s) := by
  unfold execContextSwapDone
  with_reducible repeat' first
    | assumption | apply forms_next
    | (extract_lets +onlyGivenNames x; have hx : x.canonical = true := ?_; (on_goal 2 => subst x); clear_value x; revert x; intro _ _)
    | (extract_lets +onlyGivenNames x; clear_value x; revert x; intro _) | apply forms_ite | apply State.makeRoom_forms | apply State.setCtx_forms
    | apply State.bump_forms | (split <;> try (rename_i h; have hp := forms_ofEq h ?_; clear h))

theorem State.rqFetch_forms (s : State) (ld r : Nat) (y0 : Nat) (hyp_s : s.canonical = true) :
    (State.rqFetch s ld r y0).canonical = true := by
  induction y0 generalizing s ld r with
  | zero =>
    unfold State.rqFetch
    with_reducible repeat' first
      | assumption
  | succ n ih =>
    unfold State.rqFetch
    with_reducible repeat' first
      | assumption | apply ih
      | (extract_lets +onlyGivenNames x; have hx : x.canonical = true := ?_; (on_goal 2 => subst x); clear_value x; revert x; intro _ _)
      | (extract_lets +onlyGivenNames x; clear_value x; revert x; intro _) | apply forms_ite | apply State.noLease_forms
      | apply State.ringStop_forms | apply State.setRing_forms | apply State.accept_forms
      | (split <;> try (rename_i h; have hp := forms_ofEq h ?_; clear h))

theorem execTlrRqTailWrite_forms (ld : Fin 64) (r : Fin 4) (v : Word) (s : State) (hyp_s : s.canonical = true) :
    OkForms (execTlrRqTailWrite ld r v s) := by
  unfold execTlrRqTailWrite
  with_reducible repeat' first
    | assumption | apply forms_next | (extract_lets +onlyGivenNames x; clear_value x; revert x; intro _) | apply forms_ite
    | apply State.setRing_forms | apply State.rqFetch_forms

theorem execTlrRqCfgEnable_forms (ld : Fin 64) (r : Fin 4) (v : Word) (s : State) (hyp_s : s.canonical = true) :
    OkForms (execTlrRqCfgEnable ld r v s) := by
  unfold execTlrRqCfgEnable
  with_reducible repeat' first
    | assumption | apply forms_next
    | (extract_lets +onlyGivenNames x; have hx : x.canonical = true := ?_; (on_goal 2 => subst x); clear_value x; revert x; intro _ _)
    | (extract_lets +onlyGivenNames x; clear_value x; revert x; intro _) | apply forms_ite | apply State.setRegB_forms | apply State.setRing_forms

theorem execTlrCqCfgEnable_forms (ld : Fin 64) (r : Fin 4) (v : Word) (s : State) (hyp_s : s.canonical = true) :
    OkForms (execTlrCqCfgEnable ld r v s) := by
  unfold execTlrCqCfgEnable
  with_reducible repeat' first
    | assumption | apply forms_next
    | (extract_lets +onlyGivenNames x; have hx : x.canonical = true := ?_; (on_goal 2 => subst x); clear_value x; revert x; intro _ _)
    | (extract_lets +onlyGivenNames x; clear_value x; revert x; intro _) | apply forms_ite | apply State.setRegB_forms | apply State.setRing_forms
    | apply State.cqFlush_forms

theorem execTlrCqHeadWrite_forms (ld : Fin 64) (r : Fin 4) (v : Word) (s : State) (hyp_s : s.canonical = true) :
    OkForms (execTlrCqHeadWrite ld r v s) := by
  unfold execTlrCqHeadWrite
  with_reducible repeat' first
    | assumption | apply forms_next | apply forms_ite | apply State.setRing_forms | apply State.cqFlush_forms

theorem execCqCoalesceTimer_forms (ld : Fin 64) (r : Fin 4) (s : State) (hyp_s : s.canonical = true) :
    OkForms (execCqCoalesceTimer ld r s) := by
  unfold execCqCoalesceTimer
  with_reducible repeat' first
    | assumption | apply forms_next | (extract_lets +onlyGivenNames x; clear_value x; revert x; intro _) | apply forms_ite
    | apply State.cqFire_forms

theorem execTlrSigPopWrite_forms (n : Fin 96) (v : Word) (s : State) (hyp_s : s.canonical = true) :
    OkForms (execTlrSigPopWrite n v s) := by
  unfold execTlrSigPopWrite
  with_reducible repeat' first
    | assumption | apply forms_next | apply forms_ite | apply State.setTiller_forms

theorem State.headDone_forms (s : State) (ld r : Nat) (hyp_s : s.canonical = true) :
    (State.headDone s ld r).canonical = true := by
  unfold State.headDone
  with_reducible repeat' first
    | assumption | apply State.setRing_forms

theorem State.postHead_forms (s : State) (ld r : Nat) (d : Bytes) (status detail n : Nat) (hyp_s : s.canonical = true) :
    (State.postHead s ld r d status detail n).canonical = true := by
  unfold State.postHead
  with_reducible repeat' first
    | assumption | apply forms_ite | apply State.cqPost_forms | apply State.headDone_forms

theorem State.startBegin_forms (s : State) (ld r : Nat) (d : Bytes) (hyp_s : s.canonical = true) :
    (State.startBegin s ld r d).canonical = true := by
  unfold State.startBegin
  with_reducible repeat' first
    | (simp -zeta only [canonical_mk]; apply canon; assumption) | assumption | intro _
    | (extract_lets +onlyGivenNames x; have hx : x.canonical = true := ?_; (on_goal 2 => subst x); clear_value x; revert x; intro _ _)
    | (extract_lets +onlyGivenNames x; clear_value x; revert x; intro _) | apply forms_ite | apply forms_each | apply State.onTlr_forms
    | apply State.headDone_forms | apply State.startMembers_forms | apply State.copyTo_forms

theorem State.startTry_forms (s : State) (ld r : Nat) (d : Bytes) (hyp_s : s.canonical = true) :
    (State.startTry s ld r d).canonical = true := by
  unfold State.startTry
  with_reducible repeat' first
    | assumption | (extract_lets +onlyGivenNames x; clear_value x; revert x; intro _) | apply forms_ite | apply State.startBegin_forms
    | apply State.setRing_forms | apply State.bump_forms | apply State.post_forms

theorem State.startHead_forms (s : State) (ld r : Nat) (d : Bytes) (hyp_s : s.canonical = true) :
    (State.startHead s ld r d).canonical = true := by
  unfold State.startHead
  with_reducible repeat' first
    | assumption | apply forms_ite | apply State.postHead_forms | apply State.startTry_forms

theorem execDescStart_forms (ld : Fin 64) (r : Fin 4) (s : State) (hyp_s : s.canonical = true) :
    OkForms (execDescStart ld r s) := by
  unfold execDescStart
  with_reducible repeat' first
    | assumption | apply forms_next | apply forms_ite | apply State.postHead_forms | apply State.startHead_forms
    | (split <;> try (rename_i h; have hp := forms_ofEq h ?_; clear h))

theorem State.startPump_forms (s : State) (y0 : Nat) (hyp_s : s.canonical = true) :
    (State.startPump s y0).canonical = true := by
  induction y0 generalizing s with
  | zero =>
    unfold State.startPump
    with_reducible repeat' first
      | assumption
  | succ n ih =>
    unfold State.startPump
    with_reducible repeat' first
      | assumption | apply ih | apply forms_ite | apply State.onTlr_forms | apply State.startMembers_forms
      | (split <;> try (rename_i h; have hp := forms_ofEq h ?_; clear h))

theorem execDescStartResume_forms (ld : Fin 64) (r : Fin 4) (s : State) (hyp_s : s.canonical = true) :
    OkForms (execDescStartResume ld r s) := by
  unfold execDescStartResume
  with_reducible repeat' first
    | assumption | apply forms_next
    | (extract_lets +onlyGivenNames x; have hx : x.canonical = true := ?_; (on_goal 2 => subst x); clear_value x; revert x; intro _ _)
    | apply forms_ite | apply State.startPump_forms | apply State.startHead_forms
    | (split <;> try (rename_i h; have hp := forms_ofEq h ?_; clear h))

theorem State.cancelEnd_forms (s : State) (ld r : Nat) (hyp_s : s.canonical = true) :
    (State.cancelEnd s ld r).canonical = true := by
  unfold State.cancelEnd
  with_reducible repeat' first
    | assumption | apply forms_ite | apply State.postHead_forms | (split <;> try (rename_i h; have hp := forms_ofEq h ?_; clear h))

theorem execDescCancel_forms (ld : Fin 64) (r : Fin 4) (s : State) (hyp_s : s.canonical = true) :
    OkForms (execDescCancel ld r s) := by
  unfold execDescCancel
  with_reducible repeat' first
    | assumption | apply forms_next | intro _ | (extract_lets +onlyGivenNames x; clear_value x; revert x; intro _) | apply forms_ite
    | apply forms_each | apply State.cancelEnd_forms | apply State.setRing_forms | apply State.cancelAll_forms
    | (split <;> try (rename_i h; have hp := forms_ofEq h ?_; clear h))

theorem execDescBarrier_forms (ld : Fin 64) (r : Fin 4) (s : State) (hyp_s : s.canonical = true) :
    OkForms (execDescBarrier ld r s) := by
  unfold execDescBarrier
  with_reducible repeat' first
    | assumption | apply forms_next | apply forms_ite | apply State.postHead_forms
    | (split <;> try (rename_i h; have hp := forms_ofEq h ?_; clear h))

theorem State.tlrResetLd_forms (s : State) (ld : Nat) (hyp_s : s.canonical = true) :
    (State.tlrResetLd s ld).canonical = true := by
  unfold State.tlrResetLd
  with_reducible repeat' first
    | simp -zeta only [canonical_mk, near_mk, far_mk] | apply forms_and | (apply State.near_wf; assumption) | (apply State.far_wf; assumption)
    | (apply State.regs_rising; assumption) | apply rising_filter | assumption | intro _
    | (extract_lets +onlyGivenNames x; have hx : x.canonical = true := ?_; (on_goal 2 => subst x); clear_value x; revert x; intro _ _)
    | (extract_lets +onlyGivenNames x; clear_value x; revert x; intro _) | apply forms_each | apply State.copyAll_forms | apply State.ctxGone_forms
    | apply State.onTlr_forms

theorem execTillerShareReduce_forms (n : Fin 96) (ratio : Fin 4096) (s : State) (hyp_s : s.canonical = true) :
    OkForms (execTillerShareReduce n ratio s) := by
  unfold execTillerShareReduce
  with_reducible repeat' first
    | assumption | apply forms_next | apply forms_ite | apply State.setTiller_forms | apply State.intr_forms | apply State.post_forms

theorem execTillerRestore_forms (n : Fin 96) (ratio : Fin 65536) (s : State) (hyp_s : s.canonical = true) :
    OkForms (execTillerRestore n ratio s) := by
  unfold execTillerRestore
  with_reducible repeat' first
    | assumption | apply forms_next | apply forms_ite | apply State.setTiller_forms

theorem State.moveCtx_forms (s : State) (c : Nat) (x : Ctx) (hyp_s : s.canonical = true) :
    (State.moveCtx s c x).canonical = true := by
  unfold State.moveCtx
  with_reducible repeat' first
    | assumption | (extract_lets +onlyGivenNames x; have hx : x.canonical = true := ?_; (on_goal 2 => subst x); clear_value x; revert x; intro _ _)
    | apply forms_ite | apply State.swapOut_forms | apply State.setCtx_forms | (split <;> try (rename_i h; have hp := forms_ofEq h ?_; clear h))

theorem State.moveCtxs_forms (s : State) (hyp_s : s.canonical = true) :
    (State.moveCtxs s).canonical = true := by
  unfold State.moveCtxs
  with_reducible repeat' first
    | assumption | intro _ | apply forms_each | apply State.moveCtx_forms

theorem State.tillerOut_forms (s : State) (n : Nat) (hyp_s : s.canonical = true) :
    (State.tillerOut s n).canonical = true := by
  unfold State.tillerOut
  with_reducible repeat' first
    | assumption | apply State.intr_forms | apply State.post_forms

theorem execTlrDisWrite_forms (hi : Bool) (v : Word) (s : State) (hyp_s : s.canonical = true) :
    OkForms (execTlrDisWrite hi v s) := by
  unfold execTlrDisWrite
  with_reducible repeat' first
    | assumption | apply forms_next | intro _ | (extract_lets +onlyGivenNames x; clear_value x; revert x; intro _) | apply forms_each
    | apply State.setReg_forms | apply State.moveCtxs_forms | apply State.tillerOut_forms

theorem execTillerRuntimeFail_forms (n : Fin 96) (s : State) (hyp_s : s.canonical = true) :
    OkForms (execTillerRuntimeFail n s) := by
  unfold execTillerRuntimeFail
  with_reducible repeat' first
    | assumption | apply forms_next | intro _
    | (extract_lets +onlyGivenNames x; have hx : x.canonical = true := ?_; (on_goal 2 => subst x); clear_value x; revert x; intro _ _)
    | apply forms_ite | apply forms_each | apply State.setTiller_forms | apply State.ctxEnd_forms | apply State.moveCtxs_forms
    | apply State.tillerOut_forms | (split <;> try (rename_i h; have hp := forms_ofEq h ?_; clear h))

/-! ## SheafCmd -/

theorem State.enterSheaf_forms (s : State) (x : Mbx) (kind : Nat) (b : Bytes) (ls : List (List Nat)) (hyp_s : s.canonical = true) :
    (State.enterSheaf s x kind b ls).canonical = true := by
  unfold State.enterSheaf
  with_reducible repeat' first
    | assumption | intro _
    | (extract_lets +onlyGivenNames x; have hx : x.canonical = true := ?_; (on_goal 2 => subst x); clear_value x; revert x; intro _ _)
    | (extract_lets +onlyGivenNames x; clear_value x; revert x; intro _) | apply forms_ite | apply forms_each | apply State.status_forms
    | apply State.drew_forms | apply State.onTlr_forms | apply State.post_forms | apply State.copyAll_forms | apply State.tellSheaves_forms
    | apply State.okHeld_forms

theorem State.sheafCmd_forms (s : State) (x : Mbx) (asked : List Nat) (hyp_s : s.canonical = true) :
    (State.sheafCmd s x asked).canonical = true := by
  unfold State.sheafCmd
  with_reducible repeat' first
    | assumption | intro _ | (extract_lets +onlyGivenNames x; clear_value x; revert x; intro _) | apply forms_ite | apply State.status_forms
    | apply State.enterSheaf_forms | apply State.withExts_forms | (split <;> try (rename_i h; have hp := forms_ofEq h ?_; clear h))

theorem execSheafLoad_forms (x : Mbx) (s : State) (hyp_s : s.canonical = true) :
    OkForms (execSheafLoad x s) := by
  unfold execSheafLoad
  with_reducible repeat' first
    | assumption | apply forms_next | intro _ | apply State.command_forms | apply State.sheafCmd_forms

theorem execSheafUnload_forms (x : Mbx) (s : State) (hyp_s : s.canonical = true) :
    OkForms (execSheafUnload x s) := by
  unfold execSheafUnload
  with_reducible repeat' first
    | assumption | apply forms_next | intro _
    | (extract_lets +onlyGivenNames x; have hx : x.canonical = true := ?_; (on_goal 2 => subst x); clear_value x; revert x; intro _ _)
    | (extract_lets +onlyGivenNames x; clear_value x; revert x; intro _) | apply forms_ite | apply State.command_forms | apply State.status_forms
    | apply State.drew_forms | apply State.onTlr_forms | apply State.copyAll_forms | apply State.sheafFree_forms
    | (split <;> try (rename_i h; have hp := forms_ofEq h ?_; clear h))

theorem execSheafQuery_forms (x : Mbx) (s : State) (hyp_s : s.canonical = true) :
    OkForms (execSheafQuery x s) := by
  unfold execSheafQuery
  with_reducible repeat' first
    | assumption | apply forms_next | intro _ | (extract_lets +onlyGivenNames x; clear_value x; revert x; intro _) | apply forms_ite
    | apply State.command_forms | apply State.status_forms | apply State.drew_forms | apply State.okOut_forms
    | (split <;> try (rename_i h; have hp := forms_ofEq h ?_; clear h))

theorem State.cancelCtx_forms (s : State) (c : Nat) (hyp_s : s.canonical = true) :
    (State.cancelCtx s c).1.canonical = true := by
  unfold State.cancelCtx
  with_reducible repeat' first
    | simp -zeta only [canonical_mk, near_mk, far_mk] | assumption | apply forms_iteFst | apply State.ctxEnd_forms
    | (split <;> try (rename_i h; have hp := forms_ofEq h ?_; clear h))

theorem execCtxCancel_forms (x : Mbx) (s : State) (hyp_s : s.canonical = true) :
    OkForms (execCtxCancel x s) := by
  unfold execCtxCancel
  with_reducible repeat' first
    | assumption | apply forms_next | intro _ | (extract_lets +onlyGivenNames x; clear_value x; revert x; intro _) | apply forms_ite
    | apply State.command_forms | apply State.cancelCtx_forms | apply State.status_forms | apply State.drew_forms | apply State.copyTo_forms

theorem State.activate_forms (s : State) (h : Nat) (hyp_s : s.canonical = true) :
    (State.activate s h).canonical = true := by
  unfold State.activate
  with_reducible repeat' first
    | assumption | (extract_lets +onlyGivenNames x; have hx : x.canonical = true := ?_; (on_goal 2 => subst x); clear_value x; revert x; intro _ _)
    | (extract_lets +onlyGivenNames x; clear_value x; revert x; intro _) | apply forms_ite | apply State.ctxGone_forms | apply State.onTlr_forms
    | apply State.onTier_forms | apply State.defaultPolicy_forms | apply State.bump_forms | apply State.startCtx_forms | apply State.post_forms
    | (split <;> try (rename_i h; have hp := forms_ofEq h ?_; clear h))

theorem execPolicyActivate_forms (x : Mbx) (s : State) (hyp_s : s.canonical = true) :
    OkForms (execPolicyActivate x s) := by
  unfold execPolicyActivate
  with_reducible repeat' first
    | assumption | apply forms_next | intro _ | (extract_lets +onlyGivenNames x; clear_value x; revert x; intro _) | apply forms_ite
    | apply State.command_forms | apply State.activate_forms | apply State.status_forms

end Sys2Proof.Machine
end

