-- ==== Sys2Proof/Laws/FormsFabric.lean ====
section
/-! SUPPORT. The canonical forms are kept by messages, links, Doze, copies and membership. -/

set_option linter.all false

namespace Sys2Proof.Machine

open Sys2Proof

/-! ## Message -/

theorem State.arrives_forms (s : State) (op : MOp) (m : Msg) (f : State → State) (hyp_s : s.canonical = true) (hyp_f : ∀ z : State, z.canonical = true → (f z).canonical = true) :
    (State.arrives s op m f).canonical = true := by
  unfold State.arrives
  with_reducible repeat' first
    | assumption | apply forms_ite | apply State.bump_forms | apply State.emit_forms | apply_assumption

theorem State.peerRoute_forms (s : State) (r : Req) (from_ : Nat) (hyp_s : s.canonical = true) :
    (State.peerRoute s r from_).canonical = true := by
  unfold State.peerRoute
  with_reducible repeat' first
    | assumption | (extract_lets +onlyGivenNames x; clear_value x; revert x; intro _) | apply forms_ite | apply State.atHome_forms
    | apply State.forward_forms | apply State.route_forms

theorem State.msgReq_forms (s : State) (m : Msg) (op : ROp) (mask : Nat) (d : Bytes) (hyp_s : s.canonical = true) :
    (State.msgReq s m op mask d).canonical = true := by
  unfold State.msgReq
  with_reducible repeat' first
    | assumption | (extract_lets +onlyGivenNames x; have hx : x.canonical = true := ?_; (on_goal 2 => subst x); clear_value x; revert x; intro _ _)
    | apply forms_ite | apply State.respond_forms | apply State.newReq_forms | apply State.peerRoute_forms | apply State.poisonWritten_forms

theorem State.onRd_forms (s : State) (m : Msg) (hyp_s : s.canonical = true) :
    (State.onRd s m).canonical = true := by
  unfold State.onRd
  with_reducible repeat' first
    | assumption | apply State.msgReq_forms

theorem State.onWr_forms (s : State) (m : Msg) (hyp_s : s.canonical = true) :
    (State.onWr s m).canonical = true := by
  unfold State.onWr
  with_reducible repeat' first
    | assumption | apply State.msgReq_forms

theorem State.onWrp_forms (s : State) (m : Msg) (hyp_s : s.canonical = true) :
    (State.onWrp s m).canonical = true := by
  unfold State.onWrp
  with_reducible repeat' first
    | assumption | apply State.msgReq_forms

theorem State.onAtom_forms (s : State) (m : Msg) (hyp_s : s.canonical = true) :
    (State.onAtom s m).canonical = true := by
  unfold State.onAtom
  with_reducible repeat' first
    | assumption | apply State.msgReq_forms

theorem State.onPlace_forms (s : State) (m : Msg) (hyp_s : s.canonical = true) :
    (State.onPlace s m).canonical = true := by
  unfold State.onPlace
  with_reducible repeat' first
    | assumption | (extract_lets +onlyGivenNames x; have hx : x.canonical = true := ?_; (on_goal 2 => subst x); clear_value x; revert x; intro _ _)
    | (extract_lets +onlyGivenNames x; clear_value x; revert x; intro _) | apply forms_ite | apply State.awake_forms | apply State.placeEnter_forms
    | apply State.runPlace_forms

theorem State.onSnp_forms (s : State) (k : SnpKind) (m : Msg) (hyp_s : s.canonical = true) :
    (State.onSnp s k m).canonical = true := by
  unfold State.onSnp
  with_reducible repeat' first
    | assumption | (extract_lets +onlyGivenNames x; have hx : x.canonical = true := ?_; (on_goal 2 => subst x); clear_value x; revert x; intro _ _)
    | (extract_lets +onlyGivenNames x; clear_value x; revert x; intro _) | apply forms_ite | apply State.awake_forms | apply State.onDir_forms
    | apply State.emit_forms

theorem State.onData_forms (s : State) (m : Msg) (hyp_s : s.canonical = true) :
    (State.onData s m).canonical = true := by
  unfold State.onData
  with_reducible repeat' first
    | assumption | apply State.answer_forms | apply State.paceNext_forms | (split <;> try (rename_i h; have hp := forms_ofEq h ?_; clear h))

theorem State.onCmp_forms (s : State) (m : Msg) (hyp_s : s.canonical = true) :
    (State.onCmp s m).canonical = true := by
  unfold State.onCmp
  with_reducible repeat' first
    | assumption | apply State.answer_forms | apply State.paceNext_forms | apply State.onTier_forms | apply State.flushRuns_forms
    | (split <;> try (rename_i h; have hp := forms_ofEq h ?_; clear h))

theorem State.onBirsp_forms (s : State) (m : Msg) (hyp_s : s.canonical = true) :
    (State.onBirsp s m).canonical = true := by
  unfold State.onBirsp
  with_reducible repeat' first
    | assumption | apply State.awake_forms | apply State.snoopAnswer_forms

theorem State.onWbk_forms (s : State) (m : Msg) (hyp_s : s.canonical = true) :
    (State.onWbk s m).canonical = true := by
  unfold State.onWbk
  with_reducible repeat' first
    | assumption | apply forms_ite | apply State.storeWbk_forms | apply State.bump_forms

theorem State.onMirror_forms (s : State) (m : Msg) (hyp_s : s.canonical = true) :
    (State.onMirror s m).canonical = true := by
  unfold State.onMirror
  with_reducible repeat' first
    | simp -zeta only [canonical_mk, near_mk, far_mk] | assumption
    | (extract_lets +onlyGivenNames x; have hx : x.canonical = true := ?_; (on_goal 2 => subst x); clear_value x; revert x; intro _ _)
    | apply forms_ite | apply State.awake_forms | apply State.onHdg_forms | apply State.mirrorIn_forms

theorem State.onClose_forms (s : State) (m : Msg) (hyp_s : s.canonical = true) :
    (State.onClose s m).canonical = true := by
  unfold State.onClose
  with_reducible repeat' first
    | assumption | apply forms_ite | apply State.closeIn_forms | apply State.onHdg_forms

theorem State.onMack_forms (s : State) (m : Msg) (hyp_s : s.canonical = true) :
    (State.onMack s m).canonical = true := by
  unfold State.onMack
  with_reducible repeat' first
    | assumption | apply State.settle_forms | (split <;> try (rename_i h; have hp := forms_ofEq h ?_; clear h))

theorem State.onJack_forms (s : State) (m : Msg) (hyp_s : s.canonical = true) :
    (State.onJack s m).canonical = true := by
  unfold State.onJack
  with_reducible repeat' first
    | assumption | apply State.onHdg_forms | apply State.flushReplies_forms

theorem State.onGasp_forms (s : State) (m : Msg) (hyp_s : s.canonical = true) :
    (State.onGasp s m).canonical = true := by
  unfold State.onGasp
  with_reducible repeat' first
    | assumption | (extract_lets +onlyGivenNames x; have hx : x.canonical = true := ?_; (on_goal 2 => subst x); clear_value x; revert x; intro _ _)
    | apply State.onStk_forms | apply State.post_forms

theorem State.deliver_forms (s : State) (op : MOp) (m : Msg) (hyp_s : s.canonical = true) :
    (State.deliver s op m).canonical = true := by
  unfold State.deliver
  with_reducible repeat' first
    | assumption | apply State.onRd_forms | apply State.onWr_forms | apply State.onWrp_forms | apply State.onAtom_forms | apply State.onPlace_forms
    | apply State.onSnp_forms | apply State.onData_forms | apply State.onCmp_forms | apply State.onBirsp_forms | apply State.onWbk_forms
    | apply State.onMirror_forms | apply State.onClose_forms | apply State.onJack_forms | apply State.onGasp_forms | apply State.onMack_forms
    | (split <;> try (rename_i h; have hp := forms_ofEq h ?_; clear h))

theorem execMsgRd_forms (m : Msg) (s : State) (hyp_s : s.canonical = true) :
    OkForms (execMsgRd m s) := by
  unfold execMsgRd
  with_reducible repeat' first
    | assumption | apply forms_next | intro _ | apply State.arrives_forms | apply State.onRd_forms

theorem execMsgWr_forms (m : Msg) (s : State) (hyp_s : s.canonical = true) :
    OkForms (execMsgWr m s) := by
  unfold execMsgWr
  with_reducible repeat' first
    | assumption | apply forms_next | intro _ | apply State.arrives_forms | apply State.onWr_forms

theorem execMsgWrp_forms (m : Msg) (s : State) (hyp_s : s.canonical = true) :
    OkForms (execMsgWrp m s) := by
  unfold execMsgWrp
  with_reducible repeat' first
    | assumption | apply forms_next | intro _ | apply State.arrives_forms | apply State.onWrp_forms

theorem execMsgAtom_forms (m : Msg) (s : State) (hyp_s : s.canonical = true) :
    OkForms (execMsgAtom m s) := by
  unfold execMsgAtom
  with_reducible repeat' first
    | assumption | apply forms_next | intro _ | apply State.arrives_forms | apply State.onAtom_forms

theorem execMsgPlace_forms (m : Msg) (s : State) (hyp_s : s.canonical = true) :
    OkForms (execMsgPlace m s) := by
  unfold execMsgPlace
  with_reducible repeat' first
    | assumption | apply forms_next | intro _ | apply State.arrives_forms | apply State.onPlace_forms

theorem execMsgSnpinv_forms (m : Msg) (s : State) (hyp_s : s.canonical = true) :
    OkForms (execMsgSnpinv m s) := by
  unfold execMsgSnpinv
  with_reducible repeat' first
    | assumption | apply forms_next | intro _ | apply State.arrives_forms | apply State.onSnp_forms

theorem execMsgSnpdata_forms (m : Msg) (s : State) (hyp_s : s.canonical = true) :
    OkForms (execMsgSnpdata m s) := by
  unfold execMsgSnpdata
  with_reducible repeat' first
    | assumption | apply forms_next | intro _ | apply State.arrives_forms | apply State.onSnp_forms

theorem execMsgSnpcur_forms (m : Msg) (s : State) (hyp_s : s.canonical = true) :
    OkForms (execMsgSnpcur m s) := by
  unfold execMsgSnpcur
  with_reducible repeat' first
    | assumption | apply forms_next | intro _ | apply State.arrives_forms | apply State.onSnp_forms

theorem execMsgData_forms (m : Msg) (s : State) (hyp_s : s.canonical = true) :
    OkForms (execMsgData m s) := by
  unfold execMsgData
  with_reducible repeat' first
    | assumption | apply forms_next | intro _ | apply State.arrives_forms | apply State.onData_forms

theorem execMsgCmp_forms (m : Msg) (s : State) (hyp_s : s.canonical = true) :
    OkForms (execMsgCmp m s) := by
  unfold execMsgCmp
  with_reducible repeat' first
    | assumption | apply forms_next | intro _ | apply State.arrives_forms | apply State.onCmp_forms

theorem execMsgBirsp_forms (m : Msg) (s : State) (hyp_s : s.canonical = true) :
    OkForms (execMsgBirsp m s) := by
  unfold execMsgBirsp
  with_reducible repeat' first
    | assumption | apply forms_next | intro _ | apply State.arrives_forms | apply State.onBirsp_forms

theorem execMsgWbk_forms (m : Msg) (s : State) (hyp_s : s.canonical = true) :
    OkForms (execMsgWbk m s) := by
  unfold execMsgWbk
  with_reducible repeat' first
    | assumption | apply forms_next | intro _ | apply State.arrives_forms | apply State.onWbk_forms

theorem execMsgMirror_forms (m : Msg) (s : State) (hyp_s : s.canonical = true) :
    OkForms (execMsgMirror m s) := by
  unfold execMsgMirror
  with_reducible repeat' first
    | assumption | apply forms_next | intro _ | apply State.arrives_forms | apply State.onMirror_forms

theorem execMsgClose_forms (m : Msg) (s : State) (hyp_s : s.canonical = true) :
    OkForms (execMsgClose m s) := by
  unfold execMsgClose
  with_reducible repeat' first
    | assumption | apply forms_next | intro _ | apply State.arrives_forms | apply State.onClose_forms

theorem execMsgJack_forms (m : Msg) (s : State) (hyp_s : s.canonical = true) :
    OkForms (execMsgJack m s) := by
  unfold execMsgJack
  with_reducible repeat' first
    | assumption | apply forms_next | intro _ | apply State.arrives_forms | apply State.onJack_forms

theorem execMsgGasp_forms (m : Msg) (s : State) (hyp_s : s.canonical = true) :
    OkForms (execMsgGasp m s) := by
  unfold execMsgGasp
  with_reducible repeat' first
    | assumption | apply forms_next | intro _ | apply State.arrives_forms | apply State.onGasp_forms

theorem execMsgMack_forms (m : Msg) (s : State) (hyp_s : s.canonical = true) :
    OkForms (execMsgMack m s) := by
  unfold execMsgMack
  with_reducible repeat' first
    | assumption | apply forms_next | intro _ | apply State.arrives_forms | apply State.onMack_forms

theorem execMsgReservedOp_forms (op : Fin 256) (_m : Msg) (s : State) (hyp_s : s.canonical = true) :
    OkForms (execMsgReservedOp op _m s) := by
  unfold execMsgReservedOp
  with_reducible repeat' first
    | assumption | apply forms_next | apply forms_ite | apply State.bump_forms

theorem execMirrorMackTimeout_forms (r : Nat) (s : State) (hyp_s : s.canonical = true) :
    OkForms (execMirrorMackTimeout r s) := by
  unfold execMirrorMackTimeout
  with_reducible repeat' first
    | assumption | apply forms_next
    | (extract_lets +onlyGivenNames x; have hx : x.canonical = true := ?_; (on_goal 2 => subst x); clear_value x; revert x; intro _ _)
    | apply forms_ite | apply State.bump_forms | apply State.onHdg_forms | apply State.settle_forms
    | (split <;> try (rename_i h; have hp := forms_ofEq h ?_; clear h))

theorem State.timedOut_forms (s : State) (q : Req) (m : Nat) (hyp_s : s.canonical = true) :
    (State.timedOut s q m).canonical = true := by
  unfold State.timedOut
  with_reducible repeat' first
    | assumption | (extract_lets +onlyGivenNames x; have hx : x.canonical = true := ?_; (on_goal 2 => subst x); clear_value x; revert x; intro _ _)
    | apply forms_ite | apply State.bump_forms | apply State.post_forms | apply State.modReq_forms | apply State.reroute_forms
    | apply State.answer_forms | apply State.paceNext_forms

theorem execFabricReqTimeout_forms (r : Nat) (s : State) (hyp_s : s.canonical = true) :
    OkForms (execFabricReqTimeout r s) := by
  unfold execFabricReqTimeout
  with_reducible repeat' first
    | assumption | apply forms_next | apply forms_ite | apply State.timedOut_forms | apply State.reroute_forms
    | (split <;> try (rename_i h; have hp := forms_ofEq h ?_; clear h))

/-! ## Link -/

theorem State.setHport_forms (s : State) (p : Nat) (x : HPort) (hyp_s : s.canonical = true) :
    (State.setHport s p x).canonical = true := by
  unfold State.setHport
  with_reducible repeat' first
    | assumption | apply State.onHdg_forms

theorem State.portCount_forms (s : State) (reg lo n : Nat) (hyp_s : s.canonical = true) :
    (State.portCount s reg lo n).canonical = true := by
  unfold State.portCount
  with_reducible repeat' first
    | assumption | apply State.setReg_forms

theorem State.portDown_forms (s : State) (p : Nat) (hyp_s : s.canonical = true) :
    (State.portDown s p).canonical = true := by
  unfold State.portDown
  with_reducible repeat' first
    | assumption | (extract_lets +onlyGivenNames x; have hx : x.canonical = true := ?_; (on_goal 2 => subst x); clear_value x; revert x; intro _ _)
    | (extract_lets +onlyGivenNames x; clear_value x; revert x; intro _) | apply forms_ite | apply State.setHport_forms | apply State.intr_forms
    | apply State.post_forms | apply State.onHdg_forms | apply State.emit_forms

theorem State.trainPort_forms (s : State) (p : Nat) (hyp_s : s.canonical = true) :
    (State.trainPort s p).canonical = true := by
  unfold State.trainPort
  with_reducible repeat' first
    | assumption | (extract_lets +onlyGivenNames x; clear_value x; revert x; intro _) | apply State.setHport_forms

theorem State.enqueue_forms (s : State) (p : Nat) (q : TxMsg) (hyp_s : s.canonical = true) :
    (State.enqueue s p q).canonical = true := by
  unfold State.enqueue
  with_reducible repeat' first
    | assumption | (extract_lets +onlyGivenNames x; clear_value x; revert x; intro _) | apply forms_ite | apply State.setHport_forms

theorem State.injectMsg_forms (s : State) (op : Nat) (m : Msg) (hyp_s : s.canonical = true) :
    (State.injectMsg s op m).canonical = true := by
  unfold State.injectMsg
  with_reducible repeat' first
    | assumption | (extract_lets +onlyGivenNames x; clear_value x; revert x; intro _) | apply forms_ite | apply State.enqueue_forms
    | (split <;> try (rename_i h; have hp := forms_ofEq h ?_; clear h))

theorem State.sysMsg_forms (s : State) (dst : Nat) (addr : Nat) (d : Bytes) (units : Nat) (hyp_s : s.canonical = true) :
    (State.sysMsg s dst addr d units).1.canonical = true := by
  unfold State.sysMsg
  with_reducible repeat' first
    | assumption | apply State.drew_forms

theorem State.injectOut_forms (s : State) (o : Out) (hyp_s : s.canonical = true) :
    (State.injectOut s o).canonical = true := by
  unfold State.injectOut
  with_reducible repeat' first
    | simp -zeta only [canonical_mk, near_mk, far_mk] | assumption | intro _
    | (extract_lets +onlyGivenNames x; have hx : ∀ y0 : State, y0.canonical = true → ∀ y1 : Nat, ∀ y2 : Nat, ∀ y3 : Nat, ∀ y4 : Bytes, ∀ y5 : Nat, (x y0 y1 y2 y3 y4 y5).canonical = true := ?_; (on_goal 2 => subst x); clear_value x; revert x; intro _ _)
    | apply forms_ite | apply forms_each | apply State.sysMsg_forms | apply State.injectMsg_forms
    | (split <;> try (rename_i h; have hp := forms_ofEq h ?_; clear h)) | apply_assumption

theorem State.inject_forms (s : State) (hyp_s : s.canonical = true) :
    (State.inject s).canonical = true := by
  unfold State.inject
  with_reducible repeat' first
    | assumption | intro _
    | (extract_lets +onlyGivenNames x; have hx : x.canonical = true := ?_; (on_goal 2 => subst x); clear_value x; revert x; intro _ _)
    | (extract_lets +onlyGivenNames x; clear_value x; revert x; intro _) | apply forms_ite | apply forms_each | apply State.onHdg_forms
    | apply State.injectOut_forms

theorem State.sendFlit_forms (s : State) (p : Nat) (x : HPort) (type ch seq : Nat) (payload : Bytes) (hyp_s : s.canonical = true) :
    (State.sendFlit s p x type ch seq payload).canonical = true := by
  unfold State.sendFlit
  with_reducible repeat' first
    | simp -zeta only [canonical_mk, near_mk, far_mk] | assumption | (extract_lets +onlyGivenNames x; clear_value x; revert x; intro _)
    | apply State.setHport_forms | apply State.emit_forms

theorem State.sendMarker_forms (s : State) (p : Nat) (x : HPort) (hyp_s : s.canonical = true) :
    (State.sendMarker s p x).canonical = true := by
  unfold State.sendMarker
  with_reducible repeat' first
    | assumption | (extract_lets +onlyGivenNames x; clear_value x; revert x; intro _) | apply State.setHport_forms | apply State.emit_forms

theorem execFlitTransmit_forms (p : Fin 6) (s : State) (hyp_s : s.canonical = true) :
    OkForms (execFlitTransmit p s) := by
  unfold execFlitTransmit
  with_reducible repeat' first
    | simp -zeta only [canonical_mk, near_mk, far_mk] | assumption | apply forms_next
    | (extract_lets +onlyGivenNames x; have hx : x.canonical = true := ?_; (on_goal 2 => subst x); clear_value x; revert x; intro _ _)
    | (extract_lets +onlyGivenNames x; clear_value x; revert x; intro _) | apply forms_ite | apply State.inject_forms | apply State.sendMarker_forms
    | apply State.portCount_forms | apply State.sendFlit_forms | apply State.setHport_forms
    | (split <;> try (rename_i h; have hp := forms_ofEq h ?_; clear h))

theorem State.flitTaken_forms (s : State) (p : Nat) (d : Bytes) (n : Nat) (hyp_s : s.canonical = true) :
    (State.flitTaken s p d n).canonical = true := by
  unfold State.flitTaken
  with_reducible repeat' first
    | assumption | (extract_lets +onlyGivenNames x; clear_value x; revert x; intro _) | apply forms_ite | apply State.portCount_forms
    | apply State.setHport_forms

theorem State.flitLost_forms (s : State) (p : Nat) (hyp_s : s.canonical = true) :
    (State.flitLost s p).canonical = true := by
  unfold State.flitLost
  with_reducible repeat' first
    | assumption | (extract_lets +onlyGivenNames x; clear_value x; revert x; intro _) | apply State.portCount_forms | apply State.setHport_forms

theorem State.recvFlit_forms (s : State) (p : Nat) (b : Bytes) (type : Nat) (f : State → Nat → Bytes → State) (hyp_s : s.canonical = true) (hyp_f : ∀ z : State, z.canonical = true → ∀ z0 z1, (f z z0 z1).canonical = true) :
    (State.recvFlit s p b type f).canonical = true := by
  unfold State.recvFlit
  with_reducible repeat' first
    | assumption | apply forms_ite | apply State.flitLost_forms | apply State.flitTaken_forms
    | (split <;> try (rename_i h; have hp := forms_ofEq h ?_; clear h)) | apply_assumption

theorem State.fromPort_forms (s : State) (p ch : Nat) (b : Bytes) (hyp_s : s.canonical = true) :
    (State.fromPort s p ch b).canonical = true := by
  unfold State.fromPort
  with_reducible repeat' first
    | assumption | (extract_lets +onlyGivenNames x; clear_value x; revert x; intro _) | apply forms_ite | apply State.bump_forms
    | apply State.enqueue_forms | apply State.deliver_forms | (split <;> try (rename_i h; have hp := forms_ofEq h ?_; clear h))

theorem execFlitDataRx_forms (p : Fin 6) (flit : Bytes) (s : State) (hyp_s : s.canonical = true) :
    OkForms (execFlitDataRx p flit s) := by
  unfold execFlitDataRx
  with_reducible repeat' first
    | simp -zeta only [canonical_mk, near_mk, far_mk] | assumption | apply forms_next | intro _
    | (extract_lets +onlyGivenNames x; have hx : x.canonical = true := ?_; (on_goal 2 => subst x); clear_value x; revert x; intro _ _)
    | (extract_lets +onlyGivenNames x; clear_value x; revert x; intro _) | apply forms_ite | apply forms_each | apply State.recvFlit_forms
    | apply State.setHport_forms | apply State.fromPort_forms

theorem execFlitIdleRx_forms (p : Fin 6) (flit : Bytes) (s : State) (hyp_s : s.canonical = true) :
    OkForms (execFlitIdleRx p flit s) := by
  unfold execFlitIdleRx
  with_reducible repeat' first
    | assumption | apply forms_next | intro _ | apply State.recvFlit_forms

theorem execFlitNakRx_forms (p : Fin 6) (flit : Bytes) (s : State) (hyp_s : s.canonical = true) :
    OkForms (execFlitNakRx p flit s) := by
  unfold execFlitNakRx
  with_reducible repeat' first
    | assumption | apply forms_next | intro _ | (extract_lets +onlyGivenNames x; clear_value x; revert x; intro _) | apply forms_ite
    | apply State.recvFlit_forms | apply State.trainPort_forms | apply State.setHport_forms

theorem execFlitMarkerRx_forms (p : Fin 6) (epoch : Nat) (tag : Nat) (s : State) (hyp_s : s.canonical = true) :
    OkForms (execFlitMarkerRx p epoch tag s) := by
  unfold execFlitMarkerRx
  with_reducible repeat' first
    | assumption | apply forms_next | (extract_lets +onlyGivenNames x; clear_value x; revert x; intro _) | apply forms_ite | apply State.intr_forms
    | apply State.post_forms | apply State.portDown_forms | apply State.setHport_forms

theorem execPortNoFlitTimeout_forms (p : Fin 6) (s : State) (hyp_s : s.canonical = true) :
    OkForms (execPortNoFlitTimeout p s) := by
  unfold execPortNoFlitTimeout
  with_reducible repeat' first
    | assumption | apply forms_next | apply forms_ite | apply State.portDown_forms

theorem execPortRetrainTimer_forms (p : Fin 6) (s : State) (hyp_s : s.canonical = true) :
    OkForms (execPortRetrainTimer p s) := by
  unfold execPortRetrainTimer
  with_reducible repeat' first
    | assumption | apply forms_next | apply forms_ite | apply State.trainPort_forms

theorem execKeyEpochAdvance_forms (p : Fin 6) (s : State) (hyp_s : s.canonical = true) :
    OkForms (execKeyEpochAdvance p s) := by
  unfold execKeyEpochAdvance
  with_reducible repeat' first
    | assumption | apply forms_next | (extract_lets +onlyGivenNames x; clear_value x; revert x; intro _) | apply forms_ite
    | apply State.setHport_forms

theorem execHedgerowPortUp_forms (p : Fin 6) (lanes : Nat) (spaceId : Nat) (nmod : Fin 64) (nport : Fin 6) (s : State) (hyp_s : s.canonical = true) :
    OkForms (execHedgerowPortUp p lanes spaceId nmod nport s) := by
  unfold execHedgerowPortUp
  with_reducible repeat' first
    | assumption | apply forms_next
    | (extract_lets +onlyGivenNames x; have hx : x.canonical = true := ?_; (on_goal 2 => subst x); clear_value x; revert x; intro _ _)
    | (extract_lets +onlyGivenNames x; clear_value x; revert x; intro _) | apply forms_ite | apply State.portDown_forms | apply State.setHport_forms
    | apply State.intr_forms | apply State.post_forms | apply State.onHdg_forms | apply State.emit_forms

theorem execLinkWeightUpdate_forms (s : State) (hyp_s : s.canonical = true) :
    OkForms (execLinkWeightUpdate s) := by
  unfold execLinkWeightUpdate
  with_reducible repeat' first
    | assumption | apply forms_next | apply forms_ite | apply State.onHdg_forms

theorem execRouteSplitUpdate_forms (s : State) (hyp_s : s.canonical = true) :
    OkForms (execRouteSplitUpdate s) := by
  unfold execRouteSplitUpdate
  with_reducible repeat' first
    | assumption | apply forms_next | intro _
    | (extract_lets +onlyGivenNames x; have hx : x.canonical = true := ?_; (on_goal 2 => subst x); clear_value x; revert x; intro _ _)
    | (extract_lets +onlyGivenNames x; clear_value x; revert x; intro _) | apply forms_ite | apply forms_each | apply State.onHdg_forms

/-! ## Doze -/

theorem State.dozeMark_forms (s : State) (on : Bool) (hyp_s : s.canonical = true) :
    (State.dozeMark s on).canonical = true := by
  unfold State.dozeMark
  with_reducible repeat' first
    | assumption | (extract_lets +onlyGivenNames x; have hx : x.canonical = true := ?_; (on_goal 2 => subst x); clear_value x; revert x; intro _ _)
    | apply forms_ite | apply State.onHdg_forms | apply State.emit_forms

theorem State.startDoze_forms (s : State) (hyp_s : s.canonical = true) :
    (State.startDoze s).canonical = true := by
  unfold State.startDoze
  with_reducible repeat' first
    | assumption | intro _
    | (extract_lets +onlyGivenNames x; have hx : x.canonical = true := ?_; (on_goal 2 => subst x); clear_value x; revert x; intro _ _)
    | apply forms_each | apply State.onPwr_forms | apply State.dozeMark_forms | apply State.swapOut_forms

theorem State.dozeClose_forms (s : State) (hyp_s : s.canonical = true) :
    (State.dozeClose s).canonical = true := by
  unfold State.dozeClose
  with_reducible repeat' first
    | assumption | intro _ | apply forms_each | apply State.closeSlot_forms

theorem State.dozeDemote_forms (s : State) (hyp_s : s.canonical = true) :
    (State.dozeDemote s).canonical = true := by
  unfold State.dozeDemote
  with_reducible repeat' first
    | assumption | intro _
    | (extract_lets +onlyGivenNames x; have hx : x.canonical = true := ?_; (on_goal 2 => subst x); clear_value x; revert x; intro _ _)
    | apply forms_ite | apply forms_each | apply State.dropVirtual_forms | apply State.issueDemote_forms | apply State.startDemote_forms

theorem State.dozeDiscard_forms (s : State) (hyp_s : s.canonical = true) :
    (State.dozeDiscard s).canonical = true := by
  unfold State.dozeDiscard
  with_reducible repeat' first
    | assumption | intro _ | (extract_lets +onlyGivenNames x; clear_value x; revert x; intro _) | apply forms_each | apply State.dropNear_forms
    | apply State.setPme_forms

theorem State.gatherPage_forms (s : State) (page : Nat) (hyp_s : s.canonical = true) :
    (State.gatherPage s page).canonical = true := by
  unfold State.gatherPage
  with_reducible repeat' first
    | assumption | intro _
    | (extract_lets +onlyGivenNames x; have hx : x.canonical = true := ?_; (on_goal 2 => subst x); clear_value x; revert x; intro _ _)
    | (extract_lets +onlyGivenNames x; clear_value x; revert x; intro _) | apply forms_ite | apply forms_each | apply State.takeNear_forms
    | apply State.writeLine_forms | apply State.freeNear_forms | apply State.setPme_forms
    | (split <;> try (rename_i h; have hp := forms_ofEq h ?_; clear h))

theorem State.gather_forms (s : State) (hyp_s : s.canonical = true) :
    (State.gather s).canonical = true := by
  unfold State.gather
  with_reducible repeat' first
    | assumption | intro _ | apply forms_each | apply State.gatherPage_forms

theorem State.dozeMask_forms (s : State) (hyp_s : s.canonical = true) :
    (State.dozeMask s).canonical = true := by
  unfold State.dozeMask
  with_reducible repeat' first
    | assumption | intro _ | apply forms_each | apply State.setChan_forms | apply State.setReg_forms

theorem State.portsNarrow_forms (s : State) (hyp_s : s.canonical = true) :
    (State.portsNarrow s).canonical = true := by
  unfold State.portsNarrow
  with_reducible repeat' first
    | assumption | intro _
    | (extract_lets +onlyGivenNames x; have hx : x.canonical = true := ?_; (on_goal 2 => subst x); clear_value x; revert x; intro _ _)
    | apply forms_each | apply State.onHdg_forms | apply State.hostWidth_forms

theorem State.dozeIn_forms (s : State) (hyp_s : s.canonical = true) :
    (State.dozeIn s).canonical = true := by
  unfold State.dozeIn
  with_reducible repeat' first
    | assumption | (extract_lets +onlyGivenNames x; have hx : x.canonical = true := ?_; (on_goal 2 => subst x); clear_value x; revert x; intro _ _)
    | apply State.onPwr_forms | apply State.intr_forms | apply State.bump_forms | apply State.post_forms | apply State.endBg_forms

theorem State.dozeAbandon_forms (s : State) (hyp_s : s.canonical = true) :
    (State.dozeAbandon s).canonical = true := by
  unfold State.dozeAbandon
  with_reducible repeat' first
    | assumption | apply State.onPwr_forms | apply State.endBg_forms | apply State.post_forms

theorem State.dozeGo_forms (s : State) (k : Nat) (hyp_s : s.canonical = true) :
    (State.dozeGo s k).canonical = true := by
  unfold State.dozeGo
  with_reducible repeat' first
    | assumption | apply State.onPwr_forms

theorem execDozeEntryStepDone_forms (s : State) (hyp_s : s.canonical = true) :
    OkForms (execDozeEntryStepDone s) := by
  unfold execDozeEntryStepDone
  with_reducible repeat' first
    | assumption | apply forms_next | apply forms_ite | apply State.dozeAbandon_forms | apply State.dozeClose_forms | apply State.dozeGo_forms
    | apply State.dozeDemote_forms | apply State.dozeDiscard_forms | apply State.gather_forms | apply State.dozeMask_forms
    | apply State.portsNarrow_forms | apply State.dozeIn_forms | (split <;> try (rename_i h; have hp := forms_ofEq h ?_; clear h))

theorem execDozeEnter_forms (x : Mbx) (s : State) (hyp_s : s.canonical = true) :
    OkForms (execDozeEnter x s) := by
  unfold execDozeEnter
  with_reducible repeat' first
    | assumption | apply forms_next | intro _
    | (extract_lets +onlyGivenNames x; have hx : x.canonical = true := ?_; (on_goal 2 => subst x); clear_value x; revert x; intro _ _)
    | (extract_lets +onlyGivenNames x; clear_value x; revert x; intro _) | apply forms_ite | apply State.command_forms | apply State.status_forms
    | apply State.copyAll_forms | apply State.bgCommand_forms | apply State.startBg_forms | apply State.startDoze_forms

theorem State.dozeLeave_forms (s : State) (hyp_s : s.canonical = true) :
    (State.dozeLeave s).canonical = true := by
  unfold State.dozeLeave
  with_reducible repeat' first
    | assumption | apply forms_ite | apply State.onPwr_forms | apply State.awake_forms

theorem execDozeExit_forms (x : Mbx) (s : State) (hyp_s : s.canonical = true) :
    OkForms (execDozeExit x s) := by
  unfold execDozeExit
  with_reducible repeat' first
    | assumption | apply forms_next | intro _
    | (extract_lets +onlyGivenNames x; have hx : x.canonical = true := ?_; (on_goal 2 => subst x); clear_value x; revert x; intro _ _)
    | apply forms_ite | apply State.command_forms | apply State.status_forms | apply State.copyAll_forms | apply State.dozeLeave_forms
    | apply State.onPwr_forms

theorem State.serveHeld_forms (s : State) (hyp_s : s.canonical = true) :
    (State.serveHeld s).canonical = true := by
  unfold State.serveHeld
  with_reducible repeat' first
    | assumption | apply State.wake_forms

theorem State.portsWide_forms (s : State) (hyp_s : s.canonical = true) :
    (State.portsWide s).canonical = true := by
  unfold State.portsWide
  with_reducible repeat' first
    | assumption | intro _
    | (extract_lets +onlyGivenNames x; have hx : x.canonical = true := ?_; (on_goal 2 => subst x); clear_value x; revert x; intro _ _)
    | apply forms_each | apply State.onHdg_forms | apply State.hostWidth_forms

theorem execDozeExitDone_forms (s : State) (hyp_s : s.canonical = true) :
    OkForms (execDozeExitDone s) := by
  unfold execDozeExitDone
  with_reducible repeat' first
    | assumption | apply forms_next | intro _
    | (extract_lets +onlyGivenNames x; have hx : x.canonical = true := ?_; (on_goal 2 => subst x); clear_value x; revert x; intro _ _)
    | (extract_lets +onlyGivenNames x; clear_value x; revert x; intro _) | apply forms_ite | apply forms_each | apply State.setChan_forms
    | apply State.setReg_forms | apply State.portsWide_forms | apply State.onPwr_forms | apply State.dozeMark_forms | apply State.intr_forms
    | apply State.post_forms | apply State.emit_forms | apply State.serveHeld_forms | apply State.retryMoves_forms

theorem execIdleEntry_forms (s : State) (hyp_s : s.canonical = true) :
    OkForms (execIdleEntry s) := by
  unfold execIdleEntry
  with_reducible repeat' first
    | assumption | apply forms_next | (extract_lets +onlyGivenNames x; clear_value x; revert x; intro _) | apply forms_ite | apply State.onPwr_forms

/-! ## CopyMsg -/

theorem State.takeRecs_forms (s : State) (rs : List JRec) (hyp_s : s.canonical = true) :
    (State.takeRecs s rs).canonical = true := by
  unfold State.takeRecs
  with_reducible repeat' first
    | assumption | intro _ | apply forms_ite | apply forms_each | apply State.onHdg_forms

theorem State.arrivesSys_forms (s : State) (m : Msg) (o : Out) (f : State → State) (hyp_s : s.canonical = true) (hyp_f : ∀ z : State, z.canonical = true → (f z).canonical = true) :
    (State.arrivesSys s m o f).canonical = true := by
  unfold State.arrivesSys
  with_reducible repeat' first
    | assumption | apply forms_ite | apply State.bump_forms | apply State.emit_forms | apply_assumption

theorem execMsgJrnl_forms (m : Msg) (recs : List JRec) (s : State) (hyp_s : s.canonical = true) :
    OkForms (execMsgJrnl m recs s) := by
  unfold execMsgJrnl
  with_reducible repeat' first
    | assumption | apply forms_next | intro _
    | (extract_lets +onlyGivenNames x; have hx : x.canonical = true := ?_; (on_goal 2 => subst x); clear_value x; revert x; intro _ _)
    | apply forms_ite | apply State.arrivesSys_forms | apply State.awake_forms | apply State.takeRecs_forms | apply State.emit_forms

theorem State.copySlot_forms (s : State) (page seq : Nat) (d : Bytes) (poison : List (Nat × Nat)) (hyp_s : s.canonical = true) :
    (State.copySlot s page seq d poison).canonical = true := by
  unfold State.copySlot
  with_reducible repeat' first
    | (simp -zeta only [canonical_mk]; apply canon; assumption) | assumption | intro _
    | (extract_lets +onlyGivenNames x; have hx : x.canonical = true := ?_; (on_goal 2 => subst x); clear_value x; revert x; intro _ _)
    | (extract_lets +onlyGivenNames x; clear_value x; revert x; intro _) | apply forms_each | apply State.onHusk_forms
    | apply State.poisonLine_forms

theorem State.pageCame_forms (s : State) (page : Nat) (hyp_s : s.canonical = true) :
    (State.pageCame s page).canonical = true := by
  unfold State.pageCame
  with_reducible repeat' first
    | assumption | (extract_lets +onlyGivenNames x; have hx : x.canonical = true := ?_; (on_goal 2 => subst x); clear_value x; revert x; intro _ _)
    | apply forms_ite | apply State.putExtent_forms | apply State.copyTo_forms | (split <;> try (rename_i h; have hp := forms_ofEq h ?_; clear h))

theorem State.copyPage_forms (s : State) (src page : Nat) (st : PState) (seq synd : Nat) (d : Bytes) (poison : List (Nat × Nat)) (hyp_s : s.canonical = true) :
    (State.copyPage s src page st seq synd d poison).canonical = true := by
  unfold State.copyPage
  with_reducible repeat' first
    | assumption | (extract_lets +onlyGivenNames x; clear_value x; revert x; intro _) | apply forms_ite | apply State.takePage_forms
    | apply State.retryMoves_forms | apply State.copySlot_forms | apply State.pageCame_forms

theorem State.copyExtent_forms (s : State) (e : Nat) (x : Extent) (hyp_s : s.canonical = true) :
    (State.copyExtent s e x).canonical = true := by
  unfold State.copyExtent
  with_reducible repeat' first
    | assumption | (extract_lets +onlyGivenNames x; have hx : x.canonical = true := ?_; (on_goal 2 => subst x); clear_value x; revert x; intro _ _)
    | (extract_lets +onlyGivenNames x; clear_value x; revert x; intro _) | apply forms_ite | apply State.needKey_forms | apply State.putExtent_forms

theorem State.tokenAsked_forms (s : State) (src h token acct slots : Nat) (hyp_s : s.canonical = true) :
    (State.tokenAsked s src h token acct slots).canonical = true := by
  unfold State.tokenAsked
  with_reducible repeat' first
    | assumption | intro _
    | (extract_lets +onlyGivenNames x; have hx : x.canonical = true := ?_; (on_goal 2 => subst x); clear_value x; revert x; intro _ _)
    | (extract_lets +onlyGivenNames x; clear_value x; revert x; intro _) | apply forms_ite | apply forms_each | apply forms_elim
    | apply State.copyTo_forms | apply State.unmapSlots_forms | apply State.holderLeaves_forms | apply State.onHdg_forms
    | apply State.recordLease_forms | apply State.onSpc_forms | (split <;> try (rename_i h; have hp := forms_ofEq h ?_; clear h))

theorem State.leaseBack_forms (s : State) (h : Nat) (l : Lease) (hyp_s : s.canonical = true) :
    (State.leaseBack s h l).canonical = true := by
  unfold State.leaseBack
  with_reducible repeat' first
    | assumption | intro _ | apply forms_each | apply State.mapSlot_forms | apply State.setLease_forms
    | (split <;> try (rename_i h; have hp := forms_ofEq h ?_; clear h))

theorem State.attachEnd_forms (s : State) (a : Attach) (o : State → State) (hyp_s : s.canonical = true) (hyp_o : ∀ z : State, z.canonical = true → (o z).canonical = true) :
    (State.attachEnd s a o).canonical = true := by
  unfold State.attachEnd
  with_reducible repeat' first
    | assumption | apply State.onSpc_forms | apply_assumption

theorem State.leaseCame_forms (s : State) (src h : Nat) (l : Lease) (hyp_s : s.canonical = true) :
    (State.leaseCame s src h l).canonical = true := by
  unfold State.leaseCame
  with_reducible repeat' first
    | simp -zeta only [canonical_mk, near_mk, far_mk] | assumption | intro _ | apply forms_ite | apply State.leaseBack_forms
    | apply State.attachEnd_forms | apply State.copyTo_forms | apply State.emit_forms | apply State.bind_forms | apply State.replyAfter_forms
    | (split <;> try (rename_i h; have hp := forms_ofEq h ?_; clear h))

theorem State.attachRefused_forms (s : State) (src h st : Nat) (hyp_s : s.canonical = true) :
    (State.attachRefused s src h st).canonical = true := by
  unfold State.attachRefused
  with_reducible repeat' first
    | assumption | intro _ | (extract_lets +onlyGivenNames x; clear_value x; revert x; intro _) | apply forms_ite | apply forms_each
    | apply State.onSpc_forms | apply State.attachEnd_forms | apply State.emit_forms | apply State.tokenRefused_forms

theorem State.startFrom_forms (s : State) (portal desc ld h : Nat) (ts : List Nat) (first count label : Nat) (args : List Nat) (hyp_s : s.canonical = true) :
    (State.startFrom s portal desc ld h ts first count label args).canonical = true := by
  unfold State.startFrom
  with_reducible repeat' first
    | assumption | (extract_lets +onlyGivenNames x; have hx : x.canonical = true := ?_; (on_goal 2 => subst x); clear_value x; revert x; intro _ _)
    | (extract_lets +onlyGivenNames x; clear_value x; revert x; intro _) | apply forms_ite | apply State.awake_forms
    | apply State.startMembers_forms | apply State.onTlr_forms | apply State.bump_forms | apply State.post_forms

theorem State.progressFrom_forms (s : State) (desc : Nat) (body : Bytes) (hyp_s : s.canonical = true) :
    (State.progressFrom s desc body).canonical = true := by
  unfold State.progressFrom
  with_reducible repeat' first
    | assumption | apply State.cqPost_forms | (split <;> try (rename_i h; have hp := forms_ofEq h ?_; clear h))

theorem State.endedFrom_forms (s : State) (src desc : Nat) (e : MemberEnd) (hyp_s : s.canonical = true) :
    (State.endedFrom s src desc e).canonical = true := by
  unfold State.endedFrom
  repeat' first
    | (simp -zeta only [canonical_mk]; apply canon; assumption)
    | simp -zeta only [canonical_mk, near_mk, far_mk]
    | with_reducible apply forms_and
    | with_reducible apply media_and
    | (with_reducible apply State.near_wf; with_reducible assumption)
    | (with_reducible apply State.far_wf; with_reducible assumption)
    | (with_reducible apply State.regs_rising; with_reducible assumption)
    | (with_reducible apply Near.linesOk)
    | (with_reducible apply Far.flashOk)
    | (with_reducible apply Far.parityOk)
    | with_reducible assumption
    | intro _
    | (extract_lets +onlyGivenNames x; have hx : x.canonical = true := ?_; (on_goal 2 => subst x); clear_value x; revert x; intro _ _)
    | (extract_lets +onlyGivenNames x; have hx : x.1.canonical = true := ?_; (on_goal 2 => subst x); clear_value x; revert x; intro _ _)
    | (extract_lets +onlyGivenNames x; have hx : x.wf = true := ?_; (on_goal 2 => subst x); clear_value x; revert x; intro _ _)
    | (extract_lets +onlyGivenNames x; clear_value x; revert x; intro _)
    | with_reducible apply forms_ite
    | with_reducible apply forms_iteFst
    | with_reducible apply forms_oite
    | with_reducible apply State.memberEnded_forms
    | with_reducible apply State.status_forms
    | with_reducible apply State.abortOthers_forms
    | with_reducible apply State.copyTo_forms
    | with_reducible apply State.cancelEnd_forms
    | (split <;> try (rename_i h; have hp := forms_ofEq h ?_; clear h))
    | (fail_if_no_progress beta_reduce)
    | (fail_if_no_progress dsimp only)
    | with_reducible apply State.near_wf
    | with_reducible apply State.far_wf
    | with_reducible apply State.regs_rising

theorem State.cancelFrom_forms (s : State) (portal desc : Nat) (hyp_s : s.canonical = true) :
    (State.cancelFrom s portal desc).canonical = true := by
  unfold State.cancelFrom
  with_reducible repeat' first
    | assumption | intro _
    | (extract_lets +onlyGivenNames x; have hx : x.canonical = true := ?_; (on_goal 2 => subst x); clear_value x; revert x; intro _ _)
    | (extract_lets +onlyGivenNames x; clear_value x; revert x; intro _) | apply forms_each | apply State.onTlr_forms | apply State.copyTo_forms
    | apply State.cancelDesc_forms

theorem State.restore_forms (s : State) (m : MetaSnap) (hyp_s : s.canonical = true) :
    (State.restore s m).canonical = true := by
  unfold State.restore
  with_reducible repeat' first
    | assumption | intro _
    | (extract_lets +onlyGivenNames x; have hx : x.canonical = true := ?_; (on_goal 2 => subst x); clear_value x; revert x; intro _ _)
    | (extract_lets +onlyGivenNames x; clear_value x; revert x; intro _) | apply forms_ite | apply forms_each | apply State.copyExtent_forms
    | apply State.setAcct_forms | apply State.setLease_forms | apply State.onHdg_forms

theorem State.roleReturn_forms (s : State) (hyp_s : s.canonical = true) :
    (State.roleReturn s).canonical = true := by
  unfold State.roleReturn
  repeat' first
    | (simp -zeta only [canonical_mk]; apply canon; assumption)
    | simp -zeta only [canonical_mk, near_mk, far_mk]
    | with_reducible apply forms_and
    | with_reducible apply media_and
    | (with_reducible apply State.near_wf; with_reducible assumption)
    | (with_reducible apply State.far_wf; with_reducible assumption)
    | (with_reducible apply State.regs_rising; with_reducible assumption)
    | (with_reducible apply Near.linesOk)
    | (with_reducible apply Far.flashOk)
    | (with_reducible apply Far.parityOk)
    | with_reducible apply linesOk_filter
    | with_reducible apply chunksOk_filter
    | with_reducible assumption
    | intro _
    | (extract_lets +onlyGivenNames x; have hx : x.canonical = true := ?_; (on_goal 2 => subst x); clear_value x; revert x; intro _ _)
    | (extract_lets +onlyGivenNames x; have hx : x.1.canonical = true := ?_; (on_goal 2 => subst x); clear_value x; revert x; intro _ _)
    | (extract_lets +onlyGivenNames x; have hx : x.wf = true := ?_; (on_goal 2 => subst x); clear_value x; revert x; intro _ _)
    | (extract_lets +onlyGivenNames x; clear_value x; revert x; intro _)
    | with_reducible apply forms_ite
    | with_reducible apply forms_iteFst
    | with_reducible apply forms_oite
    | with_reducible apply forms_each
    | with_reducible apply State.copyTo_forms
    | with_reducible apply State.onHdg_forms
    | with_reducible apply State.intr_forms
    | with_reducible apply State.post_forms
    | with_reducible apply State.reroute_forms
    | (split <;> try (rename_i h; have hp := forms_ofEq h ?_; clear h))
    | (fail_if_no_progress beta_reduce)
    | (fail_if_no_progress dsimp only)
    | with_reducible apply State.near_wf
    | with_reducible apply State.far_wf
    | with_reducible apply State.regs_rising

theorem State.rolesGo_forms (s : State) (hyp_s : s.canonical = true) :
    (State.rolesGo s).canonical = true := by
  unfold State.rolesGo
  repeat' first
    | (simp -zeta only [canonical_mk]; apply canon; assumption)
    | simp -zeta only [canonical_mk, near_mk, far_mk]
    | with_reducible apply forms_and
    | with_reducible apply media_and
    | (with_reducible apply State.near_wf; with_reducible assumption)
    | (with_reducible apply State.far_wf; with_reducible assumption)
    | (with_reducible apply State.regs_rising; with_reducible assumption)
    | (with_reducible apply Near.linesOk)
    | (with_reducible apply Far.flashOk)
    | (with_reducible apply Far.parityOk)
    | with_reducible apply linesOk_filter
    | with_reducible apply chunksOk_filter
    | with_reducible assumption
    | intro _
    | (extract_lets +onlyGivenNames x; have hx : x.canonical = true := ?_; (on_goal 2 => subst x); clear_value x; revert x; intro _ _)
    | (extract_lets +onlyGivenNames x; have hx : x.1.canonical = true := ?_; (on_goal 2 => subst x); clear_value x; revert x; intro _ _)
    | (extract_lets +onlyGivenNames x; have hx : x.wf = true := ?_; (on_goal 2 => subst x); clear_value x; revert x; intro _ _)
    | (extract_lets +onlyGivenNames x; clear_value x; revert x; intro _)
    | with_reducible apply forms_ite
    | with_reducible apply forms_iteFst
    | with_reducible apply forms_oite
    | with_reducible apply forms_each
    | with_reducible apply State.onHdg_forms
    | with_reducible apply State.copyTo_forms
    | (split <;> try (rename_i h; have hp := forms_ofEq h ?_; clear h))
    | (fail_if_no_progress beta_reduce)
    | (fail_if_no_progress dsimp only)
    | with_reducible apply State.near_wf
    | with_reducible apply State.far_wf
    | with_reducible apply State.regs_rising

theorem State.roleCame_forms (s : State) (src e : Nat) (hyp_s : s.canonical = true) :
    (State.roleCame s src e).canonical = true := by
  unfold State.roleCame
  repeat' first
    | (simp -zeta only [canonical_mk]; apply canon; assumption)
    | simp -zeta only [canonical_mk, near_mk, far_mk]
    | with_reducible apply forms_and
    | with_reducible apply media_and
    | (with_reducible apply State.near_wf; with_reducible assumption)
    | (with_reducible apply State.far_wf; with_reducible assumption)
    | (with_reducible apply State.regs_rising; with_reducible assumption)
    | (with_reducible apply Near.linesOk)
    | (with_reducible apply Far.flashOk)
    | (with_reducible apply Far.parityOk)
    | with_reducible apply linesOk_filter
    | with_reducible apply chunksOk_filter
    | with_reducible assumption
    | intro _
    | (extract_lets +onlyGivenNames x; have hx : x.canonical = true := ?_; (on_goal 2 => subst x); clear_value x; revert x; intro _ _)
    | (extract_lets +onlyGivenNames x; have hx : x.1.canonical = true := ?_; (on_goal 2 => subst x); clear_value x; revert x; intro _ _)
    | (extract_lets +onlyGivenNames x; have hx : x.wf = true := ?_; (on_goal 2 => subst x); clear_value x; revert x; intro _ _)
    | (extract_lets +onlyGivenNames x; clear_value x; revert x; intro _)
    | with_reducible apply forms_ite
    | with_reducible apply forms_iteFst
    | with_reducible apply forms_oite
    | with_reducible apply State.onHdg_forms
    | with_reducible apply State.roleReturn_forms
    | with_reducible apply State.rolesGo_forms
    | with_reducible apply State.copyTo_forms
    | (split <;> try (rename_i h; have hp := forms_ofEq h ?_; clear h))
    | (fail_if_no_progress beta_reduce)
    | (fail_if_no_progress dsimp only)
    | with_reducible apply State.near_wf
    | with_reducible apply State.far_wf
    | with_reducible apply State.regs_rising

theorem State.askEnd_forms (s : State) (p : Nat → Bool) (hyp_s : s.canonical = true) :
    (State.askEnd s p).canonical = true := by
  unfold State.askEnd
  repeat' first
    | (simp -zeta only [canonical_mk]; apply canon; assumption)
    | simp -zeta only [canonical_mk, near_mk, far_mk]
    | with_reducible apply forms_and
    | with_reducible apply media_and
    | (with_reducible apply State.near_wf; with_reducible assumption)
    | (with_reducible apply State.far_wf; with_reducible assumption)
    | (with_reducible apply State.regs_rising; with_reducible assumption)
    | (with_reducible apply Near.linesOk)
    | (with_reducible apply Far.flashOk)
    | (with_reducible apply Far.parityOk)
    | with_reducible apply linesOk_filter
    | with_reducible apply chunksOk_filter
    | with_reducible assumption
    | intro _
    | (extract_lets +onlyGivenNames x; have hx : x.canonical = true := ?_; (on_goal 2 => subst x); clear_value x; revert x; intro _ _)
    | (extract_lets +onlyGivenNames x; have hx : x.1.canonical = true := ?_; (on_goal 2 => subst x); clear_value x; revert x; intro _ _)
    | (extract_lets +onlyGivenNames x; have hx : x.wf = true := ?_; (on_goal 2 => subst x); clear_value x; revert x; intro _ _)
    | (extract_lets +onlyGivenNames x; clear_value x; revert x; intro _)
    | with_reducible apply forms_ite
    | with_reducible apply forms_iteFst
    | with_reducible apply forms_oite
    | with_reducible apply forms_each
    | with_reducible apply State.onSpc_forms
    | with_reducible apply State.grantCmd_forms
    | with_reducible apply State.respreadCmd_forms
    | with_reducible apply State.buildCmd_forms
    | with_reducible apply State.trainCmd_forms
    | with_reducible apply State.bindCmd_forms
    | with_reducible apply State.recodeCmd_forms
    | with_reducible apply State.vlrCmd_forms
    | with_reducible apply State.discardCmd_forms
    | with_reducible apply State.sheafCmd_forms
    | with_reducible apply State.moverCmd_forms
    | (split <;> try (rename_i h; have hp := forms_ofEq h ?_; clear h))
    | (fail_if_no_progress beta_reduce)
    | (fail_if_no_progress dsimp only)
    | with_reducible apply State.near_wf
    | with_reducible apply State.far_wf
    | with_reducible apply State.regs_rising

theorem State.onCopy_forms (s : State) (src : Nat) (b : CopyBody) (hyp_s : s.canonical = true) :
    (State.onCopy s src b).canonical = true := by
  unfold State.onCopy
  repeat' first
    | (simp -zeta only [canonical_mk]; apply canon; assumption)
    | simp -zeta only [canonical_mk, near_mk, far_mk]
    | with_reducible apply forms_and
    | with_reducible apply media_and
    | (with_reducible apply State.near_wf; with_reducible assumption)
    | (with_reducible apply State.far_wf; with_reducible assumption)
    | (with_reducible apply State.regs_rising; with_reducible assumption)
    | (with_reducible apply Near.linesOk)
    | (with_reducible apply Far.flashOk)
    | (with_reducible apply Far.parityOk)
    | with_reducible apply linesOk_filter
    | with_reducible apply chunksOk_filter
    | with_reducible assumption
    | intro _
    | (extract_lets +onlyGivenNames x; have hx : x.canonical = true := ?_; (on_goal 2 => subst x); clear_value x; revert x; intro _ _)
    | (extract_lets +onlyGivenNames x; have hx : x.1.canonical = true := ?_; (on_goal 2 => subst x); clear_value x; revert x; intro _ _)
    | (extract_lets +onlyGivenNames x; have hx : x.wf = true := ?_; (on_goal 2 => subst x); clear_value x; revert x; intro _ _)
    | (extract_lets +onlyGivenNames x; clear_value x; revert x; intro _)
    | with_reducible apply forms_ite
    | with_reducible apply forms_iteFst
    | with_reducible apply forms_oite
    | with_reducible apply forms_foldl
    | with_reducible apply forms_foldlFst
    | with_reducible apply forms_each
    | with_reducible apply forms_elim
    | with_reducible apply State.copyPage_forms
    | with_reducible apply State.onHusk_forms
    | with_reducible apply State.bind_forms
    | with_reducible apply State.setExtent_forms
    | with_reducible apply State.onTlr_forms
    | with_reducible apply State.sheafFree_forms
    | with_reducible apply State.setAcct_forms
    | with_reducible apply State.copyExtent_forms
    | with_reducible apply State.askEnd_forms
    | with_reducible apply State.copyTo_forms
    | with_reducible apply State.syncedBy_forms
    | with_reducible apply State.flipDrained_forms
    | with_reducible apply State.reclaimHere_forms
    | with_reducible apply State.leaseCame_forms
    | with_reducible apply State.tokenAsked_forms
    | with_reducible apply State.attachRefused_forms
    | with_reducible apply State.unname_forms
    | with_reducible apply State.unnameReplica_forms
    | with_reducible apply State.loseHere_forms
    | with_reducible apply State.sweepHere_forms
    | with_reducible apply State.revoke_forms
    | with_reducible apply State.orphan_forms
    | with_reducible apply State.revokeHolder_forms
    | with_reducible apply State.branWatch_forms
    | with_reducible apply State.flip_forms
    | with_reducible apply State.onQos_forms
    | with_reducible apply State.startFrom_forms
    | with_reducible apply State.cancelFrom_forms
    | with_reducible apply State.cancelCtx_forms
    | with_reducible apply State.endedFrom_forms
    | with_reducible apply State.endAnswered_forms
    | with_reducible apply State.onHdg_forms
    | with_reducible apply State.onSpc_forms
    | with_reducible apply State.fetchFrom_forms
    | with_reducible apply State.form_forms
    | with_reducible apply State.fetchCame_forms
    | with_reducible apply State.progressFrom_forms
    | with_reducible apply State.edge_forms
    | with_reducible apply State.startDoze_forms
    | with_reducible apply State.dozeLeave_forms
    | with_reducible apply State.discardVlr_forms
    | with_reducible apply State.reExpand_forms
    | with_reducible apply State.takeRecs_forms
    | with_reducible apply State.emit_forms
    | with_reducible apply State.roleCame_forms
    | with_reducible apply State.restore_forms
    | with_reducible apply State.peerPin_forms
    | with_reducible apply State.evict_forms
    | with_reducible apply State.evictLine_forms
    | with_reducible apply State.poisonWritten_forms
    | with_reducible apply State.poisonLine_forms
    | with_reducible apply State.revokeAcct_forms
    | with_reducible apply State.onSec_forms
    | with_reducible apply State.eraseCheck_forms
    | with_reducible apply State.eraseKeys_forms
    | (split <;> try (rename_i h; have hp := forms_ofEq h ?_; clear h))
    | (fail_if_no_progress beta_reduce)
    | (fail_if_no_progress dsimp only)
    | with_reducible apply State.near_wf
    | with_reducible apply State.far_wf
    | with_reducible apply State.regs_rising

theorem execMsgCopy_forms (m : Msg) (b : CopyBody) (s : State) (hyp_s : s.canonical = true) :
    OkForms (execMsgCopy m b s) := by
  unfold execMsgCopy
  with_reducible repeat' first
    | assumption | apply forms_next | intro _ | apply State.arrivesSys_forms | apply State.onCopy_forms

/-! ## Membership -/

theorem State.resyncStart_forms (s : State) (hyp_s : s.canonical = true) :
    (State.resyncStart s).canonical = true := by
  unfold State.resyncStart
  repeat' first
    | (simp -zeta only [canonical_mk]; apply canon; assumption)
    | simp -zeta only [canonical_mk, near_mk, far_mk]
    | with_reducible apply forms_and
    | with_reducible apply media_and
    | (with_reducible apply State.near_wf; with_reducible assumption)
    | (with_reducible apply State.far_wf; with_reducible assumption)
    | (with_reducible apply State.regs_rising; with_reducible assumption)
    | (with_reducible apply Near.linesOk)
    | (with_reducible apply Far.flashOk)
    | (with_reducible apply Far.parityOk)
    | with_reducible apply linesOk_filter
    | with_reducible apply chunksOk_filter
    | with_reducible assumption
    | intro _
    | (extract_lets +onlyGivenNames x; have hx : x.canonical = true := ?_; (on_goal 2 => subst x); clear_value x; revert x; intro _ _)
    | (extract_lets +onlyGivenNames x; have hx : x.1.canonical = true := ?_; (on_goal 2 => subst x); clear_value x; revert x; intro _ _)
    | (extract_lets +onlyGivenNames x; have hx : x.wf = true := ?_; (on_goal 2 => subst x); clear_value x; revert x; intro _ _)
    | (extract_lets +onlyGivenNames x; clear_value x; revert x; intro _)
    | with_reducible apply forms_ite
    | with_reducible apply forms_iteFst
    | with_reducible apply forms_oite
    | with_reducible apply forms_foldl
    | with_reducible apply forms_foldlFst
    | with_reducible apply forms_each
    | with_reducible apply State.copyTo_forms
    | with_reducible apply State.restore_forms
    | with_reducible apply State.onHdg_forms
    | with_reducible apply State.roleReturn_forms
    | (split <;> try (rename_i h; have hp := forms_ofEq h ?_; clear h))
    | (fail_if_no_progress beta_reduce)
    | (fail_if_no_progress dsimp only)
    | with_reducible apply State.near_wf
    | with_reducible apply State.far_wf
    | with_reducible apply State.regs_rising

theorem execResyncPageCopy_forms (page : Nat) (s : State) (hyp_s : s.canonical = true) :
    OkForms (execResyncPageCopy page s) := by
  unfold execResyncPageCopy
  with_reducible repeat' first
    | assumption | apply forms_next
    | (extract_lets +onlyGivenNames x; have hx : x.canonical = true := ?_; (on_goal 2 => subst x); clear_value x; revert x; intro _ _)
    | apply forms_ite | apply State.copyTo_forms | apply State.onHdg_forms | apply State.roleReturn_forms

theorem State.fanoutLost_forms (s : State) (m : Nat) (hyp_s : s.canonical = true) :
    (State.fanoutLost s m).canonical = true := by
  unfold State.fanoutLost
  with_reducible repeat' first
    | assumption | intro _
    | (extract_lets +onlyGivenNames x; have hx : x.canonical = true := ?_; (on_goal 2 => subst x); clear_value x; revert x; intro _ _)
    | apply forms_each | apply State.memberEnded_forms | apply State.cancelEnd_forms | apply State.post_forms

theorem State.twinLost_forms (s : State) (hyp_s : s.canonical = true) :
    (State.twinLost s).canonical = true := by
  unfold State.twinLost
  repeat' first
    | (simp -zeta only [canonical_mk]; apply canon; assumption)
    | simp -zeta only [canonical_mk, near_mk, far_mk]
    | with_reducible apply forms_and
    | with_reducible apply media_and
    | (with_reducible apply State.near_wf; with_reducible assumption)
    | (with_reducible apply State.far_wf; with_reducible assumption)
    | (with_reducible apply State.regs_rising; with_reducible assumption)
    | (with_reducible apply Near.linesOk)
    | (with_reducible apply Far.flashOk)
    | (with_reducible apply Far.parityOk)
    | with_reducible apply linesOk_filter
    | with_reducible apply chunksOk_filter
    | with_reducible assumption
    | intro _
    | (extract_lets +onlyGivenNames x; have hx : x.canonical = true := ?_; (on_goal 2 => subst x); clear_value x; revert x; intro _ _)
    | (extract_lets +onlyGivenNames x; have hx : x.1.canonical = true := ?_; (on_goal 2 => subst x); clear_value x; revert x; intro _ _)
    | (extract_lets +onlyGivenNames x; have hx : x.wf = true := ?_; (on_goal 2 => subst x); clear_value x; revert x; intro _ _)
    | (extract_lets +onlyGivenNames x; clear_value x; revert x; intro _)
    | with_reducible apply forms_foldl
    | with_reducible apply forms_foldlFst
    | with_reducible apply forms_each
    | with_reducible apply State.onHdg_forms
    | with_reducible apply State.settle_forms
    | with_reducible apply State.intr_forms
    | with_reducible apply State.post_forms
    | with_reducible apply State.flushReplies_forms
    | (fail_if_no_progress beta_reduce)
    | (fail_if_no_progress dsimp only)
    | with_reducible apply State.near_wf
    | with_reducible apply State.far_wf
    | with_reducible apply State.regs_rising

theorem State.memberLost_forms (s : State) (m elapsedMs : Nat) (hyp_s : s.canonical = true) :
    (State.memberLost s m elapsedMs).canonical = true := by
  unfold State.memberLost
  with_reducible repeat' first
    | assumption | intro _
    | (extract_lets +onlyGivenNames x; have hx : x.canonical = true := ?_; (on_goal 2 => subst x); clear_value x; revert x; intro _ _)
    | apply forms_ite | apply forms_each | apply State.onHdg_forms | apply State.fanoutLost_forms | apply State.attachRefused_forms
    | apply State.askEnd_forms | apply State.syncedBy_forms | apply State.respreadPause_forms | apply State.flipDrained_forms
    | apply State.onSpc_forms | apply State.onTier_forms | apply State.onTlr_forms | apply State.ctxGone_forms | apply State.onSec_forms
    | apply State.eraseCheck_forms | apply State.twinLost_forms

theorem State.memberBack_forms (s : State) (m : Nat) (join : Bool) (hyp_s : s.canonical = true) :
    (State.memberBack s m join).canonical = true := by
  unfold State.memberBack
  with_reducible repeat' first
    | assumption | intro _
    | (extract_lets +onlyGivenNames x; have hx : x.canonical = true := ?_; (on_goal 2 => subst x); clear_value x; revert x; intro _ _)
    | apply forms_ite | apply forms_each | apply State.onHdg_forms | apply State.resyncStart_forms | apply State.copyTo_forms
    | apply State.reroute_forms

theorem State.applyPublish_forms (s : State) (epoch : Nat) (live : List Nat) (quorum : Bool) (wits : List Nat) (witEpoch elapsedMs : Nat) (hyp_s : s.canonical = true) :
    (State.applyPublish s epoch live quorum wits witEpoch elapsedMs).canonical = true := by
  unfold State.applyPublish
  with_reducible repeat' first
    | assumption | intro _
    | (extract_lets +onlyGivenNames x; have hx : x.canonical = true := ?_; (on_goal 2 => subst x); clear_value x; revert x; intro _ _)
    | (extract_lets +onlyGivenNames x; clear_value x; revert x; intro _) | apply forms_ite | apply forms_each | apply State.onHdg_forms
    | apply State.intr_forms | apply State.post_forms | apply State.memberLost_forms | apply State.memberBack_forms

theorem State.publish_forms (s : State) (live wits : List Nat) (witEpoch elapsedMs : Nat) (hyp_s : s.canonical = true) :
    (State.publish s live wits witEpoch elapsedMs).canonical = true := by
  unfold State.publish
  with_reducible repeat' first
    | assumption | (extract_lets +onlyGivenNames x; clear_value x; revert x; intro _) | apply State.applyPublish_forms | apply State.emit_forms

theorem State.forget_forms (s : State) (hyp_s : s.canonical = true) :
    (State.forget s).canonical = true := by
  unfold State.forget
  with_reducible repeat' first
    | assumption | intro _
    | (extract_lets +onlyGivenNames x; have hx : x.canonical = true := ?_; (on_goal 2 => subst x); clear_value x; revert x; intro _ _)
    | apply forms_each | apply State.retireKey_forms | apply State.unwrite_forms | apply State.setLease_forms | apply State.setExtent_forms

theorem State.floodMine_forms (s : State) (hyp_s : s.canonical = true) :
    (State.floodMine s).canonical = true := by
  unfold State.floodMine
  repeat' first
    | with_reducible assumption
    | intro _
    | (extract_lets +onlyGivenNames x; have hx : x.canonical = true := ?_; (on_goal 2 => subst x); clear_value x; revert x; intro _ _)
    | (extract_lets +onlyGivenNames x; have hx : x.1.canonical = true := ?_; (on_goal 2 => subst x); clear_value x; revert x; intro _ _)
    | (extract_lets +onlyGivenNames x; have hx : x.wf = true := ?_; (on_goal 2 => subst x); clear_value x; revert x; intro _ _)
    | (extract_lets +onlyGivenNames x; clear_value x; revert x; intro _)
    | with_reducible apply State.emit_forms
    | (fail_if_no_progress beta_reduce)
    | (fail_if_no_progress dsimp only)

theorem State.tableCame_forms (s : State) (b : MembBody) (serial : Nat) (x : Nbr) (hyp_s : s.canonical = true) :
    (State.tableCame s b serial x).canonical = true := by
  unfold State.tableCame
  repeat' first
    | (simp -zeta only [canonical_mk]; apply canon; assumption)
    | simp -zeta only [canonical_mk, near_mk, far_mk]
    | with_reducible apply forms_and
    | with_reducible apply media_and
    | (with_reducible apply State.near_wf; with_reducible assumption)
    | (with_reducible apply State.far_wf; with_reducible assumption)
    | (with_reducible apply State.regs_rising; with_reducible assumption)
    | (with_reducible apply Near.linesOk)
    | (with_reducible apply Far.flashOk)
    | (with_reducible apply Far.parityOk)
    | with_reducible assumption
    | intro _
    | (extract_lets +onlyGivenNames x; have hx : x.canonical = true := ?_; (on_goal 2 => subst x); clear_value x; revert x; intro _ _)
    | (extract_lets +onlyGivenNames x; have hx : x.1.canonical = true := ?_; (on_goal 2 => subst x); clear_value x; revert x; intro _ _)
    | (extract_lets +onlyGivenNames x; have hx : x.wf = true := ?_; (on_goal 2 => subst x); clear_value x; revert x; intro _ _)
    | (extract_lets +onlyGivenNames x; clear_value x; revert x; intro _)
    | with_reducible apply forms_ite
    | with_reducible apply forms_iteFst
    | with_reducible apply forms_oite
    | with_reducible apply State.onHdg_forms
    | with_reducible apply State.emit_forms
    | with_reducible apply State.floodMine_forms
    | (split <;> try (rename_i h; have hp := forms_ofEq h ?_; clear h))
    | (fail_if_no_progress beta_reduce)
    | (fail_if_no_progress dsimp only)
    | with_reducible apply State.near_wf
    | with_reducible apply State.far_wf
    | with_reducible apply State.regs_rising

theorem State.form_forms (s : State) (l : List (Nat × Nbr)) (hyp_s : s.canonical = true) :
    (State.form s l).canonical = true := by
  unfold State.form
  with_reducible repeat' first
    | simp -zeta only [canonical_mk, near_mk, far_mk] | apply media_and | (apply Far.flashOk) | (apply Far.parityOk) | assumption | intro _
    | (extract_lets +onlyGivenNames x; have hx : x.canonical = true := ?_; (on_goal 2 => subst x); clear_value x; revert x; intro _ _)
    | (extract_lets +onlyGivenNames x; clear_value x; revert x; intro _) | apply forms_ite | apply State.onHdg_forms | apply State.drew_forms
    | apply State.onSec_forms | apply State.onFar_forms | apply State.intr_forms | apply State.post_forms | apply State.emit_forms

theorem State.tryForm_forms (s : State) (hyp_s : s.canonical = true) :
    (State.tryForm s).canonical = true := by
  unfold State.tryForm
  with_reducible repeat' first
    | assumption | (extract_lets +onlyGivenNames x; clear_value x; revert x; intro _) | apply forms_ite | apply State.intr_forms
    | apply State.post_forms | apply State.form_forms | (split <;> try (rename_i h; have hp := forms_ofEq h ?_; clear h))

theorem execFormationRetry_forms (s : State) (hyp_s : s.canonical = true) :
    OkForms (execFormationRetry s) := by
  unfold execFormationRetry
  with_reducible repeat' first
    | assumption | apply forms_next | apply forms_ite | apply State.onHdg_forms | apply State.tryForm_forms

theorem State.joinBy_forms (s : State) (epoch : Nat) (live : List Nat) (quorum : Bool) (wits : List Nat) (witEpoch elapsedMs : Nat) (hyp_s : s.canonical = true) :
    (State.joinBy s epoch live quorum wits witEpoch elapsedMs).canonical = true := by
  unfold State.joinBy
  with_reducible repeat' first
    | assumption | (extract_lets +onlyGivenNames x; have hx : x.canonical = true := ?_; (on_goal 2 => subst x); clear_value x; revert x; intro _ _)
    | apply forms_ite | apply State.onHdg_forms | apply State.applyPublish_forms | apply State.drew_forms | apply State.onSec_forms
    | (split <;> try (rename_i h; have hp := forms_ofEq h ?_; clear h))

theorem State.takeMember_forms (s : State) (m serial : Nat) (hyp_s : s.canonical = true) :
    (State.takeMember s m serial).canonical = true := by
  unfold State.takeMember
  repeat' first
    | (simp -zeta only [canonical_mk]; apply canon; assumption)
    | simp -zeta only [canonical_mk, near_mk, far_mk]
    | with_reducible apply forms_and
    | with_reducible apply media_and
    | (with_reducible apply State.near_wf; with_reducible assumption)
    | (with_reducible apply State.far_wf; with_reducible assumption)
    | (with_reducible apply State.regs_rising; with_reducible assumption)
    | (with_reducible apply Near.linesOk)
    | (with_reducible apply Far.flashOk)
    | (with_reducible apply Far.parityOk)
    | with_reducible apply linesOk_filter
    | with_reducible apply chunksOk_filter
    | with_reducible assumption
    | intro _
    | (extract_lets +onlyGivenNames x; have hx : x.canonical = true := ?_; (on_goal 2 => subst x); clear_value x; revert x; intro _ _)
    | (extract_lets +onlyGivenNames x; have hx : x.1.canonical = true := ?_; (on_goal 2 => subst x); clear_value x; revert x; intro _ _)
    | (extract_lets +onlyGivenNames x; have hx : x.wf = true := ?_; (on_goal 2 => subst x); clear_value x; revert x; intro _ _)
    | (extract_lets +onlyGivenNames x; clear_value x; revert x; intro _)
    | with_reducible apply forms_ite
    | with_reducible apply forms_iteFst
    | with_reducible apply forms_oite
    | with_reducible apply State.onHdg_forms
    | with_reducible apply State.publish_forms
    | (split <;> try (rename_i h; have hp := forms_ofEq h ?_; clear h))
    | (fail_if_no_progress beta_reduce)
    | (fail_if_no_progress dsimp only)
    | with_reducible apply State.near_wf
    | with_reducible apply State.far_wf
    | with_reducible apply State.regs_rising

theorem State.onMemb_forms (s : State) (b : MembBody) (hyp_s : s.canonical = true) :
    (State.onMemb s b).canonical = true := by
  unfold State.onMemb
  repeat' first
    | (simp -zeta only [canonical_mk]; apply canon; assumption)
    | simp -zeta only [canonical_mk, near_mk, far_mk]
    | with_reducible apply forms_and
    | with_reducible apply media_and
    | (with_reducible apply State.near_wf; with_reducible assumption)
    | (with_reducible apply State.far_wf; with_reducible assumption)
    | (with_reducible apply State.regs_rising; with_reducible assumption)
    | (with_reducible apply Near.linesOk)
    | (with_reducible apply Far.flashOk)
    | (with_reducible apply Far.parityOk)
    | with_reducible apply linesOk_filter
    | with_reducible apply chunksOk_filter
    | with_reducible assumption
    | intro _
    | (extract_lets +onlyGivenNames x; have hx : x.canonical = true := ?_; (on_goal 2 => subst x); clear_value x; revert x; intro _ _)
    | (extract_lets +onlyGivenNames x; have hx : x.1.canonical = true := ?_; (on_goal 2 => subst x); clear_value x; revert x; intro _ _)
    | (extract_lets +onlyGivenNames x; have hx : x.wf = true := ?_; (on_goal 2 => subst x); clear_value x; revert x; intro _ _)
    | (extract_lets +onlyGivenNames x; clear_value x; revert x; intro _)
    | with_reducible apply forms_ite
    | with_reducible apply forms_iteFst
    | with_reducible apply forms_oite
    | with_reducible apply State.tableCame_forms
    | with_reducible apply State.tryForm_forms
    | with_reducible apply State.onHdg_forms
    | with_reducible apply State.publish_forms
    | with_reducible apply State.joinBy_forms
    | with_reducible apply State.applyPublish_forms
    | with_reducible apply State.forget_forms
    | with_reducible apply State.onFar_forms
    | with_reducible apply State.takeMember_forms
    | (split <;> try (rename_i h; have hp := forms_ofEq h ?_; clear h))
    | (fail_if_no_progress beta_reduce)
    | (fail_if_no_progress dsimp only)
    | with_reducible apply State.near_wf
    | with_reducible apply State.far_wf
    | with_reducible apply State.regs_rising

theorem execMsgMemb_forms (m : Msg) (b : MembBody) (s : State) (hyp_s : s.canonical = true) :
    OkForms (execMsgMemb m b s) := by
  unfold execMsgMemb
  with_reducible repeat' first
    | assumption | apply forms_next | intro _ | apply State.arrivesSys_forms | apply State.onMemb_forms

theorem execMemberDeclareAbsent_forms (m : Fin 64) (elapsedMs : Nat) (s : State) (hyp_s : s.canonical = true) :
    OkForms (execMemberDeclareAbsent m elapsedMs s) := by
  unfold execMemberDeclareAbsent
  with_reducible repeat' first
    | assumption | apply forms_next | apply forms_ite | apply State.publish_forms

theorem State.takePageBack_forms (s : State) (page : Nat) (hyp_s : s.canonical = true) :
    (State.takePageBack s page).canonical = true := by
  unfold State.takePageBack
  with_reducible repeat' first
    | assumption | intro _
    | (extract_lets +onlyGivenNames x; have hx : x.canonical = true := ?_; (on_goal 2 => subst x); clear_value x; revert x; intro _ _)
    | (extract_lets +onlyGivenNames x; clear_value x; revert x; intro _) | apply forms_ite | apply forms_each | apply State.onDir_forms
    | apply State.sendSnoop_forms | apply State.releaseTaken_forms

theorem execTakeoverReplicaActive_forms (m : Fin 64) (s : State) (hyp_s : s.canonical = true) :
    OkForms (execTakeoverReplicaActive m s) := by
  unfold execTakeoverReplicaActive
  with_reducible repeat' first
    | assumption | apply forms_next | intro _
    | (extract_lets +onlyGivenNames x; have hx : x.canonical = true := ?_; (on_goal 2 => subst x); clear_value x; revert x; intro _ _)
    | (extract_lets +onlyGivenNames x; clear_value x; revert x; intro _) | apply forms_ite | apply forms_each | apply State.onHdg_forms
    | apply State.reroute_forms | apply State.onHusk_forms | apply State.takeoverDone_forms | apply State.takePageBack_forms

theorem execModuleRejoin_forms (m : Fin 64) (serial : Nat) (spaceId : Nat) (s : State) (hyp_s : s.canonical = true) :
    OkForms (execModuleRejoin m serial spaceId s) := by
  unfold execModuleRejoin
  repeat' first
    | with_reducible assumption
    | with_reducible apply forms_next
    | with_reducible apply forms_fault
    | with_reducible apply forms_oite
    | with_reducible intro _
    | (extract_lets +onlyGivenNames x; have hx : x.canonical = true := ?_; (on_goal 2 => subst x); clear_value x; revert x; intro _ _)
    | (extract_lets +onlyGivenNames x; have hx : x.1.canonical = true := ?_; (on_goal 2 => subst x); clear_value x; revert x; intro _ _)
    | (extract_lets +onlyGivenNames x; have hx : x.wf = true := ?_; (on_goal 2 => subst x); clear_value x; revert x; intro _ _)
    | (extract_lets +onlyGivenNames x; clear_value x; revert x; intro _)
    | with_reducible apply forms_ite
    | with_reducible apply forms_iteFst
    | with_reducible apply forms_oite
    | with_reducible apply forms_next
    | with_reducible apply State.takeMember_forms
    | (split <;> try (rename_i h; have hp := forms_ofEq h ?_; clear h))
    | (fail_if_no_progress beta_reduce)
    | (fail_if_no_progress dsimp only)

theorem execWitnessHoldExpire_forms (w : Fin 64) (s : State) (hyp_s : s.canonical = true) :
    OkForms (execWitnessHoldExpire w s) := by
  unfold execWitnessHoldExpire
  with_reducible repeat' first
    | assumption | apply forms_next
    | (extract_lets +onlyGivenNames x; have hx : x.canonical = true := ?_; (on_goal 2 => subst x); clear_value x; revert x; intro _ _)
    | apply forms_ite | apply State.onHdg_forms | apply State.post_forms | apply State.publish_forms
    | (split <;> try (rename_i h; have hp := forms_ofEq h ?_; clear h))

theorem execFormQuery_forms (x : Mbx) (s : State) (hyp_s : s.canonical = true) :
    OkForms (execFormQuery x s) := by
  unfold execFormQuery
  with_reducible repeat' first
    | assumption | apply forms_next | intro _ | apply State.command_forms | apply State.okOut_forms

theorem execFormAdopt_forms (x : Mbx) (s : State) (hyp_s : s.canonical = true) :
    OkForms (execFormAdopt x s) := by
  unfold execFormAdopt
  repeat' first
    | (simp -zeta only [canonical_mk]; apply canon; assumption)
    | simp -zeta only [canonical_mk, near_mk, far_mk]
    | with_reducible apply forms_and
    | with_reducible apply media_and
    | (with_reducible apply State.near_wf; with_reducible assumption)
    | (with_reducible apply State.far_wf; with_reducible assumption)
    | (with_reducible apply State.regs_rising; with_reducible assumption)
    | (with_reducible apply Near.linesOk)
    | (with_reducible apply Far.flashOk)
    | (with_reducible apply Far.parityOk)
    | with_reducible assumption
    | with_reducible apply forms_next
    | with_reducible apply forms_fault
    | with_reducible apply forms_oite
    | with_reducible intro _
    | (extract_lets +onlyGivenNames x; have hx : x.canonical = true := ?_; (on_goal 2 => subst x); clear_value x; revert x; intro _ _)
    | (extract_lets +onlyGivenNames x; have hx : x.1.canonical = true := ?_; (on_goal 2 => subst x); clear_value x; revert x; intro _ _)
    | (extract_lets +onlyGivenNames x; have hx : x.wf = true := ?_; (on_goal 2 => subst x); clear_value x; revert x; intro _ _)
    | (extract_lets +onlyGivenNames x; clear_value x; revert x; intro _)
    | with_reducible apply forms_ite
    | with_reducible apply forms_iteFst
    | with_reducible apply forms_oite
    | with_reducible apply forms_next
    | with_reducible apply State.command_forms
    | with_reducible apply State.bind_forms
    | with_reducible apply State.status_forms
    | with_reducible apply State.onHdg_forms
    | with_reducible apply State.emit_forms
    | with_reducible apply State.takeMember_forms
    | (split <;> try (rename_i h; have hp := forms_ofEq h ?_; clear h))
    | (fail_if_no_progress beta_reduce)
    | (fail_if_no_progress dsimp only)
    | with_reducible apply State.near_wf
    | with_reducible apply State.far_wf
    | with_reducible apply State.regs_rising

theorem execWitnessForce_forms (x : Mbx) (s : State) (hyp_s : s.canonical = true) :
    OkForms (execWitnessForce x s) := by
  unfold execWitnessForce
  with_reducible repeat' first
    | assumption | apply forms_next | intro _ | (extract_lets +onlyGivenNames x; clear_value x; revert x; intro _) | apply forms_ite
    | apply State.command_forms | apply State.status_forms | apply State.post_forms | apply State.publish_forms

theorem execLinkRetrain_forms (x : Mbx) (s : State) (hyp_s : s.canonical = true) :
    OkForms (execLinkRetrain x s) := by
  unfold execLinkRetrain
  with_reducible repeat' first
    | assumption | apply forms_next | intro _
    | (extract_lets +onlyGivenNames x; have hx : x.canonical = true := ?_; (on_goal 2 => subst x); clear_value x; revert x; intro _ _)
    | (extract_lets +onlyGivenNames x; clear_value x; revert x; intro _) | apply forms_ite | apply State.command_forms | apply State.status_forms
    | apply State.setHport_forms | apply State.trainPort_forms

theorem execResyncQuery_forms (x : Mbx) (s : State) (hyp_s : s.canonical = true) :
    OkForms (execResyncQuery x s) := by
  unfold execResyncQuery
  with_reducible repeat' first
    | assumption | apply forms_next | intro _ | apply State.command_forms | apply State.okOut_forms

theorem execHedgerowCageInsert_forms (p : Fin 6) (mw : Nat) (s : State) (hyp_s : s.canonical = true) :
    OkForms (execHedgerowCageInsert p mw s) := by
  unfold execHedgerowCageInsert
  with_reducible repeat' first
    | assumption | apply forms_next | (extract_lets +onlyGivenNames x; clear_value x; revert x; intro _) | apply forms_ite
    | apply State.setHport_forms | apply State.post_forms | apply State.trainPort_forms

end Sys2Proof.Machine
end

