-- ==== Sys2Proof/Laws/FormsHost.lean ====
section
/-! SUPPORT. The canonical forms are kept by security, the recorder, host commands, register writes, boot, resets, power, and what goes on while no command waits. -/

set_option linter.all false

namespace Sys2Proof.Machine

open Sys2Proof

/-! ## Security -/

theorem execKeyQuery_forms (x : Mbx) (s : State) (hyp_s : s.canonical = true) :
    OkForms (execKeyQuery x s) := by
  unfold execKeyQuery
  with_reducible repeat' first
    | assumption | apply forms_next | intro _ | (extract_lets +onlyGivenNames x; clear_value x; revert x; intro _) | apply forms_ite
    | apply State.command_forms | apply State.status_forms | apply State.okOut_forms

theorem execAccountErase_forms (x : Mbx) (s : State) (hyp_s : s.canonical = true) :
    OkForms (execAccountErase x s) := by
  unfold execAccountErase
  with_reducible repeat' first
    | assumption | apply forms_next | intro _
    | (extract_lets +onlyGivenNames x; have hx : x.canonical = true := ?_; (on_goal 2 => subst x); clear_value x; revert x; intro _ _)
    | (extract_lets +onlyGivenNames x; clear_value x; revert x; intro _) | apply State.command_forms | apply State.bgCommand_forms
    | apply State.startBg_forms | apply State.copyAll_forms | apply State.revokeAcct_forms | apply State.onSec_forms | apply State.eraseCheck_forms

theorem execSpaceKeyRoll_forms (x : Mbx) (s : State) (hyp_s : s.canonical = true) :
    OkForms (execSpaceKeyRoll x s) := by
  unfold execSpaceKeyRoll
  with_reducible repeat' first
    | assumption | apply forms_next | intro _
    | (extract_lets +onlyGivenNames x; have hx : x.canonical = true := ?_; (on_goal 2 => subst x); clear_value x; revert x; intro _ _)
    | apply State.command_forms | apply State.drew_forms | apply State.onSec_forms | apply State.onHdg_forms | apply State.post_forms
    | apply State.status_forms

theorem execKeySlotEmptied_forms (slot : Fin 512) (s : State) (hyp_s : s.canonical = true) :
    OkForms (execKeySlotEmptied slot s) := by
  unfold execKeySlotEmptied
  with_reducible repeat' first
    | assumption | apply forms_next | apply forms_ite | apply State.onSec_forms | apply State.post_forms

theorem execEntropyHealthFail_forms (s : State) (hyp_s : s.canonical = true) :
    OkForms (execEntropyHealthFail s) := by
  unfold execEntropyHealthFail
  with_reducible repeat' first
    | assumption | apply forms_next | apply State.onSec_forms | apply State.intr_forms | apply State.post_forms

theorem State.spdmOut_forms (s : State) (who : Issuer) (code : Nat) (d : Bytes) (hyp_s : s.canonical = true) :
    (State.spdmOut s who code d).canonical = true := by
  unfold State.spdmOut
  with_reducible repeat' first
    | assumption | apply State.emit_forms

theorem State.spdmFree_forms (s : State) (who : Issuer) (code n : Nat) (hyp_s : s.canonical = true) :
    (State.spdmFree s who code n).canonical = true := by
  unfold State.spdmFree
  with_reducible repeat' first
    | assumption | apply State.drew_forms | apply State.spdmOut_forms

theorem State.spdmErr_forms (s : State) (who : Issuer) (e : Nat) (hyp_s : s.canonical = true) :
    (State.spdmErr s who e).canonical = true := by
  unfold State.spdmErr
  with_reducible repeat' first
    | assumption | apply State.spdmOut_forms

theorem State.spdm_forms (s : State) (who : Issuer) (f : State → State) (hyp_s : s.canonical = true) (hyp_f : ∀ z : State, z.canonical = true → (f z).canonical = true) :
    (State.spdm s who f).canonical = true := by
  unfold State.spdm
  with_reducible repeat' first
    | assumption | apply forms_ite | apply State.unidle_forms | apply_assumption

theorem State.setSess_forms (s : State) (k p : Nat) (hyp_s : s.canonical = true) :
    (State.setSess s k p).canonical = true := by
  unfold State.setSess
  with_reducible repeat' first
    | assumption | apply State.onSec_forms

theorem State.closeSess_forms (s : State) (who : Issuer) (i : Nat) (hyp_s : s.canonical = true) :
    (State.closeSess s who i).canonical = true := by
  unfold State.closeSess
  with_reducible repeat' first
    | assumption | (extract_lets +onlyGivenNames x; have hx : x.canonical = true := ?_; (on_goal 2 => subst x); clear_value x; revert x; intro _ _)
    | apply State.setSess_forms | apply State.orphanLd_forms | (split <;> try (rename_i h; have hp := forms_ofEq h ?_; clear h))

theorem execGetVersion_forms (who : Issuer) (_data : Bytes) (s : State) (hyp_s : s.canonical = true) :
    OkForms (execGetVersion who _data s) := by
  unfold execGetVersion
  with_reducible repeat' first
    | assumption | apply forms_next | intro _ | apply State.spdm_forms | apply State.spdmOut_forms

theorem execGetCapabilities_forms (who : Issuer) (_data : Bytes) (s : State) (hyp_s : s.canonical = true) :
    OkForms (execGetCapabilities who _data s) := by
  unfold execGetCapabilities
  with_reducible repeat' first
    | assumption | apply forms_next | intro _ | apply State.spdm_forms | apply State.spdmFree_forms

theorem execNegotiateAlgorithms_forms (who : Issuer) (_data : Bytes) (s : State) (hyp_s : s.canonical = true) :
    OkForms (execNegotiateAlgorithms who _data s) := by
  unfold execNegotiateAlgorithms
  with_reducible repeat' first
    | assumption | apply forms_next | intro _ | apply State.spdm_forms | apply State.spdmFree_forms

theorem execGetDigests_forms (who : Issuer) (_data : Bytes) (s : State) (hyp_s : s.canonical = true) :
    OkForms (execGetDigests who _data s) := by
  unfold execGetDigests
  with_reducible repeat' first
    | assumption | apply forms_next | intro _ | apply State.spdm_forms | apply State.spdmFree_forms

theorem execGetCertificate_forms (who : Issuer) (data : Bytes) (s : State) (hyp_s : s.canonical = true) :
    OkForms (execGetCertificate who data s) := by
  unfold execGetCertificate
  with_reducible repeat' first
    | assumption | apply forms_next | intro _ | apply forms_ite | apply State.spdm_forms | apply State.spdmFree_forms | apply State.spdmErr_forms

theorem execChallenge_forms (who : Issuer) (data : Bytes) (s : State) (hyp_s : s.canonical = true) :
    OkForms (execChallenge who data s) := by
  unfold execChallenge
  with_reducible repeat' first
    | assumption | apply forms_next | intro _ | apply forms_ite | apply State.spdm_forms | apply State.spdmFree_forms | apply State.spdmErr_forms

theorem execGetMeasurements_forms (who : Issuer) (data : Bytes) (s : State) (hyp_s : s.canonical = true) :
    OkForms (execGetMeasurements who data s) := by
  unfold execGetMeasurements
  with_reducible repeat' first
    | assumption | apply forms_next | intro _ | (extract_lets +onlyGivenNames x; clear_value x; revert x; intro _) | apply forms_ite
    | apply State.spdm_forms | apply State.spdmOut_forms | apply State.spdmFree_forms | apply State.spdmErr_forms

theorem execKeyExchange_forms (who : Issuer) (_data : Bytes) (s : State) (hyp_s : s.canonical = true) :
    OkForms (execKeyExchange who _data s) := by
  unfold execKeyExchange
  with_reducible repeat' first
    | assumption | apply forms_next | intro _ | apply State.spdm_forms | apply State.setSess_forms | apply State.spdmFree_forms
    | apply State.spdmErr_forms | (split <;> try (rename_i h; have hp := forms_ofEq h ?_; clear h))

theorem execFinish_forms (who : Issuer) (sess : Fin 2) (verified : Bool) (_data : Bytes) (s : State) (hyp_s : s.canonical = true) :
    OkForms (execFinish who sess verified _data s) := by
  unfold execFinish
  with_reducible repeat' first
    | assumption | apply forms_next | intro _ | apply forms_ite | apply State.spdm_forms | apply State.spdmErr_forms | apply State.setSess_forms
    | apply State.spdmFree_forms | apply State.bump_forms | apply State.intr_forms | apply State.post_forms

theorem State.inSess_forms (s : State) (who : Issuer) (i : Nat) (f : State → State) (hyp_s : s.canonical = true) (hyp_f : ∀ z : State, z.canonical = true → (f z).canonical = true) :
    (State.inSess s who i f).canonical = true := by
  unfold State.inSess
  with_reducible repeat' first
    | assumption | intro _ | apply forms_ite | apply State.spdm_forms | apply State.spdmErr_forms | apply_assumption

theorem execHeartbeat_forms (who : Issuer) (sess : Fin 2) (s : State) (hyp_s : s.canonical = true) :
    OkForms (execHeartbeat who sess s) := by
  unfold execHeartbeat
  with_reducible repeat' first
    | assumption | apply forms_next | intro _ | apply State.inSess_forms | apply State.spdmOut_forms

theorem execKeyUpdate_forms (who : Issuer) (sess : Fin 2) (data : Bytes) (s : State) (hyp_s : s.canonical = true) :
    OkForms (execKeyUpdate who sess data s) := by
  unfold execKeyUpdate
  with_reducible repeat' first
    | assumption | apply forms_next | intro _ | apply State.inSess_forms | apply State.spdmOut_forms

theorem execEndSession_forms (who : Issuer) (sess : Fin 2) (s : State) (hyp_s : s.canonical = true) :
    OkForms (execEndSession who sess s) := by
  unfold execEndSession
  with_reducible repeat' first
    | assumption | apply forms_next | intro _ | apply State.inSess_forms | apply State.closeSess_forms | apply State.spdmOut_forms

theorem execSpdmHeartbeatTimeout_forms (who : Issuer) (sess : Fin 2) (s : State) (hyp_s : s.canonical = true) :
    OkForms (execSpdmHeartbeatTimeout who sess s) := by
  unfold execSpdmHeartbeatTimeout
  with_reducible repeat' first
    | assumption | apply forms_next | apply forms_ite | apply State.closeSess_forms

theorem execIdeKm_forms (p : Fin 4) (ld : Fin 64) (sess : Fin 2) (go : Bool) (data : Bytes) (s : State) (hyp_s : s.canonical = true) :
    OkForms (execIdeKm p ld sess go data s) := by
  unfold execIdeKm
  with_reducible repeat' first
    | assumption | apply forms_next | intro _ | apply forms_ite | apply State.inSess_forms | apply State.spdmErr_forms | apply State.onSec_forms
    | apply State.spdmOut_forms

/-! ## Stook -/

theorem execStookSpill_forms (s : State) (hyp_s : s.canonical = true) :
    OkForms (execStookSpill s) := by
  unfold execStookSpill
  with_reducible repeat' first
    | assumption | apply forms_next | intro _
    | (extract_lets +onlyGivenNames x; have hx : x.canonical = true := ?_; (on_goal 2 => subst x); clear_value x; revert x; intro _ _)
    | apply forms_each | apply State.putSpill_forms | apply State.onStk_forms

theorem execStookArchive_forms (ok : Bool) (s : State) (hyp_s : s.canonical = true) :
    OkForms (execStookArchive ok s) := by
  unfold execStookArchive
  with_reducible repeat' first
    | assumption | apply forms_next | intro _
    | (extract_lets +onlyGivenNames x; have hx : x.canonical = true := ?_; (on_goal 2 => subst x); clear_value x; revert x; intro _ _)
    | apply forms_ite | apply forms_each | apply State.putArchive_forms | apply State.onStk_forms | apply State.intr_forms | apply State.post_forms

theorem execStookSummaryEmit_forms (code : Nat) (s : State) (hyp_s : s.canonical = true) :
    OkForms (execStookSummaryEmit code s) := by
  unfold execStookSummaryEmit
  with_reducible repeat' first
    | assumption | apply forms_next
    | (extract_lets +onlyGivenNames x; have hx : x.canonical = true := ?_; (on_goal 2 => subst x); clear_value x; revert x; intro _ _)
    | (extract_lets +onlyGivenNames x; clear_value x; revert x; intro _) | apply forms_ite | apply State.onStk_forms | apply State.arrive_forms

theorem execStkRead_forms (x : Mbx) (s : State) (hyp_s : s.canonical = true) :
    OkForms (execStkRead x s) := by
  unfold execStkRead
  with_reducible repeat' first
    | assumption | apply forms_next | intro _ | (extract_lets +onlyGivenNames x; clear_value x; revert x; intro _) | apply forms_ite
    | apply State.command_forms | apply State.status_forms | apply State.okOut_forms

theorem execGaspRead_forms (x : Mbx) (s : State) (hyp_s : s.canonical = true) :
    OkForms (execGaspRead x s) := by
  unfold execGaspRead
  with_reducible repeat' first
    | assumption | apply forms_next | intro _ | apply State.command_forms | apply State.okOut_forms

theorem State.startFreeze_forms (s : State) (hyp_s : s.canonical = true) :
    (State.startFreeze s).canonical = true := by
  unfold State.startFreeze
  with_reducible repeat' first
    | assumption | apply forms_ite | apply State.onStk_forms

theorem State.freezeCmd_forms (s : State) (x : Mbx) (hyp_s : s.canonical = true) :
    (State.freezeCmd s x).canonical = true := by
  unfold State.freezeCmd
  with_reducible repeat' first
    | assumption | intro _ | apply forms_ite | apply State.command_forms | apply State.startFreeze_forms | apply State.status_forms
    | apply State.thaw_forms

theorem execFreeze_forms (x : Mbx) (s : State) (hyp_s : s.canonical = true) :
    OkForms (execFreeze x s) := by
  unfold execFreeze
  with_reducible repeat' first
    | assumption | apply forms_next | apply State.freezeCmd_forms

theorem execFreezeThaw_forms (x : Mbx) (s : State) (hyp_s : s.canonical = true) :
    OkForms (execFreezeThaw x s) := by
  unfold execFreezeThaw
  with_reducible repeat' first
    | assumption | apply forms_next | apply State.freezeCmd_forms

theorem State.gaspClear_forms (s : State) (hyp_s : s.canonical = true) :
    (State.gaspClear s).canonical = true := by
  unfold State.gaspClear
  with_reducible repeat' first
    | assumption | apply State.onStk_forms | apply State.onPwr_forms

theorem State.stkCtl_forms (s : State) (v : Word) (hyp_s : s.canonical = true) :
    (State.stkCtl s v).canonical = true := by
  unfold State.stkCtl
  with_reducible repeat' first
    | assumption | (extract_lets +onlyGivenNames x; have hx : x.canonical = true := ?_; (on_goal 2 => subst x); clear_value x; revert x; intro _ _)
    | apply forms_ite | apply State.gaspClear_forms | apply State.thaw_forms | apply State.startFreeze_forms

theorem execStkCtlFreeze_forms (v : Word) (s : State) (hyp_s : s.canonical = true) :
    OkForms (execStkCtlFreeze v s) := by
  unfold execStkCtlFreeze
  with_reducible repeat' first
    | assumption | apply forms_next | apply forms_ite | apply State.stkCtl_forms

theorem execStkCtlThaw_forms (v : Word) (s : State) (hyp_s : s.canonical = true) :
    OkForms (execStkCtlThaw v s) := by
  unfold execStkCtlThaw
  with_reducible repeat' first
    | assumption | apply forms_next | apply forms_ite | apply State.stkCtl_forms

theorem execStkCtlGaspClr_forms (v : Word) (s : State) (hyp_s : s.canonical = true) :
    OkForms (execStkCtlGaspClr v s) := by
  unfold execStkCtlGaspClr
  with_reducible repeat' first
    | assumption | apply forms_next | apply forms_ite | apply State.stkCtl_forms

theorem execFreezeTimeout_forms (s : State) (hyp_s : s.canonical = true) :
    OkForms (execFreezeTimeout s) := by
  unfold execFreezeTimeout
  with_reducible repeat' first
    | assumption | apply forms_next | apply forms_ite | apply State.thaw_forms | (split <;> try (rename_i h; have hp := forms_ofEq h ?_; clear h))

theorem execStookSramFail_forms (first : Nat) (last : Nat) (s : State) (hyp_s : s.canonical = true) :
    OkForms (execStookSramFail first last s) := by
  unfold execStookSramFail
  with_reducible repeat' first
    | assumption | apply forms_next
    | (extract_lets +onlyGivenNames x; have hx : x.canonical = true := ?_; (on_goal 2 => subst x); clear_value x; revert x; intro _ _)
    | (extract_lets +onlyGivenNames x; clear_value x; revert x; intro _) | apply forms_ite | apply State.onStk_forms | apply State.post_forms

/-! ## HostCmd -/

theorem State.ldDrained_forms (s : State) (ld : Nat) (hyp_s : s.canonical = true) :
    (State.ldDrained s ld).canonical = true := by
  unfold State.ldDrained
  with_reducible repeat' first
    | assumption | (extract_lets +onlyGivenNames x; have hx : x.canonical = true := ?_; (on_goal 2 => subst x); clear_value x; revert x; intro _ _)
    | (extract_lets +onlyGivenNames x; clear_value x; revert x; intro _) | apply State.onHost_forms | apply State.onQos_forms
    | apply State.esuResample_forms

theorem State.ldQuiet_forms (s : State) (ld : Nat) (hyp_s : s.canonical = true) :
    (State.ldQuiet s ld).canonical = true := by
  unfold State.ldQuiet
  with_reducible repeat' first
    | assumption | (extract_lets +onlyGivenNames x; have hx : x.canonical = true := ?_; (on_goal 2 => subst x); clear_value x; revert x; intro _ _)
    | apply State.onHdg_forms | apply State.onSpc_forms | apply State.onHost_forms | apply State.onSec_forms | apply State.onDir_forms
    | apply State.onEsu_forms

theorem State.resetLd_forms (s : State) (ld : Nat) (hyp_s : s.canonical = true) :
    (State.resetLd s ld).canonical = true := by
  unfold State.resetLd
  with_reducible repeat' first
    | (simp -zeta only [canonical_mk]; apply canon; assumption) | assumption
    | (extract_lets +onlyGivenNames x; have hx : x.canonical = true := ?_; (on_goal 2 => subst x); clear_value x; revert x; intro _ _)
    | apply forms_ite | apply State.esuResetLd_forms | apply State.tlrResetLd_forms | apply State.orphanLd_forms | apply State.ldQuiet_forms
    | apply State.onHost_forms | apply State.ldDrained_forms

theorem execFunctionLevelReset_forms (ld : Fin 64) (s : State) (hyp_s : s.canonical = true) :
    OkForms (execFunctionLevelReset ld s) := by
  unfold execFunctionLevelReset
  with_reducible repeat' first
    | assumption | apply forms_next | apply forms_ite | apply State.resetLd_forms

theorem execLdResetDrainEnd_forms (ld : Fin 64) (s : State) (hyp_s : s.canonical = true) :
    OkForms (execLdResetDrainEnd ld s) := by
  unfold execLdResetDrainEnd
  with_reducible repeat' first
    | assumption | apply forms_next | apply forms_ite | apply State.ldDrained_forms

theorem State.setPort_forms (s : State) (p : Nat) (x : PortH) (hyp_s : s.canonical = true) :
    (State.setPort s p x).canonical = true := by
  unfold State.setPort
  with_reducible repeat' first
    | assumption | apply State.onHost_forms

theorem State.portOff_forms (s : State) (p : Nat) (hyp_s : s.canonical = true) :
    (State.portOff s p).canonical = true := by
  unfold State.portOff
  with_reducible repeat' first
    | assumption | intro _
    | (extract_lets +onlyGivenNames x; have hx : x.canonical = true := ?_; (on_goal 2 => subst x); clear_value x; revert x; intro _ _)
    | (extract_lets +onlyGivenNames x; clear_value x; revert x; intro _) | apply forms_ite | apply forms_each | apply State.setPort_forms
    | apply State.bump_forms | apply State.intr_forms | apply State.post_forms | apply State.resetLd_forms | apply State.setReg_forms
    | apply State.onSec_forms | apply State.onSpc_forms

theorem State.portTry_forms (s : State) (p : Nat) (hyp_s : s.canonical = true) :
    (State.portTry s p).canonical = true := by
  unfold State.portTry
  with_reducible repeat' first
    | assumption | (extract_lets +onlyGivenNames x; clear_value x; revert x; intro _) | apply forms_ite | apply State.setPort_forms

theorem execHostLinkDown_forms (p : Fin 4) (s : State) (hyp_s : s.canonical = true) :
    OkForms (execHostLinkDown p s) := by
  unfold execHostLinkDown
  with_reducible repeat' first
    | assumption | apply forms_next | apply forms_ite | apply State.portOff_forms | apply State.portTry_forms

theorem execHpnPerstAssert_forms (p : Fin 4) (s : State) (hyp_s : s.canonical = true) :
    OkForms (execHpnPerstAssert p s) := by
  unfold execHpnPerstAssert
  with_reducible repeat' first
    | assumption | apply forms_next
    | (extract_lets +onlyGivenNames x; have hx : x.canonical = true := ?_; (on_goal 2 => subst x); clear_value x; revert x; intro _ _)
    | (extract_lets +onlyGivenNames x; clear_value x; revert x; intro _) | apply forms_ite | apply State.setPort_forms | apply State.portOff_forms

theorem execHpnPerstRelease_forms (p : Fin 4) (s : State) (hyp_s : s.canonical = true) :
    OkForms (execHpnPerstRelease p s) := by
  unfold execHpnPerstRelease
  with_reducible repeat' first
    | assumption | apply forms_next | (extract_lets +onlyGivenNames x; clear_value x; revert x; intro _) | apply State.setPort_forms
    | apply State.portTry_forms

theorem execHostCablePresent_forms (p : Fin 4) (s : State) (hyp_s : s.canonical = true) :
    OkForms (execHostCablePresent p s) := by
  unfold execHostCablePresent
  with_reducible repeat' first
    | assumption | apply forms_next | (extract_lets +onlyGivenNames x; clear_value x; revert x; intro _) | apply State.setPort_forms
    | apply State.portTry_forms

theorem execHostCableRemoved_forms (p : Fin 4) (s : State) (hyp_s : s.canonical = true) :
    OkForms (execHostCableRemoved p s) := by
  unfold execHostCableRemoved
  with_reducible repeat' first
    | assumption | apply forms_next
    | (extract_lets +onlyGivenNames x; have hx : x.canonical = true := ?_; (on_goal 2 => subst x); clear_value x; revert x; intro _ _)
    | (extract_lets +onlyGivenNames x; clear_value x; revert x; intro _) | apply forms_ite | apply State.setPort_forms | apply State.portOff_forms
    | apply State.portTry_forms

theorem execHostLinkUp_forms (p : Fin 4) (width : Nat) (s : State) (hyp_s : s.canonical = true) :
    OkForms (execHostLinkUp p width s) := by
  unfold execHostLinkUp
  with_reducible repeat' first
    | assumption | apply forms_next | (extract_lets +onlyGivenNames x; clear_value x; revert x; intro _) | apply forms_ite
    | apply State.setPort_forms | apply State.post_forms | apply State.rescaled_forms

theorem execL0pWidthChange_forms (p : Fin 4) (width : Nat) (s : State) (hyp_s : s.canonical = true) :
    OkForms (execL0pWidthChange p width s) := by
  unfold execL0pWidthChange
  with_reducible repeat' first
    | assumption | apply forms_next | (extract_lets +onlyGivenNames x; clear_value x; revert x; intro _) | apply forms_ite
    | apply State.hostWidth_forms

theorem execGlobalPersistentFlush_forms (p : Fin 4) (phase : Fin 2) (s : State) (hyp_s : s.canonical = true) :
    OkForms (execGlobalPersistentFlush p phase s) := by
  unfold execGlobalPersistentFlush
  with_reducible repeat' first
    | assumption | apply forms_next | apply forms_ite | apply State.emit_forms

theorem State.freeOut_forms (s : State) (x : Mbx) (n : Nat) (hyp_s : s.canonical = true) :
    (State.freeOut s x n).canonical = true := by
  unfold State.freeOut
  with_reducible repeat' first
    | assumption | apply State.drew_forms | apply State.reply_forms

theorem execIdentify_forms (x : Mbx) (s : State) (hyp_s : s.canonical = true) :
    OkForms (execIdentify x s) := by
  unfold execIdentify
  with_reducible repeat' first
    | assumption | apply forms_next | intro _ | apply State.stdCommand_forms | apply State.freeOut_forms

theorem execBackgroundOperationStatus_forms (x : Mbx) (s : State) (hyp_s : s.canonical = true) :
    OkForms (execBackgroundOperationStatus x s) := by
  unfold execBackgroundOperationStatus
  with_reducible repeat' first
    | assumption | apply forms_next | intro _ | apply State.stdCommand_forms | apply State.reply_forms
    | (split <;> try (rename_i h; have hp := forms_ofEq h ?_; clear h))

theorem execGetEventRecords_forms (x : Mbx) (s : State) (hyp_s : s.canonical = true) :
    OkForms (execGetEventRecords x s) := by
  unfold execGetEventRecords
  with_reducible repeat' first
    | assumption | apply forms_next | intro _ | (extract_lets +onlyGivenNames x; clear_value x; revert x; intro _) | apply forms_ite
    | apply State.stdCommand_forms | apply State.reply_forms | apply State.drew_forms

theorem execClearEventRecords_forms (x : Mbx) (s : State) (hyp_s : s.canonical = true) :
    OkForms (execClearEventRecords x s) := by
  unfold execClearEventRecords
  with_reducible repeat' first
    | assumption | apply forms_next | intro _ | (extract_lets +onlyGivenNames x; clear_value x; revert x; intro _) | apply forms_ite
    | apply State.stdCommand_forms | apply State.reply_forms | apply State.onStk_forms

theorem execGetTimestamp_forms (x : Mbx) (s : State) (hyp_s : s.canonical = true) :
    OkForms (execGetTimestamp x s) := by
  unfold execGetTimestamp
  with_reducible repeat' first
    | assumption | apply forms_next | intro _ | apply State.stdCommand_forms | apply State.reply_forms

theorem State.setWall_forms (s : State) (v : Nat) (hyp_s : s.canonical = true) :
    (State.setWall s v).canonical = true := by
  unfold State.setWall
  with_reducible repeat' first
    | assumption | (extract_lets +onlyGivenNames x; clear_value x; revert x; intro _) | apply State.onHost_forms | apply State.post_forms

theorem execSetTimestamp_forms (x : Mbx) (s : State) (hyp_s : s.canonical = true) :
    OkForms (execSetTimestamp x s) := by
  unfold execSetTimestamp
  with_reducible repeat' first
    | assumption | apply forms_next | intro _ | apply State.stdCommand_forms | apply State.setWall_forms | apply State.reply_forms

theorem execGetSupportedLogs_forms (x : Mbx) (s : State) (hyp_s : s.canonical = true) :
    OkForms (execGetSupportedLogs x s) := by
  unfold execGetSupportedLogs
  with_reducible repeat' first
    | assumption | apply forms_next | intro _ | apply State.stdCommand_forms | apply State.reply_forms

theorem execGetLog_forms (x : Mbx) (s : State) (hyp_s : s.canonical = true) :
    OkForms (execGetLog x s) := by
  unfold execGetLog
  with_reducible repeat' first
    | assumption | apply forms_next | intro _ | (extract_lets +onlyGivenNames x; clear_value x; revert x; intro _) | apply forms_ite
    | apply State.stdCommand_forms | apply State.reply_forms | apply State.drew_forms

theorem execIdentifyMemoryDevice_forms (x : Mbx) (s : State) (hyp_s : s.canonical = true) :
    OkForms (execIdentifyMemoryDevice x s) := by
  unfold execIdentifyMemoryDevice
  with_reducible repeat' first
    | assumption | apply forms_next | intro _ | (extract_lets +onlyGivenNames x; clear_value x; revert x; intro _) | apply State.stdCommand_forms
    | apply State.drew_forms | apply State.reply_forms

theorem execGetHealthInfo_forms (x : Mbx) (s : State) (hyp_s : s.canonical = true) :
    OkForms (execGetHealthInfo x s) := by
  unfold execGetHealthInfo
  with_reducible repeat' first
    | assumption | apply forms_next | intro _ | apply State.stdCommand_forms | apply State.freeOut_forms

theorem execGetFwInfo_forms (x : Mbx) (s : State) (hyp_s : s.canonical = true) :
    OkForms (execGetFwInfo x s) := by
  unfold execGetFwInfo
  with_reducible repeat' first
    | assumption | apply forms_next | intro _ | apply State.stdCommand_forms | apply State.freeOut_forms

theorem execMailboxUnsupported_forms (x : Mbx) (opcode : Fin 65536) (s : State) (hyp_s : s.canonical = true) :
    OkForms (execMailboxUnsupported x opcode s) := by
  unfold execMailboxUnsupported
  with_reducible repeat' first
    | assumption | apply forms_next | apply forms_ite | apply State.unidle_forms | apply State.bump_forms | apply State.reply_forms

theorem execGetPoisonList_forms (x : Mbx) (s : State) (hyp_s : s.canonical = true) :
    OkForms (execGetPoisonList x s) := by
  unfold execGetPoisonList
  with_reducible repeat' first
    | assumption | apply forms_next | intro _ | (extract_lets +onlyGivenNames x; clear_value x; revert x; intro _) | apply State.stdCommand_forms
    | apply State.drew_forms | apply State.reply_forms

theorem execInjectPoison_forms (x : Mbx) (s : State) (hyp_s : s.canonical = true) :
    OkForms (execInjectPoison x s) := by
  unfold execInjectPoison
  with_reducible repeat' first
    | assumption | apply forms_next | intro _
    | (extract_lets +onlyGivenNames x; have hx : x.canonical = true := ?_; (on_goal 2 => subst x); clear_value x; revert x; intro _ _)
    | apply forms_ite | apply State.stdCommand_forms | apply State.reply_forms | apply State.poisonWritten_forms | apply State.poisonLine_forms
    | apply State.copyTo_forms | (split <;> try (rename_i h; have hp := forms_ofEq h ?_; clear h))

theorem execClearPoison_forms (x : Mbx) (s : State) (hyp_s : s.canonical = true) :
    OkForms (execClearPoison x s) := by
  unfold execClearPoison
  with_reducible repeat' first
    | assumption | apply forms_next | intro _ | apply State.stdCommand_forms | apply State.reply_forms | apply State.accept_forms
    | (split <;> try (rename_i h; have hp := forms_ofEq h ?_; clear h))

theorem execSetEndpointId_forms (eid : Byte) (s : State) (hyp_s : s.canonical = true) :
    OkForms (execSetEndpointId eid s) := by
  unfold execSetEndpointId
  with_reducible repeat' first
    | assumption | apply forms_next | apply forms_ite | apply State.onHost_forms | apply State.emit_forms

theorem execMctpPacket_forms (binding : Fin 3) (_data : Bytes) (s : State) (hyp_s : s.canonical = true) :
    OkForms (execMctpPacket binding _data s) := by
  unfold execMctpPacket
  with_reducible repeat' first
    | assumption | apply forms_next | apply forms_ite | apply State.onHost_forms | apply State.bump_forms | apply State.intr_forms
    | apply State.post_forms

theorem State.fmApi_forms (s : State) (d : Bytes) (hyp_s : s.canonical = true) :
    (State.fmApi s d).canonical = true := by
  unfold State.fmApi
  with_reducible repeat' first
    | assumption | apply forms_ite | apply State.drew_forms | apply State.emit_forms

theorem execGetLdInfo_forms (_data : Bytes) (s : State) (hyp_s : s.canonical = true) :
    OkForms (execGetLdInfo _data s) := by
  unfold execGetLdInfo
  with_reducible repeat' first
    | assumption | apply forms_next | apply State.fmApi_forms

theorem execGetLdAllocations_forms (_data : Bytes) (s : State) (hyp_s : s.canonical = true) :
    OkForms (execGetLdAllocations _data s) := by
  unfold execGetLdAllocations
  with_reducible repeat' first
    | assumption | apply forms_next | apply State.fmApi_forms

theorem execGetQosStatus_forms (_data : Bytes) (s : State) (hyp_s : s.canonical = true) :
    OkForms (execGetQosStatus _data s) := by
  unfold execGetQosStatus
  with_reducible repeat' first
    | assumption | apply forms_next | apply State.fmApi_forms

/-! ## RegWrite -/

theorem State.regBefore_forms (s : State) (off : Nat) (hyp_s : s.canonical = true) :
    (State.regBefore s off).canonical = true := by
  unfold State.regBefore
  with_reducible repeat' first
    | simp -zeta only [canonical_mk, near_mk, far_mk] | apply media_and | (apply Far.flashOk) | (apply Far.parityOk) | assumption | intro _
    | apply forms_ite | apply State.onFar_forms | apply State.onStk_forms

theorem State.acctWrite_forms (s : State) (x : Account) (hyp_s : s.canonical = true) :
    (State.acctWrite s x).canonical = true := by
  unfold State.acctWrite
  with_reducible repeat' first
    | assumption | intro _ | (extract_lets +onlyGivenNames x; clear_value x; revert x; intro _) | apply forms_ite | apply State.branWatch_forms
    | apply State.setAcct_forms

theorem State.floorWrite_forms (s : State) (v : Nat) (hyp_s : s.canonical = true) :
    (State.floorWrite s v).canonical = true := by
  unfold State.floorWrite
  with_reducible repeat' first
    | assumption | (extract_lets +onlyGivenNames x; clear_value x; revert x; intro _) | apply forms_ite | apply State.setAcct_forms

theorem State.lateWrite_forms (s : State) (ld : Option Nat) (v : Nat) (hyp_s : s.canonical = true) :
    (State.lateWrite s ld v).canonical = true := by
  unfold State.lateWrite
  with_reducible repeat' first
    | assumption | (extract_lets +onlyGivenNames x; clear_value x; revert x; intro _) | apply forms_ite | apply State.onTier_forms
    | (split <;> try (rename_i h; have hp := forms_ofEq h ?_; clear h))

theorem State.regWrite_forms (s : State) (ld : Option Nat) (off v : Nat) (hyp_s : s.canonical = true) :
    (State.regWrite s ld off v).canonical = true := by
  unfold State.regWrite
  with_reducible repeat' first
    | assumption | (extract_lets +onlyGivenNames x; have hx : x.canonical = true := ?_; (on_goal 2 => subst x); clear_value x; revert x; intro _ _)
    | (extract_lets +onlyGivenNames x; clear_value x; revert x; intro _) | apply forms_ite | apply State.acctWrite_forms
    | apply State.floorWrite_forms | apply State.setAcct_forms | apply State.lateWrite_forms | apply State.modLat_forms
    | apply State.regBefore_forms | apply State.setRegB_forms | apply State.checkMark_forms
    | (split <;> try (rename_i h; have hp := forms_ofEq h ?_; clear h))

theorem execRegisterWrite_forms (view : View) (off : Nat) (v : Word) (s : State) (hyp_s : s.canonical = true) :
    OkForms (execRegisterWrite view off v s) := by
  unfold execRegisterWrite
  with_reducible repeat' first
    | assumption | apply forms_next | apply forms_ite | apply State.regWrite_forms
    | (split <;> try (rename_i h; have hp := forms_ofEq h ?_; clear h))

/-! ## Boot -/

/-- The registers that a warm reset keeps stay under their keys. -/

theorem State.warmRegs (s : State) (m : FMap Word) (hm : rising m = true) : rising (m.filterMap fun (e : Nat × Word) => s.warmReg e.1) = true := by
  refine rising_filterMap (fun e y h => ?_) hm
  unfold State.warmReg at h
  split at h
  · cases h
  · split at h
    · cases h
    · dsimp only at h
      split at h
      · cases h
      · injection h with h; rw [← h]

theorem State.wipe_forms (s : State) (hyp_s : s.canonical = true) :
    (State.wipe s).canonical = true := by
  unfold State.wipe
  with_reducible repeat' first
    | simp -zeta only [canonical_mk, near_mk, far_mk] | apply forms_and | apply media_and | (apply State.near_wf; assumption)
    | (apply State.far_wf; assumption) | (apply State.regs_rising; assumption) | (apply Far.flashOk) | (apply Far.parityOk)
    | exact State.reset_canonical | exact far_reset | assumption
    | (extract_lets +onlyGivenNames x; have hx : x.canonical = true := ?_; (on_goal 2 => subst x); clear_value x; revert x; intro _ _)
    | (extract_lets +onlyGivenNames x; have hx : x.wf = true := ?_; (on_goal 2 => subst x); clear_value x; revert x; intro _ _)

theorem State.startBoot_forms (s : State) (kind : Nat) (hyp_s : s.canonical = true) :
    (State.startBoot s kind).canonical = true := by
  unfold State.startBoot
  with_reducible repeat' first
    | (simp -zeta only [canonical_mk]; apply canon; assumption) | simp -zeta only [canonical_mk, near_mk, far_mk] | apply media_and
    | (apply Far.flashOk) | (apply Far.parityOk) | assumption | intro _
    | (extract_lets +onlyGivenNames x; have hx : x.canonical = true := ?_; (on_goal 2 => subst x); clear_value x; revert x; intro _ _)
    | apply forms_each | apply State.wipe_forms | apply State.onPwr_forms | apply State.onFar_forms | apply State.portTry_forms

theorem State.resetKind_forms (s : State) (kind : Nat) (hyp_s : s.canonical = true) :
    (State.resetKind s kind).canonical = true := by
  unfold State.resetKind
  with_reducible repeat' first
    | assumption | apply forms_ite | apply State.startBoot_forms | apply State.wipe_forms | apply State.onPwr_forms

theorem State.notFit_forms (s : State) (hyp_s : s.canonical = true) :
    (State.notFit s).canonical = true := by
  unfold State.notFit
  with_reducible repeat' first
    | assumption | apply State.onPwr_forms

theorem State.goodBanks_forms (s : State) (a b : Nat) (hyp_s : s.canonical = true) :
    (State.goodBanks s a b).1.canonical = true := by
  unfold State.goodBanks
  with_reducible repeat' first
    | assumption | intro _
    | (extract_lets +onlyGivenNames x; have hx : x.canonical = true := ?_; (on_goal 2 => subst x); clear_value x; revert x; intro _ _)
    | (extract_lets +onlyGivenNames x; clear_value x; revert x; intro _) | apply forms_each | apply State.intr_forms | apply State.post_forms

theorem State.seedReg_forms (s : State) (lock : Bool) (v : Bytes) (hyp_s : s.canonical = true) :
    (State.seedReg s lock v).canonical = true := by
  unfold State.seedReg
  with_reducible repeat' first
    | assumption | (extract_lets +onlyGivenNames x; clear_value x; revert x; intro _) | apply forms_ite | apply State.setReg_forms
    | apply State.regWrite_forms

theorem State.seedRec_forms (s : State) (r : Nat × Bytes) (hyp_s : s.canonical = true) :
    (State.seedRec s r).canonical = true := by
  unfold State.seedRec
  with_reducible repeat' first
    | assumption | apply forms_ite | apply State.seedReg_forms | apply State.onHdg_forms | apply State.bump_forms

theorem State.applySeed_forms (s : State) (l : List (Nat × Bytes)) (hyp_s : s.canonical = true) :
    (State.applySeed s l).canonical = true := by
  unfold State.applySeed
  with_reducible repeat' first
    | assumption | intro _ | apply forms_each | apply State.seedRec_forms

theorem State.lockSeed_forms (s : State) (l : List (Nat × Bytes)) (hyp_s : s.canonical = true) :
    (State.lockSeed s l).canonical = true := by
  unfold State.lockSeed
  with_reducible repeat' first
    | assumption | intro _ | apply forms_ite | apply forms_each | apply State.seedReg_forms

theorem State.bootFw_forms (s : State) (hyp_s : s.canonical = true) :
    (State.bootFw s).canonical = true := by
  unfold State.bootFw
  with_reducible repeat' first
    | simp -zeta only [canonical_mk, near_mk, far_mk] | assumption | apply State.goodBanks_forms | apply State.onPwr_forms

theorem State.bootSeed_forms (s : State) (hyp_s : s.canonical = true) :
    (State.bootSeed s).canonical = true := by
  unfold State.bootSeed
  with_reducible repeat' first
    | simp -zeta only [canonical_mk, near_mk, far_mk] | assumption
    | (extract_lets +onlyGivenNames x; have hx : x.canonical = true := ?_; (on_goal 2 => subst x); clear_value x; revert x; intro _ _)
    | (extract_lets +onlyGivenNames x; clear_value x; revert x; intro _) | apply forms_ite | apply State.goodBanks_forms | apply State.intr_forms
    | apply State.post_forms | apply State.onPwr_forms | apply State.applySeed_forms | apply State.onHdg_forms | apply State.lockSeed_forms

theorem State.bootChan_forms (s : State) (n : Nat) (all : Bool) (hyp_s : s.canonical = true) :
    (State.bootChan s n all).canonical = true := by
  unfold State.bootChan
  with_reducible repeat' first
    | assumption | (extract_lets +onlyGivenNames x; clear_value x; revert x; intro _) | apply forms_ite | apply State.setChan_forms
    | apply State.trained_forms | apply State.post_forms

theorem State.excludeChaff_forms (s : State) (l : List Chaff) (hyp_s : s.canonical = true) :
    (State.excludeChaff s l).canonical = true := by
  unfold State.excludeChaff
  with_reducible repeat' first
    | simp -zeta only [canonical_mk, near_mk, far_mk] | (apply Near.linesOk) | assumption | intro _ | apply forms_ite | apply forms_each
    | apply State.excludeUnit_forms | apply State.onNear_forms

theorem State.layPool_forms (s : State) (l : List Chaff) (hyp_s : s.canonical = true) :
    (State.layPool s l).canonical = true := by
  unfold State.layPool
  with_reducible repeat' first
    | simp -zeta only [canonical_mk, near_mk, far_mk] | (apply Near.linesOk) | assumption
    | (extract_lets +onlyGivenNames x; have hx : x.canonical = true := ?_; (on_goal 2 => subst x); clear_value x; revert x; intro _ _)
    | (extract_lets +onlyGivenNames x; clear_value x; revert x; intro _) | apply State.onNear_forms | apply State.excludeChaff_forms

theorem State.bootDram_forms (s : State) (all : Bool) (hyp_s : s.canonical = true) :
    (State.bootDram s all).canonical = true := by
  unfold State.bootDram
  with_reducible repeat' first
    | assumption | intro _
    | (extract_lets +onlyGivenNames x; have hx : x.canonical = true := ?_; (on_goal 2 => subst x); clear_value x; revert x; intro _ _)
    | (extract_lets +onlyGivenNames x; clear_value x; revert x; intro _) | apply forms_ite | apply forms_each | apply State.bootChan_forms
    | apply State.drew_forms | apply State.post_forms | apply State.layPool_forms | apply State.notFit_forms

theorem State.bootKey_forms (s : State) (all : Bool) (e : Nat × Nat) (hyp_s : s.canonical = true) :
    (State.bootKey s all e).canonical = true := by
  unfold State.bootKey
  with_reducible repeat' first
    | assumption | (extract_lets +onlyGivenNames x; have hx : x.canonical = true := ?_; (on_goal 2 => subst x); clear_value x; revert x; intro _ _)
    | (extract_lets +onlyGivenNames x; clear_value x; revert x; intro _) | apply forms_ite | apply State.onSec_forms | apply State.drew_forms
    | apply State.intr_forms | apply State.toMeta_forms

theorem State.takeBands_forms (s : State) (m : MetaSnap) (hyp_s : s.canonical = true) :
    (State.takeBands s m).canonical = true := by
  unfold State.takeBands
  with_reducible repeat' first
    | simp -zeta only [canonical_mk, near_mk, far_mk] | apply media_and | (apply Far.flashOk) | (apply Far.parityOk) | assumption | intro _
    | (extract_lets +onlyGivenNames x; have hx : x.canonical = true := ?_; (on_goal 2 => subst x); clear_value x; revert x; intro _ _)
    | apply State.onFar_forms

theorem State.bootFar_forms (s : State) (all : Bool) (hyp_s : s.canonical = true) :
    (State.bootFar s all).canonical = true := by
  unfold State.bootFar
  with_reducible repeat' first
    | assumption | intro _
    | (extract_lets +onlyGivenNames x; have hx : x.canonical = true := ?_; (on_goal 2 => subst x); clear_value x; revert x; intro _ _)
    | (extract_lets +onlyGivenNames x; clear_value x; revert x; intro _) | apply forms_ite | apply forms_each | apply State.onInt_forms
    | apply State.takeBands_forms | apply State.bootKey_forms | apply State.notFit_forms

theorem State.bootLost_forms (s : State) (slot : Nat) (hyp_s : s.canonical = true) :
    (State.bootLost s slot).canonical = true := by
  unfold State.bootLost
  with_reducible repeat' first
    | assumption | intro _
    | (extract_lets +onlyGivenNames x; have hx : x.canonical = true := ?_; (on_goal 2 => subst x); clear_value x; revert x; intro _ _)
    | (extract_lets +onlyGivenNames x; clear_value x; revert x; intro _) | apply forms_each | apply State.setPme_forms
    | apply State.poisonPageEntry_forms | apply State.freeFar_forms | apply State.post_forms

theorem State.withoutTail_forms (s : State) (hyp_s : s.canonical = true) :
    (State.withoutTail s).canonical = true := by
  unfold State.withoutTail
  with_reducible repeat' first
    | assumption | (extract_lets +onlyGivenNames x; have hx : x.canonical = true := ?_; (on_goal 2 => subst x); clear_value x; revert x; intro _ _)
    | (extract_lets +onlyGivenNames x; clear_value x; revert x; intro _) | apply State.layPool_forms | apply State.takeBands_forms
    | apply State.onSec_forms

theorem State.bootMap_forms (s : State) (all : Bool) (hyp_s : s.canonical = true) :
    (State.bootMap s all).canonical = true := by
  unfold State.bootMap
  with_reducible repeat' first
    | simp -zeta only [canonical_mk, near_mk, far_mk] | apply media_and | (apply Far.flashOk) | (apply Far.parityOk) | assumption | intro _
    | (extract_lets +onlyGivenNames x; have hx : x.canonical = true := ?_; (on_goal 2 => subst x); clear_value x; revert x; intro _ _)
    | (extract_lets +onlyGivenNames x; clear_value x; revert x; intro _) | apply forms_ite | apply forms_each | apply State.drew_forms
    | apply State.onFar_forms | apply State.withoutTail_forms | apply State.intr_forms | apply State.post_forms | apply State.onTier_forms
    | apply State.onSpc_forms | apply State.onInt_forms | apply State.onHdg_forms | apply State.bootLost_forms | apply State.onPwr_forms
    | apply State.onHusk_forms | apply State.forget_forms

theorem State.bootPorts_forms (s : State) (hyp_s : s.canonical = true) :
    (State.bootPorts s).canonical = true := by
  unfold State.bootPorts
  with_reducible repeat' first
    | assumption | intro _ | apply forms_ite | apply forms_each | apply State.trainPort_forms

theorem State.bootEnd_forms (s : State) (all : Bool) (hyp_s : s.canonical = true) :
    (State.bootEnd s all).canonical = true := by
  unfold State.bootEnd
  with_reducible repeat' first
    | assumption | intro _
    | (extract_lets +onlyGivenNames x; have hx : x.canonical = true := ?_; (on_goal 2 => subst x); clear_value x; revert x; intro _ _)
    | (extract_lets +onlyGivenNames x; clear_value x; revert x; intro _) | apply forms_ite | apply forms_each | apply State.setLease_forms
    | apply State.defaultPolicy_forms | apply State.setTiller_forms | apply State.drew_forms | apply State.onQos_forms | apply State.onPwr_forms
    | apply State.post_forms

theorem State.firstEpoch_forms (s : State) (hyp_s : s.canonical = true) :
    (State.firstEpoch s).canonical = true := by
  unfold State.firstEpoch
  with_reducible repeat' first
    | assumption | apply State.onTier_forms

theorem State.bootStep_forms (s : State) (k ms : Nat) (ok : Bool) (hyp_s : s.canonical = true) :
    (State.bootStep s k ms ok).canonical = true := by
  unfold State.bootStep
  repeat' first
    | (simp -zeta only [canonical_mk]; apply canon; assumption)
    | simp -zeta only [canonical_mk, near_mk, far_mk]
    | with_reducible apply forms_and
    | with_reducible apply media_and
    | (with_reducible apply State.near_wf; with_reducible assumption)
    | (with_reducible apply State.far_wf; with_reducible assumption)
    | (with_reducible apply State.regs_rising; with_reducible assumption)
    | (with_reducible apply Near.linesOk)
    | (with_reducible apply Far.flashOk)
    | (with_reducible apply Far.parityOk)
    | with_reducible exact State.reset_canonical
    | with_reducible exact near_reset
    | with_reducible exact far_reset
    | with_reducible assumption
    | intro _
    | (extract_lets +onlyGivenNames x; have hx : x.canonical = true := ?_; (on_goal 2 => subst x); clear_value x; revert x; intro _ _)
    | (extract_lets +onlyGivenNames x; have hx : ∀ y0 : State, y0.canonical = true → ∀ y1 : Nat, (x y0 y1).canonical = true := ?_; (on_goal 2 => subst x); clear_value x; revert x; intro _ _)
    | (extract_lets +onlyGivenNames x; have hx : x.1.canonical = true := ?_; (on_goal 2 => subst x); clear_value x; revert x; intro _ _)
    | (extract_lets +onlyGivenNames x; have hx : x.wf = true := ?_; (on_goal 2 => subst x); clear_value x; revert x; intro _ _)
    | (extract_lets +onlyGivenNames x; clear_value x; revert x; intro _)
    | with_reducible apply forms_ite
    | with_reducible apply forms_iteFst
    | with_reducible apply forms_oite
    | with_reducible apply State.onPwr_forms
    | with_reducible apply State.bootFw_forms
    | with_reducible apply State.onStk_forms
    | with_reducible apply State.post_forms
    | with_reducible apply State.notFit_forms
    | with_reducible apply State.bootSeed_forms
    | with_reducible apply State.bootDram_forms
    | with_reducible apply State.bootFar_forms
    | with_reducible apply State.bootMap_forms
    | with_reducible apply State.bootPorts_forms
    | with_reducible apply State.floodMine_forms
    | with_reducible apply State.firstEpoch_forms
    | with_reducible apply State.bootEnd_forms
    | (split <;> try (rename_i h; have hp := forms_ofEq h ?_; clear h))
    | with_reducible apply_assumption
    | (fail_if_no_progress beta_reduce)
    | (fail_if_no_progress dsimp only)
    | with_reducible apply State.near_wf
    | with_reducible apply State.far_wf
    | with_reducible apply State.regs_rising

theorem State.startWarm_forms (s : State) (hyp_s : s.canonical = true) :
    (State.startWarm s).canonical = true := by
  unfold State.startWarm
  with_reducible repeat' first
    | simp -zeta only [canonical_mk, near_mk, far_mk] | apply forms_and | (apply State.near_wf; assumption) | (apply State.far_wf; assumption)
    | (apply State.regs_rising; assumption) | apply State.warmRegs | assumption | intro _
    | (extract_lets +onlyGivenNames x; have hx : x.canonical = true := ?_; (on_goal 2 => subst x); clear_value x; revert x; intro _ _)
    | apply forms_ite | apply forms_each | apply State.endBg_forms | apply State.dozeClose_forms | apply State.drainTo_forms
    | apply State.setChan_forms | apply State.dozeMark_forms | apply State.onTlr_forms | apply State.onHusk_forms | apply State.onPwr_forms

theorem State.warmEnd_forms (s : State) (hyp_s : s.canonical = true) :
    (State.warmEnd s).canonical = true := by
  unfold State.warmEnd
  with_reducible repeat' first
    | assumption | intro _
    | (extract_lets +onlyGivenNames x; have hx : x.canonical = true := ?_; (on_goal 2 => subst x); clear_value x; revert x; intro _ _)
    | (extract_lets +onlyGivenNames x; clear_value x; revert x; intro _) | apply forms_ite | apply forms_each | apply State.setChan_forms
    | apply State.modLease_forms | apply State.onPwr_forms | apply State.portsWide_forms | apply State.dozeMark_forms | apply State.bump_forms
    | apply State.post_forms | apply State.emit_forms | apply State.serveHeld_forms | apply State.retryMoves_forms

theorem State.warmStep_forms (s : State) (k : Nat) (hyp_s : s.canonical = true) :
    (State.warmStep s k).canonical = true := by
  unfold State.warmStep
  with_reducible repeat' first
    | simp -zeta only [canonical_mk, near_mk, far_mk] | assumption | intro _
    | (extract_lets +onlyGivenNames x; have hx : ∀ y0 : State, y0.canonical = true → ∀ y1 : Nat, (x y0 y1).canonical = true := ?_; (on_goal 2 => subst x); clear_value x; revert x; intro _ _)
    | apply forms_ite | apply State.onPwr_forms | apply State.bootFw_forms | apply State.bootSeed_forms | apply State.warmEnd_forms
    | (split <;> try (rename_i h; have hp := forms_ofEq h ?_; clear h)) | apply_assumption

theorem execBootStepDone_forms (ms : Nat) (ok : Bool) (s : State) (hyp_s : s.canonical = true) :
    OkForms (execBootStepDone ms ok s) := by
  unfold execBootStepDone
  with_reducible repeat' first
    | assumption | apply forms_next | apply forms_ite | apply State.warmStep_forms | apply State.bootStep_forms
    | (split <;> try (rename_i h; have hp := forms_ofEq h ?_; clear h))

/-! ## Power -/

theorem State.powerLoss_forms (s : State) (hyp_s : s.canonical = true) :
    (State.powerLoss s).canonical = true := by
  unfold State.powerLoss
  with_reducible repeat' first
    | assumption | apply forms_ite | apply State.onPwr_forms

theorem execModPwrgdFall_forms (s : State) (hyp_s : s.canonical = true) :
    OkForms (execModPwrgdFall s) := by
  unfold execModPwrgdFall
  with_reducible repeat' first
    | assumption | apply forms_next | apply State.onPwr_forms | apply State.powerLoss_forms

theorem execInputUndervoltage_forms (s : State) (hyp_s : s.canonical = true) :
    OkForms (execInputUndervoltage s) := by
  unfold execInputUndervoltage
  with_reducible repeat' first
    | assumption | apply forms_next | apply State.onPwr_forms | apply State.powerLoss_forms

theorem execThermalShutdown_forms (s : State) (hyp_s : s.canonical = true) :
    OkForms (execThermalShutdown s) := by
  unfold execThermalShutdown
  with_reducible repeat' first
    | assumption | apply forms_next | apply State.powerLoss_forms

theorem execPowerLossFlushDone_forms (s : State) (hyp_s : s.canonical = true) :
    OkForms (execPowerLossFlushDone s) := by
  unfold execPowerLossFlushDone
  with_reducible repeat' first
    | simp -zeta only [canonical_mk, near_mk, far_mk] | apply media_and | (apply Far.flashOk) | (apply Far.parityOk) | assumption | apply forms_next
    | intro _ | (extract_lets +onlyGivenNames x; have hx : x.canonical = true := ?_; (on_goal 2 => subst x); clear_value x; revert x; intro _ _)
    | (extract_lets +onlyGivenNames x; clear_value x; revert x; intro _) | apply forms_ite | apply forms_each | apply State.onFar_forms
    | apply State.putArchive_forms | apply State.wipe_forms | apply State.onPwr_forms | apply State.resetKind_forms

theorem execModPwrgdRise_forms (s : State) (hyp_s : s.canonical = true) :
    OkForms (execModPwrgdRise s) := by
  unfold execModPwrgdRise
  with_reducible repeat' first
    | assumption | apply forms_next
    | (extract_lets +onlyGivenNames x; have hx : x.canonical = true := ?_; (on_goal 2 => subst x); clear_value x; revert x; intro _ _)
    | apply forms_ite | apply State.onPwr_forms | apply State.resetKind_forms

theorem execInputReturnStable_forms (s : State) (hyp_s : s.canonical = true) :
    OkForms (execInputReturnStable s) := by
  unfold execInputReturnStable
  with_reducible repeat' first
    | assumption | apply forms_next
    | (extract_lets +onlyGivenNames x; have hx : x.canonical = true := ?_; (on_goal 2 => subst x); clear_value x; revert x; intro _ _)
    | apply forms_ite | apply State.onPwr_forms | apply State.resetKind_forms

theorem execModResetAssert_forms (s : State) (hyp_s : s.canonical = true) :
    OkForms (execModResetAssert s) := by
  unfold execModResetAssert
  with_reducible repeat' first
    | assumption | apply forms_next
    | (extract_lets +onlyGivenNames x; have hx : x.canonical = true := ?_; (on_goal 2 => subst x); clear_value x; revert x; intro _ _)
    | apply forms_ite | apply State.onPwr_forms | apply State.resetKind_forms

theorem execModResetRelease_forms (s : State) (hyp_s : s.canonical = true) :
    OkForms (execModResetRelease s) := by
  unfold execModResetRelease
  with_reducible repeat' first
    | assumption | apply forms_next
    | (extract_lets +onlyGivenNames x; have hx : x.canonical = true := ?_; (on_goal 2 => subst x); clear_value x; revert x; intro _ _)
    | apply forms_ite | apply State.onPwr_forms | apply State.startBoot_forms

theorem execReferenceLock_forms (s : State) (hyp_s : s.canonical = true) :
    OkForms (execReferenceLock s) := by
  unfold execReferenceLock
  with_reducible repeat' first
    | assumption | apply forms_next | apply forms_ite | apply State.onHost_forms | apply State.post_forms

theorem execRefclkLoss_forms (s : State) (hyp_s : s.canonical = true) :
    OkForms (execRefclkLoss s) := by
  unfold execRefclkLoss
  with_reducible repeat' first
    | assumption | apply forms_next | apply forms_ite | apply State.onHost_forms | apply State.intr_forms | apply State.post_forms

theorem execRefclkLossReset_forms (s : State) (hyp_s : s.canonical = true) :
    OkForms (execRefclkLossReset s) := by
  unfold execRefclkLossReset
  with_reducible repeat' first
    | assumption | apply forms_next | apply forms_ite | apply State.resetKind_forms
    | (split <;> try (rename_i h; have hp := forms_ofEq h ?_; clear h))

theorem execRailEvaluate_forms (mv : Nat) (s : State) (hyp_s : s.canonical = true) :
    OkForms (execRailEvaluate mv s) := by
  unfold execRailEvaluate
  with_reducible repeat' first
    | assumption | apply forms_next | apply forms_ite | apply State.onPwr_forms

theorem State.setThrottle_forms (s : State) (t : Nat) (hyp_s : s.canonical = true) :
    (State.setThrottle s t).canonical = true := by
  unfold State.setThrottle
  with_reducible repeat' first
    | assumption | (extract_lets +onlyGivenNames x; have hx : x.canonical = true := ?_; (on_goal 2 => subst x); clear_value x; revert x; intro _ _)
    | apply State.onPwr_forms | apply State.rescaled_forms | apply State.intr_forms | apply State.bump_forms | apply State.post_forms

theorem execThrottleSample_forms (inputW tj : Nat) (s : State) (hyp_s : s.canonical = true) :
    OkForms (execThrottleSample inputW tj s) := by
  unfold execThrottleSample
  with_reducible repeat' first
    | assumption | apply forms_next
    | (extract_lets +onlyGivenNames x; have hx : x.canonical = true := ?_; (on_goal 2 => subst x); clear_value x; revert x; intro _ _)
    | (extract_lets +onlyGivenNames x; clear_value x; revert x; intro _) | apply forms_ite | apply State.onPwr_forms | apply State.setThrottle_forms

theorem execThrottleRaise_forms (s : State) (hyp_s : s.canonical = true) :
    OkForms (execThrottleRaise s) := by
  unfold execThrottleRaise
  with_reducible repeat' first
    | assumption | apply forms_next | apply forms_ite | apply State.setThrottle_forms | apply State.onPwr_forms

theorem execMgmtWatchdogExpire_forms (s : State) (hyp_s : s.canonical = true) :
    OkForms (execMgmtWatchdogExpire s) := by
  unfold execMgmtWatchdogExpire
  with_reducible repeat' first
    | assumption | apply forms_next | apply forms_ite | apply State.startWarm_forms

theorem execWarmReset_forms (x : Mbx) (s : State) (hyp_s : s.canonical = true) :
    OkForms (execWarmReset x s) := by
  unfold execWarmReset
  with_reducible repeat' first
    | assumption | apply forms_next | intro _ | apply forms_ite | apply State.status_forms | apply State.command_forms | apply State.startWarm_forms

theorem execModuleReset_forms (x : Mbx) (s : State) (hyp_s : s.canonical = true) :
    OkForms (execModuleReset x s) := by
  unfold execModuleReset
  with_reducible repeat' first
    | assumption | apply forms_next | intro _ | apply State.command_forms | apply State.status_forms | apply State.resetKind_forms

theorem execChannelReset_forms (x : Mbx) (s : State) (hyp_s : s.canonical = true) :
    OkForms (execChannelReset x s) := by
  unfold execChannelReset
  with_reducible repeat' first
    | simp -zeta only [canonical_mk, near_mk, far_mk] | apply forms_and | (apply State.near_wf; assumption) | (apply State.far_wf; assumption)
    | (apply State.regs_rising; assumption) | apply rising_filter | assumption | apply forms_next | intro _
    | (extract_lets +onlyGivenNames x; have hx : x.canonical = true := ?_; (on_goal 2 => subst x); clear_value x; revert x; intro _ _)
    | (extract_lets +onlyGivenNames x; clear_value x; revert x; intro _) | apply forms_ite | apply State.command_forms | apply State.status_forms
    | apply State.setChan_forms

theorem State.verifyBank_forms (s : State) (kind b : Nat) (hyp_s : s.canonical = true) :
    (State.verifyBank s kind b).1.canonical = true := by
  unfold State.verifyBank
  with_reducible repeat' first
    | simp -zeta only [canonical_mk, near_mk, far_mk] | assumption | (extract_lets +onlyGivenNames x; clear_value x; revert x; intro _)
    | apply State.onPwr_forms | (split <;> try (rename_i h; have hp := forms_ofEq h ?_; clear h))

theorem State.writeBank_forms (s : State) (b off : Nat) (d : Bytes) (hyp_s : s.canonical = true) :
    (State.writeBank s b off d).canonical = true := by
  unfold State.writeBank
  with_reducible repeat' first
    | assumption | (extract_lets +onlyGivenNames x; clear_value x; revert x; intro _) | apply State.drew_forms | apply State.onPwr_forms

theorem State.seedCmd_forms (s : State) (x : Mbx) (hyp_s : s.canonical = true) :
    (State.seedCmd s x).canonical = true := by
  unfold State.seedCmd
  with_reducible repeat' first
    | simp -zeta only [canonical_mk, near_mk, far_mk] | assumption | intro _ | (extract_lets +onlyGivenNames x; clear_value x; revert x; intro _)
    | apply forms_ite | apply State.command_forms | apply State.status_forms | apply State.verifyBank_forms | apply State.onPwr_forms
    | apply State.writeBank_forms

theorem execSeedWrite_forms (x : Mbx) (s : State) (hyp_s : s.canonical = true) :
    OkForms (execSeedWrite x s) := by
  unfold execSeedWrite
  with_reducible repeat' first
    | assumption | apply forms_next | apply State.seedCmd_forms

theorem execSeedWriteEnd_forms (x : Mbx) (s : State) (hyp_s : s.canonical = true) :
    OkForms (execSeedWriteEnd x s) := by
  unfold execSeedWriteEnd
  with_reducible repeat' first
    | assumption | apply forms_next | apply State.seedCmd_forms

theorem execSeedQuery_forms (x : Mbx) (s : State) (hyp_s : s.canonical = true) :
    OkForms (execSeedQuery x s) := by
  unfold execSeedQuery
  with_reducible repeat' first
    | assumption | apply forms_next | intro _ | (extract_lets +onlyGivenNames x; clear_value x; revert x; intro _) | apply State.command_forms
    | apply State.okOut_forms

theorem State.fwEnd_forms (s : State) (x : Mbx) (b : Nat) (hyp_s : s.canonical = true) :
    (State.fwEnd s x b).canonical = true := by
  unfold State.fwEnd
  with_reducible repeat' first
    | simp -zeta only [canonical_mk, near_mk, far_mk] | assumption
    | (extract_lets +onlyGivenNames x; have hx : x.canonical = true := ?_; (on_goal 2 => subst x); clear_value x; revert x; intro _ _)
    | (extract_lets +onlyGivenNames x; clear_value x; revert x; intro _) | apply State.onHost_forms | apply State.writeBank_forms
    | apply State.verifyBank_forms | apply State.reply_forms

theorem execTransferFw_forms (x : Mbx) (s : State) (hyp_s : s.canonical = true) :
    OkForms (execTransferFw x s) := by
  unfold execTransferFw
  with_reducible repeat' first
    | assumption | apply forms_next | intro _
    | (extract_lets +onlyGivenNames x; have hx : x.canonical = true := ?_; (on_goal 2 => subst x); clear_value x; revert x; intro _ _)
    | (extract_lets +onlyGivenNames x; clear_value x; revert x; intro _) | apply forms_ite | apply State.stdCommand_forms | apply State.onHost_forms
    | apply State.reply_forms | apply State.fwEnd_forms

theorem execActivateFw_forms (x : Mbx) (s : State) (hyp_s : s.canonical = true) :
    OkForms (execActivateFw x s) := by
  unfold execActivateFw
  with_reducible repeat' first
    | assumption | apply forms_next | intro _ | (extract_lets +onlyGivenNames x; clear_value x; revert x; intro _) | apply forms_ite
    | apply State.stdCommand_forms | apply State.reply_forms | apply State.onPwr_forms | apply State.startWarm_forms

/-! ## Envelope -/

theorem accountBind_forms (x : Mbx) (s : State) (hyp_s : s.canonical = true) :
    OkForms (accountBind x s) := by
  unfold accountBind
  with_reducible repeat' first
    | assumption | apply forms_oite | apply execAccountBindAdd_forms | apply execAccountBindRemove_forms

theorem tierMoveOp_forms (x : Mbx) (s : State) (hyp_s : s.canonical = true) :
    OkForms (tierMoveOp x s) := by
  unfold tierMoveOp
  with_reducible repeat' first
    | assumption | apply forms_oite | apply execTierMoveDemote_forms | apply execTierMovePromote_forms

theorem moverCtlOp_forms (x : Mbx) (s : State) (hyp_s : s.canonical = true) :
    OkForms (moverCtlOp x s) := by
  unfold moverCtlOp
  with_reducible repeat' first
    | assumption | apply forms_oite | apply execMoverCtlAbort_forms | apply execMoverCtlResume_forms

theorem freezeOp_forms (x : Mbx) (s : State) (hyp_s : s.canonical = true) :
    OkForms (freezeOp x s) := by
  unfold freezeOp
  with_reducible repeat' first
    | assumption | apply forms_oite | apply execFreezeThaw_forms | apply execFreeze_forms

theorem seedWriteOp_forms (x : Mbx) (s : State) (hyp_s : s.canonical = true) :
    OkForms (seedWriteOp x s) := by
  unfold seedWriteOp
  with_reducible repeat' first
    | assumption | apply forms_oite | apply execSeedWriteEnd_forms | apply execSeedWrite_forms

theorem State.enveloped_forms (s : State) (who : Issuer) (a b : Nat) (hyp_s : s.canonical = true) :
    (State.enveloped s who a b).canonical = true := by
  unfold State.enveloped
  with_reducible repeat' first
    | (simp -zeta only [canonical_mk]; apply canon; assumption) | assumption
    | (extract_lets +onlyGivenNames x; have hx : x.canonical = true := ?_; (on_goal 2 => subst x); clear_value x; revert x; intro _ _)
    | apply State.onHdg_forms

theorem vendorTable_forms : ∀ e ∈ vendorTable, ∀ (x : Mbx) (s : State), s.canonical = true → OkForms (e.2 x s) := by
  intro e he x s hs
  simp only [vendorTable, List.mem_append, List.mem_cons, List.not_mem_nil, or_false, or_assoc] at he
  rcases he with rfl | rfl | rfl | rfl | rfl | rfl | rfl | rfl | rfl | rfl | rfl | rfl | rfl | rfl | rfl | rfl | rfl | rfl | rfl | rfl | rfl | rfl | rfl | rfl | rfl | rfl | rfl | rfl | rfl | rfl | rfl | rfl | rfl | rfl | rfl | rfl | rfl | rfl | rfl | rfl | rfl | rfl | rfl | rfl | rfl | rfl | rfl | rfl | rfl | rfl | rfl | rfl | rfl | rfl | rfl | rfl | rfl | rfl | rfl | rfl | rfl | rfl
  · exact execLeaseGrant_forms x s hs
  · exact execLeaseRenew_forms x s hs
  · exact execLeaseRelease_forms x s hs
  · exact execLeaseAttach_forms x s hs
  · exact execLeaseQuery_forms x s hs
  · exact execLeaseRevoke_forms x s hs
  · exact execAccountSet_forms x s hs
  · exact execAccountQuery_forms x s hs
  · exact execExtentRespread_forms x s hs
  · exact accountBind_forms x s hs
  · exact execPubBuild_forms x s hs
  · exact execPubFlip_forms x s hs
  · exact execDirQuery_forms x s hs
  · exact execTrain_forms x s hs
  · exact execTableLoad_forms x s hs
  · exact execTablePublish_forms x s hs
  · exact execTableBind_forms x s hs
  · exact execTableRetire_forms x s hs
  · exact execTableQuery_forms x s hs
  · exact execRecode_forms x s hs
  · exact execVlrBind_forms x s hs
  · exact execVlrDiscard_forms x s hs
  · exact execPolicyActivate_forms x s hs
  · exact execStreamStart_forms x s hs
  · exact execStreamStop_forms x s hs
  · exact execStreamQuery_forms x s hs
  · exact execPagePin_forms x s hs
  · exact execPageUnpin_forms x s hs
  · exact tierMoveOp_forms x s hs
  · exact execFarWearQuery_forms x s hs
  · exact execFarDieRetire_forms x s hs
  · exact execSheafLoad_forms x s hs
  · exact execSheafUnload_forms x s hs
  · exact execSheafQuery_forms x s hs
  · exact execCtxCancel_forms x s hs
  · exact execFormQuery_forms x s hs
  · exact execFormAdopt_forms x s hs
  · exact execWitnessForce_forms x s hs
  · exact execLinkRetrain_forms x s hs
  · exact execResyncQuery_forms x s hs
  · exact execQosClassSet_forms x s hs
  · exact execQosReserve_forms x s hs
  · exact execQosQuery_forms x s hs
  · exact execBroomStart_forms x s hs
  · exact execBroomQuery_forms x s hs
  · exact execRetire_forms x s hs
  · exact execChaffQuery_forms x s hs
  · exact execMoverCopy_forms x s hs
  · exact moverCtlOp_forms x s hs
  · exact execKeyQuery_forms x s hs
  · exact execAccountErase_forms x s hs
  · exact execSpaceKeyRoll_forms x s hs
  · exact execStkRead_forms x s hs
  · exact freezeOp_forms x s hs
  · exact execGaspRead_forms x s hs
  · exact execDozeEnter_forms x s hs
  · exact execDozeExit_forms x s hs
  · exact execWarmReset_forms x s hs
  · exact execModuleReset_forms x s hs
  · exact execChannelReset_forms x s hs
  · exact seedWriteOp_forms x s hs
  · exact execSeedQuery_forms x s hs

theorem stateOf_forms {s : State} {o : Outcome} (hs : s.canonical = true) (ho : OkForms o) : (stateOf s o).canonical = true := by
  unfold stateOf
  split
  · exact ho _ rfl
  · exact hs

theorem execVendorDefinedRequest_forms (who : Issuer) (sess : Fin 2) (std vendor : Nat) (payload : Bytes) (s : State) (hyp_s : s.canonical = true) :
    OkForms (execVendorDefinedRequest who sess std vendor payload s) := by
  unfold execVendorDefinedRequest
  refine forms_next (State.inSess_forms _ _ _ _ hyp_s fun z hz => forms_ite (State.spdmErr_forms _ _ _ hz) ?_)
  refine State.enveloped_forms _ _ _ _ (forms_ite (State.reply_forms _ _ _ _ hz) ?_)
  split
  · next e he => exact stateOf_forms hz (vendorTable_forms e (List.mem_of_find?_eq_some he) _ _ hz)
  · exact State.reply_forms _ _ _ _ hz

/-! ## Idle -/

theorem State.lanesGo_forms (s : State) (hyp_s : s.canonical = true) :
    (State.lanesGo s).canonical = true := by
  unfold State.lanesGo
  with_reducible repeat' first
    | assumption | apply forms_ite | apply State.wakeAt_forms

theorem State.idle_forms (s : State) (hyp_s : s.canonical = true) :
    (State.idle s).canonical = true := by
  unfold State.idle
  repeat' first
    | with_reducible assumption
    | intro _
    | with_reducible apply State.tick_forms
    | with_reducible apply State.drainLanes_forms
    | with_reducible apply State.diesGo_forms
    | with_reducible apply State.lanesGo_forms
    | with_reducible apply State.recodesGo_forms
    | with_reducible apply State.trainsGo_forms
    | with_reducible apply State.buildGo_forms
    | with_reducible apply State.fetchesGo_forms
    | with_reducible apply State.moveCtxs_forms
    | with_reducible apply State.keysGo_forms
    | with_reducible apply State.rolesGo_forms
    | (fail_if_no_progress beta_reduce)
    | (fail_if_no_progress dsimp only)

end Sys2Proof.Machine
end

