-- ==== Sys2Proof/Laws/FormsExec.lean ====
section
/-! SUPPORT. Every command keeps the canonical forms. -/

set_option linter.all false

namespace Sys2Proof.Machine

open Sys2Proof

/-- A command that goes on keeps the canonical forms. -/
theorem exec_forms (i : Instr) (s : State) (hyp_s : s.canonical = true) : OkForms (exec i s) := by
  cases i with
  | hostRead ld hpa mv tag ide => exact execHostRead_forms ld hpa mv tag ide s hyp_s
  | hostWrite ld hpa mv tag mask data ide => exact execHostWrite_forms ld hpa mv tag mask data ide s hyp_s
  | pullThroughDone page => exact execPullThroughDone_forms page s hyp_s
  | pullThroughRaise page => exact execPullThroughRaise_forms page s hyp_s
  | pullThroughDlMiss page => exact execPullThroughDlMiss_forms page s hyp_s
  | streamPtBoundExpire r => exact execStreamPtBoundExpire_forms r s hyp_s
  | mbSlotWindowExpire page => exact execMbSlotWindowExpire_forms page s hyp_s
  | mbWriteSlotWaitEnd r => exact execMbWriteSlotWaitEnd_forms r s hyp_s
  | slotRecodeStart page => exact execSlotRecodeStart_forms page s hyp_s
  | recodeWriteDone page => exact execRecodeWriteDone_forms page s hyp_s
  | leaseGrant x => exact execLeaseGrant_forms x s hyp_s
  | leaseRenew x => exact execLeaseRenew_forms x s hyp_s
  | leaseRelease x => exact execLeaseRelease_forms x s hyp_s
  | leaseAttach x => exact execLeaseAttach_forms x s hyp_s
  | leaseQuery x => exact execLeaseQuery_forms x s hyp_s
  | leaseRevoke x => exact execLeaseRevoke_forms x s hyp_s
  | accountSet x => exact execAccountSet_forms x s hyp_s
  | accountQuery x => exact execAccountQuery_forms x s hyp_s
  | extentRespread x => exact execExtentRespread_forms x s hyp_s
  | accountBindAdd x => exact execAccountBindAdd_forms x s hyp_s
  | accountBindRemove x => exact execAccountBindRemove_forms x s hyp_s
  | spcHbWrite ld w off v => exact execSpcHbWrite_forms ld w off v s hyp_s
  | leaseQuarterLeft h => exact execLeaseQuarterLeft_forms h s hyp_s
  | leaseTimerExpire h => exact execLeaseTimerExpire_forms h s hyp_s
  | leaseGraceExpire h => exact execLeaseGraceExpire_forms h s hyp_s
  | leaseDrainEnd h => exact execLeaseDrainEnd_forms h s hyp_s
  | drainBoundExpire h => exact execDrainBoundExpire_forms h s hyp_s
  | tokenLockoutEnd ld => exact execTokenLockoutEnd_forms ld s hyp_s
  | respreadPageMove e page => exact execRespreadPageMove_forms e page s hyp_s
  | respreadPageMoved e page => exact execRespreadPageMoved_forms e page s hyp_s
  | respreadPortalSwitch e => exact execRespreadPortalSwitch_forms e s hyp_s
  | directoryWaitEnd r => exact execDirectoryWaitEnd_forms r s hyp_s
  | snoopTimeout holder => exact execSnoopTimeout_forms holder s hyp_s
  | holderSweepDone => exact execHolderSweepDone_forms s hyp_s
  | pubBuild x => exact execPubBuild_forms x s hyp_s
  | pubFlip x => exact execPubFlip_forms x s hyp_s
  | pubOldReclaim e => exact execPubOldReclaim_forms e s hyp_s
  | dirQuery x => exact execDirQuery_forms x s hyp_s
  | train x => exact execTrain_forms x s hyp_s
  | tableLoad x => exact execTableLoad_forms x s hyp_s
  | tablePublish x => exact execTablePublish_forms x s hyp_s
  | tableBind x => exact execTableBind_forms x s hyp_s
  | tableRetire x => exact execTableRetire_forms x s hyp_s
  | tableQuery x => exact execTableQuery_forms x s hyp_s
  | recode x => exact execRecode_forms x s hyp_s
  | vlrBind x => exact execVlrBind_forms x s hyp_s
  | vlrDiscard x => exact execVlrDiscard_forms x s hyp_s
  | tableSlotFreed slot => exact execTableSlotFreed_forms slot s hyp_s
  | bgRecodePage page => exact execBgRecodePage_forms page s hyp_s
  | vlrExpansionDone page => exact execVlrExpansionDone_forms page s hyp_s
  | expansionQueueStart => exact execExpansionQueueStart_forms s hyp_s
  | epochBoundary => exact execEpochBoundary_forms s hyp_s
  | ageWalkerVisit page => exact execAgeWalkerVisit_forms page s hyp_s
  | evictionPage page => exact execEvictionPage_forms page s hyp_s
  | demotionDone page => exact execDemotionDone_forms page s hyp_s
  | promotionDone page => exact execPromotionDone_forms page s hyp_s
  | relocationDone page => exact execRelocationDone_forms page s hyp_s
  | placePromote => exact execPlacePromote_forms s hyp_s
  | placeDemote => exact execPlaceDemote_forms s hyp_s
  | placeDiscard => exact execPlaceDiscard_forms s hyp_s
  | placePin => exact execPlacePin_forms s hyp_s
  | placeUnpin => exact execPlaceUnpin_forms s hyp_s
  | policyActivate x => exact execPolicyActivate_forms x s hyp_s
  | streamStart x => exact execStreamStart_forms x s hyp_s
  | streamStop x => exact execStreamStop_forms x s hyp_s
  | streamQuery x => exact execStreamQuery_forms x s hyp_s
  | pagePin x => exact execPagePin_forms x s hyp_s
  | pageUnpin x => exact execPageUnpin_forms x s hyp_s
  | tierMovePromote x => exact execTierMovePromote_forms x s hyp_s
  | tierMoveDemote x => exact execTierMoveDemote_forms x s hyp_s
  | streamLayerPromote idx => exact execStreamLayerPromote_forms idx s hyp_s
  | streamLayerResident idx layer => exact execStreamLayerResident_forms idx layer s hyp_s
  | farReadDone page res => exact execFarReadDone_forms page res s hyp_s
  | farRowProgramDone page journal => exact execFarRowProgramDone_forms page journal s hyp_s
  | durWinExpire page journal => exact execDurWinExpire_forms page journal s hyp_s
  | farProgramFail chan die band => exact execFarProgramFail_forms chan die band s hyp_s
  | farEraseFail chan band => exact execFarEraseFail_forms chan band s hyp_s
  | gcBandCopy page => exact execGcBandCopy_forms page s hyp_s
  | bandErase band => exact execBandErase_forms band s hyp_s
  | governorRefill => exact execGovernorRefill_forms s hyp_s
  | journalCheckpoint => exact execJournalCheckpoint_forms s hyp_s
  | farWearQuery x => exact execFarWearQuery_forms x s hyp_s
  | farDieRetire x => exact execFarDieRetire_forms x s hyp_s
  | add c => exact execAdd_forms c s hyp_s
  | sub c => exact execSub_forms c s hyp_s
  | mul c => exact execMul_forms c s hyp_s
  | mulh c => exact execMulh_forms c s hyp_s
  | and c => exact execAnd_forms c s hyp_s
  | or c => exact execOr_forms c s hyp_s
  | xor c => exact execXor_forms c s hyp_s
  | shl c => exact execShl_forms c s hyp_s
  | shr c => exact execShr_forms c s hyp_s
  | sar c => exact execSar_forms c s hyp_s
  | min c => exact execMin_forms c s hyp_s
  | max c => exact execMax_forms c s hyp_s
  | cmp c => exact execCmp_forms c s hyp_s
  | li c => exact execLi_forms c s hyp_s
  | lds c => exact execLds_forms c s hyp_s
  | sts c => exact execSts_forms c s hyp_s
  | vld c => exact execVld_forms c s hyp_s
  | vst c => exact execVst_forms c s hyp_s
  | vadd c => exact execVadd_forms c s hyp_s
  | vmul c => exact execVmul_forms c s hyp_s
  | vmac c => exact execVmac_forms c s hyp_s
  | vmax c => exact execVmax_forms c s hyp_s
  | vdot c => exact execVdot_forms c s hyp_s
  | vred c => exact execVred_forms c s hyp_s
  | vcvt c => exact execVcvt_forms c s hyp_s
  | vscale c => exact execVscale_forms c s hyp_s
  | mma c => exact execMma_forms c s hyp_s
  | tzero c => exact execTzero_forms c s hyp_s
  | tstore c => exact execTstore_forms c s hyp_s
  | gather c => exact execGather_forms c s hyp_s
  | scatter c => exact execScatter_forms c s hyp_s
  | stream c => exact execStream_forms c s hyp_s
  | putPortMessage c => exact execPutPortMessage_forms c s hyp_s
  | putLineWrite c => exact execPutLineWrite_forms c s hyp_s
  | fetchf c => exact execFetchf_forms c s hyp_s
  | topkIns c => exact execTopkIns_forms c s hyp_s
  | topkDrain c => exact execTopkDrain_forms c s hyp_s
  | br c => exact execBr_forms c s hyp_s
  | brc c => exact execBrc_forms c s hyp_s
  | call c => exact execCall_forms c s hyp_s
  | ret c => exact execRet_forms c s hyp_s
  | loop c => exact execLoop_forms c s hyp_s
  | yield c => exact execYield_forms c s hyp_s
  | waitg c => exact execWaitg_forms c s hyp_s
  | setg c => exact execSetg_forms c s hyp_s
  | signal c => exact execSignal_forms c s hyp_s
  | fence c => exact execFence_forms c s hyp_s
  | trap c => exact execTrap_forms c s hyp_s
  | halt c => exact execHalt_forms c s hyp_s
  | illegalMajorOpcode c => exact execIllegalMajorOpcode_forms c s hyp_s
  | asyncOpDone c op => exact execAsyncOpDone_forms c op s hyp_s
  | fetchfDone c => exact execFetchfDone_forms c s hyp_s
  | waitgReevaluate c => exact execWaitgReevaluate_forms c s hyp_s
  | waitgTimeout c => exact execWaitgTimeout_forms c s hyp_s
  | contextQuantumExpire c => exact execContextQuantumExpire_forms c s hyp_s
  | contextSwapDone c => exact execContextSwapDone_forms c s hyp_s
  | sheafLoad x => exact execSheafLoad_forms x s hyp_s
  | sheafUnload x => exact execSheafUnload_forms x s hyp_s
  | sheafQuery x => exact execSheafQuery_forms x s hyp_s
  | ctxCancel x => exact execCtxCancel_forms x s hyp_s
  | tlrRqTailWrite ld r v => exact execTlrRqTailWrite_forms ld r v s hyp_s
  | tlrRqCfgEnable ld r v => exact execTlrRqCfgEnable_forms ld r v s hyp_s
  | tlrCqCfgEnable ld r v => exact execTlrCqCfgEnable_forms ld r v s hyp_s
  | tlrCqHeadWrite ld r v => exact execTlrCqHeadWrite_forms ld r v s hyp_s
  | tlrSigPopWrite n v => exact execTlrSigPopWrite_forms n v s hyp_s
  | descStart ld r => exact execDescStart_forms ld r s hyp_s
  | descCancel ld r => exact execDescCancel_forms ld r s hyp_s
  | descBarrier ld r => exact execDescBarrier_forms ld r s hyp_s
  | descStartResume ld r => exact execDescStartResume_forms ld r s hyp_s
  | cqCoalesceTimer ld r => exact execCqCoalesceTimer_forms ld r s hyp_s
  | tillerShareReduce n ratio => exact execTillerShareReduce_forms n ratio s hyp_s
  | tillerRestore n ratio => exact execTillerRestore_forms n ratio s hyp_s
  | tlrDisWrite hi v => exact execTlrDisWrite_forms hi v s hyp_s
  | tillerRuntimeFail n => exact execTillerRuntimeFail_forms n s hyp_s
  | flitTransmit p => exact execFlitTransmit_forms p s hyp_s
  | flitDataRx p flit => exact execFlitDataRx_forms p flit s hyp_s
  | flitIdleRx p flit => exact execFlitIdleRx_forms p flit s hyp_s
  | flitNakRx p flit => exact execFlitNakRx_forms p flit s hyp_s
  | flitMarkerRx p epoch tag => exact execFlitMarkerRx_forms p epoch tag s hyp_s
  | portNoFlitTimeout p => exact execPortNoFlitTimeout_forms p s hyp_s
  | portRetrainTimer p => exact execPortRetrainTimer_forms p s hyp_s
  | keyEpochAdvance p => exact execKeyEpochAdvance_forms p s hyp_s
  | linkWeightUpdate => exact execLinkWeightUpdate_forms s hyp_s
  | routeSplitUpdate => exact execRouteSplitUpdate_forms s hyp_s
  | msgRd m => exact execMsgRd_forms m s hyp_s
  | msgWr m => exact execMsgWr_forms m s hyp_s
  | msgWrp m => exact execMsgWrp_forms m s hyp_s
  | msgAtom m => exact execMsgAtom_forms m s hyp_s
  | msgPlace m => exact execMsgPlace_forms m s hyp_s
  | msgSnpinv m => exact execMsgSnpinv_forms m s hyp_s
  | msgSnpdata m => exact execMsgSnpdata_forms m s hyp_s
  | msgSnpcur m => exact execMsgSnpcur_forms m s hyp_s
  | msgData m => exact execMsgData_forms m s hyp_s
  | msgCmp m => exact execMsgCmp_forms m s hyp_s
  | msgBirsp m => exact execMsgBirsp_forms m s hyp_s
  | msgWbk m => exact execMsgWbk_forms m s hyp_s
  | msgMirror m => exact execMsgMirror_forms m s hyp_s
  | msgClose m => exact execMsgClose_forms m s hyp_s
  | msgJrnl m recs => exact execMsgJrnl_forms m recs s hyp_s
  | msgJack m => exact execMsgJack_forms m s hyp_s
  | msgMemb m b => exact execMsgMemb_forms m b s hyp_s
  | msgCopy m b => exact execMsgCopy_forms m b s hyp_s
  | msgGasp m => exact execMsgGasp_forms m s hyp_s
  | msgMack m => exact execMsgMack_forms m s hyp_s
  | msgReservedOp op m => exact execMsgReservedOp_forms op m s hyp_s
  | mirrorMackTimeout r => exact execMirrorMackTimeout_forms r s hyp_s
  | fabricReqTimeout r => exact execFabricReqTimeout_forms r s hyp_s
  | formationRetry => exact execFormationRetry_forms s hyp_s
  | memberDeclareAbsent m elapsedMs => exact execMemberDeclareAbsent_forms m elapsedMs s hyp_s
  | takeoverReplicaActive m => exact execTakeoverReplicaActive_forms m s hyp_s
  | moduleRejoin m serial spaceId => exact execModuleRejoin_forms m serial spaceId s hyp_s
  | resyncPageCopy page => exact execResyncPageCopy_forms page s hyp_s
  | witnessHoldExpire w => exact execWitnessHoldExpire_forms w s hyp_s
  | formQuery x => exact execFormQuery_forms x s hyp_s
  | formAdopt x => exact execFormAdopt_forms x s hyp_s
  | witnessForce x => exact execWitnessForce_forms x s hyp_s
  | linkRetrain x => exact execLinkRetrain_forms x s hyp_s
  | resyncQuery x => exact execResyncQuery_forms x s hyp_s
  | qosClassSet x => exact execQosClassSet_forms x s hyp_s
  | qosReserve x => exact execQosReserve_forms x s hyp_s
  | qosQuery x => exact execQosQuery_forms x s hyp_s
  | qosWindowEnd => exact execQosWindowEnd_forms s hyp_s
  | rtUrgencyChange m level chan => exact execRtUrgencyChange_forms m level chan s hyp_s
  | refreshDue n rank => exact execRefreshDue_forms n rank s hyp_s
  | forcedRefreshDone n rank => exact execForcedRefreshDone_forms n rank s hyp_s
  | refreshRatePoll n rate => exact execRefreshRatePoll_forms n rate s hyp_s
  | writeQueueDrain n => exact execWriteQueueDrain_forms n s hyp_s
  | retrainPeriodExpire n => exact execRetrainPeriodExpire_forms n s hyp_s
  | retrainTempQueue n temp => exact execRetrainTempQueue_forms n temp s hyp_s
  | retrainStart n => exact execRetrainStart_forms n s hyp_s
  | retrainDone n dly rd wr temp => exact execRetrainDone_forms n dly rd wr temp s hyp_s
  | drcRetrainGo v => exact execDrcRetrainGo_forms v s hyp_s
  | channelSlowDetect n => exact execChannelSlowDetect_forms n s hyp_s
  | channelSlowClear n => exact execChannelSlowClear_forms n s hyp_s
  | broomStart x => exact execBroomStart_forms x s hyp_s
  | broomPageVisit page => exact execBroomPageVisit_forms page s hyp_s
  | broomQuery x => exact execBroomQuery_forms x s hyp_s
  | retire x => exact execRetire_forms x s hyp_s
  | chaffQuery x => exact execChaffQuery_forms x s hyp_s
  | moverCopy x => exact execMoverCopy_forms x s hyp_s
  | moverCtlResume x => exact execMoverCtlResume_forms x s hyp_s
  | moverCtlAbort x => exact execMoverCtlAbort_forms x s hyp_s
  | moverCopyChunk m lines => exact execMoverCopyChunk_forms m lines s hyp_s
  | parityDeltaApply n chunk => exact execParityDeltaApply_forms n chunk s hyp_s
  | stripeReconstruct n chunk => exact execStripeReconstruct_forms n chunk s hyp_s
  | intErrqPopWrite v => exact execIntErrqPopWrite_forms v s hyp_s
  | captureReleaseWrite off v => exact execCaptureReleaseWrite_forms off v s hyp_s
  | huskLaneShareReduce n ratio => exact execHuskLaneShareReduce_forms n ratio s hyp_s
  | huskLaneRestore n ratio => exact execHuskLaneRestore_forms n ratio s hyp_s
  | hskLaneDisWrite v => exact execHskLaneDisWrite_forms v s hyp_s
  | spreadMemberSlow e m => exact execSpreadMemberSlow_forms e m s hyp_s
  | keyQuery x => exact execKeyQuery_forms x s hyp_s
  | accountErase x => exact execAccountErase_forms x s hyp_s
  | spaceKeyRoll x => exact execSpaceKeyRoll_forms x s hyp_s
  | keySlotEmptied slot => exact execKeySlotEmptied_forms slot s hyp_s
  | entropyHealthFail => exact execEntropyHealthFail_forms s hyp_s
  | getVersion who data => exact execGetVersion_forms who data s hyp_s
  | getCapabilities who data => exact execGetCapabilities_forms who data s hyp_s
  | negotiateAlgorithms who data => exact execNegotiateAlgorithms_forms who data s hyp_s
  | getDigests who data => exact execGetDigests_forms who data s hyp_s
  | getCertificate who data => exact execGetCertificate_forms who data s hyp_s
  | challenge who data => exact execChallenge_forms who data s hyp_s
  | getMeasurements who data => exact execGetMeasurements_forms who data s hyp_s
  | keyExchange who data => exact execKeyExchange_forms who data s hyp_s
  | finish who sess verified data => exact execFinish_forms who sess verified data s hyp_s
  | heartbeat who sess => exact execHeartbeat_forms who sess s hyp_s
  | keyUpdate who sess data => exact execKeyUpdate_forms who sess data s hyp_s
  | endSession who sess => exact execEndSession_forms who sess s hyp_s
  | spdmHeartbeatTimeout who sess => exact execSpdmHeartbeatTimeout_forms who sess s hyp_s
  | vendorDefinedRequest who sess std vendor payload => exact execVendorDefinedRequest_forms who sess std vendor payload s hyp_s
  | ideKm p ld sess go data => exact execIdeKm_forms p ld sess go data s hyp_s
  | esuEdgeArrive n ld => exact execEsuEdgeArrive_forms n ld s hyp_s
  | esuLevelChange n => exact execEsuLevelChange_forms n s hyp_s
  | esuGroupTimerExpire g => exact execEsuGroupTimerExpire_forms g s hyp_s
  | esuClaimRead view t => exact execEsuClaimRead_forms view t s hyp_s
  | esuCompleteWrite view t v => exact execEsuCompleteWrite_forms view t v s hyp_s
  | esuThreshWrite view t v => exact execEsuThreshWrite_forms view t v s hyp_s
  | esuSrcWrite view n v => exact execEsuSrcWrite_forms view n v s hyp_s
  | msixVectorUnmask ld en fmask vmask => exact execMsixVectorUnmask_forms ld en fmask vmask s hyp_s
  | functionLevelReset ld => exact execFunctionLevelReset_forms ld s hyp_s
  | ldResetDrainEnd ld => exact execLdResetDrainEnd_forms ld s hyp_s
  | stookSpill => exact execStookSpill_forms s hyp_s
  | stookArchive ok => exact execStookArchive_forms ok s hyp_s
  | stookSummaryEmit code => exact execStookSummaryEmit_forms code s hyp_s
  | stkRead x => exact execStkRead_forms x s hyp_s
  | freeze x => exact execFreeze_forms x s hyp_s
  | freezeThaw x => exact execFreezeThaw_forms x s hyp_s
  | gaspRead x => exact execGaspRead_forms x s hyp_s
  | stkCtlFreeze v => exact execStkCtlFreeze_forms v s hyp_s
  | stkCtlThaw v => exact execStkCtlThaw_forms v s hyp_s
  | stkCtlGaspClr v => exact execStkCtlGaspClr_forms v s hyp_s
  | freezeTimeout => exact execFreezeTimeout_forms s hyp_s
  | stookSramFail first last => exact execStookSramFail_forms first last s hyp_s
  | identify x => exact execIdentify_forms x s hyp_s
  | backgroundOperationStatus x => exact execBackgroundOperationStatus_forms x s hyp_s
  | getEventRecords x => exact execGetEventRecords_forms x s hyp_s
  | clearEventRecords x => exact execClearEventRecords_forms x s hyp_s
  | getFwInfo x => exact execGetFwInfo_forms x s hyp_s
  | transferFw x => exact execTransferFw_forms x s hyp_s
  | activateFw x => exact execActivateFw_forms x s hyp_s
  | getTimestamp x => exact execGetTimestamp_forms x s hyp_s
  | setTimestamp x => exact execSetTimestamp_forms x s hyp_s
  | getSupportedLogs x => exact execGetSupportedLogs_forms x s hyp_s
  | getLog x => exact execGetLog_forms x s hyp_s
  | identifyMemoryDevice x => exact execIdentifyMemoryDevice_forms x s hyp_s
  | getHealthInfo x => exact execGetHealthInfo_forms x s hyp_s
  | getPoisonList x => exact execGetPoisonList_forms x s hyp_s
  | injectPoison x => exact execInjectPoison_forms x s hyp_s
  | clearPoison x => exact execClearPoison_forms x s hyp_s
  | mailboxUnsupported x opcode => exact execMailboxUnsupported_forms x opcode s hyp_s
  | hdmDecoderCommit ld idx base size => exact execHdmDecoderCommit_forms ld idx base size s hyp_s
  | uioRequest ld hpa write tag mask data => exact execUioRequest_forms ld hpa write tag mask data s hyp_s
  | hostLinkDown p => exact execHostLinkDown_forms p s hyp_s
  | hpnPerstAssert p => exact execHpnPerstAssert_forms p s hyp_s
  | hostCablePresent p => exact execHostCablePresent_forms p s hyp_s
  | hostLinkUp p width => exact execHostLinkUp_forms p width s hyp_s
  | l0pWidthChange p width => exact execL0pWidthChange_forms p width s hyp_s
  | setEndpointId eid => exact execSetEndpointId_forms eid s hyp_s
  | mctpPacket binding data => exact execMctpPacket_forms binding data s hyp_s
  | getLdInfo data => exact execGetLdInfo_forms data s hyp_s
  | getLdAllocations data => exact execGetLdAllocations_forms data s hyp_s
  | getQosStatus data => exact execGetQosStatus_forms data s hyp_s
  | dozeEnter x => exact execDozeEnter_forms x s hyp_s
  | dozeEntryStepDone => exact execDozeEntryStepDone_forms s hyp_s
  | dozeExit x => exact execDozeExit_forms x s hyp_s
  | dozeExitDone => exact execDozeExitDone_forms s hyp_s
  | idleEntry => exact execIdleEntry_forms s hyp_s
  | railEvaluate mv => exact execRailEvaluate_forms mv s hyp_s
  | throttleSample inputW tj => exact execThrottleSample_forms inputW tj s hyp_s
  | throttleRaise => exact execThrottleRaise_forms s hyp_s
  | thermalShutdown => exact execThermalShutdown_forms s hyp_s
  | warmReset x => exact execWarmReset_forms x s hyp_s
  | moduleReset x => exact execModuleReset_forms x s hyp_s
  | channelReset x => exact execChannelReset_forms x s hyp_s
  | seedWrite x => exact execSeedWrite_forms x s hyp_s
  | seedWriteEnd x => exact execSeedWriteEnd_forms x s hyp_s
  | seedQuery x => exact execSeedQuery_forms x s hyp_s
  | mgmtWatchdogExpire => exact execMgmtWatchdogExpire_forms s hyp_s
  | modPwrgdRise => exact execModPwrgdRise_forms s hyp_s
  | modPwrgdFall => exact execModPwrgdFall_forms s hyp_s
  | inputUndervoltage => exact execInputUndervoltage_forms s hyp_s
  | powerLossFlushDone => exact execPowerLossFlushDone_forms s hyp_s
  | inputReturnStable => exact execInputReturnStable_forms s hyp_s
  | modResetAssert => exact execModResetAssert_forms s hyp_s
  | modResetRelease => exact execModResetRelease_forms s hyp_s
  | bootStepDone ms ok => exact execBootStepDone_forms ms ok s hyp_s
  | refclkLoss => exact execRefclkLoss_forms s hyp_s
  | refclkLossReset => exact execRefclkLossReset_forms s hyp_s
  | hedgerowCageInsert p mw => exact execHedgerowCageInsert_forms p mw s hyp_s
  | registerWrite view off v => exact execRegisterWrite_forms view off v s hyp_s
  | hedgerowPortUp p lanes spaceId nmod nport => exact execHedgerowPortUp_forms p lanes spaceId nmod nport s hyp_s
  | hostCleanEvict ld hpa => exact execHostCleanEvict_forms ld hpa s hyp_s
  | hostBirsp ld line lines rsp wb => exact execHostBirsp_forms ld line lines rsp wb s hyp_s
  | hpnPerstRelease p => exact execHpnPerstRelease_forms p s hyp_s
  | hostCableRemoved p => exact execHostCableRemoved_forms p s hyp_s
  | referenceLock => exact execReferenceLock_forms s hyp_s
  | globalPersistentFlush p phase => exact execGlobalPersistentFlush_forms p phase s hyp_s

end Sys2Proof.Machine
end

