-- ==== Sys2Proof/Laws/Hedgerow.lean ====
section
/-! SUPPORT. What a message of the Hedgerow meets before its own effect: one lemma for each way through, which later proofs cite. -/

namespace Sys2Proof.Machine

open Sys2Proof

/-- A message for this module, formed and serving, has its effect. -/
theorem State.arrives_here {s : State} {m : Msg} (hb : ¬ s.hdg.bench = true) (hd : m.dst.val = s.me) (hs : s.serving = true) (op : MOp)
    (f : State → State) : s.arrives op m f = f s := by simp [State.arrives, hb, hd, hs]

/-- In bench mode a message is discarded and counted (R327). -/
theorem State.arrives_bench {s : State} (hb : s.hdg.bench = true) (op : MOp) (m : Msg) (f : State → State) :
    s.arrives op m f = s.bump cntHdg 3 1 := by simp [State.arrives, hb]

/-- A message for another module is forwarded and counted (R316). -/
theorem State.arrives_transit {s : State} {m : Msg} (hb : ¬ s.hdg.bench = true) (hd : m.dst.val ≠ s.me) (op : MOp) (f : State → State) :
    s.arrives op m f = (s.emit (.msg op m)).bump cntHdg 4 1 := by simp [State.arrives, hb, hd]

/-- A SYS message with a typed body that this module takes has its effect. -/
theorem State.arrivesSys_here {s : State} {m : Msg} (hb : ¬ s.hdg.bench = true) (hd : ¬ (s.hdg.formed ∧ m.dst.val ≠ s.me))
    (hs : ¬ (!s.pwr.on || !s.pwr.resetN || s.pwr.flush.isSome) = true) (o : Out) (f : State → State) : s.arrivesSys m o f = f s := by
  simp only [State.arrivesSys, if_neg hb, if_neg hd, if_neg hs]

theorem State.arrivesSys_bench {s : State} (hb : s.hdg.bench = true) (m : Msg) (o : Out) (f : State → State) :
    s.arrivesSys m o f = s.bump cntHdg 3 1 := by simp [State.arrivesSys, hb]

theorem State.arrivesSys_transit {s : State} {m : Msg} (hb : ¬ s.hdg.bench = true) (hf : s.hdg.formed = true) (hd : m.dst.val ≠ s.me) (o : Out)
    (f : State → State) : s.arrivesSys m o f = (s.emit o).bump cntHdg 4 1 := by simp [State.arrivesSys, hb, hf, hd]

end Sys2Proof.Machine
end

