-- ==== Sys2Proof/Laws/Home.lean ====
section
/-! SUPPORT. What serving a request at its page home can do. -/

namespace Sys2Proof.Machine

open Sys2Proof

theorem State.pmeCache_respreadOf (s : State) (p q : Nat) : (s.pmeCache p).respreadOf q = s.respreadOf q := by
  unfold State.pmeCache; dsimp only; split <;> rfl
theorem State.pmeCache_dirEnt (s : State) (p l : Nat) : (s.pmeCache p).dirEnt l = s.dirEnt l := by
  unfold State.pmeCache; dsimp only; split <;> rfl

/-- An evict with no other request in the module takes its holder out of the line's entry. -/
theorem State.serve_evict {u : State} {r : Req} {e : DirEnt} (hr : u.reqs = [r]) (ho : r.op = .evict) (hw : r.waits = []) (hs : r.stored = false)
    (h6 : u.dozeHolds = false) (h7 : (u.hdg.takeover.contains (u.pageHome r.page) || u.hdg.twinMarks.contains r.page) = false)
    (h8 : u.respreadOf r.page = none) (h9 : u.isVlr r.page = false)
    (h10 : u.dirEnt r.line = some e) (h11 : e.st ≠ 3) (h12 : e.form ≠ 1) (h13 : covers e r.holder = true) :
    u.serve r.id = ({ u with reqs := [] }.pmeCache r.page).dirPutOpt r.line (dropHolder e r.holder) := by
  have e0 : u.req r.id = some r := by simp [State.req, hr]
  have e1 : { r with waits := [] } = r := by cases r; simp_all
  have e2 : (u.pmeCache r.page).reqs = [r] := by rw [← hr]; unfold State.pmeCache State.onTier; dsimp only; split <;> rfl
  have e3 : (u.pmeCache r.page).behind r = false := by simp [State.behind, e2]
  have e6 : (u.pmeCache r.page).dropReq r.id = { u with reqs := [] }.pmeCache r.page := by
    unfold State.dropReq; rw [e2]; simp only [removeFirst, beq_self_eq_true, if_true]
    unfold State.pmeCache State.onTier; dsimp only; split <;> rfl
  have e4 : u.serveOne r.id = ({ u with reqs := [] }.pmeCache r.page).dirPutOpt r.line (dropHolder e r.holder) := by
    unfold State.serveOne; rw [e0]; dsimp only; rw [if_neg (by simp [Req.accepted, hs]), e1]
    unfold State.serveAt; dsimp only
    rw [if_neg (by simp [h6]), if_neg (by simpa using h7), if_neg (by simp [ho]), if_neg (by simp [h9]), State.pmeCache_respreadOf, h8]
    dsimp only
    unfold State.serveHere
    rw [if_neg (by simp [h9]), if_neg (by simp [Req.isWbk, ho]), if_neg (by simp [e3]), if_pos ho]
    unfold State.serveEvict
    rw [State.pmeCache_dirEnt, h10]; dsimp only; rw [if_neg h11, if_neg (by simp [h12, h13]), e6]
  have e5 : (u.serveOne r.id).reqs = [] := by
    rw [e4]; unfold State.pmeCache State.onTier State.dirPutOpt State.dirDel State.dirPut State.onDir; dsimp only
    split <;> split <;> rfl
  unfold State.serve; rw [e0]; dsimp only
  rw [if_pos (by simp [State.req, e5])]
  unfold State.serveLine
  rw [e5]; exact e4

end Sys2Proof.Machine
end

