-- ==== Sys2Proof/Laws/Mbox.lean ====
section
/-! SUPPORT. What a mailbox command and an SPDM request do before their own effect: one lemma for each way through, which later proofs cite. -/

namespace Sys2Proof.Machine

open Sys2Proof

/-! ## Ending Idle and counting leave everything else -/

/-- Ending Idle changes the power block alone. -/
theorem State.unidle_eq (s : State) : s.unidle = { s with pwr := (s.unidle).pwr } := by
  unfold State.unidle State.awake; split_ifs <;> rfl

@[simp] theorem State.unidle_sku (s : State) : (s.unidle).sku = s.sku := by rw [s.unidle_eq]
@[simp] theorem State.unidle_now (s : State) : (s.unidle).now = s.now := by rw [s.unidle_eq]
@[simp] theorem State.unidle_draws (s : State) : (s.unidle).draws = s.draws := by rw [s.unidle_eq]
@[simp] theorem State.unidle_spc (s : State) : (s.unidle).spc = s.spc := by rw [s.unidle_eq]
@[simp] theorem State.unidle_dir (s : State) : (s.unidle).dir = s.dir := by rw [s.unidle_eq]
@[simp] theorem State.unidle_husk (s : State) : (s.unidle).husk = s.husk := by rw [s.unidle_eq]
@[simp] theorem State.unidle_tier (s : State) : (s.unidle).tier = s.tier := by rw [s.unidle_eq]
@[simp] theorem State.unidle_near (s : State) : (s.unidle).near = s.near := by rw [s.unidle_eq]
@[simp] theorem State.unidle_far (s : State) : (s.unidle).far = s.far := by rw [s.unidle_eq]
@[simp] theorem State.unidle_tlr (s : State) : (s.unidle).tlr = s.tlr := by rw [s.unidle_eq]
@[simp] theorem State.unidle_hdg (s : State) : (s.unidle).hdg = s.hdg := by rw [s.unidle_eq]
@[simp] theorem State.unidle_qos (s : State) : (s.unidle).qos = s.qos := by rw [s.unidle_eq]
@[simp] theorem State.unidle_integ (s : State) : (s.unidle).integ = s.integ := by rw [s.unidle_eq]
@[simp] theorem State.unidle_sec (s : State) : (s.unidle).sec = s.sec := by rw [s.unidle_eq]
@[simp] theorem State.unidle_esu (s : State) : (s.unidle).esu = s.esu := by rw [s.unidle_eq]
@[simp] theorem State.unidle_stk (s : State) : (s.unidle).stk = s.stk := by rw [s.unidle_eq]
@[simp] theorem State.unidle_host (s : State) : (s.unidle).host = s.host := by rw [s.unidle_eq]
@[simp] theorem State.unidle_reqs (s : State) : (s.unidle).reqs = s.reqs := by rw [s.unidle_eq]
@[simp] theorem State.unidle_nextId (s : State) : (s.unidle).nextId = s.nextId := by rw [s.unidle_eq]
@[simp] theorem State.unidle_out (s : State) : (s.unidle).out = s.out := by rw [s.unidle_eq]
@[simp] theorem State.unidle_pending (s : State) : (s.unidle).pending = s.pending := by rw [s.unidle_eq]
@[simp] theorem State.unidle_regs (s : State) : (s.unidle).regs = s.regs := by rw [s.unidle_eq]
@[simp] theorem State.taken_sku (s : State) : (s.taken).sku = s.sku := s.unidle_sku
@[simp] theorem State.taken_now (s : State) : (s.taken).now = s.now := s.unidle_now
@[simp] theorem State.taken_draws (s : State) : (s.taken).draws = s.draws := s.unidle_draws
@[simp] theorem State.taken_spc (s : State) : (s.taken).spc = s.spc := s.unidle_spc
@[simp] theorem State.taken_dir (s : State) : (s.taken).dir = s.dir := s.unidle_dir
@[simp] theorem State.taken_husk (s : State) : (s.taken).husk = s.husk := s.unidle_husk
@[simp] theorem State.taken_tier (s : State) : (s.taken).tier = s.tier := s.unidle_tier
@[simp] theorem State.taken_near (s : State) : (s.taken).near = s.near := s.unidle_near
@[simp] theorem State.taken_far (s : State) : (s.taken).far = s.far := s.unidle_far
@[simp] theorem State.taken_tlr (s : State) : (s.taken).tlr = s.tlr := s.unidle_tlr
@[simp] theorem State.taken_hdg (s : State) : (s.taken).hdg = s.hdg := s.unidle_hdg
@[simp] theorem State.taken_qos (s : State) : (s.taken).qos = s.qos := s.unidle_qos
@[simp] theorem State.taken_integ (s : State) : (s.taken).integ = s.integ := s.unidle_integ
@[simp] theorem State.taken_sec (s : State) : (s.taken).sec = s.sec := s.unidle_sec
@[simp] theorem State.taken_esu (s : State) : (s.taken).esu = s.esu := s.unidle_esu
@[simp] theorem State.taken_stk (s : State) : (s.taken).stk = s.stk := s.unidle_stk
@[simp] theorem State.taken_host (s : State) : (s.taken).host = s.host := s.unidle_host
@[simp] theorem State.taken_reqs (s : State) : (s.taken).reqs = s.reqs := s.unidle_reqs
@[simp] theorem State.taken_nextId (s : State) : (s.taken).nextId = s.nextId := s.unidle_nextId
@[simp] theorem State.taken_out (s : State) : (s.taken).out = s.out := s.unidle_out
@[simp] theorem State.taken_pending (s : State) : (s.taken).pending = s.pending := s.unidle_pending

@[simp] theorem State.taken_boot (s : State) : (s.taken).pwr.boot = s.pwr.boot := by
  show (s.unidle).pwr.boot = _
  unfold State.unidle State.awake; split_ifs <;> rfl

/-- A command runs in the state after Idle has ended; the power state is then not Idle, and Doze and its ends stay. -/
theorem State.taken_state (s : State) : (s.taken).pwr.state = if s.pwr.state = 1 then 0 else s.pwr.state := by
  show (s.unidle).pwr.state = _
  unfold State.unidle State.awake; split_ifs <;> simp_all

@[simp] theorem State.taken_me (s : State) : (s.taken).me = s.me := by simp [State.me]

/-! ## The way through a command -/

theorem State.inSession_taken (s : State) (x : Mbx) : (s.taken).inSession x = s.inSession x := by
  unfold State.inSession; cases x.sess <;> simp

/-- A command that is taken has its own effect in the state in which Idle has ended. -/
theorem State.command_sent {s : State} {x : Mbx} {by_ : By} {secure : Bool} {need : Nat} (h : s.sent x by_ secure need = true)
    (f : State → State) : s.command x by_ secure need f = f s.taken := by
  unfold State.sent at h
  simp only [Bool.and_eq_true, Bool.not_eq_true', Bool.or_eq_true, decide_eq_true_eq] at h
  obtain ⟨⟨⟨h1, h2⟩, h3⟩, h4⟩ := h
  unfold State.command
  have h5 := s.inSession_taken x
  unfold State.taken at h5 ⊢
  have h6 : ¬ x.data.length < need := by omega
  simp only [h1, h2, h5, h6, Bool.not_true, Bool.false_eq_true, if_false]
  rcases h3 with h3 | h3
  · simp only [Bool.or_eq_false_iff] at h3
    simp [h3]
  · simp [h3]

/-- The same for a standard command. -/
theorem State.stdCommand_sent {s : State} {x : Mbx} {by_ : By} {need : Nat} (h : s.sent x by_ false need = true)
    (f : State → State) : s.stdCommand x by_ need f = f s.taken := by
  unfold State.sent at h
  simp only [Bool.and_eq_true, Bool.not_eq_true', Bool.or_eq_true, decide_eq_true_eq] at h
  obtain ⟨⟨⟨h1, h2⟩, h3⟩, h4⟩ := h
  unfold State.stdCommand
  have h5 := s.inSession_taken x
  unfold State.taken at h5 ⊢
  have h6 : ¬ x.data.length < need := by omega
  simp only [h1, h2, h5, h6, Bool.not_true, Bool.false_eq_true, if_false]
  rcases h3 with h3 | h3
  · simp only [Bool.or_eq_false_iff] at h3
    simp [h3]
  · simp [h3]

/-- A command whose extents are all known goes on at once. -/
theorem State.withExts_known {s : State} {asked es : List Nat} (h : (s.extNeed asked es).isEmpty = true) (cmd : Nat) (x : Mbx)
    (f : State → State) : s.withExts cmd x asked es f = f s := if_pos h

/-- A command whose issuer does not reach the module is not seen. -/
theorem State.command_unreached {s : State} {x : Mbx} (h : s.reaches x = false) (by_ : By) (secure : Bool) (need : Nat)
    (f : State → State) : s.command x by_ secure need f = s := by simp [State.command, h]

/-- A command that only the fabric manager may send, from an LD, is refused with status 0x08 (R485). -/
theorem State.command_notFm {s : State} {x : Mbx} (h : s.reaches x = true) (hx : mbFm x = false) (secure : Bool) (need : Nat)
    (f : State → State) : s.command x .fm secure need f = (s.taken).status x 8 := by simp [State.command, State.taken, h, hx]

/-- A command that must be a secured message and is not is refused with status 0x08 and counted (R430). -/
theorem State.command_plain {s : State} {x : Mbx} (h : s.reaches x = true) (hx : s.inSession x = false) {by_ : By}
    (hb : ((by_ == .fm && !mbFm x) || (by_ == .ld && mbFm x)) = false) (need : Nat) (f : State → State) :
    s.command x by_ true need f = ((s.taken).bump cntSec 3 1).status x 8 := by
  have h5 := s.inSession_taken x
  unfold State.taken at h5
  simp [State.command, State.taken, h, hb, h5, hx]

/-- An SPDM request that reaches its responder is answered in the state in which Idle has ended. -/
theorem State.spdm_asks {s : State} {who : Issuer} (h : s.asks who = true) (f : State → State) : s.spdm who f = f s.unidle := by
  unfold State.asks at h
  simp [State.spdm, h]

/-- A request inside an established session. -/
theorem State.inSess_asks {s : State} {who : Issuer} {i : Nat} (h : s.asks who = true) (hs : s.sessPhase who i = 2) (f : State → State) :
    s.inSess who i f = f s.unidle := by
  have h5 : (s.unidle).sessPhase who i = 2 := by rw [← hs]; unfold State.sessPhase; rw [s.unidle_sec]
  simp [State.inSess, State.spdm_asks h, h5]

/-- A background command starts where none runs on its mailbox. -/
theorem State.bgCommand_free {s : State} {x : Mbx} (h : s.bgBusy (mbWho x) = false) (f : State → State) : s.bgCommand x f = f s := by
  simp [State.bgCommand, h]

end Sys2Proof.Machine
end

