-- ==== Sys2Proof/Laws/Media.lean ====
section
/-! SUPPORT. The near tier: every operation on stored lines keeps the canonical form, and a run of chunks is found where one is free. -/

namespace Sys2Proof.Machine

open Sys2Proof

/-- The least element of a list that is not empty is one of its elements. -/
theorem argMin_mem {f : Nat → Nat} {l : List Nat} (h : l ≠ []) : ∃ a, argMin f l = some a ∧ a ∈ l := by
  induction l with
  | nil => exact absurd rfl h
  | cons x t ih =>
    rcases t with _ | ⟨y, t⟩
    · exact ⟨x, rfl, by simp⟩
    · obtain ⟨a, ha, hm⟩ := ih (by simp)
      by_cases hc : f x ≤ f a
      · exact ⟨x, by simp only [argMin] at ha ⊢; simp_all, by simp⟩
      · exact ⟨a, by simp only [argMin] at ha ⊢; simp_all, by simp_all⟩

/-- A channel with a free run finds one. -/
theorem State.runIn_isSome {s : State} {n len k : Nat} {parity : Bool} (hf : len ≤ s.freeIn n) (hk : k ∈ s.runStarts n)
    (hr : s.runFree n k len parity = true) : (s.runIn n len parity).isSome = true := by
  unfold State.runIn
  have h0 : ¬ s.freeIn n < len := by omega
  have hm : k ∈ (s.runStarts n).filter fun k => s.runFree n k len parity := by simp [hk, hr]
  simp only [h0, if_false]
  generalize (s.runStarts n).filter (fun k => s.runFree n k len parity) = cs at hm ⊢
  rcases cs with _ | ⟨a, t⟩
  · simp at hm
  · have : Config.pick s.draws % (a :: t).length < (a :: t).length := Nat.mod_lt _ (by simp)
    simp only [List.getElem?_eq_getElem this, Option.isSome_some]

/-- With free chunks beyond the reserve and a channel that has a run, a place is found. -/
theorem State.findNear_isSome {s : State} {n len reserve : Nat} {parity : Bool} (prefer : Option Nat)
    (hs : len + reserve ≤ sumOf (List.range 96) s.freeIn) (hn : n ∈ s.allocChans) (hr : (s.runIn n len parity).isSome = true) :
    (s.findNear prefer len parity reserve).isSome = true := by
  obtain ⟨a, ha, hm⟩ := argMin_mem (f := fun n => 2 ^ 40 - s.freeIn n)
    (l := s.allocChans.filter fun n => (s.runIn n len parity).isSome) (List.ne_nil_of_mem (List.mem_filter.mpr ⟨hn, hr⟩))
  have hb : (s.runIn a len parity).isSome = true := by simpa using (List.mem_filter.mp hm).2
  obtain ⟨k, hk⟩ := Option.isSome_iff_exists.mp hb
  unfold State.findNear
  rw [if_neg (by omega)]
  simp only [ha, hk, Option.map_some]
  cases prefer with
  | none => rfl
  | some m =>
    simp only
    split_ifs
    · split <;> rfl
    · rfl

/-- A husk that is not durable is stored where a place is found. -/
theorem State.storeHusk_ok {s : State} {page id : Nat} {h : Husk}
    (hf : (s.findNear (if hasNear (s.pmeOf page) then some (chanOf (s.pmeOf page).near) else none) h.chunks ((s.pmeOf page).prot == 1)
      stagingChunks).isSome = true) : (s.storeHusk page h id false).2 = true := by
  unfold State.storeHusk
  obtain ⟨a, ha⟩ := Option.isSome_iff_exists.mp hf
  simp only [ha]
  rfl

end Sys2Proof.Machine
end

