-- ==== Sys2Proof/Laws/Ralath.lean ====
section
/-! SUPPORT. The issue of one Ralath instruction: what a context that issues a word does, and what it leaves when it may not issue. -/

namespace Sys2Proof.Machine

open Sys2Proof

/-! ## Issue -/

theorem State.issues_spec {s : State} {c : Nat} {x : Ctx} {w : Word} (h : s.issues c x w = true) :
    look s.tlr.ctxs c = some x ∧ x.ready = true ∧ s.tlrBad x.tiller = false ∧ s.turnOf c x = true ∧ x.late = none ∧ ∃ q, look s.tlr.sheaves x.sheaf = some q ∧ x.pc < imgCode q.image ∧
      imgWord q.image x.pc = w ∧ q.bad.find? (fun b => b.1 == codeLine q.image x.pc) = none := by
  unfold State.issues at h
  simp only [Bool.and_eq_true, beq_iff_eq, Option.isNone_iff_eq_none, Option.any_eq_true, decide_eq_true_eq, Bool.not_eq_true'] at h
  obtain ⟨⟨⟨⟨⟨h1, h2⟩, h8⟩, h9⟩, h3⟩, q, h4, ⟨h5, h6⟩, h7⟩ := h
  refine ⟨h1, h2, h8, h9, h3, q, h4, h5, h6, ?_⟩
  rw [List.find?_eq_none]
  intro b hb hb'
  rw [List.any_eq_false] at h7
  exact h7 b hb hb'

/-- A context that issues a word of a major opcode that is taken does what the instruction does, and has had its turn. -/
theorem State.issue_of {s : State} {c : Nat} {x : Ctx} {w : Word} (h : s.issues c x w = true) {m : Nat → Bool} (hm : m (majorOf w) = true)
    (f : Ctx → Word → State) : s.issue c m f = (f x w).took c x.tiller := by
  obtain ⟨h1, h2, hb, ht, h3, q, h4, h5, h6, h7⟩ := s.issues_spec h
  unfold State.issue
  have h8 : ¬ x.pc ≥ imgCode q.image := by omega
  simp [h1, h2, hb, ht, h3, h4, h8, h7, h6, hm]

@[simp] theorem State.took_ctxs (s : State) (c n : Nat) : (s.took c n).tlr.ctxs = s.tlr.ctxs := rfl
@[simp] theorem State.took_tiller (s : State) (c n k : Nat) : (s.took c n).tiller k = s.tiller k := rfl
@[simp] theorem State.took_level (s : State) (c n k : Nat) : (s.took c n).level k = s.level k := rfl

/-- A context whose word is of another major opcode is left as it is. -/
theorem State.issue_other {s : State} {c : Nat} {x : Ctx} {w : Word} (h : s.issues c x w = true) {m : Nat → Bool} (hm : m (majorOf w) = false)
    (f : Ctx → Word → State) : s.issue c m f = s := by
  obtain ⟨h1, h2, hb, ht, h3, q, h4, h5, h6, h7⟩ := s.issues_spec h
  unfold State.issue
  have h8 : ¬ x.pc ≥ imgCode q.image := by omega
  simp [h1, h2, hb, ht, h3, h4, h8, h7, h6, hm]

/-- An instruction that touches its context alone. -/
theorem State.plainOp_of {s : State} {c : Nat} {x : Ctx} {w : Word} (h : s.issues c x w = true) {k : Nat} (hm : majorOf w = k)
    (f : Ctx → Word → Eff) : s.plainOp c k f = (s.doEff c x (f x w)).took c x.tiller := by
  unfold State.plainOp
  rw [State.issue_of h (by simp [hm])]

@[simp] theorem State.doEff_next (s : State) (c : Nat) (x y : Ctx) : s.doEff c x (.next y) = s.setCtx c y.advance := rfl
@[simp] theorem State.doEff_goto (s : State) (c : Nat) (x y : Ctx) (p : Nat) : s.doEff c x (.goto y p) = s.setCtx c (y.jump p) := rfl
@[simp] theorem State.doEff_trap (s : State) (c : Nat) (x : Ctx) (k d a : Nat) : s.doEff c x (.trap k d a) = s.ctxTrap c x x.pc k d a false := rfl

theorem guarded_true {x : Ctx} {w : Word} {l : Bool} (hl : l = true) (hg : x.guard w = true) (e : Eff) : guarded x w l e = e := by
  simp [guarded, hl, hg]

/-- With a false guard a legal instruction takes one step and has no effect (R230). -/
theorem guarded_false {x : Ctx} {w : Word} {l : Bool} (hl : l = true) (hg : x.guard w = false) (e : Eff) : guarded x w l e = .next x := by
  simp [guarded, hl, hg]

theorem guarded_illegal {x : Ctx} {w : Word} {l : Bool} (hl : l = false) (e : Eff) : guarded x w l e = .illegal := by
  simp [guarded, hl]

/-- Results whose flags no trap is enabled for are committed (R242). -/
theorem commit_ok {x : Ctx} {fl : Nat} (h : x.trapFlags fl = 0) (g : Nat × Bool) (rm : Nat) (f : Ctx → Ctx) :
    commit x fl g rm f = .next (committed x fl g rm f) := by simp [commit, h]

/-- An enabled flag traps before anything is written (R242). -/
theorem commit_trap {x : Ctx} {fl : Nat} (h : x.trapFlags fl ≠ 0) (g : Nat × Bool) (rm : Nat) (f : Ctx → Ctx) :
    commit x fl g rm f = .trap 9 fl 0 := by simp [commit, h]

/-- With no trap enabled no result traps. -/
theorem Ctx.trapFlags_off {x : Ctx} (h : x.word 1 = 0) (fl : Nat) : x.trapFlags fl = 0 := by simp [Ctx.trapFlags, h]

/-- A vector access that is aligned and inside the window goes on. -/
theorem vecAddr_ok {x : Ctx} {w : Word} {a : Nat} (ha : (x.sreg (vSs w) + BitVec.ofNat 64 (64 * vImm w)).toNat = a) (h1 : a % 64 = 0)
    (h2 : x.inWin a 256 = true) (f : Nat → Eff) : vecAddr x w f = f a := by simp [vecAddr, ha, h1, h2]

/-! ## A change of one context -/

/-- Putting a context back changes the contexts alone. -/
@[simp] theorem State.setCtx_look (s : State) (c : Nat) (x : Ctx) : look (s.setCtx c x).tlr.ctxs c = some x := by
  simp [State.setCtx, State.onTlr]

@[simp] theorem State.setCtx_look_other (s : State) {c d : Nat} (x : Ctx) (h : d ≠ c) : look (s.setCtx c x).tlr.ctxs d = look s.tlr.ctxs d := by
  simp [State.setCtx, State.onTlr, h]

/-! ## Registers with a fixed value (R225) -/

@[simp] theorem Ctx.sreg_zero (x : Ctx) : x.sreg 0 = 0 := rfl
@[simp] theorem Ctx.setS_zero (x : Ctx) (v : BitVec 64) : x.setS 0 v = x := rfl
@[simp] theorem Ctx.pred_zero (x : Ctx) : x.pred 0 = BitVec.allOnes 512 := rfl
@[simp] theorem Ctx.setP_zero (x : Ctx) (v : BitVec 512) : x.setP 0 v = x := rfl

end Sys2Proof.Machine
end

