-- ==== Sys2Proof/Laws/Registers.lean ====
section
/-! SUPPORT. The register table: which offsets its registers cover. -/

set_option maxRecDepth 10000

namespace Sys2Proof.Machine

open Sys2Proof

/-- Every register stands below the first offset past the last block, and indexed ones have a stride. -/
theorem regTable_low : ∀ d ∈ regTable, d.base + d.stride * d.count + 8 ≤ 0x1200000 ∧
    (d.count2 = 1 → d.count ≠ 1 → d.stride ≠ 0) ∧ (d.count2 ≠ 1 → d.stride ≠ 0) := by decide

/-- A register of the table covers no offset from 0x0120_0000 on (R534). -/
theorem RegDesc.covers_low {d : RegDesc} (hd : d ∈ regTable) {off : Nat} (h : d.covers off = true) : off < 0x1200000 := by
  have := regTable_low d hd
  unfold RegDesc.covers at h
  obtain ⟨h1, h2, h3⟩ := this
  simp only [Bool.and_eq_true, decide_eq_true_eq] at h
  obtain ⟨hb, h⟩ := h
  split_ifs at h with c1 c2
  · simp at h; omega
  · simp only [Bool.and_eq_true, decide_eq_true_eq] at h
    have : off - d.base < d.stride * d.count := by
      rw [Nat.mul_comm]; exact (Nat.div_lt_iff_lt_mul (Nat.pos_of_ne_zero (h2 c1 c2))).mp h.1
    omega
  · simp only [Bool.and_eq_true, decide_eq_true_eq] at h
    have : off - d.base < d.stride * d.count := by
      rw [Nat.mul_comm]; exact (Nat.div_lt_iff_lt_mul (Nat.pos_of_ne_zero (h3 c1))).mp h.1.1
    omega

/-- An offset that names a register is covered by one of the table. -/
theorem regAt_covered {off : Nat} (h : (regAt off).isSome = true) : ∃ r ∈ regTable, r.covers off = true := by
  unfold regAt at h
  rw [List.find?_isSome] at h
  exact h

/-- An indexed family covers the multiples of its stride. -/
theorem covered_of_family {base stride count lock reset : Nat} {fs : List RegField} 
    (hd : (⟨base, stride, count, 0, 1, lock, reset, fs⟩ : RegDesc) ∈ regTable) (hc : count ≠ 1)
    {off : Nat} (h1 : base ≤ off) (h2 : (off - base) / stride < count) (h3 : (off - base) % stride = 0) :
    ∃ r ∈ regTable, r.covers off = true := by
  refine ⟨_, hd, ?_⟩
  simp [RegDesc.covers, hc, h1, h2, h3]

/-- The registers that stand for other state are registers of the table. -/
theorem regAt_shown (off : Nat) (h : regAt off = none) :
    off ≠ 0x300048 ∧ off ≠ 0x300050 ∧ off ≠ 0x600048 ∧ off ≠ 0x600058 ∧ off ≠ 0x600110 ∧ off ≠ 0xA00058 := by
  refine ⟨?_, ?_, ?_, ?_, ?_, ?_⟩ <;> rintro rfl <;> revert h <;> decide

end Sys2Proof.Machine
end

