-- ==== Sys2Proof/WellFormed.lean ====
section
/-! DEFINITION. Which commands are well formed: every number fits the field that carries it, a line has its 64 bytes, a flit its 256,
a register offset is the offset of a 64-bit word. -/

namespace Sys2Proof

/-- The fields of a message fit its header (Table 9-5); holder 4096 stands for a requester that is no holder (log entry 32). -/
def Msg.wf (m : Msg) : Bool :=
  decide (m.holder ≤ 4096) && decide (m.tag < 2 ^ 16) && decide (m.cxl < 4) && decide (m.synd < 256) && decide (m.addr < 2 ^ 50)

/-- A command is well formed. -/
def Instr.wf : Instr → Bool
  | .hostRead _ hpa _ tag _ => decide (hpa < 2 ^ 64) && decide (tag < 2 ^ 16)
  | .hostWrite _ hpa _ tag _ data _ => decide (hpa < 2 ^ 64) && decide (tag < 2 ^ 16) && decide (data.length = 64)
  | .pullThroughDone page => decide (page < 2 ^ 38)
  | .pullThroughRaise page => decide (page < 2 ^ 38)
  | .pullThroughDlMiss page => decide (page < 2 ^ 38)
  | .streamPtBoundExpire _ => true
  | .mbSlotWindowExpire page => decide (page < 2 ^ 38)
  | .mbWriteSlotWaitEnd _ => true
  | .slotRecodeStart page => decide (page < 2 ^ 38)
  | .recodeWriteDone page => decide (page < 2 ^ 38)
  | .leaseGrant _ => true
  | .leaseRenew _ => true
  | .leaseRelease _ => true
  | .leaseAttach _ => true
  | .leaseQuery _ => true
  | .leaseRevoke _ => true
  | .accountSet _ => true
  | .accountQuery _ => true
  | .extentRespread _ => true
  | .accountBindAdd _ => true
  | .accountBindRemove _ => true
  | .spcHbWrite _ _ _ _ => true
  | .leaseQuarterLeft h => decide (h < 2 ^ 32)
  | .leaseTimerExpire h => decide (h < 2 ^ 32)
  | .leaseGraceExpire h => decide (h < 2 ^ 32)
  | .leaseDrainEnd h => decide (h < 2 ^ 32)
  | .drainBoundExpire h => decide (h < 2 ^ 32)
  | .tokenLockoutEnd _ => true
  | .respreadPageMove e page => decide (e < 2 ^ 20) && decide (page < 2 ^ 38)
  | .respreadPageMoved e page => decide (e < 2 ^ 20) && decide (page < 2 ^ 38)
  | .respreadPortalSwitch e => decide (e < 2 ^ 20)
  | .directoryWaitEnd _ => true
  | .snoopTimeout holder => decide (holder < 4096)
  | .holderSweepDone => true
  | .pubBuild _ => true
  | .pubFlip _ => true
  | .pubOldReclaim e => decide (e < 2 ^ 20)
  | .dirQuery _ => true
  | .train _ => true
  | .tableLoad _ => true
  | .tablePublish _ => true
  | .tableBind _ => true
  | .tableRetire _ => true
  | .tableQuery _ => true
  | .recode _ => true
  | .vlrBind _ => true
  | .vlrDiscard _ => true
  | .tableSlotFreed _ => true
  | .bgRecodePage page => decide (page < 2 ^ 38)
  | .vlrExpansionDone page => decide (page < 2 ^ 38)
  | .expansionQueueStart => true
  | .epochBoundary => true
  | .ageWalkerVisit page => decide (page < 2 ^ 38)
  | .evictionPage page => decide (page < 2 ^ 38)
  | .demotionDone page => decide (page < 2 ^ 38)
  | .promotionDone page => decide (page < 2 ^ 38)
  | .relocationDone page => decide (page < 2 ^ 38)
  | .placePromote => true
  | .placeDemote => true
  | .placeDiscard => true
  | .placePin => true
  | .placeUnpin => true
  | .policyActivate _ => true
  | .streamStart _ => true
  | .streamStop _ => true
  | .streamQuery _ => true
  | .pagePin _ => true
  | .pageUnpin _ => true
  | .tierMovePromote _ => true
  | .tierMoveDemote _ => true
  | .streamLayerPromote _ => true
  | .streamLayerResident _ layer => decide (layer < 2 ^ 64)
  | .farReadDone page res => decide (page < 2 ^ 38 ∧ res.length ≤ 2)
  | .farRowProgramDone page _ => decide (page < 2 ^ 38)
  | .durWinExpire page _ => decide (page < 2 ^ 38)
  | .farProgramFail _ _ band => decide (band < 2 ^ 32)
  | .farEraseFail _ band => decide (band < 2 ^ 32)
  | .gcBandCopy page => decide (page < 2 ^ 38)
  | .bandErase band => decide (band < 2 ^ 32)
  | .governorRefill => true
  | .journalCheckpoint => true
  | .farWearQuery _ => true
  | .farDieRetire _ => true
  | .add _ => true
  | .sub _ => true
  | .mul _ => true
  | .mulh _ => true
  | .and _ => true
  | .or _ => true
  | .xor _ => true
  | .shl _ => true
  | .shr _ => true
  | .sar _ => true
  | .min _ => true
  | .max _ => true
  | .cmp _ => true
  | .li _ => true
  | .lds _ => true
  | .sts _ => true
  | .vld _ => true
  | .vst _ => true
  | .vadd _ => true
  | .vmul _ => true
  | .vmac _ => true
  | .vmax _ => true
  | .vdot _ => true
  | .vred _ => true
  | .vcvt _ => true
  | .vscale _ => true
  | .mma _ => true
  | .tzero _ => true
  | .tstore _ => true
  | .gather _ => true
  | .scatter _ => true
  | .stream _ => true
  | .putPortMessage _ => true
  | .putLineWrite _ => true
  | .fetchf _ => true
  | .topkIns _ => true
  | .topkDrain _ => true
  | .br _ => true
  | .brc _ => true
  | .call _ => true
  | .ret _ => true
  | .loop _ => true
  | .yield _ => true
  | .waitg _ => true
  | .setg _ => true
  | .signal _ => true
  | .fence _ => true
  | .trap _ => true
  | .halt _ => true
  | .illegalMajorOpcode _ => true
  | .asyncOpDone _ _ => true
  | .fetchfDone _ => true
  | .waitgReevaluate _ => true
  | .waitgTimeout _ => true
  | .contextQuantumExpire _ => true
  | .contextSwapDone _ => true
  | .sheafLoad _ => true
  | .sheafUnload _ => true
  | .sheafQuery _ => true
  | .ctxCancel _ => true
  | .tlrRqTailWrite _ _ _ => true
  | .tlrRqCfgEnable _ _ _ => true
  | .tlrCqCfgEnable _ _ _ => true
  | .tlrCqHeadWrite _ _ _ => true
  | .tlrSigPopWrite _ _ => true
  | .descStart _ _ => true
  | .descCancel _ _ => true
  | .descBarrier _ _ => true
  | .descStartResume _ _ => true
  | .cqCoalesceTimer _ _ => true
  | .tillerShareReduce _ _ => true
  | .tillerRestore _ _ => true
  | .tlrDisWrite _ _ => true
  | .tillerRuntimeFail _ => true
  | .flitTransmit _ => true
  | .flitDataRx _ flit => decide (flit.length = 256)
  | .flitIdleRx _ flit => decide (flit.length = 256)
  | .flitNakRx _ flit => decide (flit.length = 256)
  | .flitMarkerRx _ epoch tag => decide (epoch < 2 ^ 32) && decide (tag < 2 ^ 64)
  | .portNoFlitTimeout _ => true
  | .portRetrainTimer _ => true
  | .keyEpochAdvance _ => true
  | .linkWeightUpdate => true
  | .routeSplitUpdate => true
  | .msgRd m => m.wf
  | .msgWr m => m.wf
  | .msgWrp m => m.wf
  | .msgAtom m => m.wf
  | .msgPlace m => m.wf
  | .msgSnpinv m => m.wf
  | .msgSnpdata m => m.wf
  | .msgSnpcur m => m.wf
  | .msgData m => m.wf
  | .msgCmp m => m.wf
  | .msgBirsp m => m.wf
  | .msgWbk m => m.wf
  | .msgMirror m => m.wf
  | .msgClose m => m.wf
  | .msgJrnl m _ => m.wf
  | .msgJack m => m.wf
  | .msgMemb m _ => m.wf
  | .msgCopy m _ => m.wf
  | .msgGasp m => m.wf
  | .msgMack m => m.wf
  | .msgReservedOp _ m => m.wf
  | .mirrorMackTimeout _ => true
  | .fabricReqTimeout _ => true
  | .formationRetry => true
  | .memberDeclareAbsent _ _ => true
  | .takeoverReplicaActive _ => true
  | .moduleRejoin _ _ spaceId => decide (spaceId < 2 ^ 64)
  | .resyncPageCopy page => decide (page < 2 ^ 38)
  | .witnessHoldExpire _ => true
  | .formQuery _ => true
  | .formAdopt _ => true
  | .witnessForce _ => true
  | .linkRetrain _ => true
  | .resyncQuery _ => true
  | .qosClassSet _ => true
  | .qosReserve _ => true
  | .qosQuery _ => true
  | .qosWindowEnd => true
  | .rtUrgencyChange _ _ _ => true
  | .refreshDue _ _ => true
  | .forcedRefreshDone _ _ => true
  | .refreshRatePoll _ _ => true
  | .writeQueueDrain _ => true
  | .retrainPeriodExpire _ => true
  | .retrainTempQueue _ _ => true
  | .retrainStart _ => true
  | .retrainDone _ _ _ _ _ => true
  | .drcRetrainGo _ => true
  | .channelSlowDetect _ => true
  | .channelSlowClear _ => true
  | .broomStart _ => true
  | .broomPageVisit page => decide (page < 2 ^ 38)
  | .broomQuery _ => true
  | .retire _ => true
  | .chaffQuery _ => true
  | .moverCopy _ => true
  | .moverCtlResume _ => true
  | .moverCtlAbort _ => true
  | .moverCopyChunk _ lines => decide (1 ≤ lines)
  | .parityDeltaApply _ chunk => decide (chunk < 2 ^ 32)
  | .stripeReconstruct _ chunk => decide (chunk < 2 ^ 32)
  | .intErrqPopWrite _ => true
  | .captureReleaseWrite off _ => decide (off < 2 ^ 26) && decide (off % 8 = 0)
  | .huskLaneShareReduce _ _ => true
  | .huskLaneRestore _ _ => true
  | .hskLaneDisWrite _ => true
  | .spreadMemberSlow e _ => decide (e < 2 ^ 20)
  | .keyQuery _ => true
  | .accountErase _ => true
  | .spaceKeyRoll _ => true
  | .keySlotEmptied _ => true
  | .entropyHealthFail => true
  | .getVersion _ _ => true
  | .getCapabilities _ _ => true
  | .negotiateAlgorithms _ _ => true
  | .getDigests _ _ => true
  | .getCertificate _ _ => true
  | .challenge _ _ => true
  | .getMeasurements _ _ => true
  | .keyExchange _ _ => true
  | .finish _ _ _ _ => true
  | .heartbeat _ _ => true
  | .keyUpdate _ _ _ => true
  | .endSession _ _ => true
  | .spdmHeartbeatTimeout _ _ => true
  | .vendorDefinedRequest _ _ std vendor _ => decide (std < 2 ^ 16) && decide (vendor < 2 ^ 16)
  | .ideKm _ _ _ _ _ => true
  | .esuEdgeArrive _ _ => true
  | .esuLevelChange _ => true
  | .esuGroupTimerExpire _ => true
  | .esuClaimRead _ _ => true
  | .esuCompleteWrite _ _ _ => true
  | .esuThreshWrite _ _ _ => true
  | .esuSrcWrite _ _ _ => true
  | .msixVectorUnmask _ _ _ _ => true
  | .functionLevelReset _ => true
  | .ldResetDrainEnd _ => true
  | .stookSpill => true
  | .stookArchive _ => true
  | .stookSummaryEmit code => decide (code < 2 ^ 16)
  | .stkRead _ => true
  | .freeze _ => true
  | .freezeThaw _ => true
  | .gaspRead _ => true
  | .stkCtlFreeze _ => true
  | .stkCtlThaw _ => true
  | .stkCtlGaspClr _ => true
  | .freezeTimeout => true
  | .stookSramFail first last => decide (first < 16384) && decide (last < 16384)
  | .identify _ => true
  | .backgroundOperationStatus _ => true
  | .getEventRecords _ => true
  | .clearEventRecords _ => true
  | .getFwInfo _ => true
  | .transferFw _ => true
  | .activateFw _ => true
  | .getTimestamp _ => true
  | .setTimestamp _ => true
  | .getSupportedLogs _ => true
  | .getLog _ => true
  | .identifyMemoryDevice _ => true
  | .getHealthInfo _ => true
  | .getPoisonList _ => true
  | .injectPoison _ => true
  | .clearPoison _ => true
  | .mailboxUnsupported _ _ => true
  | .hdmDecoderCommit _ _ base size => decide (base < 2 ^ 64) && decide (size ≤ 2 ^ 64)
  | .uioRequest _ hpa _ tag _ data => decide (hpa < 2 ^ 64) && decide (tag < 2 ^ 16) && decide (data.length = 64)
  | .hostLinkDown _ => true
  | .hpnPerstAssert _ => true
  | .hostCablePresent _ => true
  | .hostLinkUp _ width => decide (width < 32)
  | .l0pWidthChange _ width => decide (width < 32)
  | .setEndpointId _ => true
  | .mctpPacket _ _ => true
  | .getLdInfo _ => true
  | .getLdAllocations _ => true
  | .getQosStatus _ => true
  | .dozeEnter _ => true
  | .dozeEntryStepDone => true
  | .dozeExit _ => true
  | .dozeExitDone => true
  | .idleEntry => true
  | .railEvaluate _ => true
  | .throttleSample _ _ => true
  | .throttleRaise => true
  | .thermalShutdown => true
  | .warmReset _ => true
  | .moduleReset _ => true
  | .channelReset _ => true
  | .seedWrite _ => true
  | .seedWriteEnd _ => true
  | .seedQuery _ => true
  | .mgmtWatchdogExpire => true
  | .modPwrgdRise => true
  | .modPwrgdFall => true
  | .inputUndervoltage => true
  | .powerLossFlushDone => true
  | .inputReturnStable => true
  | .modResetAssert => true
  | .modResetRelease => true
  | .bootStepDone _ _ => true
  | .refclkLoss => true
  | .refclkLossReset => true
  | .hedgerowCageInsert _ _ => true
  | .registerWrite _ off _ => decide (off < 2 ^ 26) && decide (off % 8 = 0)
  | .hedgerowPortUp _ lanes spaceId _ _ => decide (lanes ≤ 64) && decide (spaceId < 2 ^ 64)
  | .hostCleanEvict _ hpa => decide (hpa < 2 ^ 64)
  | .hostBirsp _ line lines _ wb => decide (line < 2 ^ 44) && decide (lines = 1 ∨ lines = 2 ∨ lines = 4) && wb.all fun d => decide (d.length = 64)
  | .hpnPerstRelease _ => true
  | .hostCableRemoved _ => true
  | .referenceLock => true
  | .globalPersistentFlush _ _ => true

end Sys2Proof
end

