-- ==== Sys2Proof/Tests/Slice0.lean ====
section
/-! SUPPORT. Small states, and operands on them, that meet the hypotheses of the statements; the well-formedness smoke test; and the worked
examples of the manual. -/

set_option maxRecDepth 100000
set_option exponentiation.threshold 2100

namespace Sys2Proof.Machine

open Sys2Proof

/-- A booted module in bench mode, port 0 up, a session of LD 0 and one of the fabric manager. -/
def up : State :=
  { State.reset with
    pwr := { Pwr.reset with boot := none }
    hdg := { Hdg.reset with bench := true }
    sec := { Sec.reset with sessions := [(0, 2), (128, 2)] }
    host := { HostB.reset with ports := [(0, ⟨2, 16, 16, true, false⟩)] } }

/-- A private extent of account 0 that lives here. -/
def xt0 : Extent :=
  { kind := .priv, cls := 0, prot := 0, durable := false, layout := 0, spread := [], acct := 0, d := 0, bxk := 8, stoch := false, elem := 0,
    tslot := 0, charge := 0, vlr := none, respread := none, serving := true, namers := [1] }

/-- A lease of LD 0 in window 0 on extent 0. -/
def lease0 : Lease :=
  { acct := 0, ld := some 0, lastLd := 0, window := 0, sess := 0, rights := 7, dur := 60, deadline := 2 ^ 41, token := 9, st := .active,
    graceEnd := 0, exts := [(0, 0)], quarter := false }

/-- The booted module with extent 0 leased to LD 0. -/
def leased : State :=
  { up with spc := { Spc.reset with
      windows := [(0, ⟨0, 30⟩)], slots := [(0, [(0, 0)])], extents := [(0, xt0)], leases := [(1, lease0)],
      accts := [(0, ⟨2 ^ 30, 0, false, [0], 0, 0⟩)] } }

/-- A mailbox command of an LD, and one of the fabric manager, in its session. -/
def ldx (d : Bytes) : Mbx := ⟨.ld 0, some 0, d⟩
def fmx (d : Bytes) : Mbx := ⟨.fm, some 0, d⟩

/-- A LEASE_GRANT for one new private extent. -/
def grantIn : Bytes := [0, 0] ++ toLe 2 60 ++ [0, 1] ++ zeros 10 ++ [255, 255, 255, 255, 0, 0, 0, 0, 255, 0, 1, 0, 0, 0, 0, 0]

/-- The leased module with extent 0 shared, and LEASE_GRANTs that join it: in window 1, and for lease 1. -/
def sharedSt : State :=
  { leased with spc := { leased.spc with
      windows := [(0, ⟨0, 31⟩), (1, ⟨2 ^ 41, 30⟩)], extents := [(0, { xt0 with kind := .shared })] } }
def joinIn : Bytes := [0, 1] ++ toLe 2 60 ++ [7, 1] ++ zeros 10 ++ [0, 0, 0, 0, 1, 0, 0, 0, 0, 0, 1, 0, 0, 0, 0, 0]
def extendIn : Bytes := [0, 0] ++ toLe 2 60 ++ [7, 1] ++ zeros 2 ++ toLe 4 1 ++ zeros 4 ++ [0, 0, 0, 0, 1, 0, 0, 0, 0, 0, 1, 0, 0, 0, 0, 0]

/-- A formed space of modules 0, 1, 2, 3 and 9, seen by module 0, with extent 0 spread over 1, 2, 3 and 9. -/
def spreadXt : Extent := { xt0 with spread := [1, 2, 3, 9] }
def spreadSt : State :=
  { leased with
    hdg := { Hdg.reset with formed := true, size := 10, live := [0, 1, 2, 3, 9], quorum := true }
    spc := { leased.spc with extents := [(0, spreadXt)] } }

/-- The same with a re-spread that replaces module 0 by module 9. -/
def respreadXt : Extent := { xt0 with spread := [0, 1, 2, 3], respread := some ⟨0, 0, 9, [], false⟩ }
def respreadSt : State := { spreadSt with spc := { spreadSt.spc with extents := [(0, respreadXt)] } }

/-- The leased module with room in the near tier: channel 0 holds 2^20 pool chunks. -/
def roomy (s : State) : State := { s with near := { s.near with pool := [(0, 2 ^ 20)] } }

/-- A module with room finds a place for a husk. -/
theorem roomy_stores {s : State} {page id : Nat} {h : Husk} (hl : 524288 + h.chunks ≤ sumOf (List.range 96) s.freeIn) (hu : 0 ∈ s.allocChans)
    (hf : h.chunks ≤ s.freeIn 0) (hr : s.runFree 0 448 h.chunks ((s.pmeOf page).prot == 1) = true) (hk : 448 ∈ s.runStarts 0) :
    (s.storeHusk page h id false).2 = true :=
  State.storeHusk_ok (State.findNear_isSome (n := 0) _ (by unfold stagingChunks; omega) hu (State.runIn_isSome hf hk hr))

/-- A move of a page that began at time 0, a page in the near tier, a request of LD 0 that waits, an open slot with a written line. -/
def mv0 (kind : Nat) : Move := Move.mk0 kind 7 0
def pme0 (st : PState) : Pme :=
  { st := st, cls := 0, slot := 0, gen := 0, len := 32, cnt := 0, age := 0, acct := 0, prot := 0, near := 0, far := 0, seq := 1, mat := false,
    prev := .near }
def req0 (op : ROp) (w : Wait) : Req :=
  { id := 1, src := .host 0 0, op := op, sa := 0, label := 0, holder := 0, mv := .invalid, mask := 1, data := zeros 64, t0 := 0, tAcc := 0,
    waits := [w], stored := false, slot := 0, mirrorTag := 0, dropped := false, par := ClassP.std }
def slot0 (ph : Phase) : Slot :=
  { id := 1, page := 0, ph := ph, twin := false, bg := false, seq := 1, lines := (List.range 64).map fun i => (i, ⟨2 ^ 64 - 1, zeros 64, 0, []⟩),
    tFirst := 0, built := none }
def husk0 : Husk :=
  { chunks := 1, bytes := zeros 128, fallback := false, cls := 0, slot := 0, gen := 0, mat := false, seq := 2, copied := 0, poison := [], raw := [] }
def table0 (st cls : Nat) : Table := { st := st, gen := 0, cls := cls, elems := 0, wall := 0, lens := List.replicate 256 8 }

/-- A far chunk whose HCRC matches. -/
def sealed : Bytes := zeros 56 ++ toLe 4 (crc32 (zeros 56)) ++ zeros 68

/-- The leased module with its page 0, a move of it, some requests, or some slots. -/
def withPage (p : Pme) (s : State) : State := { s with tier := { s.tier with pmes := [(0, p)] } }
def withMove (m : Move) (s : State) : State := { s with tier := { s.tier with moves := [(0, m)] } }
def withReq (q : Req) (s : State) : State := { s with reqs := [q] }
def withSlot (x : Slot) (s : State) : State := { s with husk := { s.husk with slots := [x] } }
def withLease (l : Lease) (s : State) : State := { s with spc := { s.spc with leases := [(1, l)] } }
def withExtent (x : Extent) (s : State) : State := { s with spc := { s.spc with extents := [(0, x)] } }
def withTables (t : FMap Table) (s : State) : State := { s with husk := { s.husk with tables := t } }
def withNow (n : Nat) (s : State) : State := { s with now := n }

theorem firstFrom_lt {n start i : Nat} {p : Nat → Bool} (h : firstFrom n start p = some i) : i < n ∧ p i = true := by
  unfold firstFrom at h
  have h1 := List.mem_of_find?_eq_some h
  have h2 := List.find?_some h
  simp only [List.mem_map, List.mem_range] at h1
  obtain ⟨k, hk, rfl⟩ := h1
  exact ⟨Nat.mod_lt _ (by omega), h2⟩

theorem firstFrom_isSome {n start j : Nat} {p : Nat → Bool} (hj : j < n) (hp : p j = true) : ∃ i, firstFrom n start p = some i := by
  unfold firstFrom
  rw [← Option.isSome_iff_exists, List.find?_isSome]
  refine ⟨j, ?_, hp⟩
  simp only [List.mem_map, List.mem_range]
  refine ⟨(j + n - start % n) % n, Nat.mod_lt _ (by omega), ?_⟩
  have : start % n < n := Nat.mod_lt _ (by omega)
  rw [Nat.add_mod, Nat.mod_mod, ← Nat.add_mod]
  conv_lhs => rw [Nat.add_mod]
  have e : start % n + (j + n - start % n) = j + n := by omega
  rw [Nat.add_mod_mod, e]
  simp [Nat.mod_eq_of_lt hj]

theorem homeOf_small {i : Nat} (h : i < 2 ^ 14) : homeOf i = 0 := by unfold homeOf; omega

def plan0 : Plan := { fresh := [], order := [], load := [], map := 0 }

/-- The extent that PUB_BUILD plans in the leased module, and its plan. -/
def pubXt : Extent := { xt0 with kind := .published, namers := [0] }
def pubPlan (i : Nat) : Plan := { fresh := [(i, pubXt)], order := [i], load := [(0, chargeAt i pubXt 0)], map := pagesAt i pubXt 0 }

theorem plan_one : ∃ i, i < 2 ^ 14 ∧ leased.taken.planNew 0 0 (buildReq xt0 255) plan0 = .ok (pubPlan i) := by
  obtain ⟨i, hi⟩ := firstFrom_isSome (n := leased.taken.localCap) (start := Config.pick (leased.taken.draws + 1)) (j := 1)
    (p := fun i => !((look leased.taken.spc.extents (0 * 2 ^ 14 + i)).isSome || plan0.fresh.any (fun e => e.1 == 0 * 2 ^ 14 + i))) (by decide) (by decide)
  have hl := firstFrom_lt hi
  have hlt : i < 2 ^ 14 := lt_of_lt_of_le hl.1 (by decide)
  refine ⟨i, hlt, ?_⟩
  have e1 : leased.taken.placeExtent 0 0 (buildReq xt0 255) plan0 = .ok (i, pubXt) := by
    unfold State.placeExtent
    have e2 : (if (buildReq xt0 255).home = 0xFF then argMin (fun m => 2 ^ 41 - (leased.taken.poolAt m - plan0.at m))
        ((leased.taken.homesFor (buildReq xt0 255).prot).filter fun c => (buildReq xt0 255).prot != 2 || leased.taken.admitsAt 0 (twinOf c)
          (plan0.at (twinOf c) + chargeOf (buildReq xt0 255).cls (buildReq xt0 255).elem (bxK (buildReq xt0 255).bxk) (buildReq xt0 255).d *
            (2 ^ 18 / layoutSize (buildReq xt0 255).layout)))
      else (leased.taken.homesFor (buildReq xt0 255).prot).find? (· == (buildReq xt0 255).home)) = some 0 := by decide
    simp only [e2]
    rw [if_neg (by decide)]
    simp only [hi]
    simp
    decide
  unfold State.planNew
  rw [e1]
  have e3 : modulesOf i pubXt = [0] := by simp [modulesOf, pubXt, xt0, homeOf_small hlt]
  simp [e3, plan0, put, look, pubPlan]
  rfl

theorem admit_one {i : Nat} (h : i < 2 ^ 14) :
    leased.taken.admitPlan 0 { pubPlan i with fresh := [(i, { pubXt with namers := [], tslot := 0 })] } = none := by
  have e1 : chargeAt i pubXt 0 = chargeAt 0 pubXt 0 := by simp [chargeAt, pubXt, pagesAt, xt0, homeOf_small h, show homeOf 0 = 0 from by decide]
  have e2 : pagesAt i pubXt 0 = 2 ^ 18 := by simp [pagesAt, pubXt, xt0, homeOf_small h]
  have e3 : modulesOf i { pubXt with namers := [], tslot := 0 } = [0] := by simp [modulesOf, pubXt, xt0, homeOf_small h]
  unfold pubPlan
  simp only [e1, e2]
  unfold State.admitPlan State.planKeys
  simp only [List.any_cons, List.any_nil, e3, List.filterMap_cons, List.filterMap_nil]
  rw [if_neg (by decide)]
  have e5 : ¬ (decide (2 ^ 18 + leased.taken.mapUsed > leased.taken.mapCap) = true) := by decide
  rw [if_neg e5]
  have e4 : ([(0, chargeAt 0 pubXt 0)].find? fun l => !leased.taken.admitsAt 0 l.1 l.2) = none := by decide
  rw [e4]
  decide

/-- A loaded sheaf, and a stream schedule of LD 0 with one layer of one page. -/
def sheaf0 (kind : Nat) (b : Bytes) : Sheaf := { kind := kind, image := b, owner := some 0, leases := [], unloading := false, bad := [] }
def schedImg : Bytes := [1, 1, 1, 0] ++ toLe 2 1 ++ [0, 0] ++ zeros 8 ++ zeros 8 ++ toLe 4 1 ++ zeros 36 ++ zeros 8 ++ toLe 4 1 ++ zeros 4
def sched0 : Sched :=
  { st := 1, ld := 0, sheaf := 1, lead := 1, leadMin := 1, leadMax := 1, flags := 0, layers := 1, label := 0, drop := 0, gatePage := 0,
    budget := 100, pass := 0, c := 0, resident := 0, resValid := false, late := 0, onTime := 0, started := [], gated := [], pinned := [],
    placed := [], entries := [(0, 1, 0)], acct := 0 }
def withSched (c : Sched) (s : State) : State := { s with tier := { s.tier with scheds := [(0, c)] } }
def withSheaf (q : Sheaf) (s : State) : State := { s with tlr := { s.tlr with sheaves := [(1, q)] } }
def row0 (why : Nat) : RowItem := { id := 0, page := 0, far := 0, why := why, t0 := 0, old := 0, oldLen := 0, bytes := zeros 128 }

@[irreducible] def manyRecs : List JRec := List.replicate 2097152 ⟨0, .clear ⟨false, 0, 0, false⟩, false, true⟩
theorem manyRecs_len : manyRecs.length = 2097152 := by unfold manyRecs; exact List.length_replicate

theorem ckpt_due (s : State) (h : s.far.jrnl = manyRecs) (h' : s.durPends = false) : s.far.jrnl.length * 2 ≥ jrnlRing ∧ ¬ s.durPends = true := by
  rw [h, manyRecs_len, h']; decide
def ckptSt : State := { up with far := { Far.reset with jrnl := manyRecs } }

/-- A context at PC 0 of sheaf 1 with s1 = 5 and s2 = 7, and a sheaf of one word with a grant of extent 0. -/
def ctx0 : Ctx :=
  { s := 0 :: 5 :: 7 :: List.replicate 29 0, a := List.replicate 16 0, p := List.replicate 8 0, v := List.replicate 16 0,
    t := List.replicate 4 Tile.zero, pc := 0, calls := [], loops := [], topk := ⟨16, []⟩, words := List.replicate 32 0, sheaf := 1, tiller := 0,
    resident := true, label := 0, ld := some 0, portal := 0, desc := 0, member := 0, scratchLen := 4096, scratch := [], ops := [],
    wait := .run, gateEnd := none, buf := [], bufSynd := 0, since := 0, yielded := false, expired := false, late := none, ended := none }
def codeImg (w : Word) : Bytes :=
  [2, 0] ++ toLe 2 1 ++ toLe 4 1 ++ zeros 56 ++ toLe 8 (3 * 2 ^ 62) ++ toLe 8 (2 ^ 30) ++ toLe 8 w.toNat
def running (x : Ctx) (w : Word) : State :=
  { leased with tlr := { Tlr.reset with ctxs := [(0, x)], sheaves := [(1, { sheaf0 2 (codeImg w) with leases := [[1]] })] } }

/-- A word of a major opcode, and one of format S with SA 1, SB 2, SD 3. -/
def wd (k f : Nat) : Word := BitVec.ofNat 64 (k * 2 ^ 58 + f)
def sWord (k : Nat) : Word := wd k (3 * 2 ^ 42 + 2 ^ 37 + 2 * 2 ^ 32)


/-- The running module with its context changed, and a module with a ring of LD 0 changed and enabled. -/
def withCtx (f : Ctx → Ctx) : State := running (f ctx0) (wd 0 0)
def withRing (f : Ring → Ring) (s : State) : State :=
  (s.setRing 0 0 f).setRegB 1 (rqReg 0 8) (2 ^ 63 + 6) |>.setRegB 1 (rqReg 0 0x28) (2 ^ 63 + 2 ^ 40 + 2 ^ 24 + 6)
def descIn (op : Nat) : Bytes := [BitVec.ofNat 8 op] ++ zeros 7 ++ toLe 4 1 ++ zeros 52
def withDesc (op : Nat) (s : State) : State := withRing (fun q => { q with tail := 1, fetched := [(0, descIn op)] }) s

/-- The leased module with an image in a slot of page 0. -/
def inSlot (b : Bytes) : State :=
  withSlot { slot0 .opened with lines := (List.range 2).map fun i => (i, ⟨2 ^ 64 - 1, fit 64 (b.drop (64 * i)), 0, []⟩) } leased
def image : Bytes := [1, 2] ++ toLe 2 1 ++ toLe 4 1 ++ toLe 4 4096 ++ zeros 52 ++ toLe 8 (3 * 2 ^ 62) ++ toLe 8 (2 ^ 30) ++ zeros 8
def loadIn (kind len : Nat) : Bytes := [BitVec.ofNat 8 kind] ++ zeros 15 ++ toLe 4 len

/-- The module with port 0 of the Hedgerow changed. -/
def withPort (f : HPort → HPort) (s : State) : State := s.setHport 0 (f { HPort.blank with st := 2, nmod := 1 })

/-- A message from module 1, with an address and data, and one of a tag. -/
def msg0 (addr : Nat) (d : Bytes) : Msg :=
  { dst := 0, src := 1, label := 0, holder := 0, tag := 1, cxl := 0, synd := 0, addr := addr, data := d }

/-- The spread module with a request that waits for module 1. -/
def askedSt (op : ROp) (w : Wait) : State := withReq { req0 op w with mirrorTag := 1 } spreadSt

/-- The module with its near channel 0 changed, with its fabric block changed, and the spread module with the latter. -/
def withChan (f : Chan → Chan) (s : State) : State := s.setChan 0 f
def withHdg (f : Hdg → Hdg) (s : State) : State := { s with hdg := f s.hdg }
def resv0 : Resv :=
  { holder := 0, cls := 0, res := 8, rate := 1, bucket := 0, filled := 0, deliv := 0, demand := 0, run := 0, missed := false, last := 0 }
def broom0 : Broom :=
  { mode := 0, repair := false, chans := 1, first := 0, last := 5, visited := [], scanned := 0, corrected := 0, uncorr := 0, poisoned := 0,
    skipped := 0, ceRows := [], sugg := [] }
def stuck (who : Nat) : State := { leased with integ := { Integ.reset with movers := [(0, { Mover.idle with st := 3, who := who })] } }

/-- The module with its event block, its recorder or its sessions changed. -/
def withEsu (f : Esu → Esu) (s : State) : State := { s with esu := f s.esu }
def withStk (f : Stk → Stk) (s : State) : State := { s with stk := f s.stk }
def withSessions (l : FMap Nat) (s : State) : State := { s with sec := { s.sec with sessions := l } }

/-- The module with its power block or its host block changed. -/
def withPwr (f : Pwr → Pwr) (s : State) : State := { s with pwr := f s.pwr }
def withHost (f : HostB → HostB) (s : State) : State := { s with host := f s.host }

/-- States and operands that meet the hypotheses of HostRequestsAreServed, clause by clause. -/
theorem witness_HostRequestsAreServed :
    (∃ (s : State) (ld : Fin 64) (hpa label sa : Nat) (ide : Bool),
    (s.hostOpen ld = true) ∧ (s.ideRefuses ld ide = false) ∧ (s.hedge ld hpa 0 = some (label, sa))) ∧
    (∃ (s : State) (ld : Fin 64) (hpa label sa : Nat) (ide : Bool),
    (s.hostOpen ld = true) ∧ (s.ideRefuses ld ide = false) ∧ (s.hedge ld hpa 1 = some (label, sa)) ∧ (s.ldOwes ld (saLine sa) = false)) ∧
    (∃ (s : State) (ld : Fin 64) (hpa label sa : Nat) (ide : Bool),
    (s.hostOpen ld = true) ∧ (s.ideRefuses ld ide = false) ∧ (s.hedge ld hpa 1 = some (label, sa)) ∧ (s.ldOwes ld (saLine sa) = true)) ∧
    (∃ (s : State) (ld : Fin 64) (hpa label sa : Nat),
    (s.hostOpen ld = true) ∧ ((s.bump cntHp 1 1).hedge ld hpa 1 = some (label, sa))) ∧
    (∃ (s : State) (ld : Fin 64) (hpa label sa : Nat),
    (s.hostOpen ld = true) ∧ ((s.bump cntHp 1 1).hedge ld hpa 0 = some (label, sa))) ∧
    (∃ (s : State) (ld : Fin 64) (hpa label sa : Nat) (e : DirEnt),
    (s.hostOpen ld = true) ∧ (s.hedge ld hpa 0 = some (label, sa)) ∧ (s.kindAt sa = .shared) ∧ (s.awake.reqs = []) ∧ (s.awake.homes (saPage (sa / 64 * 64)) = true) ∧ (s.awake.pageHome (saPage (sa / 64 * 64)) = s.awake.me) ∧ (s.awake.dozeHolds = false) ∧ ((s.awake.hdg.takeover.contains s.awake.me || s.awake.hdg.twinMarks.contains (saPage (sa / 64 * 64))) = false) ∧ (s.awake.respreadOf (saPage (sa / 64 * 64)) = none) ∧ (s.awake.isVlr (saPage (sa / 64 * 64)) = false) ∧ (s.awake.dirEnt (saLine (sa / 64 * 64)) = some e) ∧ (e.st ≠ 3) ∧ (e.form ≠ 1) ∧ (covers e (s.holderOf ld) = true)) ∧
    (∃ (s : State) (ld : Fin 64) (hpa label sa : Nat),
    (s.hostOpen ld = true) ∧ (s.hedge ld hpa 0 = some (label, sa)) ∧ (s.kindAt sa ≠ .shared)) ∧
    (∃ (s : State) (ld : Fin 64) (line : Nat),
    (s.portUp (ld / 16) = true) ∧ (s.dir.owed.find? (fun o => o.1 == ld.val && o.2.1 == line) = none)) ∧
    (∃ (s : State) (ld : Fin 64) (line : Nat) (o : Nat × Nat × Nat × Nat),
    (s.portUp (ld / 16) = true) ∧ (s.dir.owed.find? (fun o => o.1 == ld.val && o.2.1 == line) = some o)) ∧
    (∃ (s : State) (p : Fin 4),
    (s.portUp p = true)) ∧
    (∃ (s : State) (ld : Fin 64) (w : Fin 8) (h : Nat) (l : Lease),
    (s.hostOpen ld = true) ∧ (s.leaseAt ld w = some (h, l)) ∧ (l.st = .active) ∧ (s.now < l.deadline)) ∧
    (∃ (s : State) (ld : Fin 64),
    (s.hostOpen ld = true)) :=
  ⟨⟨(leased), (0), (0), (0), (0), (false), by decide, by decide, by decide⟩,
   ⟨(leased), (0), (0), (0), (0), (false), by decide, by decide, by decide, by decide⟩,
   ⟨({ leased with dir := { Dir.reset with owed := [(0, 0, 5, 7)] } }), (0), (0), (0), (0), (false), by decide, by decide, by decide, by decide⟩,
   ⟨(leased), (0), (0), (0), (0), by decide, by decide⟩,
   ⟨(leased), (0), (0), (0), (0), by decide, by decide⟩,
   ⟨({ leased with spc := { leased.spc with extents := [(0, { xt0 with kind := .shared })] }, dir := { Dir.reset with sets := [(0, [⟨0, 1, 0, 1, 0⟩])] } }), (0), (0), (0), (0), (⟨0, 1, 0, 1, 0⟩), by decide, by decide, by decide, by decide, by decide, by decide, by decide, by decide, by decide, by decide, by decide, by decide, by decide, by decide⟩,
   ⟨(leased), (0), (0), (0), (0), by decide, by decide, by decide⟩,
   ⟨(leased), (0), (0), by decide, by decide⟩,
   ⟨({ leased with dir := { Dir.reset with owed := [(0, 0, 5, 7)] } }), (0), (0), ((0, 0, 5, 7)), by decide, by decide⟩,
   ⟨(up), (0), by decide⟩,
   ⟨(leased), (0), (0), (1), (lease0), by decide, by decide, by decide, by decide⟩,
   ⟨(up), (0), by decide⟩⟩

/-- States and operands that meet the hypotheses of LeaseCommandsAct, clause by clause. -/
theorem witness_LeaseCommandsAct :
    (∃ (s : State) (x : Mbx) (rs : List GReq) (p : Plan),
    (s.sent x .ld true 16 = true) ∧ (16 + 16 * mb8 x 5 ≤ x.data.length) ∧ (¬(mb8 x 5 = 0 ∨ mb8 x 5 > 64 ∨ mb16 x 6 ≠ 0 ∨ mb32 x 12 ≠ 0 ∨ mb8 x 4 ≥ 8)) ∧ (s.taken.memberOf (mb8 x 0) (s.taken.holderOf (mbWho x)) = true) ∧ (s.taken.formedOrBench = true) ∧ (readGReqs x (mb8 x 5) = some rs) ∧ ((s.taken.extNeed [] (rs.filterMap GReq.exist)).isEmpty = true) ∧ (mb32 x 8 = 0) ∧ (mb16 x 2 ≤ 600) ∧ (s.taken.windowFree (mbWho x) (mb8 x 1) = true) ∧ (s.taken.planAll (mb8 x 0) s.taken.newHandle rs { fresh := [], order := [], load := [], map := 0 } = .ok p) ∧ (p.order.length ≤ (s.taken.freeSlots (mbWho x) (mb8 x 1) p.order.length).length) ∧ (s.taken.admitPlan (mb8 x 0) p = none)) ∧
    (∃ (s : State) (x : Mbx) (rs : List GReq) (p : Plan) (l : Lease),
    (s.sent x .ld true 16 = true) ∧ (16 + 16 * mb8 x 5 ≤ x.data.length) ∧ (¬(mb8 x 5 = 0 ∨ mb8 x 5 > 64 ∨ mb16 x 6 ≠ 0 ∨ mb32 x 12 ≠ 0 ∨ mb8 x 4 ≥ 8)) ∧ (s.taken.memberOf (mb8 x 0) (s.taken.holderOf (mbWho x)) = true) ∧ (s.taken.formedOrBench = true) ∧ (readGReqs x (mb8 x 5) = some rs) ∧ ((s.taken.extNeed [] (rs.filterMap GReq.exist)).isEmpty = true) ∧ (mb32 x 8 ≠ 0) ∧ (look s.taken.spc.leases (mb32 x 8) = some l) ∧ (l.st = .active) ∧ (l.ld = some (mbWho x)) ∧ (l.acct = mb8 x 0 ∧ l.window = mb8 x 1 ∧ l.rights = mb8 x 4) ∧ (s.taken.planAll (mb8 x 0) (mb32 x 8) rs { fresh := [], order := [], load := [], map := 0 } = .ok p) ∧ (p.order.length ≤ (s.taken.freeSlots (mbWho x) (mb8 x 1) p.order.length).length) ∧ (s.taken.admitPlan (mb8 x 0) p = none)) ∧
    (∃ (s : State) (x : Mbx) (l : Lease),
    (s.sent x .ld true 6 = true) ∧ (mb16 x 4 ≤ 600) ∧ (look s.spc.leases (mb32 x 0) = some l) ∧ (l.ld = some (mbWho x)) ∧ (l.st = .active) ∧ (s.now < l.deadline)) ∧
    (∃ (s : State) (x : Mbx) (l : Lease),
    (s.sent x .ld true 8 = true) ∧ (look s.spc.leases (mb32 x 0) = some l) ∧ (l.ld = some (mbWho x)) ∧ (l.st = .active) ∧ (¬((namedExts l (mb16 x 4) (mb16 x 6)).isEmpty = true ∧ mb16 x 6 ≠ 0))) ∧
    (∃ (s : State) (x : Mbx) (l : Lease),
    (s.sent x .ld true 32 = true) ∧ (¬((look s.taken.spc.tokLock (mbWho x)).isSome)) ∧ (¬(!s.taken.memberOf (mb8 x 4) (s.taken.holderOf (mbWho x)))) ∧ (s.taken.leaseFor (mb32 x 0) = some l) ∧ (¬((s.taken.tokenStatus l (leAt x.data 16 16) (mb8 x 4)) = 5)) ∧ (¬((s.taken.tokenStatus l (leAt x.data 16 16) (mb8 x 4)) ≠ 0)) ∧ (¬(!s.taken.windowFor (mbWho x) (mb8 x 5) (mb32 x 0) l.exts.length))) ∧
    (∃ (s : State) (x : Mbx),
    (s.sent x .ld true 32 = true) ∧ (¬((look s.taken.spc.tokLock (mbWho x)).isSome)) ∧ (¬(!s.taken.memberOf (mb8 x 4) (s.taken.holderOf (mbWho x)))) ∧ (s.taken.leaseFor (mb32 x 0) = none) ∧ (¬(!s.taken.windowFor (mbWho x) (mb8 x 5) (mb32 x 0) 0)) ∧ (¬(s.taken.peers.isEmpty))) ∧
    (∃ (s : State) (x : Mbx) (l : Lease),
    (s.sent x .any false 16 = true) ∧ (mb32 x 0 ≠ 0) ∧ (1 ≤ mb16 x 12) ∧ (mb16 x 12 ≤ 1024) ∧ (leAt x.data 5 3 = 0) ∧ (mb16 x 14 = 0) ∧ (s.taken.leaseFor (mb32 x 0) = some l) ∧ (¬(!mbFm x ∧ l.ld ≠ some (mbWho x) ∧ !(l.ld.isNone ∧ l.lastLd = mbWho x)))) ∧
    (∃ (s : State) (x : Mbx) (l : Lease),
    (s.sent x .fm true 16 = true) ∧ (mb32 x 12 = 0 ∨ (100 ≤ mb32 x 12 ∧ mb32 x 12 ≤ 50000)) ∧ (mb8 x 8 = s.me) ∧ (look s.spc.leases (mb32 x 0) = some l) ∧ (l.st = .active ∨ l.st = .orphan) ∧ (¬((namedExts l (mb16 x 4) (mb16 x 6)).isEmpty = true ∧ mb16 x 6 ≠ 0))) :=
  ⟨⟨(sharedSt), (ldx joinIn), ((readGReqs (ldx joinIn) 1).getD []), ({ fresh := [], order := [0], load := [], map := 0 }), by decide, by decide, by decide, by decide, by decide, by decide, by decide, by decide, by decide, by decide, rfl, by decide, by decide⟩,
   ⟨(sharedSt), (ldx extendIn), ((readGReqs (ldx extendIn) 1).getD []), ({ fresh := [], order := [0], load := [], map := 0 }), (lease0), by decide, by decide, by decide, by decide, by decide, by decide, by decide, by decide, by decide, by decide, by decide, by decide, rfl, by decide, by decide⟩,
   ⟨(leased), (ldx (toLe 4 1 ++ toLe 2 0)), (lease0), by decide, by decide, by decide, by decide, by decide, by decide⟩,
   ⟨(leased), (ldx (toLe 4 1 ++ zeros 4)), (lease0), by decide, by decide, by decide, by decide, by decide⟩,
   ⟨({ leased with spc := { leased.spc with leases := [(1, { lease0 with token := 9 })] } }), (ldx (toLe 4 1 ++ toLe 1 0 ++ toLe 1 0 ++ zeros 10 ++ toLe 16 9)), ({ lease0 with token := 9 }), by decide, by decide, by decide, by decide, by decide, by decide, by decide⟩,
   ⟨({ spreadSt with spc := { spreadSt.spc with leases := [] } }), (ldx (toLe 4 1 ++ toLe 1 0 ++ toLe 1 0 ++ zeros 10 ++ toLe 16 9)), by decide, by decide, by decide, by decide, by decide, by decide⟩,
   ⟨(leased), (ldx (toLe 4 1 ++ zeros 8 ++ toLe 2 1 ++ zeros 2)), (lease0), by decide, by decide, by decide, by decide, by decide, by decide, by decide, by decide⟩,
   ⟨(leased), (fmx (toLe 4 1 ++ zeros 12)), (lease0), by decide, by decide, by decide, by decide, by decide, by decide⟩⟩

/-- States and operands that meet the hypotheses of AccountAndSpreadCommandsAct, clause by clause. -/
theorem witness_AccountAndSpreadCommandsAct :
    (∃ (s : State) (x : Mbx),
    (s.sent x .fm true 24 = true) ∧ (¬(mb8 x 2 ≥ 2 ∨ leAt x.data 3 5 ≠ 0 ∨ mb64 x 8 ≥ 2 ^ 40 ∨ mb64 x 16 ≥ 2 ^ 40)) ∧ ((if mb8 x 1 = 0xFF then s.taken.me else mb8 x 1) = s.taken.me) ∧ (s.taken.granted_ (mb8 x 0) + mb64 x 16 ≤ mb64 x 8)) ∧
    (∃ (s : State) (x : Mbx),
    (s.sent x .fm false 2 = true) ∧ ((if mb8 x 1 = 0xFF then s.taken.me else mb8 x 1) = s.taken.me)) ∧
    (∃ (s : State) (x : Mbx),
    (s.sent x .fm true 16 = true) ∧ (mb8 x 1 = 1) ∧ (mb16 x 2 < 4096) ∧ (leAt x.data 4 12 = 0) ∧ (mb16 x 2 ∉ (s.taken.acct (mb8 x 0)).members) ∧ ((s.taken.acct (mb8 x 0)).members.length < 256) ∧ (((vals s.spc.accts).filter fun y => y.members.contains (mb16 x 2)).length < 8)) ∧
    (∃ (s : State) (x : Mbx),
    (s.sent x .fm true 16 = true) ∧ (mb8 x 1 = 2) ∧ (mb16 x 2 < 4096) ∧ (leAt x.data 4 12 = 0) ∧ (mb16 x 2 ∈ (s.taken.acct (mb8 x 0)).members)) ∧
    (∃ (s : State) (x : Mbx) (xt : Extent),
    (s.sent x .fm true 16 = true) ∧ (mb32 x 0 < 2 ^ 20) ∧ (leAt x.data 6 10 = 0) ∧ (s.taken.bgBusy (mbWho x) = false) ∧ ((s.taken.extNeed [] [mb32 x 0]).isEmpty = true) ∧ (look s.taken.spc.extents (mb32 x 0) = some xt) ∧ (¬(xt.spread.isEmpty ∨ !xt.spread.contains (mb8 x 4) ∨ xt.spread.contains (mb8 x 5) ∨ xt.respread.isSome)) ∧ (¬(mb8 x 4 ≥ 64 ∨ mb8 x 5 ≥ 64 ∨ !s.taken.isLive (mb8 x 4) ∨ !s.taken.isLive (mb8 x 5))) ∧ (¬(!s.taken.admitsSlot (mb8 x 5) xt (slotPages xt) ∨ (xt.prot = 2 ∧ (!s.taken.isLive (twinOf (mb8 x 5)) ∨ !s.taken.admitsSlot (twinOf (mb8 x 5)) xt 0)))) ∧ ((if (mb8 x 5 == s.taken.me || (xt.prot == 2 && twinOf (mb8 x 5) == s.taken.me)) = true then s.taken.keyRefuses (keySlotOf xt) else none) = none)) ∧
    (∃ (s : State) (e page : Nat) (xt : Extent) (q : Respread),
    (s.respreadNext e page = some (xt, q)) ∧ (s.move page = none) ∧ ((s.slotsOf page).isEmpty = true) ∧ (((s.setMove page (some (Move.mk0 3 7 s.now))).snoopPage page).pageSnooped page = true)) ∧
    (∃ (s : State) (e page : Nat) (xt : Extent) (q : Respread) (m : Move),
    (s.respreadNext e page = some (xt, q)) ∧ (s.move page = some m) ∧ (m.kind = 3) ∧ (m.issued = true)) ∧
    (∃ (s : State) (e who : Nat) (xt : Extent) (q : Respread),
    (look s.spc.extents e = some xt) ∧ (xt.respread = some q) ∧ (q.done = true) ∧ (s.reqs.any (s.atOld e xt q) = false) ∧ (look (s.putExtent e { xt with spread := xt.spread.set q.slot q.new, respread := none }).spc.respreadBg e = some who)) :=
  ⟨⟨(up), (fmx (toLe 1 3 ++ toLe 1 255 ++ zeros 6 ++ toLe 8 100 ++ toLe 8 0)), by decide, by decide, by decide, by decide⟩,
   ⟨(up), (fmx [3, 255]), by decide, by decide⟩,
   ⟨(leased), (fmx (toLe 1 3 ++ toLe 1 1 ++ toLe 2 5 ++ zeros 12)), by decide, by decide, by decide, by decide, by decide, by decide, by decide⟩,
   ⟨(leased), (fmx (toLe 1 0 ++ toLe 1 2 ++ toLe 2 0 ++ zeros 12)), by decide, by decide, by decide, by decide, by decide⟩,
   ⟨(spreadSt), (fmx (toLe 4 0 ++ toLe 1 9 ++ toLe 1 0 ++ zeros 10)), (spreadXt), by decide, by decide, by decide, by decide, by decide, by decide, by decide, by decide, by decide, by decide⟩,
   ⟨(respreadSt), (0), (0), (respreadXt), (⟨0, 0, 9, [], false⟩), by decide, by decide, by decide, by decide⟩,
   ⟨({ respreadSt with tier := { respreadSt.tier with moves := [(0, { Move.mk0 3 7 0 with issued := true })] } }), (0), (0), (respreadXt), (⟨0, 0, 9, [], false⟩), ({ Move.mk0 3 7 0 with issued := true }), by decide, by decide, by decide, by decide⟩,
   ⟨({ respreadSt with spc := { respreadSt.spc with extents := [(0, { respreadXt with respread := some ⟨0, 0, 9, [], true⟩ })], respreadBg := [(0, 64)] } }), (0), (64), ({ respreadXt with respread := some ⟨0, 0, 9, [], true⟩ }), (⟨0, 0, 9, [], true⟩), by decide, by decide, by decide, by decide, by decide⟩⟩

/-- States and operands that meet the hypotheses of PullThroughAndSlotCommandsAct, clause by clause. -/
theorem witness_PullThroughAndSlotCommandsAct :
    (∃ (s : State) (page : Nat) (m : Move),
    (s.move page = some m) ∧ (m.kind = 0 ∧ m.pull ∧ m.done ∧ ¬ m.waitSpace)) ∧
    (∃ (s : State) (page : Nat) (m : Move),
    (s.move page = some m) ∧ (m.kind = 0 ∧ m.pull ∧ ¬ m.done ∧ ¬ m.raised ∧ s.now ≥ m.t0 + s.farDl / 2)) ∧
    (∃ (s : State) (page : Nat) (m : Move),
    (s.move page = some m) ∧ (m.kind = 0 ∧ m.pull ∧ ¬ m.missed ∧ s.now ≥ m.t0 + s.farDl)) ∧
    (∃ (s : State) (r : Nat) (q : Req) (m : Move),
    (s.req r = some q) ∧ (s.move q.page = some m) ∧ (waitsFor .pull q ∧ q.op = .rd ∧ m.kind = 0 ∧ m.pull ∧ m.stream ∧ s.now ≥ m.t0 + s.ptBound)) ∧
    (∃ (s : State) (page : Nat) (x : Slot),
    (s.openSlot page false = some x) ∧ (s.now ≥ x.tFirst + s.slotWindow page ∧ ¬ x.lines.isEmpty ∧ ¬ x.bg)) ∧
    (∃ (s : State) (r : Nat) (q : Req),
    (s.req r = some q) ∧ (waitsFor .slot q && (s.slotFree false || (s.openSlot q.page false).isSome))) ∧
    (∃ (s : State) (page : Nat) (x : Slot),
    (s.closedSlot page = some x) ∧ (¬(s.recoding page || (s.move page).any (fun m => !m.waitSpace) || x.hides))) ∧
    (∃ (s : State) (page : Nat) (x : Slot) (h : Husk),
    (s.husk.slots.find? (fun x => x.page == page && x.ph == .recoding) = some x) ∧ (x.built = some h) ∧ (¬((s.durablePage page && !x.twin) && x.bg && decide (s.govLevel ≤ 0))) ∧ ((let dur := s.durablePage page && !x.twin; let pq := s.storeHusk page h x.id dur; let ok := pq.2; ¬(!ok)))) :=
  ⟨⟨(withMove { mv0 0 with pull := true, done := true } leased), (0), ({ mv0 0 with pull := true, done := true }), by decide, by decide⟩,
   ⟨(withMove { mv0 0 with pull := true } leased), (0), ({ mv0 0 with pull := true }), by decide, by decide⟩,
   ⟨(withMove { mv0 0 with pull := true } leased), (0), ({ mv0 0 with pull := true }), by decide, by decide⟩,
   ⟨(withReq (req0 .rd .pull) (withMove { mv0 0 with pull := true, stream := true } leased)), (1), (req0 .rd .pull), ({ mv0 0 with pull := true, stream := true }), by decide, by decide, by decide⟩,
   ⟨(withSlot (slot0 .opened) leased), (0), (slot0 .opened), by decide, by decide⟩,
   ⟨(withReq (req0 .wr .slot) leased), (1), (req0 .wr .slot), by decide, by decide⟩,
   ⟨(withSlot (slot0 .closed) leased), (0), (slot0 .closed), by decide, by decide⟩,
   ⟨(roomy (withSlot { slot0 .recoding with built := some husk0 } leased)), (0), ({ slot0 .recoding with built := some husk0 }), (husk0), by decide, by decide, by decide, by show ¬ ((!(State.storeHusk _ _ _ _ false).2) = true); rw [roomy_stores (by decide) (by decide) (by decide) (by decide) (by decide)]; decide⟩⟩

/-- States and operands that meet the hypotheses of LeaseTimersAct, clause by clause. -/
theorem witness_LeaseTimersAct :
    (∃ (s : State) (h : Nat) (l : Lease) (d : Nat),
    (¬(s.pwr.boot.isSome)) ∧ (look s.spc.leases h = some l) ∧ (l.ld = some d) ∧ (l.st = .active ∧ !l.quarter ∧ (l.deadline - s.now) * 4 ≤ l.dur * 10 ^ 9)) ∧
    (∃ (s : State) (h : Nat) (l : Lease),
    (¬(s.pwr.boot.isSome)) ∧ (look s.spc.leases h = some l) ∧ ((l.st = .active ∨ l.st = .orphan) ∧ s.now ≥ l.deadline)) ∧
    (∃ (s : State) (h : Nat) (l : Lease),
    (¬(s.pwr.boot.isSome)) ∧ (look s.spc.leases h = some l) ∧ (l.st = .grace ∧ s.now ≥ l.graceEnd)) ∧
    (∃ (s : State) (h : Nat) (d : Drain),
    (¬(s.inGrace h)) ∧ (s.spc.drains.find? (fun d => d.handle == h && s.drained d) = some d)) ∧
    (∃ (s : State) (h : Nat) (d : Drain),
    (¬(s.inGrace h)) ∧ (s.spc.drains.find? (fun d => d.handle == h && decide (d.bound ≤ s.now)) = some d)) ∧
    (∃ (s : State) (ld : Fin 64) (t : Nat),
    (look s.spc.tokLock ld = some t) ∧ (s.now ≥ t)) :=
  ⟨⟨(withLease { lease0 with deadline := 1 } leased), (1), ({ lease0 with deadline := 1 }), (0), by decide, by decide, by decide, by decide⟩,
   ⟨(withLease { lease0 with deadline := 1 } leased), (1), ({ lease0 with deadline := 1 }), by decide, by decide, by decide⟩,
   ⟨(withLease { lease0 with st := .grace } leased), (1), ({ lease0 with st := .grace }), by decide, by decide, by decide⟩,
   ⟨({ leased with spc := { leased.spc with drains := [⟨1, some 0, [0], 5, false⟩] } }), (1), (⟨1, some 0, [0], 5, false⟩), by decide, by decide⟩,
   ⟨({ leased with spc := { leased.spc with drains := [⟨1, some 0, [0], 5, false⟩] } }), (1), (⟨1, some 0, [0], 5, false⟩), by decide, by decide⟩,
   ⟨({ leased with spc := { leased.spc with tokLock := [(0, 5)] } }), (0), (5), by decide, by decide⟩⟩

/-- States and operands that meet the hypotheses of DirectoryCommandsAct, clause by clause. -/
theorem witness_DirectoryCommandsAct :
    (∃ (s : State) (r : Nat) (q : Req),
    (s.req r = some q) ∧ (¬(!waitsFor .dir q)) ∧ (¬(((s.serve r).req r).any fun q => waitsFor .dir q))) ∧
    (∃ (s : State) (holder : Nat),
    ((let owing := s.dir.trk.filter fun t => t.owed.contains holder; ¬(!owing.any (fun t => decide (t.t0 + 50000000 ≤ s.now)))))) ∧
    (∃ (s : State),
    (¬(!s.dir.sweepBusy))) ∧
    (∃ (s : State) (x : Mbx) (xt : Extent) (p : Plan) (y4 : Extent) (y5 : List (Nat × Extent)) (ne : Nat),
    (s.sent x .any false 5 = true) ∧ (¬((mb32 x 0) ≥ 2 ^ 20 ∨ ((mb8 x 4) ≥ 64 ∧ (mb8 x 4) ≠ 0xFF))) ∧ (¬(!s.taken.mayPublish x (mb32 x 0))) ∧ (s.taken.bgBusy (mbWho x) = false) ∧ ((s.taken.extNeed ([]) [(mb32 x 0)]).isEmpty = true) ∧ (look s.taken.spc.extents (mb32 x 0) = some xt) ∧ (¬(xt.kind = .published)) ∧ (¬((mb8 x 4) ≠ 0xFF ∧ !(s.taken.homesFor xt.prot).contains (mb8 x 4))) ∧ (s.taken.planNew xt.acct 0 (buildReq xt (mb8 x 4)) { fresh := [], order := [], load := [], map := 0 } = .ok p) ∧ ((let s := s.taken; let p : Plan := { p with fresh := p.fresh.map fun q => (q.1, { q.2 with namers := [], tslot := xt.tslot, vlr := xt.vlr }) }; s.admitPlan xt.acct p = none)) ∧ ((let p : Plan := { p with fresh := p.fresh.map fun q => (q.1, { q.2 with namers := [], tslot := xt.tslot, vlr := xt.vlr }) }; p.fresh = (ne, y4) :: y5)) ∧ (¬(xt.cls = 12))) ∧
    (∃ (s : State) (x : Mbx),
    (s.sent x .any false 8 = true) ∧ (¬(x.data.length < 8 + 8 * (mb16 x 0))) ∧ (¬((mb16 x 0) = 0 ∨ (mb16 x 0) > 4096)) ∧ ((let s := s.taken; let n := mb16 x 0; let pairs := (List.range n).map fun i => (mb32 x (8 + 8 * i), mb32 x (12 + 8 * i)); let may (e : Nat) : Bool := s.spc.leases.any fun l => l.2.ld == some (mbWho x) && l.2.st == .active && l.2.rights.testBit 2 && l.2.exts.any fun q => q.1 == e; ¬(!mbFm x ∧ !pairs.all (fun p => may p.1)))) ∧ (¬(!s.taken.formedOrBench ∨ (!s.taken.hdg.bench ∧ !s.taken.hdg.quorum))) ∧ ((let s := s.taken; let n := mb16 x 0; let pairs := (List.range n).map fun i => (mb32 x (8 + 8 * i), mb32 x (12 + 8 * i)); let acct := (look s.spc.extents (pairs.headD (0, 0)).1).elim 0 fun o => o.acct; ¬(!pairs.all s.flipPair ∨ !pairs.all (fun p => (look s.spc.extents p.1).any fun o => o.acct == acct) ∨ (pairs.map Prod.fst).eraseDups.length ≠ n ∨ (pairs.map Prod.snd).any (fun e => (pairs.map Prod.fst).contains e))))) ∧
    (∃ (s : State) (e : Nat) (x : Extent),
    (look s.spc.extents e = some x) ∧ (¬(x.serving ∨ s.reqs.any (fun r => extOf r.page == e))) ∧ (homeOf e = s.me)) ∧
    (∃ (s : State) (e : Nat) (x : Extent),
    (look s.spc.extents e = some x) ∧ (¬(x.serving ∨ s.reqs.any (fun r => extOf r.page == e))) ∧ (¬(homeOf e = s.me)) ∧ (s.isLive (homeOf e))) ∧
    (∃ (s : State) (x : Mbx),
    (s.sent x .fm false 8 = true) ∧ (¬((mb64 x 0) ≥ 2 ^ 44)) ∧ (s.taken.homes ((mb64 x 0) / 64))) :=
  ⟨⟨(withReq (req0 .rd .dir) leased), (1), (req0 .rd .dir), by decide, by decide, by decide⟩,
   ⟨({ leased with dir := { Dir.reset with trk := [⟨0, none, [5], [], 0, .inv, false, false⟩] } }), (5), by decide⟩,
   ⟨({ up with dir := { Dir.reset with sweepBusy := true } }), by decide⟩,
   let ⟨i, hlt, hp⟩ := plan_one; ⟨leased, fmx (zeros 4 ++ [255]), xt0, pubPlan i, { pubXt with namers := [], tslot := 0 }, [], i, by decide, by decide, by decide, by decide, by decide, by decide, by decide, by decide, by rw [show mb8 (fmx (zeros 4 ++ [255])) 4 = 255 from by decide]; exact hp, admit_one hlt, rfl, by decide⟩,
   ⟨({ leased with spc := { leased.spc with extents := [(0, { xt0 with kind := .published }), (1, { xt0 with kind := .published })] } }), (fmx (toLe 2 1 ++ zeros 6 ++ toLe 4 0 ++ toLe 4 1)), by decide, by decide, by decide, by decide, by decide, by decide⟩,
   ⟨(withExtent { xt0 with serving := false } leased), (0), ({ xt0 with serving := false }), by decide, by decide, by decide⟩,
   ⟨({ spreadSt with spc := { spreadSt.spc with extents := [(2 ^ 14, { xt0 with serving := false })] } }), (2 ^ 14), ({ xt0 with serving := false }), by decide, by decide, by decide, by decide⟩,
   ⟨(up), (fmx (zeros 8)), by decide, by decide, by decide⟩⟩

/-- States and operands that meet the hypotheses of CodeTableCommandsAct, clause by clause. -/
theorem witness_CodeTableCommandsAct :
    (∃ (s : State) (x : Mbx) (xt : Extent),
    (s.sent x .any false 16 = true) ∧ (¬((mb8 x 4) = 0 ∨ (mb8 x 4) > 3 ∨ (mb8 x 5) > 3 ∨ (mb32 x 8) = 0 ∨ (mb32 x 8) > 2 ^ 18 ∨ (mb32 x 12) = 0 ∨ (mb32 x 12) > 2 ^ 18)) ∧ ((s.taken.extNeed ([]) [(mb32 x 0)]).isEmpty = true) ∧ (look s.taken.spc.extents (mb32 x 0) = some xt) ∧ (¬(!s.taken.mayExtent x (mb32 x 0) 1)) ∧ (¬(xt.elem ≠ expElem (mb8 x 4))) ∧ (¬(s.taken.stagingBusy (mb8 x 5))) ∧ (s.taken.bgBusy (mbWho x) = false)) ∧
    (∃ (s : State) (x : Mbx),
    (s.sent x .fm false 144 = true) ∧ (¬((mb8 x 4) = 0 ∨ (mb8 x 4) > 3 ∨ (mb8 x 5) > 3)) ∧ (¬(s.taken.stagingBusy (mb8 x 5))) ∧ ((let c := mb8 x 4; let lens := (List.range 256).map fun i => mb8 x (16 + i / 2) / (if i % 2 = 0 then 1 else 16) % 16; ¬(!lensOk c lens)))) ∧
    (∃ (s : State) (x : Mbx) (t : Table) (n : Nat),
    (s.sent x .fm false 6 = true) ∧ (¬(mb8 x 5 > 3)) ∧ (¬(!s.taken.spaceWide)) ∧ (¬(s.taken.stagingBusy (mb8 x 5))) ∧ (look s.taken.husk.staging (mb8 x 5) = some t) ∧ ((List.range 64).find? (fun n => s.taken.tableSt n == 0) = some n)) ∧
    (∃ (s : State) (x : Mbx) (xt : Extent),
    (s.sent x .fm false 5 = true) ∧ ((s.taken.extNeed ([]) [mb32 x 0]).isEmpty = true) ∧ (look s.taken.spc.extents (mb32 x 0) = some xt) ∧ (¬((mb8 x 4) ≥ 64)) ∧ (¬(!isExp xt.cls)) ∧ (¬(s.taken.tableSt (mb8 x 4) ≠ 1)) ∧ (¬(!(look s.taken.husk.tables (mb8 x 4)).any (fun t => t.cls == xt.cls)))) ∧
    (∃ (s : State) (x : Mbx) (t : Table),
    (s.sent x .fm false 5 = true) ∧ (¬((mb8 x 4) ≥ 64)) ∧ (¬(!s.taken.spaceWide)) ∧ (look s.taken.husk.tables (mb8 x 4) = some t) ∧ (¬((mb8 x 4) ≤ 2 ∨ t.st ≠ 1 ∨ s.taken.spc.extents.any (fun e => isExp e.2.cls && e.2.tslot == (mb8 x 4)) ∨ s.taken.boundElsewhere))) ∧
    (∃ (s : State) (x : Mbx),
    (s.sent x .fm false 5 = true) ∧ (¬((mb8 x 4) ≥ 64))) ∧
    (∃ (s : State) (slot : Fin 64) (t : Table),
    (look s.husk.tables slot = some t) ∧ (¬(t.st ≠ 2 ∨ s.huskCount slot ≠ 0)) ∧ (¬(!(s.copyAll s.peers (.husks slot 0)).hdg.bench ∧ ((s.copyAll s.peers (.husks slot 0)).hdg.live.length < (s.copyAll s.peers (.husks slot 0)).hdg.size ∨ !(s.copyAll s.peers (.husks slot 0)).peers.all fun m => (s.copyAll s.peers (.husks slot 0)).husk.zeros.contains (slot.val, m))))) :=
  ⟨⟨(withPage (pme0 .near) (withExtent { xt0 with elem := expElem 1 } leased)), (fmx (zeros 4 ++ [1, 0, 0, 0] ++ toLe 4 (2 ^ 18) ++ toLe 4 1)), ({ xt0 with elem := expElem 1 }), by decide, by decide, by decide, by decide, by decide, by decide, by decide, by decide⟩,
   ⟨(up), (fmx (zeros 4 ++ [1] ++ zeros 11 ++ List.replicate 128 0x88)), by decide, by decide, by decide, by decide⟩,
   ⟨({ up with husk := { HuskB.reset with staging := [(0, table0 0 1)] } }), (fmx (zeros 6)), (table0 0 1), (0), by decide, by decide, by decide, by decide, by decide, by decide⟩,
   ⟨(withTables [(3, table0 1 1)] (withExtent { xt0 with cls := 1 } leased)), (fmx (zeros 4 ++ [3])), ({ xt0 with cls := 1 }), by decide, by decide, by decide, by decide, by decide, by decide, by decide⟩,
   ⟨(withTables [(3, table0 1 1)] leased), (fmx (zeros 4 ++ [3])), (table0 1 1), by decide, by decide, by decide, by decide, by decide⟩,
   ⟨(up), (fmx (zeros 5)), by decide, by decide⟩,
   ⟨(withTables [(3, table0 2 1)] leased), (3), (table0 2 1), by decide, by decide, by decide⟩⟩

/-- States and operands that meet the hypotheses of RecodeAndVlrCommandsAct, clause by clause. -/
theorem witness_RecodeAndVlrCommandsAct :
    (∃ (s : State) (x : Mbx) (xt : Extent),
    (s.sent x .any false 4 = true) ∧ ((s.taken.extNeed ([]) [(mb32 x 0)]).isEmpty = true) ∧ (look s.taken.spc.extents (mb32 x 0) = some xt) ∧ (¬(!s.taken.mayExtent x (mb32 x 0) 1)) ∧ (s.taken.bgBusy (mbWho x) = false) ∧ ((let s := s.taken; let e := mb32 x 0; let todo := (s.pagesOfExt e).filter fun p => s.homes p && s.offEncoding xt (s.pmeOf p); todo.isEmpty))) ∧
    (∃ (s : State) (x : Mbx) (xt : Extent),
    (s.sent x .any false 4 = true) ∧ ((s.taken.extNeed ([]) [(mb32 x 0)]).isEmpty = true) ∧ (look s.taken.spc.extents (mb32 x 0) = some xt) ∧ (¬(!s.taken.mayExtent x (mb32 x 0) 1)) ∧ (s.taken.bgBusy (mbWho x) = false) ∧ ((let s := s.taken; let e := mb32 x 0; let todo := (s.pagesOfExt e).filter fun p => s.homes p && s.offEncoding xt (s.pmeOf p); ¬(todo.isEmpty)))) ∧
    (∃ (s : State) (x : Mbx) (xt : Extent),
    (s.sent x .any false 40 = true) ∧ ((s.taken.extNeed ([]) [mb32 x 0, (vlrOf x).u / 2 ^ 30, (vlrOf x).v / 2 ^ 30]).isEmpty = true) ∧ ((s.taken.extNeed ([]) (s.taken.vlrExts (vlrOf x))).isEmpty = true) ∧ (look s.taken.spc.extents (mb32 x 0) = some xt) ∧ (¬(!s.taken.mayExtent x (mb32 x 0) 1)) ∧ (¬(xt.cls ≠ 12)) ∧ ((let s := s.taken; let v := vlrOf x; let factor (a n : Nat) : Bool := decide (a + n * s.extSize (a / 2 ^ 30) ≤ 2 ^ 50) && (matrixExts a n (s.extSize (a / 2 ^ 30))).all fun i => (look s.spc.extents i).any fun f => f.kind == .published && f.acct == xt.acct && f.serving; ¬(v.r = 0 ∨ v.r > 256 ∨ v.m = 0 ∨ v.n = 0 ∨ v.n * elemBytes xt.elem > 2 ^ 30 ∨ !factor v.u (v.m * v.r) ∨ !factor v.v (v.r * v.n))))) ∧
    (∃ (s : State) (x : Mbx) (xt : Extent),
    (s.sent x .any false 4 = true) ∧ ((s.taken.extNeed ([]) [(mb32 x 0)]).isEmpty = true) ∧ (look s.taken.spc.extents (mb32 x 0) = some xt) ∧ (¬(!s.taken.mayExtent x (mb32 x 0) 1)) ∧ (¬(xt.cls ≠ 12))) ∧
    (∃ (s : State) (page : Nat) (x : Slot),
    ((let p := s.pmeOf page; let naming := isExp p.cls && writtenSt p.st && s.tableSt p.slot == 2; ¬(!(naming || s.husk.bgWant.contains page)))) ∧ (¬(!writtenSt (s.pmeOf page).st)) ∧ (¬((s.slotsOf page).any (fun x => x.bg) ∨ (s.openSlot page false).isSome ∨ s.bgSlots ≥ s.bgCap ∨ !s.slotFree false)) ∧ ((s.takeSlot page false true).husk.slots.getLast? = some x)) ∧
    (∃ (s : State) (page : Nat) (x : Extent) (v : Vlr),
    (¬(!s.expands page)) ∧ (s.extent page = some x) ∧ (x.vlr = some v)) ∧
    (∃ (s : State) (c : Nat) (page : Nat),
    (s.modCtx = some c) ∧ (argMin s.expRank s.tlr.expq = some page) ∧ ((let s := (s.onTlr fun t => { t with expq := t.expq.filter (· != page) }).expandIn c page; s.reqs.find? (fun r => waitsFor .vlr r && !s.tlr.expq.contains r.page && !s.expands r.page) = none))) :=
  ⟨⟨(leased), (fmx (zeros 4)), (xt0), by decide, by decide, by decide, by decide, by decide, by decide⟩,
   ⟨(withPage { pme0 .near with cls := 1, slot := 3 } (withExtent { xt0 with cls := 1 } leased)), (fmx (zeros 4)), ({ xt0 with cls := 1 }), by decide, by decide, by decide, by decide, by decide, by decide⟩,
   ⟨({ leased with spc := { leased.spc with extents := [(0, { xt0 with cls := 12 }), (1, { xt0 with kind := .published })] } }), (fmx (zeros 6 ++ toLe 2 1 ++ toLe 4 1 ++ toLe 4 1 ++ zeros 8 ++ toLe 8 (2 ^ 30) ++ toLe 8 (2 ^ 30))), ({ xt0 with cls := 12 }), by decide, by decide, by decide, by decide, by decide, by decide, by decide⟩,
   ⟨(withExtent { xt0 with cls := 12 } leased), (fmx (zeros 4)), ({ xt0 with cls := 12 }), by decide, by decide, by decide, by decide, by decide⟩,
   ⟨({ (withPage (pme0 .near) leased) with husk := { HuskB.reset with bgWant := [0] } }), (0), ({ slot0 .opened with bg := true, seq := 0, lines := [], tFirst := 2 ^ 40 }), by decide, by decide, by decide, by decide⟩,
   ⟨({ (withExtent { xt0 with cls := 12, vlr := some ⟨1, 1, 1, 0, 2 ^ 30, 2 ^ 30⟩ } leased) with tlr := { Tlr.reset with expanding := [(4032, 0)] } }), (0), ({ xt0 with cls := 12, vlr := some ⟨1, 1, 1, 0, 2 ^ 30, 2 ^ 30⟩ }), (⟨1, 1, 1, 0, 2 ^ 30, 2 ^ 30⟩), by decide, by decide, by decide⟩,
   ⟨({ leased with tlr := { Tlr.reset with expq := [0] } }), (4032), (0), by decide, by decide, by decide⟩⟩

/-- States and operands that meet the hypotheses of TierMovesAct, clause by clause. -/
theorem witness_TierMovesAct :
    (∃ (s : State),
    (s.pwr.on && (s.pwr.boot.isNone || s.pwr.last == 2) && decide (s.now ≥ s.tier.epochAt + s.tier.epochMs * 1000000))) ∧
    (∃ (s : State) (page : Nat),
    (¬(!hasNear (s.pme page)))) ∧
    (∃ (s : State) (page : Nat),
    (s.tier.evicting && s.nextVictim == some page && !s.recoding page)) ∧
    (∃ (s : State) (page : Nat) (m : Move),
    (s.move page = some m) ∧ (m.kind = 1 ∧ m.issued ∧ ¬ s.farPending page) ∧ (m.revoked)) ∧
    (∃ (s : State) (page : Nat) (m : Move),
    (s.move page = some m) ∧ (m.kind = 1 ∧ m.issued ∧ ¬ s.farPending page) ∧ (¬(m.revoked))) ∧
    (∃ (s : State) (page : Nat) (m : Move),
    (s.move page = some m) ∧ (m.kind = 0 ∧ ¬ m.pull ∧ m.done ∧ ¬ m.waitSpace)) ∧
    (∃ (s : State) (page : Nat) (m : Move),
    (s.move page = some m) ∧ (¬(m.kind ≠ 2 ∨ (s.pme page).st ≠ .retired))) :=
  ⟨⟨({ up with near := { Near.reset with alloc := [(0, 1)] } }), by decide⟩,
   ⟨(withPage (pme0 .near) leased), (0), by decide⟩,
   ⟨({ (withPage { pme0 .both with age := 1 } leased) with tier := { Tier.reset with pmes := [(0, pme0 .both)], evicting := true, cand := [0] } }), (0), by decide⟩,
   ⟨(withMove { mv0 1 with issued := true, revoked := true } leased), (0), ({ mv0 1 with issued := true, revoked := true }), by decide, by decide, by decide⟩,
   ⟨(withMove { mv0 1 with issued := true } leased), (0), ({ mv0 1 with issued := true }), by decide, by decide, by decide⟩,
   ⟨(withMove { mv0 0 with done := true } leased), (0), ({ mv0 0 with done := true }), by decide, by decide⟩,
   ⟨(withPage (pme0 .retired) (withMove (mv0 2) leased)), (0), (mv0 2), by decide, by decide⟩⟩

/-- States and operands that meet the hypotheses of StreamAndPinCommandsAct, clause by clause. -/
theorem witness_StreamAndPinCommandsAct :
    (∃ (s : State) (x : Mbx),
    (s.sent x .fm false 4 = true) ∧ ((mb32 x 0) = 0 ∨ (look s.taken.tlr.sheaves (mb32 x 0)).any (fun q => q.kind == 1 && !q.unloading))) ∧
    (∃ (s : State) (x : Mbx) (f : Sheaf) (i : Nat),
    (s.sent x .ld false 4 = true) ∧ (look s.taken.tlr.sheaves (mb32 x 0) = some f) ∧ (¬(f.kind ≠ 3 ∨ f.unloading)) ∧ ((let s := s.taken; let ld := mbWho x; let b := f.image; let gate := leAt b 8 8 % 2 ^ 38; let gateOk := s.homes gate && s.leasedPages ld gate 1 1 && s.kindAt (pageSa gate) == .shared; ¬(!schedOk b || !((schedEntries b).all fun e => s.leasedPages ld e.1 e.2.1 0) || !gateOk))) ∧ ((let s := s.taken; let b := f.image; let gate := leAt b 8 8 % 2 ^ 38; let acct := (s.extent gate).elim 0 fun e => e.acct; let budget := leAt b 16 8; ¬(s.pinnedOf acct + budget > (s.acct acct).floor))) ∧ (s.taken.freeSched = some i)) ∧
    (∃ (s : State) (x : Mbx) (c : Sched),
    (s.sent x .any false 5 = true) ∧ (look s.taken.tier.scheds (mb8 x 4) = some c) ∧ (¬(!mayStream x c)) ∧ (c.st = 1)) ∧
    (∃ (s : State) (x : Mbx) (c : Sched),
    (s.sent x .any false 5 = true) ∧ (look s.taken.tier.scheds (mb8 x 4) = some c) ∧ (¬(!mayStream x c))) ∧
    (∃ (s : State) (x : Mbx),
    (s.sent x .any false 12 = true) ∧ (¬((mb32 x 8) = 0)) ∧ (¬(!s.taken.mayName x (mb64 x 0 % 2 ^ 38) (mb32 x 8) 0)) ∧ ((let s := s.taken; let first := mb64 x 0 % 2 ^ 38; let n := mb32 x 8; let ps := (pagesOf first n).filter fun p => s.homes p && pinnable (s.pmeOf p).st; let new := ps.filter fun p => (look s.tier.pins p).isNone; let accts := (new.map fun p => (s.pmeOf p).acct).eraseDups; let fits := accts.all fun a => decide (s.pinnedOf a + sumOf (new.filter fun p => (s.pmeOf p).acct == a) (fun p => (s.pmeOf p).len) ≤ (s.acct a).floor); ¬(!fits)))) ∧
    (∃ (s : State) (x : Mbx),
    (s.sent x .any false 12 = true) ∧ (¬((mb32 x 8) = 0)) ∧ (¬(!s.taken.mayName x (mb64 x 0 % 2 ^ 38) (mb32 x 8) 0))) ∧
    (∃ (s : State) (x : Mbx),
    (s.sent x .any false 20 = true) ∧ (¬(mb8 x 4 ≠ 1 ∨ mb8 x 5 > 7 ∨ (mb32 x 16) = 0)) ∧ (¬(!s.taken.mayName x (mb64 x 8 % 2 ^ 38) (mb32 x 16) 1)) ∧ (s.taken.bgBusy (mbWho x) = false)) ∧
    (∃ (s : State) (x : Mbx),
    (s.sent x .any false 20 = true) ∧ (¬(mb8 x 4 ≠ 2 ∨ mb8 x 5 > 7 ∨ (mb32 x 16) = 0)) ∧ (¬(!s.taken.mayName x (mb64 x 8 % 2 ^ 38) (mb32 x 16) 1)) ∧ (s.taken.bgBusy (mbWho x) = false)) :=
  ⟨⟨(up), (fmx (zeros 4)), by decide, by decide⟩,
   ⟨(withSheaf (sheaf0 3 schedImg) (withExtent { xt0 with kind := .shared } leased)), (ldx (toLe 4 1)), (sheaf0 3 schedImg), (0), by decide, by decide, by decide, by decide, by decide, by decide⟩,
   ⟨(withSched sched0 up), (ldx (zeros 5)), (sched0), by decide, by decide, by decide, by decide⟩,
   ⟨(withSched sched0 up), (ldx (zeros 5)), (sched0), by decide, by decide, by decide⟩,
   ⟨(leased), (ldx (zeros 8 ++ toLe 4 1)), by decide, by decide, by decide, by decide⟩,
   ⟨(leased), (ldx (zeros 8 ++ toLe 4 1)), by decide, by decide, by decide⟩,
   ⟨(leased), (ldx ([0, 0, 0, 0, 1, 7, 0, 0] ++ zeros 8 ++ toLe 4 1)), by decide, by decide, by decide, by decide⟩,
   ⟨(leased), (ldx ([0, 0, 0, 0, 2, 7, 0, 0] ++ zeros 8 ++ toLe 4 1)), by decide, by decide, by decide, by decide⟩⟩

/-- States and operands that meet the hypotheses of PlacementAndLayersAct, clause by clause. -/
theorem witness_PlacementAndLayersAct :
    (∃ (s : State) (q : PlaceReq) (rest : List PlaceReq),
    (s.tier.placeQ = q :: rest) ∧ (q.op = 1)) ∧
    (∃ (s : State) (q : PlaceReq) (rest : List PlaceReq),
    (s.tier.placeQ = q :: rest) ∧ (q.op = 2)) ∧
    (∃ (s : State) (q : PlaceReq) (rest : List PlaceReq),
    (s.tier.placeQ = q :: rest) ∧ (q.op = 3)) ∧
    (∃ (s : State) (q : PlaceReq) (rest : List PlaceReq),
    (s.tier.placeQ = q :: rest) ∧ (q.op = 4)) ∧
    (∃ (s : State) (q : PlaceReq) (rest : List PlaceReq),
    (s.tier.placeQ = q :: rest) ∧ (q.op = 5)) ∧
    (∃ (s : State) (i : Fin 32) (c : Sched),
    (look s.tier.scheds i = some c) ∧ (¬(c.st ≠ 1 ∨ s.pwr.state ≥ 2 ∨ ¬ s.layerFits c (nextLayer c)))) ∧
    (∃ (s : State) (i : Fin 32) (layer : Nat) (c : Sched),
    (look s.tier.scheds i = some c) ∧ (¬(c.st ≠ 1 ∨ ¬ c.started.contains layer ∨ c.gated.contains layer ∨ ¬ s.layerResident c layer))) :=
  ⟨⟨({ up with tier := { Tier.reset with placeQ := [⟨1, 7, 1, 0, 0, none⟩] } }), (⟨1, 7, 1, 0, 0, none⟩), ([]), by decide, by decide⟩,
   ⟨({ up with tier := { Tier.reset with placeQ := [⟨2, 7, 1, 0, 0, none⟩] } }), (⟨2, 7, 1, 0, 0, none⟩), ([]), by decide, by decide⟩,
   ⟨({ up with tier := { Tier.reset with placeQ := [⟨3, 7, 1, 0, 0, none⟩] } }), (⟨3, 7, 1, 0, 0, none⟩), ([]), by decide, by decide⟩,
   ⟨({ up with tier := { Tier.reset with placeQ := [⟨4, 7, 1, 0, 0, none⟩] } }), (⟨4, 7, 1, 0, 0, none⟩), ([]), by decide, by decide⟩,
   ⟨({ up with tier := { Tier.reset with placeQ := [⟨5, 7, 1, 0, 0, none⟩] } }), (⟨5, 7, 1, 0, 0, none⟩), ([]), by decide, by decide⟩,
   ⟨(withSched sched0 leased), (0), (sched0), by decide, by decide⟩,
   ⟨(withSched { sched0 with started := [0] } leased), (0), (0), ({ sched0 with started := [0] }), by decide, by decide⟩⟩

/-- States and operands that meet the hypotheses of FarTierEventsAct, clause by clause. -/
theorem witness_FarTierEventsAct :
    (∃ (s : State) (page : Nat) (m : Move),
    (s.move page = some m) ∧ (¬(m.kind ≠ 0 ∨ m.waitSpace ∨ m.done)) ∧ (¬((s.inBuffer page m.far).isSome)) ∧ (¬((s.dieGo (s.dieOfChunk m.far)).dieServes (s.dieOfChunk m.far) ≠ some page))) ∧
    (∃ (s : State) (journal : Bool),
    (journal) ∧ (s.jrnlReady > s.far.jrnlDone)) ∧
    (∃ (s : State) (page : Nat) (journal : Bool) (r : Bool) (it : RowItem),
    (¬(journal)) ∧ (s.itemOf page = some (r, it)) ∧ (s.rowFull r it && !s.bandServes (farBand it.far))) ∧
    (∃ (s : State) (journal : Bool) (t : Nat),
    (journal) ∧ (s.far.jrnlWin = some t) ∧ (s.now ≥ t + s.durWin)) ∧
    (∃ (s : State) (page : Nat) (journal : Bool) (r : Bool) (it : RowItem),
    (¬(journal)) ∧ (s.itemOf page = some (r, it)) ∧ (it.why = 1 ∧ s.now ≥ it.t0 + s.durWin ∧ ¬ s.rowFull r it)) ∧
    (∃ (s : State) (die : Fin 4) (band : Nat),
    (band < s.bandCount ∧ dieIdx band = die.val ∧ (s.band band).st = 1)) ∧
    (∃ (s : State) (band : Nat),
    (band < s.bandCount ∧ (s.band band).st = 0)) ∧
    (∃ (s : State) (page : Nat),
    ((let p := s.pmeOf page; let b := farBand p.far; let free := s.freeBands; let s := s.onFar fun f => { f with collecting := if free ≥ s.gcHigh then false else f.collecting || decide (free < s.gcLow) }; hasFar p && !s.farPending page && s.copiesBand b))) ∧
    (∃ (s : State) (band : Nat),
    ((s.band band).st = 2 ∧ (s.band band).valid = 0 ∧ ¬ s.bandRead band ∧ s.far.jrnlDone ≥ (s.band band).freedBy)) ∧
    (∃ (s : State),
    (s.urgentDemote.govLevel > 0)) ∧
    (∃ (s : State),
    (s.far.jrnl.length * 2 ≥ jrnlRing ∧ ¬ s.durPends)) :=
  ⟨⟨(withMove (mv0 0) leased), (0), (mv0 0), by decide, by decide, by decide, by decide⟩,
   ⟨({ up with far := { Far.reset with jrnlNext := 5, jrnlPad := 4 } }), (true), by decide, by decide⟩,
   ⟨({ up with far := { Far.reset with row := [row0 0] } }), (0), (false), (false), (row0 0), by decide, by decide, by decide⟩,
   ⟨({ up with far := { Far.reset with jrnlWin := some 0 } }), (true), (0), by decide, by decide, by decide⟩,
   ⟨({ up with far := { Far.reset with row := [row0 1], hostBand := some ⟨0, 1⟩ } }), (0), (false), (false), (row0 1), by decide, by decide, by decide⟩,
   ⟨({ up with far := { Far.reset with bands := [(0, { Band.blank with st := 1 })] } }), (0), (0), by decide⟩,
   ⟨(up), (0), by decide⟩,
   ⟨(withPage { pme0 .far with far := 2 ^ 24, len := 1 } { up with far := { Far.reset with queue := [1], flash := [(2 ^ 24, sealed)] } }), (0), by decide⟩,
   ⟨({ up with far := { Far.reset with bands := [(0, { Band.blank with st := 2 })] } }), (0), by decide⟩,
   ⟨(up), by decide⟩,
   ⟨(ckptSt), ckpt_due ckptSt rfl rfl⟩⟩

/-- States and operands that meet the hypotheses of FarCommandsAct, clause by clause. -/
theorem witness_FarCommandsAct :
    (∃ (s : State) (x : Mbx),
    (s.sent x .fm false 0 = true)) ∧
    (∃ (s : State) (x : Mbx),
    (s.sent x .fm false 6 = true) ∧ (¬(mb8 x 4 ≥ 24 ∨ (mb8 x 5 * 24 + mb8 x 4) ≥ s.taken.dieCount)) ∧ (¬((s.taken.die (mb8 x 5 * 24 + mb8 x 4)).st = 1 ∨ (s.taken.die (mb8 x 5 * 24 + mb8 x 4)).st = 2)) ∧ ((let s := s.taken; let gone := ((List.range s.dieCount).filter fun d => (s.die d).st = 1 ∨ (s.die d).st = 2).length; ¬(gone ≥ 4))) ∧ (s.taken.bgBusy (mbWho x) = false)) :=
  ⟨⟨(up), (fmx []), by decide⟩,
   ⟨(up), (fmx (zeros 6)), by decide, by decide, by decide, by decide, by decide⟩⟩

/-- States and operands that meet the hypotheses of ScalarResults, clause by clause. -/
theorem witness_ScalarResults :
    (∃ (s : State) (c : Fin 4096) (x : Ctx) (w : Word) (a b : BitVec 64) (fd : Bool) (sd : Nat),
    (s.issues c x w = true) ∧ (majorOf w = 0x01) ∧ (x.opS w = some (a, b, fd, sd)) ∧ (wf w 52 49 = 0) ∧ (x.guard w = true)) ∧
    (∃ (s : State) (c : Fin 4096) (x : Ctx) (w : Word) (a b : BitVec 64) (fd : Bool) (sd : Nat),
    (s.issues c x w = true) ∧ (majorOf w = 0x02) ∧ (x.opS w = some (a, b, fd, sd)) ∧ (wf w 52 49 = 0) ∧ (x.guard w = true)) ∧
    (∃ (s : State) (c : Fin 4096) (x : Ctx) (w : Word) (a b : BitVec 64) (fd : Bool) (sd : Nat),
    (s.issues c x w = true) ∧ (majorOf w = 0x03) ∧ (x.opS w = some (a, b, fd, sd)) ∧ (wf w 52 49 = 0) ∧ (x.guard w = true)) ∧
    (∃ (s : State) (c : Fin 4096) (x : Ctx) (w : Word) (a b : BitVec 64) (fd : Bool) (sd : Nat),
    (s.issues c x w = true) ∧ (majorOf w = 0x04) ∧ (x.opS w = some (a, b, fd, sd)) ∧ (wf w 52 49 ≤ 1) ∧ (x.guard w = true)) ∧
    (∃ (s : State) (c : Fin 4096) (x : Ctx) (w : Word) (a b : BitVec 64) (fd : Bool) (sd : Nat),
    (s.issues c x w = true) ∧ (majorOf w = 0x05) ∧ (x.opS w = some (a, b, fd, sd)) ∧ (wf w 52 49 = 0) ∧ (x.guard w = true)) ∧
    (∃ (s : State) (c : Fin 4096) (x : Ctx) (w : Word) (a b : BitVec 64) (fd : Bool) (sd : Nat),
    (s.issues c x w = true) ∧ (majorOf w = 0x06) ∧ (x.opS w = some (a, b, fd, sd)) ∧ (wf w 52 49 = 0) ∧ (x.guard w = true)) ∧
    (∃ (s : State) (c : Fin 4096) (x : Ctx) (w : Word) (a b : BitVec 64) (fd : Bool) (sd : Nat),
    (s.issues c x w = true) ∧ (majorOf w = 0x07) ∧ (x.opS w = some (a, b, fd, sd)) ∧ (wf w 52 49 = 0) ∧ (x.guard w = true)) ∧
    (∃ (s : State) (c : Fin 4096) (x : Ctx) (w : Word) (a b : BitVec 64) (fd : Bool) (sd : Nat),
    (s.issues c x w = true) ∧ (majorOf w = 0x08) ∧ (x.opS w = some (a, b, fd, sd)) ∧ (wf w 52 49 = 0) ∧ (x.guard w = true)) ∧
    (∃ (s : State) (c : Fin 4096) (x : Ctx) (w : Word) (a b : BitVec 64) (fd : Bool) (sd : Nat),
    (s.issues c x w = true) ∧ (majorOf w = 0x09) ∧ (x.opS w = some (a, b, fd, sd)) ∧ (wf w 52 49 = 0) ∧ (x.guard w = true)) ∧
    (∃ (s : State) (c : Fin 4096) (x : Ctx) (w : Word) (a b : BitVec 64) (fd : Bool) (sd : Nat),
    (s.issues c x w = true) ∧ (majorOf w = 0x0A) ∧ (x.opS w = some (a, b, fd, sd)) ∧ (wf w 52 49 = 0) ∧ (x.guard w = true)) ∧
    (∃ (s : State) (c : Fin 4096) (x : Ctx) (w : Word) (a b : BitVec 64) (fd : Bool) (sd : Nat),
    (s.issues c x w = true) ∧ (majorOf w = 0x0B) ∧ (x.opS w = some (a, b, fd, sd)) ∧ (wf w 52 49 ≤ 1) ∧ (x.guard w = true)) ∧
    (∃ (s : State) (c : Fin 4096) (x : Ctx) (w : Word) (a b : BitVec 64) (fd : Bool) (sd : Nat),
    (s.issues c x w = true) ∧ (majorOf w = 0x0C) ∧ (x.opS w = some (a, b, fd, sd)) ∧ (wf w 52 49 ≤ 1) ∧ (x.guard w = true)) :=
  ⟨⟨(running ctx0 (sWord 0x01)), (0), (ctx0), (sWord 0x01), (5), (7), (false), (3), by decide, by decide, by decide, by decide, by decide⟩,
   ⟨(running ctx0 (sWord 0x02)), (0), (ctx0), (sWord 0x02), (5), (7), (false), (3), by decide, by decide, by decide, by decide, by decide⟩,
   ⟨(running ctx0 (sWord 0x03)), (0), (ctx0), (sWord 0x03), (5), (7), (false), (3), by decide, by decide, by decide, by decide, by decide⟩,
   ⟨(running ctx0 (sWord 0x04)), (0), (ctx0), (sWord 0x04), (5), (7), (false), (3), by decide, by decide, by decide, by decide, by decide⟩,
   ⟨(running ctx0 (sWord 0x05)), (0), (ctx0), (sWord 0x05), (5), (7), (false), (3), by decide, by decide, by decide, by decide, by decide⟩,
   ⟨(running ctx0 (sWord 0x06)), (0), (ctx0), (sWord 0x06), (5), (7), (false), (3), by decide, by decide, by decide, by decide, by decide⟩,
   ⟨(running ctx0 (sWord 0x07)), (0), (ctx0), (sWord 0x07), (5), (7), (false), (3), by decide, by decide, by decide, by decide, by decide⟩,
   ⟨(running ctx0 (sWord 0x08)), (0), (ctx0), (sWord 0x08), (5), (7), (false), (3), by decide, by decide, by decide, by decide, by decide⟩,
   ⟨(running ctx0 (sWord 0x09)), (0), (ctx0), (sWord 0x09), (5), (7), (false), (3), by decide, by decide, by decide, by decide, by decide⟩,
   ⟨(running ctx0 (sWord 0x0A)), (0), (ctx0), (sWord 0x0A), (5), (7), (false), (3), by decide, by decide, by decide, by decide, by decide⟩,
   ⟨(running ctx0 (sWord 0x0B)), (0), (ctx0), (sWord 0x0B), (5), (7), (false), (3), by decide, by decide, by decide, by decide, by decide⟩,
   ⟨(running ctx0 (sWord 0x0C)), (0), (ctx0), (sWord 0x0C), (5), (7), (false), (3), by decide, by decide, by decide, by decide, by decide⟩⟩

/-- States and operands that meet the hypotheses of ScalarOtherResults, clause by clause. -/
theorem witness_ScalarOtherResults :
    (∃ (s : State) (c : Fin 4096) (x : Ctx) (w : Word) (a : BitVec 64) (b : BitVec 64) (fd : Bool) (sd : Nat),
    (s.issues c x w = true) ∧ (majorOf w = 0x0D) ∧ (x.opS w = some (a, b, fd, sd)) ∧ (((condOf (wf w 52 49) a b).isSome && !fd && decide (sd < 8)) = true) ∧ (x.guard w = true)) ∧
    (∃ (s : State) (c : Fin 4096) (x : Ctx) (w : Word),
    (s.issues c x w = true) ∧ (majorOf w = 0x0E) ∧ ((onlyBits w (bm 63 53 + bm 48 48 + bm 46 42 + bm 31 0) && !((w.toNat.testBit 48) && decide ((wf w 46 42) ≥ 16))) = true) ∧ (x.guard w = true)) ∧
    (∃ (s : State) (c : Fin 4096) (x : Ctx) (w : Word) (a : BitVec 64) (v : BitVec 64),
    (s.issues c x w = true) ∧ (majorOf w = 0x0F) ∧ (x.memAddr w = some a) ∧ (w.toNat.testBit 52) ∧ ((wf w 50 49 == 3) = true) ∧ (x.guard w = true) ∧ ((if a.toNat % 8 = 0 then s.ctxWord c x (a.toNat / 8) else none) = some v)) ∧
    (∃ (s : State) (c : Fin 4096) (x : Ctx) (w : Word) (a : BitVec 64),
    (s.issues c x w = true) ∧ (majorOf w = 0x0F) ∧ (x.memAddr w = some a) ∧ (¬(w.toNat.testBit 52)) ∧ (w.toNat.testBit 47) ∧ (¬(!x.guard w)) ∧ (¬(a.toNat % (memSize w) ≠ 0))) ∧
    (∃ (s : State) (c : Fin 4096) (x : Ctx) (w : Word) (a : BitVec 64),
    (s.issues c x w = true) ∧ (majorOf w = 0x0F) ∧ (x.memAddr w = some a) ∧ (¬(w.toNat.testBit 52)) ∧ (¬(w.toNat.testBit 47)) ∧ (x.guard w = true) ∧ (¬(a.toNat % (memSize w) ≠ 0)) ∧ (¬(!x.inWin a.toNat (memSize w)))) ∧
    (∃ (s : State) (c : Fin 4096) (x : Ctx) (w : Word) (a : BitVec 64) (y : Ctx),
    (s.issues c x w = true) ∧ (majorOf w = 0x10) ∧ (x.memAddr w = some a) ∧ (w.toNat.testBit 52) ∧ ((wf w 51 49 == 3) = true) ∧ (x.guard w = true) ∧ ((if a.toNat % 8 = 0 ∧ a.toNat / 8 < 24 then x.putWord (a.toNat / 8) (x.getSa (w.toNat.testBit 48) (wf w 46 42)) else none) = some y)) ∧
    (∃ (s : State) (c : Fin 4096) (x : Ctx) (w : Word) (a : BitVec 64),
    (s.issues c x w = true) ∧ (majorOf w = 0x10) ∧ (x.memAddr w = some a) ∧ (¬(w.toNat.testBit 52)) ∧ (¬(w.toNat.testBit 51)) ∧ (w.toNat.testBit 47) ∧ (¬(!x.guard w)) ∧ (¬(a.toNat % (memSize w) ≠ 0)) ∧ (¬(s.sysAccess c a.toNat (memSize w) 2)) ∧ (s.access x a.toNat (memSize w) 2 = .ok)) ∧
    (∃ (s : State) (c : Fin 4096) (x : Ctx) (w : Word) (a : BitVec 64),
    (s.issues c x w = true) ∧ (majorOf w = 0x10) ∧ (x.memAddr w = some a) ∧ (¬(w.toNat.testBit 52)) ∧ (¬(w.toNat.testBit 51)) ∧ (¬(w.toNat.testBit 47)) ∧ (x.guard w = true) ∧ (¬(a.toNat % (memSize w) ≠ 0)) ∧ (¬(!x.inWin a.toNat (memSize w)))) :=
  ⟨⟨(running (ctx0) (wd 0x0D (3 * 2 ^ 42 + 2 ^ 37 + 2 * 2 ^ 32))), (0), (ctx0), (wd 0x0D (3 * 2 ^ 42 + 2 ^ 37 + 2 * 2 ^ 32)), (5), (7), (false), (3), by decide, by decide, by decide, by decide, by decide⟩,
   ⟨(running (ctx0) (wd 0x0E (3 * 2 ^ 42 + 9))), (0), (ctx0), (wd 0x0E (3 * 2 ^ 42 + 9)), by decide, by decide, by decide, by decide⟩,
   ⟨(running (ctx0) (wd 0x0F (2 ^ 52 + 3 * 2 ^ 49 + 3 * 2 ^ 42 + 56))), (0), (ctx0), (wd 0x0F (2 ^ 52 + 3 * 2 ^ 49 + 3 * 2 ^ 42 + 56)), (56), (BitVec.ofNat 64 (2 ^ 40)), by decide, by decide, by decide, by decide, by decide, by decide, by decide⟩,
   ⟨(running (ctx0) (wd 0x0F (2 ^ 47 + 3 * 2 ^ 49 + 3 * 2 ^ 42))), (0), (ctx0), (wd 0x0F (2 ^ 47 + 3 * 2 ^ 49 + 3 * 2 ^ 42)), (0), by decide, by decide, by decide, by decide, by decide, by decide, by decide⟩,
   ⟨(running (ctx0) (wd 0x0F (3 * 2 ^ 49 + 3 * 2 ^ 42 + 64))), (0), (ctx0), (wd 0x0F (3 * 2 ^ 49 + 3 * 2 ^ 42 + 64)), (64), by decide, by decide, by decide, by decide, by decide, by decide, by decide, by decide⟩,
   ⟨(running (ctx0) (wd 0x10 (2 ^ 52 + 3 * 2 ^ 49 + 3 * 2 ^ 42))), (0), (ctx0), (wd 0x10 (2 ^ 52 + 3 * 2 ^ 49 + 3 * 2 ^ 42)), (0), ((ctx0.putWord 0 0).getD ctx0), by decide, by decide, by decide, by decide, by decide, by decide, by decide⟩,
   ⟨(running (ctx0) (wd 0x10 (2 ^ 47 + 3 * 2 ^ 49 + 3 * 2 ^ 42))), (0), (ctx0), (wd 0x10 (2 ^ 47 + 3 * 2 ^ 49 + 3 * 2 ^ 42)), (0), by decide, by decide, by decide, by decide, by decide, by decide, by decide, by decide, by decide, by decide⟩,
   ⟨(running (ctx0) (wd 0x10 (3 * 2 ^ 49 + 3 * 2 ^ 42 + 64))), (0), (ctx0), (wd 0x10 (3 * 2 ^ 49 + 3 * 2 ^ 42 + 64)), (64), by decide, by decide, by decide, by decide, by decide, by decide, by decide, by decide, by decide⟩⟩

/-- States and operands that meet the hypotheses of VectorResults, clause by clause. -/
theorem witness_VectorResults :
    (∃ (s : State) (c : Fin 4096) (x : Ctx) (w : Word),
    (s.issues c x w = true) ∧ (majorOf w = 0x11) ∧ (¬(!(onlyBits w (vHead + bm 53 53 + bm 47 44 + bm 31 28 + bm 20 0) && vecEtOk w))) ∧ ((let a := (x.sreg (vSs w) + BitVec.ofNat 64 (64 * vImm w)).toNat; a % 64 = 0)) ∧ ((let a := (x.sreg (vSs w) + BitVec.ofNat 64 (64 * vImm w)).toNat; x.inWin a 256 = true))) ∧
    (∃ (s : State) (c : Fin 4096) (x : Ctx) (w : Word),
    (s.issues c x w = true) ∧ (majorOf w = 0x12) ∧ (¬(!(onlyBits w (vHead + bm 47 44 + bm 31 28 + bm 20 0) && vecEtOk w))) ∧ ((let a := (x.sreg (vSs w) + BitVec.ofNat 64 (64 * vImm w)).toNat; a % 64 = 0)) ∧ ((let a := (x.sreg (vSs w) + BitVec.ofNat 64 (64 * vImm w)).toNat; x.inWin a 256 = true))) ∧
    (∃ (s : State) (c : Fin 4096) (x : Ctx) (w : Word),
    (s.issues c x w = true) ∧ (majorOf w = 0x13) ∧ (¬(!(onlyBits w (vAbBits) && arithEt w true))) ∧ ((let r := elemRun x w (etCount (vEt w) 0) (etWidth (vEt w) 0) (arith 0 x w); x.trapFlags (orFlags (r.1.map Prod.snd)) = 0))) ∧
    (∃ (s : State) (c : Fin 4096) (x : Ctx) (w : Word),
    (s.issues c x w = true) ∧ (majorOf w = 0x14) ∧ (¬(!(onlyBits w (vAbBits) && arithEt w true))) ∧ ((let r := elemRun x w (etCount (vEt w) 0) (etWidth (vEt w) 0) (arith 1 x w); x.trapFlags (orFlags (r.1.map Prod.snd)) = 0))) ∧
    (∃ (s : State) (c : Fin 4096) (x : Ctx) (w : Word),
    (s.issues c x w = true) ∧ (majorOf w = 0x15) ∧ (¬(!(onlyBits w (vAbcBits) && arithEt w true))) ∧ ((let r := elemRun x w (etCount (vEt w) 0) (etWidth (vEt w) 0) (arith 2 x w); x.trapFlags (orFlags (r.1.map Prod.snd)) = 0))) ∧
    (∃ (s : State) (c : Fin 4096) (x : Ctx) (w : Word),
    (s.issues c x w = true) ∧ (majorOf w = 0x16) ∧ (¬(!(onlyBits w (vHead + bm 53 53 + bm 47 36 + bm 31 24) && arithEt w true))) ∧ ((let wd := etWidth (vEt w) 0; let r := elemRun x w (etCount (vEt w) 0) wd (fun i _ => maxElem (vEt w) (elemAt wd (x.vreg (vA w)) i) (elemAt wd (x.vreg (vB w)) i)); x.trapFlags (orFlags (r.1.map Prod.snd)) = 0))) ∧
    (∃ (s : State) (c : Fin 4096) (x : Ctx) (w : Word),
    (s.issues c x w = true) ∧ (majorOf w = 0x17) ∧ (¬(!(onlyBits w vAbcBits && ((decide ((vEt w) < 5) && vEtd w == 0) || ((vEt w) == 11 && vEtd w == 13 && vRm w == 0))))) ∧ (x.trapFlags (orFlags ((elemRun x w 64 32 (dotElem x w)).1.map Prod.snd)) = 0)) ∧
    (∃ (s : State) (c : Fin 4096) (x : Ctx) (w : Word),
    (s.issues c x w = true) ∧ (majorOf w = 0x1A) ∧ (¬(!(onlyBits w (vHead + bm 53 53 + bm 52 40 + bm 31 16) && decide (vFunc w ≤ 1) && arithEt w false))) ∧ ((let r := elemRun x w (etCount (vEt w) 0) (etWidth (vEt w) 0) (scaleElem x w); x.trapFlags (orFlags (r.1.map Prod.snd)) = 0))) :=
  ⟨⟨(running (ctx0) (wd 0x11 (2 ^ 44))), (0), (ctx0), (wd 0x11 (2 ^ 44)), by decide, by decide, by decide, by decide, by decide⟩,
   ⟨(running (ctx0) (wd 0x12 (2 ^ 44))), (0), (ctx0), (wd 0x12 (2 ^ 44)), by decide, by decide, by decide, by decide, by decide⟩,
   ⟨(running (ctx0) (wd 0x13 (2 ^ 44 + 2 * 2 ^ 40 + 3 * 2 ^ 36))), (0), (ctx0), (wd 0x13 (2 ^ 44 + 2 * 2 ^ 40 + 3 * 2 ^ 36)), by decide, by decide, by decide, Ctx.trapFlags_off (by decide) _⟩,
   ⟨(running (ctx0) (wd 0x14 (2 ^ 44 + 2 * 2 ^ 40 + 3 * 2 ^ 36))), (0), (ctx0), (wd 0x14 (2 ^ 44 + 2 * 2 ^ 40 + 3 * 2 ^ 36)), by decide, by decide, by decide, Ctx.trapFlags_off (by decide) _⟩,
   ⟨(running (ctx0) (wd 0x15 (2 ^ 44 + 2 * 2 ^ 40 + 3 * 2 ^ 36))), (0), (ctx0), (wd 0x15 (2 ^ 44 + 2 * 2 ^ 40 + 3 * 2 ^ 36)), by decide, by decide, by decide, Ctx.trapFlags_off (by decide) _⟩,
   ⟨(running (ctx0) (wd 0x16 (2 ^ 44 + 2 * 2 ^ 40 + 3 * 2 ^ 36))), (0), (ctx0), (wd 0x16 (2 ^ 44 + 2 * 2 ^ 40 + 3 * 2 ^ 36)), by decide, by decide, by decide, Ctx.trapFlags_off (by decide) _⟩,
   ⟨(running (ctx0) (wd 0x17 (2 ^ 44 + 2 * 2 ^ 40 + 3 * 2 ^ 36))), (0), (ctx0), (wd 0x17 (2 ^ 44 + 2 * 2 ^ 40 + 3 * 2 ^ 36)), by decide, by decide, by decide, Ctx.trapFlags_off (by decide) _⟩,
   ⟨(running (ctx0) (wd 0x1A (2 ^ 44 + 2 * 2 ^ 40))), (0), (ctx0), (wd 0x1A (2 ^ 44 + 2 * 2 ^ 40)), by decide, by decide, by decide, Ctx.trapFlags_off (by decide) _⟩⟩

/-- States and operands that meet the hypotheses of ReduceConvertTileResults, clause by clause. -/
theorem witness_ReduceConvertTileResults :
    (∃ (s : State) (c : Fin 4096) (x : Ctx) (w : Word),
    (s.issues c x w = true) ∧ (majorOf w = 0x18) ∧ (¬(!(onlyBits w (vHead + bm 52 48 + bm 43 40 + bm 31 28 + bm 23 16) && decide (vFunc w ≤ 2) && (decide ((vEt w) < 3) || (((vEt w) == 11 || (vEt w) == 13) && vRm w == 0 && !vSat w))))) ∧ ((let pq := drawsFor (vRm w) [true] x.gen; let us := pq.1; let pq := redOut x w (us.headD 0); let fl := pq.2; x.trapFlags fl = 0))) ∧
    (∃ (s : State) (c : Fin 4096) (x : Ctx) (w : Word),
    (s.issues c x w = true) ∧ (majorOf w = 0x19) ∧ ((let et := vEt w; let etd := vEtd w; let kc := wf w 15 13; let bS := etBlock et; let bD := etBlock etd; let used := vHead + bm 53 53 + bm 47 40 + bm 31 21 + bm 2 0 + (if bS ≠ 0 then bm 39 36 else 0) + (if bD ≠ 0 then bm 35 32 else 0) + (if bS ≠ 0 ∨ bD ≠ 0 then bm 3 3 else 0) + (if et = 14 ∨ etd = 14 then bm 15 13 else 0); ¬(!(onlyBits w used && decide (et < 15) && decide (etd < 15) && decide (kc ≤ 4))))) ∧ (¬(((etCount (vEt w) (wf w 15 13)) = (etCount (vEtd w) (wf w 15 13)) ∧ (wf w 2 0) ≠ 0) ∨ (wf w 2 0) * (min (etCount (vEt w) (wf w 15 13)) (etCount (vEtd w) (wf w 15 13))) ≥ max (etCount (vEt w) (wf w 15 13)) (etCount (vEtd w) (wf w 15 13)) ∨ ((etBlock (vEtd w)) ≠ 0 ∧ (min (etCount (vEt w) (wf w 15 13)) (etCount (vEtd w) (wf w 15 13))) % (etBlock (vEtd w)) ≠ 0))) ∧ ((etBlock (vEtd w)) ≠ 0) ∧ (x.trapFlags (orFlags ((cvtOuts x w (wf w 15 13) (cvtPairs (etCount (vEt w) (wf w 15 13)) (etCount (vEtd w) (wf w 15 13)) (wf w 2 0))).map fun o => if o.2.2.2.2 then o.2.2.2.1 else 0)) = 0)) ∧
    (∃ (s : State) (c : Fin 4096) (x : Ctx) (w : Word),
    (s.issues c x w = true) ∧ (majorOf w = 0x19) ∧ ((let et := vEt w; let etd := vEtd w; let kc := wf w 15 13; let bS := etBlock et; let bD := etBlock etd; let used := vHead + bm 53 53 + bm 47 40 + bm 31 21 + bm 2 0 + (if bS ≠ 0 then bm 39 36 else 0) + (if bD ≠ 0 then bm 35 32 else 0) + (if bS ≠ 0 ∨ bD ≠ 0 then bm 3 3 else 0) + (if et = 14 ∨ etd = 14 then bm 15 13 else 0); ¬(!(onlyBits w used && decide (et < 15) && decide (etd < 15) && decide (kc ≤ 4))))) ∧ (¬(((etCount (vEt w) (wf w 15 13)) = (etCount (vEtd w) (wf w 15 13)) ∧ (wf w 2 0) ≠ 0) ∨ (wf w 2 0) * (min (etCount (vEt w) (wf w 15 13)) (etCount (vEtd w) (wf w 15 13))) ≥ max (etCount (vEt w) (wf w 15 13)) (etCount (vEtd w) (wf w 15 13)) ∨ ((etBlock (vEtd w)) ≠ 0 ∧ (min (etCount (vEt w) (wf w 15 13)) (etCount (vEtd w) (wf w 15 13))) % (etBlock (vEtd w)) ≠ 0))) ∧ (¬((etBlock (vEtd w)) ≠ 0)) ∧ (x.trapFlags (orFlags ((cvtResults x w (wf w 15 13) (vRm w) (cvtPairs (etCount (vEt w) (wf w 15 13)) (etCount (vEtd w) (wf w 15 13)) (wf w 2 0))).map Prod.snd)) = 0)) ∧
    (∃ (s : State) (c : Fin 4096) (x : Ctx) (w : Word) (m : Nat),
    (s.issues c x w = true) ∧ (majorOf w = 0x1C) ∧ (mmaMode (mEt w) (mKc w) = some m) ∧ ((let et := mEt w; let used := bm 63 48 + bm 39 36 + (if etBlock et ≠ 0 then bm 47 40 else 0) + (if et = 14 then bm 35 33 else 0); let t := x.tile (mTd w); ¬(!(onlyBits w used && mA w % 2 == 0 && t.mode == m)))) ∧ ((let t := x.tile (mTd w); let rs := (List.range 128).map fun i => mmaElem x w t (i / 8) (i % 8); x.trapFlags (orFlags (rs.map Prod.snd)) = 0))) ∧
    (∃ (s : State) (c : Fin 4096) (x : Ctx) (w : Word),
    (s.issues c x w = true) ∧ (majorOf w = 0x1D) ∧ (¬(!(onlyBits w (bm 63 56 + bm 24 21) && (mEtd w == 0 || mEtd w == 13))))) ∧
    (∃ (s : State) (c : Fin 4096) (x : Ctx) (w : Word),
    (s.issues c x w = true) ∧ (majorOf w = 0x1E) ∧ ((let etd := mEtd w; let t := x.tile (mTd w); let typeOk := if t.mode = 0 then decide (etd < 3) else etd == 0 || etd == 11 || etd == 13; let rm := wf w 27 26; ¬(!(onlyBits w (bm 63 56 + bm 32 0) && typeOk && !(etInt etd && rm != 0))))) ∧ ((let etd := mEtd w; let n := 128 * etWidth etd 0 / 8; let a := (x.sreg (wf w 32 28) + BitVec.ofNat 64 (64 * wf w 20 0)).toNat; ¬(!x.inWin a n))) ∧ ((let t := x.tile (mTd w); let rm := wf w 27 26; let pq := drawsFor rm (List.replicate 128 true) x.gen; let us := pq.1; let rs := (List.range 128).map fun i => tstoreElem w t.mode (t.at i) ((us[i]?).getD 0); x.trapFlags (orFlags (rs.map Prod.snd)) = 0))) ∧
    (∃ (s : State) (c : Fin 4096) (x : Ctx) (w : Word),
    (s.issues c x w = true) ∧ (majorOf w = 0x25) ∧ (xFunc w = 0) ∧ (¬(!onlyBits w (bm 63 54 + bm 44 40 + bm 29 26))) ∧ ((let is := (List.range 64).filter (x.active w); let fl := if (is.map fun i => (BitVec.ofNat 32 (elemAt 32 (x.vreg (xVr w)) i), x.sreg (xSi w) + BitVec.ofNat 64 i)).any fun r => fp32.decode r.1.toNat == .nan then flagIV else 0; x.trapFlags fl = 0))) ∧
    (∃ (s : State) (c : Fin 4096) (x : Ctx) (w : Word),
    (s.issues c x w = true) ∧ (majorOf w = 0x25) ∧ (¬(xFunc w = 0)) ∧ ((onlyBits w (bm 63 54 + bm 49 49 + bm 39 30)) = true) ∧ (x.guard w = true) ∧ (¬(((x.sreg (xSl w)).toNat) = 0 ∨ ((x.sreg (xSl w)).toNat) > 4096)) ∧ (¬(!x.inWin ((x.sreg (xSs w)).toNat) (16 * ((x.sreg (xSl w)).toNat)))) ∧ ((let n := (x.sreg (xSl w)).toNat; let m := (x.sreg (xSs w)).toNat; let fl := if ((List.range n).map fun i => topOf (x.load (m + 16 * i) 16)).any fun r => fp32.decode r.1.toNat == .nan then flagIV else 0; x.trapFlags fl = 0))) ∧
    (∃ (s : State) (c : Fin 4096) (x : Ctx) (w : Word),
    (s.issues c x w = true) ∧ (majorOf w = 0x26) ∧ ((onlyBits w (bm 63 54 + bm 39 30)) = true) ∧ (x.guard w = true) ∧ (¬(!x.inWin ((x.sreg (xSs w)).toNat) (16 * x.topk.items.length)))) :=
  ⟨⟨(running (ctx0) (wd 0x18 (2 * 2 ^ 40))), (0), (ctx0), (wd 0x18 (2 * 2 ^ 40)), by decide, by decide, by decide, Ctx.trapFlags_off (by decide) _⟩,
   ⟨(running (ctx0) (wd 0x19 (2 ^ 44 + 2 * 2 ^ 40 + 5 * 2 ^ 24))), (0), (ctx0), (wd 0x19 (2 ^ 44 + 2 * 2 ^ 40 + 5 * 2 ^ 24)), by decide, by decide, by decide, by decide, by decide, Ctx.trapFlags_off (by decide) _⟩,
   ⟨(running (ctx0) (wd 0x19 (2 ^ 44 + 2 * 2 ^ 40 + 2 ^ 24))), (0), (ctx0), (wd 0x19 (2 ^ 44 + 2 * 2 ^ 40 + 2 ^ 24)), by decide, by decide, by decide, by decide, by decide, Ctx.trapFlags_off (by decide) _⟩,
   ⟨(running (ctx0) (wd 0x1C (2 ^ 36))), (0), (ctx0), (wd 0x1C (2 ^ 36)), (0), by decide, by decide, by decide, by decide, Ctx.trapFlags_off (by decide) _⟩,
   ⟨(running (ctx0) (wd 0x1D (0))), (0), (ctx0), (wd 0x1D (0)), by decide, by decide, by decide⟩,
   ⟨(running (ctx0) (wd 0x1E (0))), (0), (ctx0), (wd 0x1E (0)), by decide, by decide, by decide, by decide, Ctx.trapFlags_off (by decide) _⟩,
   ⟨(running (ctx0) (wd 0x25 (0))), (0), (ctx0), (wd 0x25 (0)), by decide, by decide, by decide, by decide, Ctx.trapFlags_off (by decide) _⟩,
   ⟨(running (ctx0) (wd 0x25 (2 ^ 49 + 2 ^ 35))), (0), (ctx0), (wd 0x25 (2 ^ 49 + 2 ^ 35)), by decide, by decide, by decide, by decide, by decide, by decide, by decide, Ctx.trapFlags_off (by decide) _⟩,
   ⟨(running (ctx0) (wd 0x26 (3 * 2 ^ 35))), (0), (ctx0), (wd 0x26 (3 * 2 ^ 35)), by decide, by decide, by decide, by decide, by decide⟩⟩

/-- States and operands that meet the hypotheses of SpaceOperationsStart, clause by clause. -/
theorem witness_SpaceOperationsStart :
    (∃ (s : State) (c : Fin 4096) (x : Ctx) (w : Word),
    (s.issues c x w = true) ∧ (majorOf w = 0x20) ∧ (¬(!(onlyBits w (bm 63 54 + bm 49 30 + bm 21 0) && xImm w % 64 == 0 && xImm w != 0))) ∧ (¬(!x.guard w)) ∧ (¬(((x.sreg (xSl w)).toNat) = 0 ∨ ((x.sreg (xSl w)).toNat) > 65536)) ∧ (¬(((x.areg (xAb w)).toNat) % 64 ≠ 0)) ∧ ((let n := (x.sreg (xSl w)).toNat; let iw := if xFunc w = 1 then 8 else 4; let ix := (x.sreg (xSi w)).toNat; ¬(!x.inWin ix (iw * n)))) ∧ (¬(!x.inWin ((x.sreg (xSs w)).toNat) (xImm w * ((x.sreg (xSl w)).toNat)))) ∧ (¬(x.asyncs ≥ 16))) ∧
    (∃ (s : State) (c : Fin 4096) (x : Ctx) (w : Word),
    (s.issues c x w = true) ∧ (majorOf w = 0x21) ∧ (¬(!(onlyBits w (bm 63 54 + bm 49 30 + bm 21 0) && xImm w % 64 == 0 && xImm w != 0))) ∧ (¬(!x.guard w)) ∧ (¬(((x.sreg (xSl w)).toNat) = 0 ∨ ((x.sreg (xSl w)).toNat) > 65536)) ∧ (¬(((x.areg (xAb w)).toNat) % 64 ≠ 0)) ∧ ((let n := (x.sreg (xSl w)).toNat; let iw := if xFunc w = 1 then 8 else 4; let ix := (x.sreg (xSi w)).toNat; ¬(!x.inWin ix (iw * n)))) ∧ (¬(!x.inWin ((x.sreg (xSs w)).toNat) (xImm w * ((x.sreg (xSl w)).toNat)))) ∧ (¬(x.asyncs ≥ 16))) ∧
    (∃ (s : State) (c : Fin 4096) (x : Ctx) (w : Word),
    (s.issues c x w = true) ∧ (majorOf w = 0x22) ∧ (¬(!onlyBits w (bm 63 54 + bm 49 30))) ∧ (¬(!x.guard w)) ∧ (¬(((x.sreg (xSl w)).toNat) % 64 ≠ 0)) ∧ (¬(!x.inWin ((x.sreg (xSs w)).toNat) ((x.sreg (xSl w)).toNat))) ∧ (¬(x.asyncs ≥ 16)) ∧ (xFunc w = 0)) ∧
    (∃ (s : State) (c : Fin 4096) (x : Ctx) (w : Word),
    (s.issues c x w = true) ∧ (majorOf w = 0x22) ∧ (¬(!onlyBits w (bm 63 54 + bm 49 30))) ∧ (¬(!x.guard w)) ∧ (¬(((x.sreg (xSl w)).toNat) % 64 ≠ 0)) ∧ (¬(!x.inWin ((x.sreg (xSs w)).toNat) ((x.sreg (xSl w)).toNat))) ∧ (¬(x.asyncs ≥ 16)) ∧ (¬(xFunc w = 0))) ∧
    (∃ (s : State) (c : Fin 4096) (x : Ctx) (w : Word),
    (s.issues c x w = true) ∧ (majorOf w = 0x23) ∧ (¬(xFunc w = 1)) ∧ (¬(!(onlyBits w (bm 63 54 + bm 34 30 + bm 3 0) && decide (xImm w ≤ 1)))) ∧ (¬(!x.guard w)) ∧ ((let m := (x.sreg (xSs w)).toNat; let n := if xImm w = 0 then 16 else 64; ¬(!x.inWin m n))) ∧ (xImm w = 0)) ∧
    (∃ (s : State) (c : Fin 4096) (x : Ctx) (w : Word),
    (s.issues c x w = true) ∧ (majorOf w = 0x23) ∧ (¬(xFunc w = 1)) ∧ (¬(!(onlyBits w (bm 63 54 + bm 34 30 + bm 3 0) && decide (xImm w ≤ 1)))) ∧ (¬(!x.guard w)) ∧ ((let m := (x.sreg (xSs w)).toNat; let n := if xImm w = 0 then 16 else 64; ¬(!x.inWin m n))) ∧ (¬(xImm w = 0))) ∧
    (∃ (s : State) (c : Fin 4096) (x : Ctx) (w : Word),
    (s.issues c x w = true) ∧ (majorOf w = 0x23) ∧ (xFunc w = 1) ∧ (¬(!onlyBits w (bm 63 54 + bm 49 40 + bm 34 30))) ∧ (¬(!x.guard w)) ∧ (¬(((x.areg (xAb w) + x.sreg (xSi w)).toNat) % 64 ≠ 0)) ∧ (¬(!x.inWin ((x.sreg (xSs w)).toNat) 64)) ∧ (¬(x.asyncs ≥ 16))) ∧
    (∃ (s : State) (c : Fin 4096) (x : Ctx) (w : Word) (e : Extent) (a : Access),
    (s.issues c x w = true) ∧ (majorOf w = 0x24) ∧ (¬(!(onlyBits w (bm 63 54 + bm 48 40 + bm 33 22 + bm 3 0) && etOk (xEt w) (wf w 3 1) && etBlock (xEt w) != 0))) ∧ (¬(!x.guard w)) ∧ (look s.spc.extents ((fetchSa x w) / 2 ^ 30) = some e) ∧ (s.access x (fetchSa x w) (min (etCount (xEt w) (wf w 3 1) * (elemBytes e.elem)) (4096 - (fetchSa x w) % 4096)) 1 = a) ∧ (¬((fetchSa x w) % (etBlock (xEt w) * (elemBytes e.elem)) ≠ 0)) ∧ (¬(a = .noLease)) ∧ (a ≠ .fault)) :=
  ⟨⟨(running (ctx0) (wd 0x20 (2 ^ 35 + 64))), (0), (ctx0), (wd 0x20 (2 ^ 35 + 64)), by decide, by decide, by decide, by decide, by decide, by decide, by decide, by decide, by decide⟩,
   ⟨(running (ctx0) (wd 0x21 (2 ^ 35 + 64))), (0), (ctx0), (wd 0x21 (2 ^ 35 + 64)), by decide, by decide, by decide, by decide, by decide, by decide, by decide, by decide, by decide⟩,
   ⟨(running (ctx0) (wd 0x22 (0))), (0), (ctx0), (wd 0x22 (0)), by decide, by decide, by decide, by decide, by decide, by decide, by decide, by decide⟩,
   ⟨(running (ctx0) (wd 0x22 (2 ^ 49))), (0), (ctx0), (wd 0x22 (2 ^ 49)), by decide, by decide, by decide, by decide, by decide, by decide, by decide, by decide⟩,
   ⟨(running (ctx0) (wd 0x23 (0))), (0), (ctx0), (wd 0x23 (0)), by decide, by decide, by decide, by decide, by decide, by decide, by decide⟩,
   ⟨(running (ctx0) (wd 0x23 (1))), (0), (ctx0), (wd 0x23 (1)), by decide, by decide, by decide, by decide, by decide, by decide, by decide⟩,
   ⟨(running (ctx0) (wd 0x23 (2 ^ 49))), (0), (ctx0), (wd 0x23 (2 ^ 49)), by decide, by decide, by decide, by decide, by decide, by decide, by decide, by decide⟩,
   ⟨(running (ctx0) (wd 0x24 (5 * 2 ^ 22))), (0), (ctx0), (wd 0x24 (5 * 2 ^ 22)), (xt0), (.ok), by decide, by decide, by decide, by decide, by decide, by decide, by decide, by decide, by decide⟩⟩

/-- States and operands that meet the hypotheses of ControlFlowResults, clause by clause. -/
theorem witness_ControlFlowResults :
    (∃ (s : State) (c : Fin 4096) (x : Ctx) (w : Word),
    (s.issues c x w = true) ∧ (majorOf w = 0x28) ∧ ((onlyBits w (cHead + cImm)) = true) ∧ (x.guard w = true)) ∧
    (∃ (s : State) (c : Fin 4096) (x : Ctx) (w : Word) (t : Bool),
    (s.issues c x w = true) ∧ (majorOf w = 0x29) ∧ (condOf (cFunc w) (x.sreg (cSa w)) (x.sreg (cSb w)) = some t) ∧ ((onlyBits w (bm 63 40 + cImm)) = true) ∧ (x.guard w = true) ∧ (t)) ∧
    (∃ (s : State) (c : Fin 4096) (x : Ctx) (w : Word) (t : Bool),
    (s.issues c x w = true) ∧ (majorOf w = 0x29) ∧ (condOf (cFunc w) (x.sreg (cSa w)) (x.sreg (cSb w)) = some t) ∧ ((onlyBits w (bm 63 40 + cImm)) = true) ∧ (x.guard w = true) ∧ (¬(t))) ∧
    (∃ (s : State) (c : Fin 4096) (x : Ctx) (w : Word),
    (s.issues c x w = true) ∧ (majorOf w = 0x2A) ∧ (¬(!onlyBits w (cHead + cImm))) ∧ (¬(!x.guard w)) ∧ (¬(x.calls.length ≥ 16))) ∧
    (∃ (s : State) (c : Fin 4096) (x : Ctx) (w : Word) (p : Nat) (t : List Nat),
    (s.issues c x w = true) ∧ (majorOf w = 0x2B) ∧ ((onlyBits w cHead) = true) ∧ (x.guard w = true) ∧ (x.calls = p :: t)) ∧
    (∃ (s : State) (c : Fin 4096) (x : Ctx) (w : Word),
    (s.issues c x w = true) ∧ (majorOf w = 0x2C) ∧ (¬(!(onlyBits w (cHead + bm 49 45 + cImm) && decide (1 ≤ imm32 w)))) ∧ (¬(!x.guard w)) ∧ (¬(x.loops.length ≥ 4 ∨ x.loops.any (fun l => decide (l.1 ≤ x.pc ∧ x.pc ≤ l.2.1 ∧ l.2.1 < (x.pc + (imm32 w).toNat))))) ∧ (¬(((x.sreg (cSa w)).toNat % 2 ^ 32) = 0))) ∧
    (∃ (s : State) (c : Fin 4096) (x : Ctx) (w : Word),
    (s.issues c x w = true) ∧ (majorOf w = 0x2D) ∧ ((onlyBits w cHead) = true) ∧ (x.guard w = true)) ∧
    (∃ (s : State) (c : Fin 4096) (x : Ctx) (w : Word),
    (s.issues c x w = true) ∧ (majorOf w = 0x2E) ∧ (¬(!(onlyBits w (bm 63 40 + cImm) && decide (cFunc w < 10) && decide (cSa w < 16)))) ∧ (¬(!x.guard w)) ∧ (¬(((x.areg (cSa w)).toNat) % 8 ≠ 0))) ∧
    (∃ (s : State) (c : Fin 4096) (x : Ctx) (w : Word),
    (s.issues c x w = true) ∧ (majorOf w = 0x2F) ∧ (¬(!(onlyBits w (bm 63 40) && decide (cFunc w < 4) && decide (cSa w < 16)))) ∧ (¬(!x.guard w)) ∧ (¬(((x.areg (cSa w)).toNat) % 8 ≠ 0)) ∧ (¬(s.sysAccess c ((x.areg (cSa w)).toNat) 8 2)) ∧ (s.access x ((x.areg (cSa w)).toNat) 8 2 = .ok)) ∧
    (∃ (s : State) (c : Fin 4096) (x : Ctx) (w : Word),
    (s.issues c x w = true) ∧ (majorOf w = 0x30) ∧ (¬(!onlyBits w (cHead + bm 49 45))) ∧ (¬(!x.guard w)) ∧ (¬((s.tiller x.tiller).sig.length ≥ 16))) ∧
    (∃ (s : State) (c : Fin 4096) (x : Ctx) (w : Word),
    (s.issues c x w = true) ∧ (majorOf w = 0x31) ∧ (¬(!onlyBits w cHead)) ∧ (¬(!x.guard w)) ∧ (¬(!x.ops.isEmpty))) ∧
    (∃ (s : State) (c : Fin 4096) (x : Ctx) (w : Word),
    (s.issues c x w = true) ∧ (majorOf w = 0x32) ∧ ((onlyBits w (cHead + bm 15 0)) = true) ∧ (x.guard w = true)) ∧
    (∃ (s : State) (c : Fin 4096) (x : Ctx) (w : Word),
    (s.issues c x w = true) ∧ (majorOf w = 0x33) ∧ (¬(!onlyBits w cHead)) ∧ (¬(!x.guard w)) ∧ (¬(!x.ops.isEmpty))) ∧
    (∃ (s : State) (c : Fin 4096) (x : Ctx) (w : Word),
    (s.issues c x w = true) ∧ (illegalMajor (majorOf w) = true)) :=
  ⟨⟨(running (ctx0) (wd 0x28 (1))), (0), (ctx0), (wd 0x28 (1)), by decide, by decide, by decide, by decide⟩,
   ⟨(running (ctx0) (wd 0x29 (1))), (0), (ctx0), (wd 0x29 (1)), (true), by decide, by decide, by decide, by decide, by decide, by decide⟩,
   ⟨(running (ctx0) (wd 0x29 (2 ^ 50 + 1))), (0), (ctx0), (wd 0x29 (2 ^ 50 + 1)), (false), by decide, by decide, by decide, by decide, by decide, by decide⟩,
   ⟨(running (ctx0) (wd 0x2A (1))), (0), (ctx0), (wd 0x2A (1)), by decide, by decide, by decide, by decide, by decide⟩,
   ⟨(running ({ ctx0 with calls := [4] }) (wd 0x2B (0))), (0), ({ ctx0 with calls := [4] }), (wd 0x2B (0)), (4), ([]), by decide, by decide, by decide, by decide, by decide⟩,
   ⟨(running (ctx0) (wd 0x2C (2 ^ 45 + 1))), (0), (ctx0), (wd 0x2C (2 ^ 45 + 1)), by decide, by decide, by decide, by decide, by decide, by decide⟩,
   ⟨(running (ctx0) (wd 0x2D (0))), (0), (ctx0), (wd 0x2D (0)), by decide, by decide, by decide, by decide⟩,
   ⟨(running (ctx0) (wd 0x2E (0))), (0), (ctx0), (wd 0x2E (0)), by decide, by decide, by decide, by decide, by decide⟩,
   ⟨(running (ctx0) (wd 0x2F (0))), (0), (ctx0), (wd 0x2F (0)), by decide, by decide, by decide, by decide, by decide, by decide, by decide⟩,
   ⟨(running (ctx0) (wd 0x30 (2 ^ 45))), (0), (ctx0), (wd 0x30 (2 ^ 45)), by decide, by decide, by decide, by decide, by decide⟩,
   ⟨(running (ctx0) (wd 0x31 (0))), (0), (ctx0), (wd 0x31 (0)), by decide, by decide, by decide, by decide, by decide⟩,
   ⟨(running (ctx0) (wd 0x32 (5))), (0), (ctx0), (wd 0x32 (5)), by decide, by decide, by decide, by decide⟩,
   ⟨(running (ctx0) (wd 0x33 (0))), (0), (ctx0), (wd 0x33 (0)), by decide, by decide, by decide, by decide, by decide⟩,
   ⟨(running (ctx0) (wd 0x3F (0))), (0), (ctx0), (wd 0x3F (0)), by decide, by decide⟩⟩

/-- States and operands that meet the hypotheses of ContextEventsAct, clause by clause. -/
theorem witness_ContextEventsAct :
    (∃ (s : State) (c : Fin 4096) (op : Nat) (x : Ctx) (o : AOp),
    (look s.tlr.ctxs c = some x) ∧ (x.ops.find? fun o => o.id == op && decide (1 ≤ o.kind ∧ o.kind ≤ 5) && o.left == 0 = some o)) ∧
    (∃ (s : State) (c : Fin 4096) (x : Ctx) (q : Sheaf) (e : Extent),
    (look s.tlr.ctxs c = some x) ∧ (¬(x.wait ≠ .fetch ∨ x.ended.isSome ∨ (x.ops.any fun o => o.kind == 8))) ∧ (look s.tlr.sheaves x.sheaf = some q) ∧ (look s.spc.extents ((fetchSa x (imgWord q.image x.pc)) / 2 ^ 30) = some e)) ∧
    (∃ (s : State) (c : Fin 4096),
    (s.tlr.polCtx = some c.val ∧ s.tier.policy = 0)) ∧
    (∃ (s : State) (c : Fin 4096) (x : Ctx) (y3 : _) (y4 : _) (y5 : _) (q : Sheaf),
    (¬(s.tlr.polCtx = some c.val ∧ s.tier.policy = 0)) ∧ (look s.tlr.ctxs c = some x) ∧ (x.wait = .gate y3 y4 y5) ∧ (look s.tlr.sheaves x.sheaf = some q) ∧ (¬(x.ended.isSome))) ∧
    (∃ (s : State) (c : Fin 4096) (x : Ctx) (y3 : _) (y4 : _) (y5 : _) (t : Nat) (q : Sheaf),
    (look s.tlr.ctxs c = some x) ∧ (x.wait = .gate y3 y4 y5) ∧ (x.gateEnd = some t) ∧ (look s.tlr.sheaves x.sheaf = some q) ∧ (¬(s.now < t ∨ x.ended.isSome))) ∧
    (∃ (s : State) (c : Fin 4096) (x : Ctx),
    (look s.tlr.ctxs c.val = some x) ∧ (x.resident && decide (s.now ≥ x.since + 1000 * s.fld 0x980008 57 48))) ∧
    (∃ (s : State) (c : Fin 4096) (x : Ctx),
    (look s.tlr.ctxs c.val = some x) ∧ ((let ws := s.tlr.ctxs.filter fun e => e.2.tiller == x.tiller && e.2.waiting; let best := argMin (fun (e : Nat × Ctx) => s.ctxRank e.1 e.2 * 2 ^ 64 + e.2.since) ws; ¬((best.map Prod.fst) ≠ some c.val ∨ s.pwr.state ≥ 2))) ∧ ((s.makeRoom x.tiller x.scratchLen (s.ctxRank c x) 8).fitsTiller x.tiller x.scratchLen)) :=
  ⟨⟨(withCtx fun x => { x with ops := [⟨0, 1, 0, 0, [], false, []⟩] }), (0), (0), ({ ctx0 with ops := [⟨0, 1, 0, 0, [], false, []⟩] }), (⟨0, 1, 0, 0, [], false, []⟩), by decide, by decide⟩,
   ⟨(withCtx fun x => { x with wait := .fetch }), (0), ({ ctx0 with wait := .fetch }), ({ sheaf0 2 (codeImg (wd 0 0)) with leases := [[1]] }), (xt0), by decide, by decide, by decide, by decide⟩,
   ⟨({ up with tlr := { Tlr.reset with polCtx := some 0 } }), (0), by decide⟩,
   ⟨(withCtx fun x => { x with wait := .gate 0 0 0 }), (0), ({ ctx0 with wait := .gate 0 0 0 }), (0), (0), (0), ({ sheaf0 2 (codeImg (wd 0 0)) with leases := [[1]] }), by decide, by decide, by decide, by decide, by decide⟩,
   ⟨(withCtx fun x => { x with wait := .gate 0 0 0, gateEnd := some 0 }), (0), ({ ctx0 with wait := .gate 0 0 0, gateEnd := some 0 }), (0), (0), (0), (0), ({ sheaf0 2 (codeImg (wd 0 0)) with leases := [[1]] }), by decide, by decide, by decide, by decide, by decide⟩,
   ⟨(withNow (2 ^ 40) (withCtx id)), (0), (ctx0), by decide, by decide⟩,
   ⟨(withCtx fun x => { x with resident := false }), (0), ({ ctx0 with resident := false }), by decide, by decide, by decide⟩⟩

/-- States and operands that meet the hypotheses of SheafCommandsAct, clause by clause. -/
theorem witness_SheafCommandsAct :
    (∃ (s : State) (x : Mbx) (b : _),
    (s.sent x .any false 20 = true) ∧ (¬((mb8 x 0) = 1 ∧ (mbWho x) ≠ 64)) ∧ (¬((mb8 x 0) = 0 ∨ (mb8 x 0) > 3 ∨ mb32 x 16 > 2 ^ 22)) ∧ (s.taken.readImage (mbWho x) (mb64 x 8) (mb32 x 16) = some b) ∧ ((mb8 x 0) = 3) ∧ (¬(b.length < 64))) ∧
    (∃ (s : State) (x : Mbx) (b : _) (ls : _),
    (s.sent x .any false 20 = true) ∧ (¬((mb8 x 0) = 1 ∧ (mbWho x) ≠ 64)) ∧ (¬((mb8 x 0) = 0 ∨ (mb8 x 0) > 3 ∨ mb32 x 16 > 2 ^ 22)) ∧ (s.taken.readImage (mbWho x) (mb64 x 8) (mb32 x 16) = some b) ∧ (¬((mb8 x 0) = 3)) ∧ (¬(!imageShape (mb8 x 0) b)) ∧ ((s.taken.extNeed ([]) (if (mbWho x) = 64 then imgExts b else [])).isEmpty = true) ∧ (s.taken.grantLeases (mbWho x) b = some ls)) ∧
    (∃ (s : State) (x : Mbx) (q : Sheaf),
    (s.sent x .any false 4 = true) ∧ (look s.taken.tlr.sheaves (mb32 x 0) = some q) ∧ (¬(!s.taken.maySheaf x q)) ∧ (¬(s.taken.sheafUsed (mb32 x 0) q))) ∧
    (∃ (s : State) (x : Mbx) (q : Sheaf),
    (s.sent x .any false 4 = true) ∧ (look s.taken.tlr.sheaves (mb32 x 0) = some q) ∧ (¬(!s.taken.maySheaf x q))) ∧
    (∃ (s : State) (x : Mbx),
    (s.sent x .fm false 10 = true) ∧ ((mb8 x 4) = s.taken.me)) ∧
    (∃ (v : Word),
    (v.toNat.testBit 0)) :=
  ⟨⟨(inSlot (zeros 128)), (fmx (loadIn 3 64)), (zeros 64), by decide, by decide, by decide, by decide, by decide, by decide⟩,
   ⟨(inSlot image), (fmx (loadIn 2 88)), (image), ([[]]), by decide, by decide, by decide, by decide, by decide, by decide, by decide, by decide⟩,
   ⟨(withSheaf (sheaf0 2 []) up), (ldx (toLe 4 1)), (sheaf0 2 []), by decide, by decide, by decide, by decide⟩,
   ⟨(withSheaf (sheaf0 2 []) up), (ldx (toLe 4 1)), (sheaf0 2 []), by decide, by decide, by decide⟩,
   ⟨(up), (fmx (zeros 10)), by decide, by decide⟩,
   ⟨(1), by decide⟩⟩

/-- States and operands that meet the hypotheses of DescriptorRingsAct, clause by clause. -/
theorem witness_DescriptorRingsAct :
    (∃ (s : State) (ld : Fin 64) (r : Fin 4),
    (¬(!s.hostOpen ld || !(s.ringReg ld r 8).testBit 63))) ∧
    (∃ (s : State) (ld : Fin 64) (r : Fin 4) (v : Word),
    (¬(!s.hostOpen ld)) ∧ (v.toNat.testBit 63 && !(s.ringReg ld r 8).testBit 63)) ∧
    (∃ (s : State) (ld : Fin 64) (r : Fin 4) (v : Word),
    (¬(!s.hostOpen ld)) ∧ (¬(v.toNat.testBit 63 && !(s.ringReg ld r 8).testBit 63))) ∧
    (∃ (s : State) (ld : Fin 64),
    (¬(!s.hostOpen ld))) ∧
    (∃ (s : State) (ld : Fin 64),
    (¬(!s.hostOpen ld))) ∧
    (∃ (s : State) (ld : Fin 64) (r : Fin 4) (d : Bytes),
    (s.headDesc ld r = some d) ∧ (¬(descOk d && dOp d != 1)) ∧ (¬(!descOk d)) ∧ (¬(!s.querySheaf (dSheaf d))) ∧ (¬(!s.placeOk d))) ∧
    (∃ (s : State) (ld : Fin 64) (r : Fin 4) (d : Bytes),
    (s.headDesc ld r = some d) ∧ (¬(!(descOk d && dOp d == 2))) ∧ (¬((s.ring ld r).cancel.isSome))) ∧
    (∃ (s : State) (ld : Fin 64) (r : Fin 4) (d : Bytes),
    (s.headDesc ld r = some d) ∧ (¬(!(descOk d && dOp d == 3))) ∧ (¬(s.tlr.descs.any fun e => e.2.ld == ld.val && e.2.ring == r.val))) ∧
    (∃ (s : State) (ld : Fin 64) (r : Fin 4) (d : Bytes),
    ((s.startPump s.tlr.startQ.length).headDesc ld r = some d) ∧ (((s.startPump s.tlr.startQ.length).ring ld r).waitCtx) ∧ (!(s.startPump s.tlr.startQ.length).querySheaf (dSheaf d))) ∧
    (∃ (s : State) (ld : Fin 64) (r : Fin 4),
    ((s.ring ld r).pend ≠ 0 ∧ s.now ≥ (s.ring ld r).pendAt + 1000 * bits (s.ringReg ld r 0x28) 37 24)) :=
  ⟨⟨(withRing id leased), (0), (0), by decide⟩,
   ⟨(leased), (15), (3), (0x8000000000000006), by decide, by decide⟩,
   ⟨(leased), (0), (0), (6), by decide, by decide⟩,
   ⟨(leased), (0), by decide⟩,
   ⟨(leased), (0), by decide⟩,
   ⟨(withDesc 1 (running ctx0 0)), (0), (0), (descIn 1), by decide, by decide, by decide, by decide, by decide⟩,
   ⟨(withDesc 2 leased), (0), (0), (descIn 2), by decide, by decide, by decide⟩,
   ⟨(withDesc 3 leased), (0), (0), (descIn 3), by decide, by decide, by decide⟩,
   ⟨(withRing (fun q => { q with tail := 1, waitCtx := true, fetched := [(0, descIn 1)] }) leased), (0), (0), (descIn 1), by decide, by decide, by decide⟩,
   ⟨(withNow 2000 (withRing (fun q => { q with pend := 1 }) leased)), (0), (0), by decide⟩⟩

/-- States and operands that meet the hypotheses of TillersAct, clause by clause. -/
theorem witness_TillersAct :
    (∃ (s : State) (n : Fin 96) (ratio : Fin 4096),
    (¬(s.tlrBad n || (s.tiller n).reduced || decide (100 * ratio.val ≥ 85 * 4096)))) ∧
    (∃ (s : State) (n : Fin 96) (ratio : Fin 65536),
    (¬(!(s.tiller n).reduced || decide (100 * ratio.val ≤ 90 * 4096)))) ∧
    (∃ (s : State) (n : Fin 96),
    (¬(s.tlrBad n))) :=
  ⟨⟨(up), (95), (3481), by decide⟩,
   ⟨(up.setTiller 95 fun t => { t with reduced := true }), (95), (3687), by decide⟩,
   ⟨(up), (95), by decide⟩⟩

/-- States and operands that meet the hypotheses of HedgerowPortsAct, clause by clause. -/
theorem witness_HedgerowPortsAct :
    (∃ (s : State) (p : Fin 6),
    (¬((s.hport p).st ≠ 2)) ∧ ((s.inject.hport p).txPos % 256 = 255)) ∧
    (∃ (s : State) (p : Fin 6) (q : _) (rest : _) (e : _),
    (¬((s.hport p).st ≠ 2)) ∧ (¬((s.inject.hport p).txPos % 256 = 255)) ∧ ((s.inject.hport p).resend = q :: rest) ∧ ((s.inject.hport p).replay.find? (fun e => e.1 == q) = some e)) ∧
    (∃ (s : State) (p : Fin 6),
    (¬((s.hport p).st ≠ 2)) ∧ (¬((s.inject.hport p).txPos % 256 = 255)) ∧ ((s.inject.hport p).resend = []) ∧ ((s.inject.hport p).nak)) ∧
    (∃ (s : State) (p : Fin 6) (c : _),
    (¬((s.hport p).st ≠ 2)) ∧ (¬((s.inject.hport p).txPos % 256 = 255)) ∧ ((s.inject.hport p).resend = []) ∧ (¬((s.inject.hport p).nak)) ∧ ((if (s.inject.hport p).replay.length < 1024 then (s.inject.hport p).choose else none) = some c)) ∧
    (∃ (s : State) (p : Fin 6),
    (¬((s.hport p).st ≠ 2)) ∧ (¬((s.inject.hport p).txPos % 256 = 255)) ∧ ((s.inject.hport p).resend = []) ∧ (¬((s.inject.hport p).nak)) ∧ ((if (s.inject.hport p).replay.length < 1024 then (s.inject.hport p).choose else none) = none)) ∧
    (∃ (s : State) (p : Fin 6) (tag : Nat),
    (¬((s.hport p).st ≠ 2)) ∧ (¬(!(s.hport p).rxLost ∧ tag ≠ Config.linkTag ((s.hport p).nmod * 8 + (s.hport p).nport) (s.hport p).rxEpoch (s.hport p).rxBytes))) ∧
    (∃ (s : State) (p : Fin 6),
    ((s.hport p).st = 2 ∧ s.now ≥ (s.hport p).lastRx + 20000)) ∧
    (∃ (s : State) (p : Fin 6),
    ((s.hport p).st ≤ 1 ∧ (look s.hdg.ports p).isSome ∧ !(s.hport p).off ∧ s.now ≥ (s.hport p).retrainAt)) ∧
    (∃ (s : State) (p : Fin 6),
    ((s.hport p).st = 2 ∧ (s.hport p).txPos ≥ (s.hport p).epochAt + 2 ^ 40 ∧ !(s.hport p).newEpoch)) ∧
    (∃ (s : State),
    (¬(s.now < s.hdg.weightAt + 10 ^ 6))) ∧
    (∃ (s : State),
    (¬(s.now < s.hdg.splitAt + 100000 ∨ !s.hdg.formed))) :=
  ⟨⟨(withPort (fun x => { x with txPos := 255 }) up), (0), by decide, by decide⟩,
   ⟨(withPort (fun x => { x with resend := [4], replay := [(4, 0, [])] }) up), (0), (4), ([]), ((4, 0, [])), by decide, by decide, by decide, by decide⟩,
   ⟨(withPort (fun x => { x with nak := true }) up), (0), by decide, by decide, by decide, by decide⟩,
   ⟨(withPort (fun x => { x with txq := [⟨0, 0, false, zeros 16⟩] }) up), (0), (0), by decide, by decide, by decide, by decide, by decide⟩,
   ⟨(withPort id up), (0), by decide, by decide, by decide, by decide, by decide⟩,
   ⟨(withPort (fun x => { x with rxLost := true }) up), (0), (0), by decide, by decide⟩,
   ⟨(withNow 20000 (withPort id up)), (0), by decide⟩,
   ⟨(withPort (fun x => { x with st := 1 }) up), (0), by decide⟩,
   ⟨(withPort (fun x => { x with txPos := 2 ^ 40 }) up), (0), by decide⟩,
   ⟨(withNow (10 ^ 6) up), by decide⟩,
   ⟨(withNow 100000 spreadSt), by decide⟩⟩

/-- States and operands that meet the hypotheses of RequestMessagesAct, clause by clause. -/
theorem witness_RequestMessagesAct :
    (∃ (s : State) (m : Msg),
    (¬ s.hdg.bench = true) ∧ (m.dst.val = s.me) ∧ (s.serving = true)) ∧
    (∃ (s : State) (m : Msg),
    (¬ s.hdg.bench = true) ∧ (m.dst.val = s.me) ∧ (s.serving = true)) ∧
    (∃ (s : State) (m : Msg),
    (¬ s.hdg.bench = true) ∧ (m.dst.val = s.me) ∧ (s.serving = true)) ∧
    (∃ (s : State) (m : Msg),
    (¬ s.hdg.bench = true) ∧ (m.dst.val = s.me) ∧ (s.serving = true)) ∧
    (∃ (s : State) (m : Msg),
    (¬ s.hdg.bench = true) ∧ (m.dst.val = s.me) ∧ (s.serving = true) ∧ ((let q : PlaceReq := { placeOf m.data with peer := some (m.src.val, m.tag) }; 1 ≤ q.op ∧ q.op ≤ 5))) ∧
    (∃ (s : State) (m : Msg),
    (¬ s.hdg.bench = true) ∧ (m.dst.val = s.me) ∧ (s.serving = true) ∧ ((let q : PlaceReq := { placeOf m.data with peer := some (m.src.val, m.tag) }; ¬(1 ≤ q.op ∧ q.op ≤ 5)))) ∧
    (∃ (s : State) (m : Msg),
    (¬ s.hdg.bench = true) ∧ (m.dst.val = s.me) ∧ (s.serving = true) ∧ (¬(holderMod m.holder ≠ s.me))) ∧
    (∃ (s : State) (m : Msg),
    (¬ s.hdg.bench = true) ∧ (m.dst.val = s.me) ∧ (s.serving = true) ∧ (¬(holderMod m.holder ≠ s.me))) ∧
    (∃ (s : State) (m : Msg),
    (¬ s.hdg.bench = true) ∧ (m.dst.val = s.me) ∧ (s.serving = true) ∧ (¬(holderMod m.holder ≠ s.me))) :=
  ⟨⟨(spreadSt), (msg0 0 []), by decide, by decide, by decide⟩,
   ⟨(spreadSt), (msg0 0 (zeros 64)), by decide, by decide, by decide⟩,
   ⟨(spreadSt), (msg0 0 (zeros 96)), by decide, by decide, by decide⟩,
   ⟨(spreadSt), (msg0 0 (zeros 32)), by decide, by decide, by decide⟩,
   ⟨(spreadSt), (msg0 0 ([1] ++ zeros 31)), by decide, by decide, by decide, by decide⟩,
   ⟨(spreadSt), (msg0 0 (zeros 32)), by decide, by decide, by decide, by decide⟩,
   ⟨(spreadSt), (msg0 0 []), by decide, by decide, by decide, by decide⟩,
   ⟨(spreadSt), (msg0 2 []), by decide, by decide, by decide, by decide⟩,
   ⟨(spreadSt), (msg0 0 []), by decide, by decide, by decide, by decide⟩⟩

/-- States and operands that meet the hypotheses of ResponseMessagesAct, clause by clause. -/
theorem witness_ResponseMessagesAct :
    (∃ (s : State) (m : Msg) (r : Req),
    (¬ s.hdg.bench = true) ∧ (m.dst.val = s.me) ∧ (s.serving = true) ∧ (s.answered m true = some r)) ∧
    (∃ (s : State) (m : Msg) (r : Req),
    (¬ s.hdg.bench = true) ∧ (m.dst.val = s.me) ∧ (s.serving = true) ∧ (s.answered m false = some r)) ∧
    (∃ (s : State) (m : Msg),
    (¬ s.hdg.bench = true) ∧ (m.dst.val = s.me) ∧ (s.serving = true) ∧ (s.answered m false = none)) ∧
    (∃ (s : State) (m : Msg),
    (¬ s.hdg.bench = true) ∧ (m.dst.val = s.me) ∧ (s.serving = true)) ∧
    (∃ (s : State) (m : Msg),
    (¬ s.hdg.bench = true) ∧ (m.dst.val = s.me) ∧ (s.serving = true) ∧ (s.owes (saLine m.addr) m.holder)) ∧
    (∃ (s : State) (m : Msg),
    (¬ s.hdg.bench = true) ∧ (m.dst.val = s.me) ∧ (s.serving = true) ∧ (¬(s.owes (saLine m.addr) m.holder))) ∧
    (∃ (s : State) (m : Msg),
    (¬ s.hdg.bench = true) ∧ (m.dst.val = s.me) ∧ (s.serving = true) ∧ (!s.awake.hdg.mirrorQ.isEmpty)) ∧
    (∃ (s : State) (m : Msg),
    (¬ s.hdg.bench = true) ∧ (m.dst.val = s.me) ∧ (s.serving = true) ∧ (¬(!s.awake.hdg.mirrorQ.isEmpty))) ∧
    (∃ (s : State) (m : Msg) (x : Slot),
    (¬ s.hdg.bench = true) ∧ (m.dst.val = s.me) ∧ (s.serving = true) ∧ (s.hdg.mirrorQ.isEmpty) ∧ (s.openSlot (saPage m.addr) true = some x)) ∧
    (∃ (s : State) (m : Msg) (recs : List JRec),
    (¬ s.hdg.bench = true) ∧ (¬ (s.hdg.formed ∧ m.dst.val ≠ s.me)) ∧ (¬ (!s.pwr.on || !s.pwr.resetN || s.pwr.flush.isSome) = true) ∧ (¬(m.src.val ≠ twinOf s.me ∨ recs.isEmpty))) ∧
    (∃ (s : State) (m : Msg),
    (¬ s.hdg.bench = true) ∧ (m.dst.val = s.me) ∧ (s.serving = true)) ∧
    (∃ (s : State) (m : Msg),
    (¬ s.hdg.bench = true) ∧ (m.dst.val = s.me) ∧ (s.serving = true)) ∧
    (∃ (s : State) (m : Msg) (r : Req),
    (¬ s.hdg.bench = true) ∧ (m.dst.val = s.me) ∧ (s.serving = true) ∧ (s.reqs.find? (fun r => r.waits.contains .mirror && r.mirrorTag == m.tag && r.sa / 64 == saLine m.addr) = some r)) ∧
    (∃ (op : Fin 256),
    (¬(opKnown op))) :=
  ⟨⟨(askedSt .rd (.remote 1)), (msg0 0 (zeros 64)), ({ req0 .rd (.remote 1) with mirrorTag := 1 }), by decide, by decide, by decide, by decide⟩,
   ⟨(askedSt .wr (.remote 1)), (msg0 0 []), ({ req0 .wr (.remote 1) with mirrorTag := 1 }), by decide, by decide, by decide, by decide⟩,
   ⟨(spreadSt), (msg0 0 []), by decide, by decide, by decide, by decide⟩,
   ⟨(spreadSt), (msg0 0 []), by decide, by decide, by decide⟩,
   ⟨({ spreadSt with dir := { Dir.reset with trk := [⟨0, none, [0], [], 0, .inv, false, false⟩] } }), (msg0 0 (zeros 64)), by decide, by decide, by decide, by decide⟩,
   ⟨(spreadSt), (msg0 0 (zeros 64)), by decide, by decide, by decide, by decide⟩,
   ⟨({ spreadSt with hdg := { spreadSt.hdg with mirrorQ := [msg0 0 (zeros 64)] } }), (msg0 0 (zeros 64)), by decide, by decide, by decide, by decide⟩,
   ⟨(spreadSt), (msg0 0 (zeros 64)), by decide, by decide, by decide, by decide⟩,
   ⟨(withSlot { slot0 .opened with twin := true } spreadSt), (msg0 0 (zeros 32)), ({ slot0 .opened with twin := true }), by decide, by decide, by decide, by decide, by decide⟩,
   ⟨(spreadSt), (msg0 0 []), ([⟨1, .clear ⟨false, 0, 0, false⟩, false, true⟩]), by decide, by decide, by decide, by decide⟩,
   ⟨(spreadSt), (msg0 5 []), by decide, by decide, by decide⟩,
   ⟨(spreadSt), (msg0 0 (zeros 64)), by decide, by decide, by decide⟩,
   ⟨(askedSt .wr .mirror), (msg0 0 []), ({ req0 .wr .mirror with mirrorTag := 1 }), by decide, by decide, by decide, by decide⟩,
   ⟨(0), by decide⟩⟩

/-- States and operands that meet the hypotheses of MembershipAndCopyMessagesAct, clause by clause. -/
theorem witness_MembershipAndCopyMessagesAct :
    (∃ (s : State) (m : Msg),
    (¬ s.hdg.bench = true) ∧ (¬ (s.hdg.formed ∧ m.dst.val ≠ s.me)) ∧ (¬ (!s.pwr.on || !s.pwr.resetN || s.pwr.flush.isSome) = true)) ∧
    (∃ (s : State) (m : Msg) (b : MembBody) (y3 : _) (serial : _) (z : _) (coord : _) (links : _),
    (¬ s.hdg.bench = true) ∧ (¬ (s.hdg.formed ∧ m.dst.val ≠ s.me)) ∧ (¬ (!s.pwr.on || !s.pwr.resetN || s.pwr.flush.isSome) = true) ∧ (b = .neighbour y3 serial z coord links)) ∧
    (∃ (s : State) (m : Msg) (b : MembBody) (k : _) (p : _) (up : _),
    (¬ s.hdg.bench = true) ∧ (¬ (s.hdg.formed ∧ m.dst.val ≠ s.me)) ∧ (¬ (!s.pwr.on || !s.pwr.resetN || s.pwr.flush.isSome) = true) ∧ (b = .link k p up)) ∧
    (∃ (s : State) (m : Msg) (b : MembBody) (e : _) (live : _) (q : _) (wits : _) (we : _) (ms : _),
    (¬ s.hdg.bench = true) ∧ (¬ (s.hdg.formed ∧ m.dst.val ≠ s.me)) ∧ (¬ (!s.pwr.on || !s.pwr.resetN || s.pwr.flush.isSome) = true) ∧ (b = .publish e live q wits we ms) ∧ (!s.hdg.formed)) ∧
    (∃ (s : State) (m : Msg) (b : MembBody) (e : _) (live : _) (q : _) (wits : _) (we : _) (ms : _),
    (¬ s.hdg.bench = true) ∧ (¬ (s.hdg.formed ∧ m.dst.val ≠ s.me)) ∧ (¬ (!s.pwr.on || !s.pwr.resetN || s.pwr.flush.isSome) = true) ∧ (b = .publish e live q wits we ms) ∧ (¬(!s.hdg.formed)) ∧ (¬(e ≤ s.hdg.epoch ∨ !live.contains s.me))) ∧
    (∃ (s : State) (m : Msg) (b : MembBody) (k : _) (on : _),
    (¬ s.hdg.bench = true) ∧ (¬ (s.hdg.formed ∧ m.dst.val ≠ s.me)) ∧ (¬ (!s.pwr.on || !s.pwr.resetN || s.pwr.flush.isSome) = true) ∧ (b = .dozing k on) ∧ (¬(on))) ∧
    (∃ (s : State) (m : Msg) (b : MembBody) (k : _) (serial : _),
    (¬ s.hdg.bench = true) ∧ (¬ (s.hdg.formed ∧ m.dst.val ≠ s.me)) ∧ (¬ (!s.pwr.on || !s.pwr.resetN || s.pwr.flush.isSome) = true) ∧ (b = .adopt k serial) ∧ (¬(serial = Config.serial)) ∧ ((let s := s.onHdg fun h => { h with serials := put h.serials k serial }; s.isCoord ∧ !s.hdg.live.contains k))) ∧
    (∃ (s : State) (m : Msg),
    (¬ s.hdg.bench = true) ∧ (¬ (s.hdg.formed ∧ m.dst.val ≠ s.me)) ∧ (¬ (!s.pwr.on || !s.pwr.resetN || s.pwr.flush.isSome) = true)) ∧
    (∃ (s : State) (m : Msg) (b : CopyBody) (page : _) (st : _) (seq : _) (synd : _) (d : _) (poison : _),
    (¬ s.hdg.bench = true) ∧ (¬ (s.hdg.formed ∧ m.dst.val ≠ s.me)) ∧ (¬ (!s.pwr.on || !s.pwr.resetN || s.pwr.flush.isSome) = true) ∧ (b = .page page st seq synd d poison)) ∧
    (∃ (s : State) (m : Msg) (b : CopyBody) (n : _) (t : _),
    (¬ s.hdg.bench = true) ∧ (¬ (s.hdg.formed ∧ m.dst.val ≠ s.me)) ∧ (¬ (!s.pwr.on || !s.pwr.resetN || s.pwr.flush.isSome) = true) ∧ (b = .table n t)) ∧
    (∃ (s : State) (m : Msg) (b : CopyBody) (pairs : _) (recs : _),
    (¬ s.hdg.bench = true) ∧ (¬ (s.hdg.formed ∧ m.dst.val ≠ s.me)) ∧ (¬ (!s.pwr.on || !s.pwr.resetN || s.pwr.flush.isSome) = true) ∧ (b = .flip pairs recs)) ∧
    (∃ (s : State) (m : Msg) (b : CopyBody) (h : _) (l : _),
    (¬ s.hdg.bench = true) ∧ (¬ (s.hdg.formed ∧ m.dst.val ≠ s.me)) ∧ (¬ (!s.pwr.on || !s.pwr.resetN || s.pwr.flush.isSome) = true) ∧ (b = .lease h l)) ∧
    (∃ (s : State) (m : Msg) (b : CopyBody) (a : _) (x : _),
    (¬ s.hdg.bench = true) ∧ (¬ (s.hdg.formed ∧ m.dst.val ≠ s.me)) ∧ (¬ (!s.pwr.on || !s.pwr.resetN || s.pwr.flush.isSome) = true) ∧ (b = .account a x) ∧ (s.granted_ a + x.z ≤ x.b)) :=
  ⟨⟨(spreadSt), (msg0 0 []), by decide, by decide, by decide⟩,
   ⟨(spreadSt), (msg0 0 []), (.neighbour 1 7 0 none []), (1), (7), (0), (none), ([]), by decide, by decide, by decide, by decide⟩,
   ⟨(spreadSt), (msg0 0 []), (.link 1 5 true), (1), (5), (true), by decide, by decide, by decide, by decide⟩,
   ⟨({ up with hdg := Hdg.reset }), (msg0 0 []), (.publish 1 [0] true [] 0 0), (1), ([0]), (true), ([]), (0), (0), by decide, by decide, by decide, by decide, by decide⟩,
   ⟨(spreadSt), (msg0 0 []), (.publish 1 [0] true [] 0 0), (1), ([0]), (true), ([]), (0), (0), by decide, by decide, by decide, by decide, by decide, by decide⟩,
   ⟨(spreadSt), (msg0 0 []), (.dozing 1 false), (1), (false), by decide, by decide, by decide, by decide, by decide⟩,
   ⟨(spreadSt), (msg0 0 []), (.adopt 4 (Config.serial + 1)), (4), (Config.serial + 1), by decide, by decide, by decide, rfl, Nat.succ_ne_self _, by decide⟩,
   ⟨(spreadSt), (msg0 0 []), by decide, by decide, by decide⟩,
   ⟨(spreadSt), (msg0 0 []), (.page 0 .near 1 0 [] []), (0), (.near), (1), (0), ([]), ([]), by decide, by decide, by decide, by decide⟩,
   ⟨(spreadSt), (msg0 0 []), (.table 0 (table0 1 0)), (0), (table0 1 0), by decide, by decide, by decide, by decide⟩,
   ⟨(spreadSt), (msg0 0 []), (.flip [] []), ([]), ([]), by decide, by decide, by decide, by decide⟩,
   ⟨(spreadSt), (msg0 0 []), (.lease 1 lease0), (1), (lease0), by decide, by decide, by decide, by decide⟩,
   ⟨(spreadSt), (msg0 0 []), (.account 0 ⟨2 ^ 30, 0, false, [0], 0, 0⟩), (0), (⟨2 ^ 30, 0, false, [0], 0, 0⟩), by decide, by decide, by decide, by decide, by decide⟩⟩

/-- States and operands that meet the hypotheses of MembershipEventsAct, clause by clause. -/
theorem witness_MembershipEventsAct :
    (∃ (s : State) (r : Nat) (q : Req),
    (s.req r = some q) ∧ (q.waits.contains .mirror ∧ s.now ≥ q.t0 + s.fto)) ∧
    (∃ (s : State) (r : Nat) (q : Req) (m : _),
    (s.req r = some q) ∧ (¬(s.now < q.t0 + s.fto)) ∧ (q.remoteOf = some m) ∧ (¬(s.hdg.dozing.contains m))) ∧
    (∃ (s : State),
    (s.pwr.boot = some 6 ∧ !s.hdg.formed ∧ s.now ≥ s.hdg.formAt + 10 ^ 9)) ∧
    (∃ (s : State) (m : Fin 64),
    (s.isCoord ∧ s.hdg.live.contains m.val ∧ m.val ≠ s.me ∧ !s.seen m)) ∧
    (∃ (s : State) (m : Fin 64),
    (¬(!s.hdg.takeover.contains m.val)) ∧ ((let s := s.onHdg fun h => { h with takeover := h.takeover.filter (· != m.val) }; twinOf m ≠ s.me))) ∧
    (∃ (s : State) (m : Fin 64),
    (¬(!s.hdg.takeover.contains m.val)) ∧ ((let s := s.onHdg fun h => { h with takeover := h.takeover.filter (· != m.val) }; ¬(twinOf m ≠ s.me)))) ∧
    (∃ (s : State) (m : Fin 64) (serial : Nat) (spaceId : Nat),
    ((let known := (look s.hdg.serials m).all fun x => x == serial; s.isCoord ∧ spaceId = s.hdg.spaceId ∧ m.val < s.hdg.size ∧ !s.hdg.live.contains m.val ∧ known))) ∧
    (∃ (s : State) (page : Nat),
    (s.hdg.twinState = 3 ∧ s.twinLive ∧ s.hdg.resync.contains page)) ∧
    (∃ (s : State) (w : Fin 64) (t : _),
    (look s.hdg.witHold w = some t) ∧ (s.isCoord ∧ s.hdg.quorum ∧ s.hdg.wits.contains w.val ∧ !s.hdg.live.contains w.val ∧ s.now ≥ t + s.fld 0x200008 25 16 * 10 ^ 9)) :=
  ⟨⟨(withNow (2 ^ 40) (askedSt .wr .mirror)), (1), ({ req0 .wr .mirror with mirrorTag := 1 }), by decide, by decide⟩,
   ⟨(withNow (2 ^ 40) (askedSt .wr (.remote 1))), (1), ({ req0 .wr (.remote 1) with mirrorTag := 1 }), (1), by decide, by decide, by decide, by decide⟩,
   ⟨(withNow (2 ^ 40) { State.reset with pwr := { Pwr.reset with boot := some 6 } }), by decide⟩,
   ⟨(withHdg (fun h => { h with linksDown := (List.range 6).map fun p => (9, p) }) spreadSt), (9), by decide⟩,
   ⟨(withHdg (fun h => { h with takeover := [9] }) spreadSt), (9), by decide, by decide⟩,
   ⟨(withHdg (fun h => { h with takeover := [1] }) spreadSt), (1), by decide, by decide⟩,
   ⟨(spreadSt), (4), (9), (spreadSt.hdg.spaceId), by decide⟩,
   ⟨(withHdg (fun h => { h with twinState := 3, resync := [5] }) spreadSt), (5), by decide⟩,
   ⟨(withNow (2 ^ 50) (withHdg (fun h => { h with wits := [5], witHold := [(5, 0)] }) spreadSt)), (5), (0), by decide, by decide⟩⟩

/-- States and operands that meet the hypotheses of MembershipCommandsAct, clause by clause. -/
theorem witness_MembershipCommandsAct :
    (∃ (s : State) (x : Mbx),
    (s.sent x .fm false 0 = true)) ∧
    (∃ (s : State) (x : Mbx) (m : _),
    (s.sent x .fm false 16 = true) ∧ ((look s.taken.hdg.nbrs (mb64 x 8)).bind Nbr.coord = some m) ∧ (¬(s.taken.posState m ≠ 3))) ∧
    (∃ (s : State) (x : Mbx),
    (s.sent x .fm false 7 = true) ∧ ((let s := s.taken; let ws := [mb8 x 4, mb8 x 5, mb8 x 6]; let cols := ws.map fun m => m % 16; ¬(!(ws.all fun m => decide (m < 64) && s.isLive m) ∨ cols.eraseDups.length ≠ 3 ∨ s.hdg.bench)))) ∧
    (∃ (s : State) (x : Mbx),
    (s.sent x .fm false 6 = true) ∧ (¬((mb8 x 4) > 5 ∨ mb8 x 5 > 3))) ∧
    (∃ (s : State) (x : Mbx),
    (s.sent x .fm false 0 = true)) :=
  ⟨⟨(up), (fmx []), by decide⟩,
   ⟨(withHdg (fun h => { h with nbrs := [(7, ⟨0, some 4, []⟩)], serials := [(4, 5)] }) spreadSt), (fmx (zeros 8 ++ toLe 8 7)), (4), by decide, by decide, by decide⟩,
   ⟨(spreadSt), (fmx [0, 0, 0, 0, 1, 2, 3]), by decide, by decide⟩,
   ⟨(up), (fmx [0, 0, 0, 0, 5, 3]), by decide, by decide⟩,
   ⟨(up), (fmx []), by decide⟩⟩

/-- States and operands that meet the hypotheses of QosAct, clause by clause. -/
theorem witness_QosAct :
    (∃ (s : State) (x : Mbx),
    (s.sent x .fm false 72 = true) ∧ ((let s := s.taken; let h := mb16 x 0; let cs := (List.range 8).filterMap fun c => readClass x c; ¬(!qosHolder h ∨ (h ≠ moduleHolder ∧ holderMod h ≠ s.me) ∨ cs.length ≠ 8)))) ∧
    (∃ (s : State) (x : Mbx) (y2 : _) (i : Nat),
    (s.sent x .fm false 8 = true) ∧ ((let s := s.taken; let h := mb16 x 0; let c := mb8 x 2; let r := mb8 x 3; let hpBad := decide (r < 8) && (h == moduleHolder || holderMod h != s.me || holderLd h / 16 != r % 4); ¬(!qosHolder h ∨ c ≥ 7 ∨ r > 14 ∨ hpBad))) ∧ ((mb32 x 4) = 0) ∧ ((s.taken.resvOf (mb16 x 0) (mb8 x 2) (mb8 x 3)) = some (i, y2))) ∧
    (∃ (s : State) (x : Mbx) (i : _),
    (s.sent x .fm false 8 = true) ∧ ((let s := s.taken; let h := mb16 x 0; let c := mb8 x 2; let r := mb8 x 3; let hpBad := decide (r < 8) && (h == moduleHolder || holderMod h != s.me || holderLd h / 16 != r % 4); ¬(!qosHolder h ∨ c ≥ 7 ∨ r > 14 ∨ hpBad))) ∧ (¬((mb32 x 4) = 0)) ∧ ((let s := s.taken; let h := mb16 x 0; let c := mb8 x 2; let r := mb8 x 3; let rate := mb32 x 4; let others := sumOf (s.qos.resv.filter fun e => e.2.res == r && !(e.2.holder == h && e.2.cls == c)) fun e => e.2.rate; ¬(others + rate > s.pubFloor r))) ∧ (s.taken.resvIdx (mb16 x 0) (mb8 x 2) (mb8 x 3) = some i)) ∧
    (∃ (s : State) (x : Mbx),
    (s.sent x .any false 4 = true) ∧ (¬((mb8 x 3) > 14))) ∧
    (∃ (s : State),
    (¬(s.now / 100000 ≤ s.qos.winAt / 100000))) ∧
    (∃ (s : State) (m : RtMaster) (level : Fin 4),
    (level.val < 3 ∨ (s.urgOf (masterIdx m)) = 3)) ∧
    (∃ (s : State) (m : RtMaster) (level : Fin 4) (chan : Option (Fin 96 × Fin 2 × Fin 16)),
    (¬(level.val < 3 ∨ (s.urgOf (masterIdx m)) = 3)) ∧ (chan = none)) ∧
    (∃ (s : State) (m : RtMaster) (level : Fin 4) (chan : Option (Fin 96 × Fin 2 × Fin 16)) (n : _) (rank : _) (bank : _),
    (¬(level.val < 3 ∨ (s.urgOf (masterIdx m)) = 3)) ∧ (chan = some (n, rank, bank)) ∧ ((let i := masterIdx m; let s := s.onQos fun q => { q with urg := if level.val = 0 then del q.urg i else put q.urg i level, urgChan := putOpt q.urgChan i (if level.val < 2 then none else chan.map fun c => c.1.val) }; let s := ((s.intr 0xA00028 4).bump cntQos 2 1).post 0x0905 []; let b := rank.val * 16 + bank.val; ¬((look (s.chan n).openRows b).isNone)))) :=
  ⟨⟨(up), (fmx (zeros 8 ++ (List.range 8).flatMap fun _ => [1, 1, 0, 0, 0, 0, 0, 0])), by decide, by decide⟩,
   ⟨({ up with qos := { Qos.reset with resv := [(3, resv0)] } }), (fmx [0, 0, 0, 8, 0, 0, 0, 0]), (resv0), (3), by decide, by decide, by decide, by decide⟩,
   ⟨(up), (fmx [0, 0, 6, 14, 1, 0, 0, 0]), (0), by decide, by decide, by decide, by decide, by decide⟩,
   ⟨(up), (ldx [0, 0, 0, 14]), by decide, by decide⟩,
   ⟨(withNow 100000 up), by decide⟩,
   ⟨(up), (.hedgerow 0), (2), by decide⟩,
   ⟨(up), (.flash 3), (3), (none), by decide, by decide⟩,
   ⟨(withChan (fun c => { c with openRows := [(0, 5)] }) up), (.hostRead 3), (3), (some (0, 0, 0)), (0), (0), (0), by decide, by decide, by decide⟩⟩

/-- States and operands that meet the hypotheses of DramEventsAct, clause by clause. -/
theorem witness_DramEventsAct :
    (∃ (s : State) (n : Fin 96) (rank : Fin 2),
    (¬(!s.refreshes n rank || decide ((Chan.owed (s.chan n) rank) ≥ 9))) ∧ (s.rtAt n) ∧ ((Chan.owed (s.chan n) rank) ≥ 8)) ∧
    (∃ (s : State) (n : Fin 96) (rank : Fin 2),
    (¬(!s.refreshes n rank || decide ((Chan.owed (s.chan n) rank) ≥ 9))) ∧ (s.rtAt n) ∧ (¬((Chan.owed (s.chan n) rank) ≥ 8))) ∧
    (∃ (s : State) (n : Fin 96) (rank : Fin 2),
    (¬(!s.refreshes n rank || decide ((Chan.owed (s.chan n) rank) ≥ 9))) ∧ (¬(s.rtAt n)) ∧ ((s.chan n).st = 4)) ∧
    (∃ (s : State) (n : Fin 96) (rank : Fin 2),
    (¬(!s.refreshes n rank || decide ((Chan.owed (s.chan n) rank) ≥ 9))) ∧ (¬(s.rtAt n)) ∧ (¬((s.chan n).st = 4)) ∧ (s.rankIdle n rank)) ∧
    (∃ (s : State) (n : Fin 96) (rank : Fin 2),
    (¬(!s.refreshes n rank || decide ((Chan.owed (s.chan n) rank) ≥ 9))) ∧ (¬(s.rtAt n)) ∧ (¬((s.chan n).st = 4)) ∧ (¬(s.rankIdle n rank))) ∧
    (∃ (s : State) (n : Fin 96) (rank : Fin 2),
    (Chan.owed (s.chan n) rank = 9)) ∧
    (∃ (s : State) (n : Fin 96),
    (s.chanUp n)) ∧
    (∃ (s : State) (n : Fin 96),
    (¬(!s.chanUp n)) ∧ (4 * (s.chan n).wq.length ≥ 3 * s.wqCap)) ∧
    (∃ (s : State) (n : Fin 96),
    (¬(!s.chanUp n)) ∧ (¬(4 * (s.chan n).wq.length ≥ 3 * s.wqCap)) ∧ (¬(s.reqs.any fun r => r.op == .rd && waitsFor (.chan n) r))) ∧
    (∃ (s : State) (n : Fin 96),
    (s.now ≥ (s.chan n).lastTrain + s.fld 0xB80008 13 0 * 1000000)) ∧
    (∃ (s : State) (n : Fin 96) (temp : Fin 256),
    (max ((s.chan n).temp) temp.val - min ((s.chan n).temp) temp.val ≥ s.fld 0xB80008 20 16)) ∧
    (∃ (s : State) (n : Fin 96),
    (¬(s.near.retrainQ.head? ≠ some n.val || (s.chan n).st ≠ 0 || s.retraining)) ∧ (¬(s.rtAt n && decide (s.now < (s.chan n).queuedAt + 100000000)))) ∧
    (∃ (s : State) (n : Fin 96) (dly : Option Word) (rd : Fin 256) (wr : Fin 256) (d : Word),
    (¬((s.chan n).st ≠ 4)) ∧ ((if trainWorks dly rd wr then dly else none) = some d)) ∧
    (∃ (s : State) (n : Fin 96) (dly : Option Word) (rd : Fin 256) (wr : Fin 256),
    (¬((s.chan n).st ≠ 4)) ∧ ((if trainWorks dly rd wr then dly else none) = none) ∧ (((s.chan n).attempts + 1) ≥ 3)) ∧
    (∃ (v : Word),
    (v.toNat.testBit 7 && decide (v.toNat % 128 < 96))) ∧
    (∃ (s : State) (n : Fin 96),
    (s.chanUp n && !(s.chan n).slow)) ∧
    (∃ (s : State) (n : Fin 96),
    ((s.chan n).slow)) :=
  ⟨⟨({ withChan (fun c => { c with owed0 := 8 }) up with qos := { Qos.reset with urg := [(0, 2)], urgChan := [(0, 0)] } }), (0), (0), by decide, by decide, by decide⟩,
   ⟨({ withChan (fun c => { c with owed0 := 7 }) up with qos := { Qos.reset with urg := [(0, 2)], urgChan := [(0, 0)] } }), (0), (0), by decide, by decide, by decide⟩,
   ⟨(withChan (fun c => { c with st := 4 }) up), (0), (0), by decide, by decide, by decide⟩,
   ⟨(up), (95), (0), by decide, by decide, by decide, by decide⟩,
   ⟨(withChan (fun c => { c with openRows := [(0, 5)], owed0 := 1 }) up), (0), (0), by decide, by decide, by decide, by decide⟩,
   ⟨(withChan (fun c => { c with owed0 := 9 }) up), (0), (0), by decide⟩,
   ⟨(up), (95), by decide⟩,
   ⟨(withChan (fun c => { c with wq := (List.range 64).map fun i => (i, zeros 72) }) up), (0), by decide, by decide⟩,
   ⟨(up), (0), by decide, by decide, by decide⟩,
   ⟨(withNow (2 ^ 50) up), (0), by decide⟩,
   ⟨(up), (0), (255), by decide⟩,
   ⟨({ up with near := { Near.reset with retrainQ := [5] } }), (5), by decide, by decide⟩,
   ⟨(withChan (fun c => { c with st := 4 }) up), (0), (some 7), (13), (13), (7), by decide, by decide⟩,
   ⟨(withChan (fun c => { c with st := 4, attempts := 2 }) up), (0), (some 7), (12), (13), by decide, by decide, by decide⟩,
   ⟨(223), by decide⟩,
   ⟨(up), (95), by decide⟩,
   ⟨(withChan (fun c => { c with slow := true }) up), (0), by decide⟩⟩

/-- States and operands that meet the hypotheses of IntegrityCommandsAct, clause by clause. -/
theorem witness_IntegrityCommandsAct :
    (∃ (s : State) (x : Mbx),
    (s.sent x .fm false 40 = true) ∧ (¬(mb8 x 4 > 2)) ∧ (¬(s.taken.integ.broom.isSome)) ∧ (s.taken.bgBusy (mbWho x) = false)) ∧
    (∃ (s : State) (x : Mbx),
    (s.sent x .fm false 0 = true) ∧ (s.taken.integ.broomLast = none)) ∧
    (∃ (s : State) (x : Mbx) (b : Broom),
    (s.sent x .fm false 0 = true) ∧ (s.taken.integ.broomLast = some b)) ∧
    (∃ (s : State) (x : Mbx),
    (s.sent x .fm false 16 = true) ∧ (¬(!s.taken.chaffOk (readChaff x.data 1))) ∧ (¬(s.taken.chaffCovered (readChaff x.data 1))) ∧ (¬((readChaff x.data 1).kind = 4 ∧ s.taken.unusable + (if s.taken.chanUp (readChaff x.data 1).chan then 1 else 0) > 4)) ∧ (¬(s.taken.integ.chaff.length ≥ chaffCap)) ∧ ((readChaff x.data 1).kind = 4)) ∧
    (∃ (s : State) (x : Mbx),
    (s.sent x .fm false 16 = true) ∧ (¬(!s.taken.chaffOk (readChaff x.data 1))) ∧ (¬(s.taken.chaffCovered (readChaff x.data 1))) ∧ (¬((readChaff x.data 1).kind = 4 ∧ s.taken.unusable + (if s.taken.chanUp (readChaff x.data 1).chan then 1 else 0) > 4)) ∧ (¬(s.taken.integ.chaff.length ≥ chaffCap)) ∧ (¬((readChaff x.data 1).kind = 4))) ∧
    (∃ (s : State) (x : Mbx),
    (s.sent x .fm false 8 = true)) ∧
    (∃ (s : State) (x : Mbx) (m : _),
    (s.sent x .any false 32 = true) ∧ (¬((mb64 x 24) = 0 ∨ (mb64 x 24) % 64 ≠ 0 ∨ (mb64 x 8) % 64 ≠ 0 ∨ (mb64 x 16) % 64 ≠ 0 ∨ (mb64 x 8) + (mb64 x 24) > 2 ^ 50 ∨ (mb64 x 16) + (mb64 x 24) > 2 ^ 50)) ∧ ((let s := s.taken; let src := mb64 x 8; let dst := mb64 x 16; let n := mb64 x 24; let pages (a : Nat) : Nat := (a + n - 1) / 4096 - a / 4096 + 1; ¬(!s.mayName x (src / 4096) (pages src) 0 || !s.mayName x (dst / 4096) (pages dst) 1))) ∧ (s.taken.bgBusy (mbWho x) = false) ∧ ((s.taken.extNeed ([]) (extsOf (mb64 x 8) (mb64 x 24) ++ extsOf (mb64 x 16) (mb64 x 24))).isEmpty = true) ∧ (¬(!s.taken.spaceKnown (mb64 x 8) (mb64 x 24) (fun _ => false) || !s.taken.spaceKnown (mb64 x 16) (mb64 x 24) (fun k => k == .published))) ∧ (s.taken.freeMover = some m)) ∧
    (∃ (s : State) (x : Mbx),
    (s.sent x .any false 6 = true) ∧ (¬ (mb8 x 4 ≥ 16 ∨ mb8 x 5 ≠ 1)) ∧ (¬ ((s.taken.mover (mb8 x 4)).st ≠ 3)) ∧ (¬ ((s.taken.mover (mb8 x 4)).who ≠ mbWho x))) ∧
    (∃ (s : State) (x : Mbx),
    (s.sent x .any false 6 = true) ∧ (¬ (mb8 x 4 ≥ 16 ∨ mb8 x 5 ≠ 2)) ∧ (¬ ((s.taken.mover (mb8 x 4)).st ≠ 3)) ∧ (¬ ((s.taken.mover (mb8 x 4)).who ≠ mbWho x))) :=
  ⟨⟨(up), (fmx (zeros 40)), by decide, by decide, by decide, by decide⟩,
   ⟨(up), (fmx []), by decide, by decide⟩,
   ⟨({ up with integ := { Integ.reset with broomLast := some broom0 } }), (fmx []), (broom0), by decide, by decide⟩,
   ⟨(up), (fmx ([4, 95] ++ zeros 14)), by decide, by decide, by decide, by decide, by decide, by decide⟩,
   ⟨(up), (fmx ([3, 95, 0, 15] ++ zeros 12)), by decide, by decide, by decide, by decide, by decide, by decide⟩,
   ⟨(up), (fmx (zeros 8)), by decide⟩,
   ⟨(leased), (fmx (zeros 16 ++ toLe 8 4096 ++ toLe 8 64)), (0), by decide, by decide, by decide, by decide, by decide, by decide, by decide⟩,
   ⟨(stuck 64), (fmx [0, 0, 0, 0, 0, 1]), by decide, by decide, by decide, by decide⟩,
   ⟨(stuck 0), (ldx [0, 0, 0, 0, 0, 2]), by decide, by decide, by decide, by decide⟩⟩

/-- States and operands that meet the hypotheses of IntegrityEventsAct, clause by clause. -/
theorem witness_IntegrityEventsAct :
    (∃ (s : State) (page : Nat) (b : Broom),
    (s.integ.broom = some b) ∧ (¬(!s.broomWants b page))) ∧
    (∃ (s : State) (chunk : Nat),
    (¬(chunk ≥ s.chanChunks))) ∧
    (∃ (s : State) (chunk : Nat),
    (¬(chunk ≥ s.chanChunks))) ∧
    (∃ (v : Word),
    (v.toNat.testBit 0)) ∧
    (∃ (off : Nat) (v : Word),
    (captureReg off && v.toNat.testBit 63)) ∧
    (∃ (s : State) (n : Fin 32) (ratio : Fin 4096),
    (¬((s.lane n).reduced ∨ ratio.val * 100 ≥ 85 * 4096))) ∧
    (∃ (s : State) (n : Fin 32) (ratio : Fin 65536),
    (¬(!(s.lane n).reduced ∨ ratio.val * 100 ≤ 90 * 4096))) ∧
    (∃ (s : State) (e : Nat) (m : Fin 64) (x : Extent),
    (look s.spc.extents e = some x) ∧ (x.spread.contains m.val && !s.integ.spreadSlow.contains (e, m.val))) :=
  ⟨⟨({ withPage (pme0 .near) leased with integ := { Integ.reset with broom := some broom0 } }), (0), (broom0), by decide, by decide⟩,
   ⟨(up), (0), by decide⟩,
   ⟨(up), (0), by decide⟩,
   ⟨(1), by decide⟩,
   ⟨(0xC00040), (0x8000000000000000), by decide⟩,
   ⟨(up), (31), (3481), by decide⟩,
   ⟨({ up with husk := { HuskB.reset with lanes := [(31, ⟨true, 3000, []⟩)] } }), (31), (3687), by decide⟩,
   ⟨(spreadSt), (0), (9), (spreadXt), by decide, by decide⟩⟩

/-- States and operands that meet the hypotheses of SecurityActs, clause by clause. -/
theorem witness_SecurityActs :
    (∃ (s : State) (x : Mbx),
    (s.sent x .fm true 6 = true) ∧ (¬((mb16 x 4) ≥ 512))) ∧
    (∃ (s : State) (x : Mbx),
    (s.sent x .fm true 5 = true) ∧ (s.taken.bgBusy (mbWho x) = false)) ∧
    (∃ (s : State) (x : Mbx),
    (s.sent x .fm true 0 = true)) ∧
    (∃ (s : State) (slot : Fin 512),
    (s.keySt slot = 2 ∧ s.keyPages slot = 0)) :=
  ⟨⟨(up), (fmx [0, 0, 0, 0, 255, 1]), by decide, by decide⟩,
   ⟨(up), (fmx (zeros 5)), by decide, by decide⟩,
   ⟨(up), (fmx []), by decide⟩,
   ⟨({ up with sec := { up.sec with keys := [(511, ⟨2, 0⟩)] } }), (511), by decide⟩⟩

/-- States and operands that meet the hypotheses of SpdmRequestsAct, clause by clause. -/
theorem witness_SpdmRequestsAct :
    (∃ (s : State) (who : Issuer),
    (s.asks who = true)) ∧
    (∃ (s : State) (who : Issuer),
    (s.asks who = true)) ∧
    (∃ (s : State) (who : Issuer),
    (s.asks who = true)) ∧
    (∃ (s : State) (who : Issuer),
    (s.asks who = true)) ∧
    (∃ (s : State) (who : Issuer) (data : Bytes),
    (s.asks who = true) ∧ (byteAt data 0 ≤ 1)) ∧
    (∃ (s : State) (who : Issuer) (data : Bytes),
    (s.asks who = true) ∧ (byteAt data 0 ≤ 1)) ∧
    (∃ (s : State) (who : Issuer) (data : Bytes),
    (s.asks who = true) ∧ ((byteAt data 1) = 0)) ∧
    (∃ (s : State) (who : Issuer) (data : Bytes),
    (s.asks who = true) ∧ (¬((byteAt data 1) = 0)) ∧ ((byteAt data 1) ≤ 5)) ∧
    (∃ (s : State) (who : Issuer) (data : Bytes),
    (s.asks who = true) ∧ (¬((byteAt data 1) = 0)) ∧ (¬((byteAt data 1) ≤ 5)) ∧ ((byteAt data 1) = 255)) ∧
    (∃ (s : State) (who : Issuer) (i : Nat),
    (s.asks who = true) ∧ ((List.range 2).find? fun i => s.unidle.sessPhase who i = 0 = some i)) ∧
    (∃ (s : State) (who : Issuer),
    (s.asks who = true) ∧ ((List.range 2).find? fun i => s.unidle.sessPhase who i = 0 = none)) ∧
    (∃ (s : State) (who : Issuer) (sess : Fin 2) (verified : Bool),
    (s.asks who = true) ∧ (¬(s.unidle.sessPhase who sess ≠ 1)) ∧ (verified)) ∧
    (∃ (s : State) (who : Issuer) (sess : Fin 2) (verified : Bool),
    (s.asks who = true) ∧ (¬(s.unidle.sessPhase who sess ≠ 1)) ∧ (¬(verified))) :=
  ⟨⟨(up), (.ld 0), by decide⟩,
   ⟨(up), (.fm), by decide⟩,
   ⟨(up), (.fm), by decide⟩,
   ⟨(up), (.fm), by decide⟩,
   ⟨(up), (.fm), ([1]), by decide, by decide⟩,
   ⟨(up), (.fm), ([1]), by decide, by decide⟩,
   ⟨(up), (.fm), ([0, 0]), by decide, by decide⟩,
   ⟨(up), (.fm), ([0, 5]), by decide, by decide, by decide⟩,
   ⟨(up), (.fm), ([0, 255]), by decide, by decide, by decide, by decide⟩,
   ⟨(up), (.fm), (1), by decide, by decide⟩,
   ⟨(withSessions [(0, 2), (1, 1)] up), (.ld 0), by decide, by decide⟩,
   ⟨(withSessions [(129, 1)] up), (.fm), (1), (true), by decide, by decide, by decide⟩,
   ⟨(withSessions [(129, 1)] up), (.fm), (1), (false), by decide, by decide, by decide⟩⟩

/-- States and operands that meet the hypotheses of SpdmSessionsAct, clause by clause. -/
theorem witness_SpdmSessionsAct :
    (∃ (s : State) (who : Issuer) (sess : Fin 2),
    (s.asks who = true) ∧ (s.sessPhase who sess = 2)) ∧
    (∃ (s : State) (who : Issuer) (sess : Fin 2),
    (s.asks who = true) ∧ (s.sessPhase who sess = 2)) ∧
    (∃ (s : State) (who : Issuer) (sess : Fin 2),
    (s.asks who = true) ∧ (s.sessPhase who sess = 2)) ∧
    (∃ (s : State) (who : Issuer) (sess : Fin 2),
    (¬(s.sessPhase who sess = 0))) ∧
    (∃ (s : State) (who : Issuer) (sess : Fin 2) (std vendor : Nat) (payload : Bytes),
    (s.asks who = true) ∧ (s.sessPhase who sess = 2) ∧ (¬(std ≠ 3 ∨ vendor ≠ Config.pciVendor ∨ payload.length < 6))) ∧
    (∃ (s : State) (p : Fin 4) (ld : Fin 64) (sess : Fin 2) (go : Bool),
    (s.asks (.ld ld) = true) ∧ (s.sessPhase (.ld ld) sess = 2) ∧ (¬(ld.val / 16 ≠ p.val)) ∧ (go) ∧ (¬((look s.unidle.sec.ideKeys p).isNone))) ∧
    (∃ (s : State) (p : Fin 4) (ld : Fin 64) (sess : Fin 2) (go : Bool),
    (s.asks (.ld ld) = true) ∧ (s.sessPhase (.ld ld) sess = 2) ∧ (¬(ld.val / 16 ≠ p.val)) ∧ (¬(go))) :=
  ⟨⟨(up), (.fm), (0), by decide, by decide⟩,
   ⟨(up), (.ld 0), (0), by decide, by decide⟩,
   ⟨(up), (.ld 0), (0), by decide, by decide⟩,
   ⟨(up), (.ld 0), (0), by decide⟩,
   ⟨(up), (.fm), (0), (3), (Config.pciVendor), (zeros 6), by decide, by decide, (fun h => h.elim (fun a => a rfl) (fun h => h.elim (fun a => a rfl) (by decide)))⟩,
   ⟨({ up with sec := { up.sec with ideKeys := [(0, [])] } }), (0), (0), (0), (true), by decide, by decide, by decide, by decide, by decide⟩,
   ⟨(up), (0), (0), (0), (false), by decide, by decide, by decide, by decide⟩⟩

/-- States and operands that meet the hypotheses of EventSteeringActs, clause by clause. -/
theorem witness_EventSteeringActs :
    (∃ (s : State) (n : Fin 1024) (ld : Fin 64),
    (s.esu.latch.contains (n.val, ld.val)) ∧ ((let s := s.onEsu fun e => { e with latch := removeFirst (· == (n.val, ld.val)) e.latch }; (s.srcBits n ld).pend))) ∧
    (∃ (s : State) (n : Fin 1024) (ld : Fin 64),
    (s.esu.latch.contains (n.val, ld.val)) ∧ ((let s := s.onEsu fun e => { e with latch := removeFirst (· == (n.val, ld.val)) e.latch }; ¬((s.srcBits n ld).pend)))) ∧
    (∃ (s : State) (n : Fin 1024),
    (¬(directed n || s.level n == (s.srcBits n 0).input))) ∧
    (∃ (s : State) (g : Fin 64) (y2 : _) (t : Nat),
    (look s.esu.grps g = some (y2, t)) ∧ (g.val ≠ 0 && decide (t + 1000 * s.fld (0xE01000 + 8 * g) 37 24 ≤ s.now))) ∧
    (∃ (s : State) (view : View) (t : Fin 68),
    (¬(!s.viewOpen view)) ∧ (¬(!seesTarget view t)) ∧ ((s.stackOf t).length ≥ 16)) ∧
    (∃ (s : State) (view : View) (t : Fin 68),
    (¬(!s.viewOpen view)) ∧ (¬(!seesTarget view t)) ∧ (¬((s.stackOf t).length ≥ 16)) ∧ (s.bestFor t = none)) ∧
    (∃ (s : State) (view : View) (t : Fin 68) (n : Nat),
    (¬(!s.viewOpen view)) ∧ (¬(!seesTarget view t)) ∧ (¬((s.stackOf t).length ≥ 16)) ∧ (s.bestFor t = some n)) ∧
    (∃ (s : State) (view : View) (t : Fin 68) (v : Word) (th : _) (top : _) (rest : _),
    (¬(!s.viewOpen view || !seesTarget view t)) ∧ (s.stackOf t = (th, top) :: rest) ∧ (¬(top ≠ (v.toNat % 1024)))) ∧
    (∃ (s : State) (view : View) (t : Fin 68),
    (s.viewOpen view && seesTarget view t)) ∧
    (∃ (s : State),
    (s.viewOpen .fm = true)) ∧
    (∃ (s : State),
    (s.viewOpen .core = true)) ∧
    (∃ (en : Bool) (fmask : Bool),
    (en && !fmask)) ∧
    (∃ (en : Bool) (fmask : Bool),
    (¬(en && !fmask))) ∧
    (∃ (s : State) (ld : Fin 64),
    (s.host.ldReset.contains ld.val && !s.reqs.any (ofLd ld))) :=
  ⟨⟨(withEsu (fun e => { e with latch := [(1, 0)], srcs := [(64, ⟨true, false, false, false, false⟩)] }) up), (1), (0), by decide, by decide⟩,
   ⟨(withEsu (fun e => { e with latch := [(193, 63)] }) up), (193), (63), by decide, by decide⟩,
   ⟨(withEsu (fun e => { e with srcs := [(64, ⟨false, false, false, true, false⟩)] }) up), (1), by decide⟩,
   ⟨(withNow (2 ^ 40) (withEsu (fun e => { e with grps := [(63, (1, 0))] }) up)), (63), (1), (0), by decide, by decide⟩,
   ⟨(withEsu (fun e => { e with stack := [(67, List.replicate 16 (0, 1))] }) up), (.fm), (67), by decide, by decide, by decide⟩,
   ⟨(up), (.core), (67), by decide, by decide, by decide, by decide⟩,
   ⟨((withEsu (fun e => { e with srcs := [(64, ⟨true, false, true, false, false⟩)] }) up).setReg 0xE02008 (2 ^ 58 + 2 ^ 48 + 4)), (.ld 0), (4), (1), by decide, by decide, by decide, by decide⟩,
   ⟨(withEsu (fun e => { e with stack := [(4, [(3, 1)])] }) up), (.ld 0), (4), (1), (3), (1), ([]), by decide, by decide, by decide⟩,
   ⟨(up), (.ld 0), (4), by decide⟩,
   ⟨(up), by decide⟩,
   ⟨(up), by decide⟩,
   ⟨(true), (false), by decide⟩,
   ⟨(true), (true), by decide⟩,
   ⟨({ up with host := { up.host with ldReset := [63] } }), (63), by decide⟩⟩

/-- States and operands that meet the hypotheses of StookActs, clause by clause. -/
theorem witness_StookActs :
    (∃ (ok : Bool),
    (ok)) ∧
    (∃ (s : State) (ok : Bool),
    (¬(ok)) ∧ (¬(s.stk.archErr))) ∧
    (∃ (s : State) (code : Nat),
    (¬((s.bucketNow code).suppr = 0 ∨ (s.bucketNow code).level < s.burstOf code ∨ (s.bucketNow code).level < tokenUnit))) ∧
    (∃ (s : State) (x : Mbx),
    (s.sent x .fm false 16 = true) ∧ (¬((mb16 x 4) = 0 ∨ (mb16 x 4) > 256))) ∧
    (∃ (s : State) (x : Mbx),
    (s.sent x .fm false 5 = true) ∧ (mb8 x 4 = 1)) ∧
    (∃ (s : State) (x : Mbx),
    (s.sent x .fm false 5 = true) ∧ (¬(mb8 x 4 = 1)) ∧ (mb8 x 4 = 0)) ∧
    (∃ (s : State) (x : Mbx),
    (s.sent x .fm false 0 = true)) ∧
    (∃ (v : Word),
    (v.getLsbD 0)) ∧
    (∃ (v : Word),
    (v.getLsbD 1)) ∧
    (∃ (v : Word),
    (v.getLsbD 2)) ∧
    (∃ (s : State) (t : _),
    (s.stk.frozenAt = some t) ∧ (s.now ≥ t + freezeNs)) ∧
    (∃ (first : Nat) (last : Nat),
    (¬(first > last ∨ last ≥ sramCap))) :=
  ⟨⟨(true), by decide⟩,
   ⟨(up), (false), by decide, by decide⟩,
   ⟨(withStk (fun k => { k with buckets := [(0x0601, ⟨2 ^ 62, 0, 1, [], []⟩)] }) up), (0x0601), by decide⟩,
   ⟨(up), (fmx ([0, 0, 0, 0, 0, 1] ++ zeros 10)), by decide, by decide⟩,
   ⟨(up), (fmx [0, 0, 0, 0, 1]), by decide, by decide⟩,
   ⟨(up), (fmx [0, 0, 0, 0, 0]), by decide, by decide, by decide⟩,
   ⟨(up), (fmx []), by decide⟩,
   ⟨(1), by decide⟩,
   ⟨(2), by decide⟩,
   ⟨(4), by decide⟩,
   ⟨(withNow (2 ^ 50) (withStk (fun k => { k with frozenAt := some 0 }) up)), (0), by decide, by decide⟩,
   ⟨(0), (16383), by decide⟩⟩

/-- States and operands that meet the hypotheses of StandardCommandsAct, clause by clause. -/
theorem witness_StandardCommandsAct :
    (∃ (s : State) (x : Mbx),
    (s.sent x .any false 0 = true)) ∧
    (∃ (s : State) (x : Mbx),
    (s.sent x .any false 0 = true) ∧ (look s.taken.host.bg (mbWho x) = none)) ∧
    (∃ (s : State) (x : Mbx) (b : _),
    (s.sent x .any false 0 = true) ∧ (look s.taken.host.bg (mbWho x) = some b)) ∧
    (∃ (s : State) (x : Mbx),
    (s.sent x .any false 1 = true) ∧ (¬(mb8 x 0 > 3))) ∧
    (∃ (s : State) (x : Mbx),
    (s.sent x .any false 6 = true) ∧ (¬(mb8 x 0 > 3 ∨ (mb8 x 1 % 2 = 0 ∧ x.data.length < 6 + 2 * (mb8 x 2)))) ∧ (mb8 x 1 % 2 = 1)) ∧
    (∃ (s : State) (x : Mbx),
    (s.sent x .any false 6 = true) ∧ (¬(mb8 x 0 > 3 ∨ (mb8 x 1 % 2 = 0 ∧ x.data.length < 6 + 2 * (mb8 x 2)))) ∧ (¬(mb8 x 1 % 2 = 1)) ∧ ((let s := s.taken; let k := logKey x; let l := (look s.stk.logs k).getD []; let n := mb8 x 2; let hs := (List.range n).map fun i => mb16 x (6 + 2 * i); ¬(hs.any fun h => !(l.any fun e => e.1 == h))))) ∧
    (∃ (s : State) (x : Mbx),
    (s.sent x .any false 0 = true)) ∧
    (∃ (s : State) (x : Mbx),
    (s.sent x .any false 0 = true)) ∧
    (∃ (s : State) (x : Mbx),
    (s.sent x .fm false 8 = true)) ∧
    (∃ (s : State) (x : Mbx),
    (s.sent x .any false 0 = true)) ∧
    (∃ (s : State) (x : Mbx),
    (s.sent x .any false 24 = true) ∧ (¬(x.data.take 16 ≠ celUuid ∨ mb32 x 16 + mb32 x 20 > s.taken.celBytes.length))) ∧
    (∃ (s : State) (x : Mbx),
    (s.sent x .any false 0 = true)) ∧
    (∃ (s : State) (x : Mbx),
    (s.sent x .any false 0 = true)) ∧
    (∃ (s : State) (x : Mbx),
    (s.sent x .any false 16 = true)) ∧
    (∃ (s : State) (x : Mbx) (sa : Nat),
    (s.sent x .any false 8 = true) ∧ (s.taken.poisonTarget (mbWho x) (mb64 x 0) = some sa)) ∧
    (∃ (s : State) (x : Mbx) (sa : Nat),
    (s.sent x .any false 72 = true) ∧ (s.taken.poisonTarget (mbWho x) (mb64 x 0) = some sa)) ∧
    (∃ (s : State) (x : Mbx) (opcode : Fin 65536),
    (¬((stdOpcodes ++ vendorOpcodes).contains opcode.val)) ∧ (s.reaches x)) :=
  ⟨⟨(up), (ldx []), by decide⟩,
   ⟨(up), (ldx []), by decide, by decide⟩,
   ⟨(withHost (fun h => { h with bg := [(0, ⟨0xC304, false, 0, []⟩)] }) up), (ldx []), (⟨0xC304, false, 0, []⟩), by decide, by decide⟩,
   ⟨(up), (ldx [3]), by decide, by decide⟩,
   ⟨(up), (ldx [3, 1, 0, 0, 0, 0]), by decide, by decide, by decide⟩,
   ⟨(up), (ldx [3, 0, 0, 0, 0, 0]), by decide, by decide, by decide, by decide⟩,
   ⟨(up), (ldx []), by decide⟩,
   ⟨(up), (ldx []), by decide⟩,
   ⟨(up), (fmx (zeros 8)), by decide⟩,
   ⟨(up), (ldx []), by decide⟩,
   ⟨(up), (ldx (celUuid ++ zeros 4 ++ toLe 4 8)), by decide, by decide⟩,
   ⟨(up), (ldx []), by decide⟩,
   ⟨(up), (ldx []), by decide⟩,
   ⟨(up), (ldx (zeros 16)), by decide⟩,
   ⟨(leased), (ldx (zeros 8)), (0), by decide, by decide⟩,
   ⟨(leased), (ldx (zeros 72)), (0), by decide, by decide⟩,
   ⟨(up), (ldx []), (0xFFFF), by decide, by decide⟩⟩

/-- States and operands that meet the hypotheses of FirmwareCommandsAct, clause by clause. -/
theorem witness_FirmwareCommandsAct :
    (∃ (s : State) (x : Mbx),
    (s.sent x .fm false 128 = true) ∧ ((mb8 x 0) = 4)) ∧
    (∃ (s : State) (x : Mbx),
    (s.sent x .fm false 128 = true) ∧ (¬((mb8 x 0) = 4)) ∧ (¬((mb8 x 0) > 4)) ∧ (¬(((mb8 x 0) = 0 ∨ (mb8 x 0) = 3) ∧ ((mb8 x 1) = 0 ∨ (mb8 x 1) > 2 ∨ (mb8 x 1) = s.taken.pwr.fwBank + 1))) ∧ ((mb8 x 0) = 0 ∨ (mb8 x 0) = 1) ∧ (¬(s.taken.host.fwStage.length ≠ 0)) ∧ (¬((128 * mb32 x 4) ≠ 0 ∨ (x.data.drop 128).length > bankSize 0)) ∧ ((mb8 x 0) = 0)) ∧
    (∃ (s : State) (x : Mbx),
    (s.sent x .fm false 128 = true) ∧ (¬((mb8 x 0) = 4)) ∧ (¬((mb8 x 0) > 4)) ∧ (¬(((mb8 x 0) = 0 ∨ (mb8 x 0) = 3) ∧ ((mb8 x 1) = 0 ∨ (mb8 x 1) > 2 ∨ (mb8 x 1) = s.taken.pwr.fwBank + 1))) ∧ ((mb8 x 0) = 0 ∨ (mb8 x 0) = 1) ∧ (¬(s.taken.host.fwStage.length ≠ 0)) ∧ (¬((128 * mb32 x 4) ≠ 0 ∨ (x.data.drop 128).length > bankSize 0)) ∧ (¬((mb8 x 0) = 0))) ∧
    (∃ (s : State) (x : Mbx),
    (s.sent x .fm false 128 = true) ∧ (¬((mb8 x 0) = 4)) ∧ (¬((mb8 x 0) > 4)) ∧ (¬(((mb8 x 0) = 0 ∨ (mb8 x 0) = 3) ∧ ((mb8 x 1) = 0 ∨ (mb8 x 1) > 2 ∨ (mb8 x 1) = s.taken.pwr.fwBank + 1))) ∧ (¬((mb8 x 0) = 0 ∨ (mb8 x 0) = 1)) ∧ (¬(s.taken.host.fwStage.length = 0 ∨ (128 * mb32 x 4) ≠ s.taken.host.fwStage.length)) ∧ (¬(s.taken.host.fwStage.length + (x.data.drop 128).length > bankSize 0)) ∧ ((mb8 x 0) = 3)) ∧
    (∃ (s : State) (x : Mbx),
    (s.sent x .fm false 128 = true) ∧ (¬((mb8 x 0) = 4)) ∧ (¬((mb8 x 0) > 4)) ∧ (¬(((mb8 x 0) = 0 ∨ (mb8 x 0) = 3) ∧ ((mb8 x 1) = 0 ∨ (mb8 x 1) > 2 ∨ (mb8 x 1) = s.taken.pwr.fwBank + 1))) ∧ (¬((mb8 x 0) = 0 ∨ (mb8 x 0) = 1)) ∧ (¬(s.taken.host.fwStage.length = 0 ∨ (128 * mb32 x 4) ≠ s.taken.host.fwStage.length)) ∧ (¬(s.taken.host.fwStage.length + (x.data.drop 128).length > bankSize 0)) ∧ (¬((mb8 x 0) = 3))) ∧
    (∃ (s : State) (x : Mbx),
    (s.sent x .fm false 2 = true) ∧ (¬(mb8 x 0 > 1)) ∧ (¬((mb8 x 1) = 0 ∨ (mb8 x 1) > 2))) ∧
    (∃ (s : State) (x : Mbx),
    (s.sent x .fm false 16 = true) ∧ (¬((mb8 x 4) > 1)) ∧ (¬((mb32 x 8) = 2 ^ 32 - 1)) ∧ (¬((mb32 x 8) + (mb32 x 12) > bankSize (mb8 x 4) ∨ x.data.length < 64 + (mb32 x 12)))) ∧
    (∃ (s : State) (x : Mbx),
    (s.sent x .fm false 16 = true) ∧ (¬((mb8 x 4) > 1)) ∧ ((mb32 x 8) = 2 ^ 32 - 1)) ∧
    (∃ (s : State) (x : Mbx),
    (s.sent x .fm false 0 = true)) :=
  ⟨⟨(up), (fmx ([4] ++ zeros 127)), by decide, by decide⟩,
   ⟨(up), (fmx ([0, 2] ++ zeros 126)), by decide, by decide, by decide, by decide, by decide, by decide, by decide, by decide⟩,
   ⟨(up), (fmx ([1, 0] ++ zeros 126)), by decide, by decide, by decide, by decide, by decide, by decide, by decide, by decide⟩,
   ⟨(withHost (fun h => { h with fwStage := zeros 128 }) up), (fmx ([3, 2, 0, 0, 1] ++ zeros 123)), by decide, by decide, by decide, by decide, by decide, by decide, by decide, by decide⟩,
   ⟨(withHost (fun h => { h with fwStage := zeros 128 }) up), (fmx ([2, 0, 0, 0, 1] ++ zeros 123)), by decide, by decide, by decide, by decide, by decide, by decide, by decide, by decide⟩,
   ⟨(up), (fmx [0, 2]), by decide, by decide, by decide⟩,
   ⟨(up), (fmx ([0, 0, 0, 0, 1] ++ zeros 59)), by decide, by decide, by decide, by decide⟩,
   ⟨(up), (fmx ([0, 0, 0, 0, 1, 0, 0, 0, 255, 255, 255, 255, 0, 0, 0, 0])), by decide, by decide, by decide⟩,
   ⟨(up), (fmx []), by decide⟩⟩

/-- States and operands that meet the hypotheses of HostPortsAct, clause by clause. -/
theorem witness_HostPortsAct :
    (∃ (s : State) (ld : Fin 64) (i : Fin 8) (base : Nat) (size : Nat) (k : _),
    (¬(!s.hostOpen ld)) ∧ (spanOf base size = some k) ∧ (s.spanSum (ld.val * 8 + i.val) + 2 ^ k ≤ 2 ^ 47)) ∧
    (∃ (s : State) (ld : Fin 64) (i : Fin 8) (base : Nat) (size : Nat) (k : _),
    (¬(!s.hostOpen ld)) ∧ (spanOf base size = some k) ∧ (¬(s.spanSum (ld.val * 8 + i.val) + 2 ^ k ≤ 2 ^ 47))) ∧
    (∃ (s : State) (ld : Fin 64) (base : Nat) (size : Nat),
    (¬(!s.hostOpen ld)) ∧ (spanOf base size = none)) ∧
    (∃ (s : State) (p : Fin 4),
    (s.portUp p)) ∧
    (∃ (s : State) (p : Fin 4),
    ((s.setPort p { s.portH p with perst := true }).pwr.on)) ∧
    (∃ (s : State) (p : Fin 4),
    ((s.setPort p { s.portH p with cable := false }).portUp p)) ∧
    (∃ (s : State) (p : Fin 4),
    (¬((s.setPort p { s.portH p with cable := false }).portUp p))) ∧
    (∃ (s : State) (p : Fin 4) (width : Nat),
    (¬((s.portH p).st ≠ 1 ∨ ¬ (width = 4 ∨ width = 8 ∨ width = 16)))) ∧
    (∃ (s : State) (p : Fin 4) (width : Nat),
    (¬((s.portH p).st ≠ 2 ∨ (s.portH p).width = width ∨ width > (s.portH p).trained ∨ ¬ (width = 1 ∨ width = 2 ∨ width = 4 ∨ width = 8 ∨ width = 16)))) ∧
    (∃ (s : State) (eid : Byte),
    (¬(!s.sideband)) ∧ (8 ≤ eid.toNat ∧ eid.toNat ≤ 254)) ∧
    (∃ (s : State) (eid : Byte),
    (¬(!s.sideband)) ∧ (¬(8 ≤ eid.toNat ∧ eid.toNat ≤ 254))) ∧
    (∃ (s : State) (binding : Fin 3),
    (¬(!s.sideband || (binding.val == 2 && !((s.reg 0x100008).testBit 8 && s.portUp 0)))) ∧ (s.host.mctp < 8)) ∧
    (∃ (s : State) (binding : Fin 3),
    (¬(!s.sideband || (binding.val == 2 && !((s.reg 0x100008).testBit 8 && s.portUp 0)))) ∧ (¬(s.host.mctp < 8))) ∧
    (∃ (s : State),
    (¬(!s.sideband)) ∧ (s.fmSession)) ∧
    (∃ (s : State),
    (¬(!s.sideband)) ∧ (s.fmSession)) ∧
    (∃ (s : State),
    (¬(!s.sideband)) ∧ (s.fmSession)) :=
  ⟨⟨(up), (0), (7), (0), (8 * 2 ^ 46), (46), by decide, by decide, by decide⟩,
   ⟨({ up with spc := { Spc.reset with windows := [(0, ⟨0, 46⟩), (1, ⟨0, 46⟩)] } }), (0), (7), (0), (8 * 2 ^ 30), (30), by decide, by decide, by decide⟩,
   ⟨(up), (0), (0), (1), by decide, by decide⟩,
   ⟨(up), (0), by decide⟩,
   ⟨(up), (3), by decide⟩,
   ⟨(up), (0), by decide⟩,
   ⟨(up), (3), by decide⟩,
   ⟨(withHost (fun h => { h with ports := [(0, ⟨1, 0, 0, true, false⟩)] }) up), (0), (4), by decide⟩,
   ⟨(up), (0), (1), by decide⟩,
   ⟨(up), (254), by decide, by decide⟩,
   ⟨(up), (255), by decide, by decide⟩,
   ⟨(up), (0), by decide, by decide⟩,
   ⟨(withHost (fun h => { h with mctp := 8 }) up), (1), by decide, by decide⟩,
   ⟨(up), by decide, by decide⟩,
   ⟨(up), by decide, by decide⟩,
   ⟨(up), by decide, by decide⟩⟩

/-- States and operands that meet the hypotheses of RegisterWritesAct, clause by clause. -/
theorem witness_RegisterWritesAct :
    (∃ (s : State) (off : Nat),
    (s.viewOpen .fm = true) ∧ (ownCommand off = false)) ∧
    (∃ (s : State) (off : Nat),
    (s.viewOpen .core = true) ∧ (ownCommand off = false)) ∧
    (∃ (s : State) (m : Fin 64) (off : Nat),
    (s.viewOpen (.ld m) = true) ∧ (ownCommand off = false) ∧ (ldWrites off = true)) ∧
    (∃ (off : Nat),
    (ldWrites off = false)) :=
  ⟨⟨(up), (0x600010), by decide, by decide⟩,
   ⟨(up), (0x600010), by decide, by decide⟩,
   ⟨(up), (0), (0x600100), by decide, by decide, by decide⟩,
   ⟨(0x600010), by decide⟩⟩

/-- States and operands that meet the hypotheses of PowerEventsAct, clause by clause. -/
theorem witness_PowerEventsAct :
    (∃ (s : State) (x : Mbx),
    (s.sent x .fm false 5 = true) ∧ (¬((mb8 x 4) > 1)) ∧ (¬(s.taken.pwr.state = 4)) ∧ ((let s := s.taken; let all := mb8 x 4; let s := if all = 1 then s.copyAll s.peers (.doze true) else s; ¬(s.pwr.state = 2))) ∧ ((let s := s.taken; let all := mb8 x 4; let s := if all = 1 then s.copyAll s.peers (.doze true) else s; s).bgBusy (mbWho x) = false) ∧ ((let s := s.taken; let all := mb8 x 4; let s := if all = 1 then s.copyAll s.peers (.doze true) else s; ¬(s.pwr.state = 3)))) ∧
    (∃ (s : State) (k : Nat),
    (s.pwr.dozeStep = some k) ∧ (¬(!s.dozeReady k)) ∧ (s.pwr.dozeAbort)) ∧
    (∃ (s : State) (k : Nat),
    (s.pwr.dozeStep = some k) ∧ (¬(!s.dozeReady k)) ∧ (¬(s.pwr.dozeAbort)) ∧ (k = 1)) ∧
    (∃ (s : State) (k : Nat),
    (s.pwr.dozeStep = some k) ∧ (¬(!s.dozeReady k)) ∧ (¬(s.pwr.dozeAbort)) ∧ (¬(k = 1)) ∧ (k = 2)) ∧
    (∃ (s : State) (k : Nat),
    (s.pwr.dozeStep = some k) ∧ (¬(!s.dozeReady k)) ∧ (¬(s.pwr.dozeAbort)) ∧ (¬(k = 1)) ∧ (¬(k = 2)) ∧ (k = 3)) ∧
    (∃ (s : State) (k : Nat),
    (s.pwr.dozeStep = some k) ∧ (¬(!s.dozeReady k)) ∧ (¬(s.pwr.dozeAbort)) ∧ (¬(k = 1)) ∧ (¬(k = 2)) ∧ (¬(k = 3)) ∧ (k = 4)) ∧
    (∃ (s : State) (k : Nat),
    (s.pwr.dozeStep = some k) ∧ (¬(!s.dozeReady k)) ∧ (¬(s.pwr.dozeAbort)) ∧ (¬(k = 1)) ∧ (¬(k = 2)) ∧ (¬(k = 3)) ∧ (¬(k = 4)) ∧ (k = 5)) ∧
    (∃ (s : State) (k : Nat),
    (s.pwr.dozeStep = some k) ∧ (¬(!s.dozeReady k)) ∧ (¬(s.pwr.dozeAbort)) ∧ (¬(k = 1)) ∧ (¬(k = 2)) ∧ (¬(k = 3)) ∧ (¬(k = 4)) ∧ (¬(k = 5))) ∧
    (∃ (s : State) (x : Mbx),
    (s.sent x .fm false 5 = true) ∧ (¬(mb8 x 4 > 1)) ∧ ((let s := s.taken; let s := if mb8 x 4 = 1 then s.copyAll s.peers (.doze false) else s; s.pwr.state ≤ 1))) ∧
    (∃ (s : State) (x : Mbx),
    (s.sent x .fm false 5 = true) ∧ (¬(mb8 x 4 > 1)) ∧ ((let s := s.taken; let s := if mb8 x 4 = 1 then s.copyAll s.peers (.doze false) else s; ¬(s.pwr.state ≤ 1)))) ∧
    (∃ (s : State),
    (¬(s.pwr.state ≠ 4))) ∧
    (∃ (s : State),
    ((let quiet := s.reqs.isEmpty && !(s.tlr.ctxs.any fun e => e.2.resident) && s.tier.moves.isEmpty && s.husk.bgWant.isEmpty && s.husk.slots.all (fun x => x.ph != .recoding) && s.integ.broom.isNone && !(s.integ.movers.any fun m => m.2.st == 1 || m.2.st == 2) && s.hdg.ports.all fun e => e.2.txq.isEmpty && e.2.part.isEmpty; s.serving && s.pwr.boot.isNone && s.pwr.state == 0 && quiet && decide (s.now ≥ s.pwr.lastActive + 1000 * s.fld 0x1000008 13 0)))) ∧
    (∃ (s : State),
    (¬(!s.regulates)) ∧ (s.pwr.state = 2)) ∧
    (∃ (s : State) (mv : Nat),
    (¬(!s.regulates)) ∧ (¬(s.pwr.state = 2)) ∧ (660 ≤ mv ∧ mv ≤ 800)) ∧
    (∃ (s : State) (inputW tj : Nat),
    (¬(!s.regulates)) ∧ ((let calm := decide (20 * inputW < 19 * s.limit10) && decide (tj < 100); let s := s.onPwr fun p => { p with inputW := inputW, tj := tj, lastRaise := if calm then p.lastRaise else s.now }; (inputW > s.limit10 ∨ tj > 103) ∧ s.pwr.throttle > 8))) ∧
    (∃ (s : State) (inputW tj : Nat),
    (¬(!s.regulates)) ∧ ((let calm := decide (20 * inputW < 19 * s.limit10) && decide (tj < 100); let s := s.onPwr fun p => { p with inputW := inputW, tj := tj, lastRaise := if calm then p.lastRaise else s.now }; ¬((inputW > s.limit10 ∨ tj > 103) ∧ s.pwr.throttle > 8)))) ∧
    (∃ (s : State),
    (s.regulates && decide (s.pwr.throttle < 16) && decide (20 * s.pwr.inputW < 19 * s.limit10) && decide (s.pwr.tj < 100) && decide (s.now ≥ s.pwr.lastRaise + 10 ^ 7))) :=
  ⟨⟨(up), (fmx [0, 0, 0, 0, 1]), by decide, by decide, by decide, by decide, by decide, by decide⟩,
   ⟨(withPwr (fun p => { p with dozeStep := some 1, dozeAbort := true }) up), (1), by decide, by decide, by decide⟩,
   ⟨(withPwr (fun p => { p with dozeStep := some 1 }) up), (1), by decide, by decide, by decide, by decide⟩,
   ⟨(withPwr (fun p => { p with dozeStep := some 2 }) up), (2), by decide, by decide, by decide, by decide, by decide⟩,
   ⟨(withPwr (fun p => { p with dozeStep := some 3 }) up), (3), by decide, by decide, by decide, by decide, by decide, by decide⟩,
   ⟨(withPwr (fun p => { p with dozeStep := some 4 }) up), (4), by decide, by decide, by decide, by decide, by decide, by decide, by decide⟩,
   ⟨(withPwr (fun p => { p with dozeStep := some 5 }) up), (5), by decide, by decide, by decide, by decide, by decide, by decide, by decide, by decide⟩,
   ⟨(withPwr (fun p => { p with dozeStep := some 6 }) up), (6), by decide, by decide, by decide, by decide, by decide, by decide, by decide, by decide⟩,
   ⟨(up), (fmx (zeros 5)), by decide, by decide, by decide⟩,
   ⟨(withPwr (fun p => { p with state := 2 }) up), (fmx [0, 0, 0, 0, 1]), by decide, by decide, by decide⟩,
   ⟨(withPwr (fun p => { p with state := 4 }) up), by decide⟩,
   ⟨(withNow (2 ^ 50) up), by decide⟩,
   ⟨(withPwr (fun p => { p with state := 2 }) up), by decide, by decide⟩,
   ⟨(up), (660), by decide, by decide, by decide⟩,
   ⟨(up), (100000), (0), by decide, by decide⟩,
   ⟨(up), (0), (103), by decide, by decide⟩,
   ⟨(withNow (2 ^ 50) (withPwr (fun p => { p with throttle := 15 }) up)), by decide⟩⟩

/-- States and operands that meet the hypotheses of ResetsAct, clause by clause. -/
theorem witness_ResetsAct :
    (∃ (s : State) (x : Mbx),
    (¬(mbFm x && s.sideband && s.pwr.boot.isSome)) ∧ (s.sent x .fm false 0 = true)) ∧
    (∃ (s : State) (x : Mbx),
    (s.sent x .fm false 0 = true)) ∧
    (∃ (s : State) (x : Mbx),
    (s.sent x .fm false 5 = true) ∧ (¬((mb8 x 4) ≥ 96)) ∧ (¬((s.taken.chan (mb8 x 4)).st = 2 ∨ (s.taken.chan (mb8 x 4)).st = 3)) ∧ (¬((s.taken.chan (mb8 x 4)).st = 1 ∨ (s.taken.chan (mb8 x 4)).st = 4))) ∧
    (∃ (s : State),
    (s.sideband && s.pwr.boot.isNone && s.pwr.fit)) ∧
    (∃ (s : State),
    (¬(s.pwr.pwrgd)) ∧ ((let s := s.onPwr fun p => { p with pwrgd := true, inputOk := true }; s.pwr.flush.isSome))) ∧
    (∃ (s : State),
    (¬(s.pwr.pwrgd)) ∧ ((let s := s.onPwr fun p => { p with pwrgd := true, inputOk := true }; ¬(s.pwr.flush.isSome)))) ∧
    (∃ (s : State),
    (¬(s.pwr.flush.isNone)) ∧ ((let s := s.onFar fun f => { f with jrnlDone := f.jrnlNext - 1 }; let s := s.each s.gaspRecs fun s r => s.putArchive r; let rose := s.pwr.rose; rose))) ∧
    (∃ (s : State),
    (¬(s.pwr.flush.isNone)) ∧ ((let s := s.onFar fun f => { f with jrnlDone := f.jrnlNext - 1 }; let s := s.each s.gaspRecs fun s r => s.putArchive r; let rose := s.pwr.rose; ¬(rose)))) ∧
    (∃ (s : State),
    (¬(s.pwr.inputOk || s.pwr.flush.isSome)) ∧ ((let s := s.onPwr fun p => { p with inputOk := true }; s.pwr.pwrgd && !s.pwr.on))) ∧
    (∃ (s : State),
    (¬(s.pwr.inputOk || s.pwr.flush.isSome)) ∧ ((let s := s.onPwr fun p => { p with inputOk := true }; ¬(s.pwr.pwrgd && !s.pwr.on)))) ∧
    (∃ (s : State),
    (¬(!s.pwr.resetN)) ∧ ((let s := s.onPwr fun p => { p with resetN := false }; s.pwr.pwrgd && s.pwr.on && s.pwr.flush.isNone))) ∧
    (∃ (s : State),
    (¬(s.pwr.resetN)) ∧ ((let s := s.onPwr fun p => { p with resetN := true }; s.pwr.on && s.pwr.flush.isNone))) ∧
    (∃ (s : State) (k : Nat),
    (s.pwr.boot = some k) ∧ (s.pwr.last = 2)) ∧
    (∃ (s : State) (k : Nat),
    (s.pwr.boot = some k) ∧ (¬(s.pwr.last = 2))) ∧
    (∃ (s : State),
    (¬(s.host.refLostAt.isSome || !s.sideband))) ∧
    (∃ (s : State) (t : Nat),
    (s.host.refLostAt = some t) ∧ (s.sideband && decide (s.now ≥ t + 10 ^ 7))) ∧
    (∃ (s : State),
    (¬(s.host.locked || !s.sideband))) ∧
    (∃ (s : State) (mw : Nat),
    (¬(!s.pwr.on || !s.pwr.resetN || s.pwr.flush.isSome)) ∧ (mw > 4000)) ∧
    (∃ (s : State) (mw : Nat),
    (¬(!s.pwr.on || !s.pwr.resetN || s.pwr.flush.isSome)) ∧ (¬(mw > 4000))) ∧
    (∃ (s : State) (p : Fin 6) (lanes : Nat),
    (¬((s.hport p).st ≠ 1)) ∧ ((s.trainedWidth (s.hport p) lanes) = 0)) ∧
    (∃ (s : State) (p : Fin 6) (lanes : Nat) (spaceId : Nat),
    (¬((s.hport p).st ≠ 1)) ∧ (¬((s.trainedWidth (s.hport p) lanes) = 0)) ∧ (spaceId ≠ s.hdg.spaceId)) ∧
    (∃ (s : State) (p : Fin 6) (lanes : Nat) (spaceId : Nat) (nmod : Fin 64) (nport : Fin 6),
    (¬((s.hport p).st ≠ 1)) ∧ (¬((s.trainedWidth (s.hport p) lanes) = 0)) ∧ (¬(spaceId ≠ s.hdg.spaceId)) ∧ ((let x := s.hport p; let w := s.trainedWidth x lanes; let s := s.setHport p { x with st := 2, width := w, weight := lanesOf w * 256, nport := nport, nmod := nmod, lastRx := s.now, fails := 0, resend := x.replay.map fun e => e.1, txBytes := [], rxBytes := [], rxLost := false, txPos := roundUp x.txPos 256, rxPos := roundUp x.rxPos 256 }; let s := if w = 3 then s else (s.intr 0x200028 1).post 0x0202 [(1, p), (1, lanesOf w)]; s.hdg.bench || !s.hdg.formed))) ∧
    (∃ (s : State) (p : Fin 6) (lanes : Nat) (spaceId : Nat) (nmod : Fin 64) (nport : Fin 6),
    (¬((s.hport p).st ≠ 1)) ∧ (¬((s.trainedWidth (s.hport p) lanes) = 0)) ∧ (¬(spaceId ≠ s.hdg.spaceId)) ∧ ((let x := s.hport p; let w := s.trainedWidth x lanes; let s := s.setHport p { x with st := 2, width := w, weight := lanesOf w * 256, nport := nport, nmod := nmod, lastRx := s.now, fails := 0, resend := x.replay.map fun e => e.1, txBytes := [], rxBytes := [], rxLost := false, txPos := roundUp x.txPos 256, rxPos := roundUp x.rxPos 256 }; let s := if w = 3 then s else (s.intr 0x200028 1).post 0x0202 [(1, p), (1, lanesOf w)]; ¬(s.hdg.bench || !s.hdg.formed)))) :=
  ⟨⟨(up), (fmx []), by decide, by decide⟩,
   ⟨(up), (fmx []), by decide⟩,
   ⟨(up), (fmx [0, 0, 0, 0, 95]), by decide, by decide, by decide, by decide⟩,
   ⟨(up), by decide⟩,
   ⟨(withPwr (fun p => { p with pwrgd := false, flush := some 0 }) up), by decide, by decide⟩,
   ⟨(withPwr (fun p => { p with pwrgd := false }) up), by decide, by decide⟩,
   ⟨(withPwr (fun p => { p with flush := some 0, rose := true }) up), by decide, by decide⟩,
   ⟨(withPwr (fun p => { p with flush := some 0 }) up), by decide, by decide⟩,
   ⟨(withPwr (fun p => { p with inputOk := false, on := false }) up), by decide, by decide⟩,
   ⟨(withPwr (fun p => { p with inputOk := false }) up), by decide, by decide⟩,
   ⟨(up), by decide, by decide⟩,
   ⟨(withPwr (fun p => { p with resetN := false }) up), by decide, by decide⟩,
   ⟨(withPwr (fun p => { p with boot := some 1, last := 2 }) up), (1), by decide, by decide⟩,
   ⟨(withPwr (fun p => { p with boot := some 1 }) up), (1), by decide, by decide⟩,
   ⟨(up), by decide⟩,
   ⟨(withNow (2 ^ 50) (withHost (fun h => { h with refLostAt := some 0 }) up)), (0), by decide, by decide⟩,
   ⟨(withHost (fun h => { h with locked := false }) up), by decide⟩,
   ⟨(up), (4001), by decide, by decide⟩,
   ⟨(up), (4000), by decide, by decide⟩,
   ⟨(withPort (fun x => { x with st := 1 }) up), (0), (0), by decide, by decide⟩,
   ⟨(withPort (fun x => { x with st := 1 }) up), (0), (8), (up.hdg.spaceId + 1), by decide, by decide, by decide⟩,
   ⟨(withPort (fun x => { x with st := 1 }) up), (0), (8), (up.hdg.spaceId), (1), (1), by decide, by decide, by decide, by decide⟩,
   ⟨(withPort (fun x => { x with st := 1 }) spreadSt), (0), (8), (up.hdg.spaceId), (1), (1), by decide, by decide, by decide, by decide⟩⟩

/-- A state with a command in front, and one with none. -/
theorem witness_StepRunsTheFrontCommand : (∃ (c : Instr) (rest : List Instr) (s : State), s.pending = c :: rest) ∧ ∃ s : State, s.pending = [] :=
  ⟨⟨.warmReset (ldx []), [], { up with pending := [.warmReset (ldx [])] }, rfl⟩, up, rfl⟩

/-- A state in canonical form that steps. -/
theorem witness_StepKeepsTheForms : ∃ s t : State, s.canonical = true ∧ step s = .next t := ⟨up, up.idle, by decide, rfl⟩

/-- A message at the upper ends of its fields. -/
theorem witness_HeaderRoundTrip : ∃ (op dirs : Nat) (m : Msg) (n : Nat), op < 256 ∧ dirs < 8 ∧ m.holder < 4096 ∧ m.tag < 65536 ∧ m.cxl < 4 ∧
    m.synd < 256 ∧ m.addr < 2 ^ 50 ∧ m.data.length = 32 * n ∧ n < 256 :=
  ⟨255, 7, ⟨63, 63, 7, 4095, 65535, 3, 255, 2 ^ 50 - 1, zeros 64⟩, 2, by decide⟩

/-- A message for another module, in bench mode and in a space. -/
theorem witness_BenchDiscardsAndOthersForward : (∃ s : State, s.hdg.bench = true) ∧
    ∃ (m : Msg) (s : State), s.hdg.bench = false ∧ m.dst.val ≠ s.me :=
  ⟨⟨up, by decide⟩, { msg0 0 [] with dst := 5 }, spreadSt, by decide, by decide⟩

/-- A command of an LD that reaches the module. -/
theorem witness_OnlyTheFabricManager : ∃ (x : Mbx) (s : State), s.reaches x = true ∧ mbFm x = false := ⟨ldx [], up, by decide, by decide⟩

/-- Commands outside a session: of an LD, and of the fabric manager. -/
theorem witness_PlainCommandsAreRefused : ∃ (x y : Mbx) (s : State), s.reaches x = true ∧ s.inSession x = false ∧ mbFm x = false ∧
    s.reaches y = true ∧ s.inSession y = false ∧ mbFm y = true :=
  ⟨⟨.ld 0, none, []⟩, ⟨.fm, none, []⟩, up, by decide⟩

/-- A context that issues a word. -/
theorem witness_RegisterInstructionsChangeTheirContext : ∃ (c : Fin 4096) (s : State) (x : Ctx) (w : Word), s.issues c x w = true :=
  ⟨0, running ctx0 (sWord 1), ctx0, sWord 1, by decide⟩

/-- A register that a view holds, one that it does not hold, and the ends of the range without registers. -/
theorem witness_OffsetsWithoutARegister : up.viewHolds (.ld 0) 0x600100 = true ∧ up.viewHolds (.ld 0) 0x100008 = false ∧
    up.viewHolds .fm 0x1200000 = false ∧ up.viewHolds .core 0x3FFFFF8 = false := by decide

/-- A context whose call stack is full, and one whose call stack is empty. -/
theorem witness_CallStackTraps :
    (∃ (s : State) (c : Fin 4096) (x : Ctx) (w : Word), s.issues c x w = true ∧ majorOf w = 0x2A ∧ onlyBits w (cHead + cImm) = true ∧
      x.guard w = true ∧ 16 ≤ x.calls.length) ∧
    (∃ (s : State) (c : Fin 4096) (x : Ctx) (w : Word), s.issues c x w = true ∧ majorOf w = 0x2B ∧ onlyBits w cHead = true ∧
      x.guard w = true ∧ x.calls = []) :=
  ⟨⟨running { ctx0 with calls := List.replicate 16 0 } (wd 0x2A 1), 0, { ctx0 with calls := List.replicate 16 0 }, wd 0x2A 1, by decide⟩,
   ⟨running ctx0 (wd 0x2B 0), 0, ctx0, wd 0x2B 0, by decide⟩⟩

/-- A context that signals with room in the queue, and with a full queue. -/
theorem witness_SignalQueues :
    (∃ (s : State) (c : Fin 4096) (x : Ctx) (w : Word), s.issues c x w = true ∧ majorOf w = 0x30 ∧ onlyBits w (cHead + bm 49 45) = true ∧
      x.guard w = true ∧ (s.tiller x.tiller).sig.length < 16 ∧ x.tiller < 96) ∧
    (∃ (s : State) (c : Fin 4096) (x : Ctx) (w : Word), s.issues c x w = true ∧ majorOf w = 0x30 ∧ onlyBits w (cHead + bm 49 45) = true ∧
      x.guard w = true ∧ 16 ≤ (s.tiller x.tiller).sig.length) :=
  ⟨⟨running ctx0 (wd 0x30 0), 0, ctx0, wd 0x30 0, by decide⟩,
   ⟨(running ctx0 (wd 0x30 0)).setTiller 0 fun q => { q with sig := List.replicate 16 (0, 0) }, 0, ctx0, wd 0x30 0, by decide⟩⟩

/-- A window with an ACTIVE lease, and one without a lease. -/
theorem witness_HeartbeatsRenew :
    (∃ (s : State) (ld : Fin 64) (w : Fin 8) (h : Nat) (l : Lease), s.hostOpen ld = true ∧ s.leaseAt ld w = some (h, l) ∧ l.st = .active ∧ s.now < l.deadline) ∧
    (∃ (s : State) (ld : Fin 64) (w : Fin 8), s.hostOpen ld = true ∧ s.leaseAt ld w = none) :=
  ⟨⟨leased, 0, 0, 1, lease0, by decide⟩, ⟨leased, 0, 1, by decide⟩⟩

/-- A target without an active source, seen by the module's view. -/
theorem witness_CompletesAndThresholds : ∃ (s : State) (view : View) (t : Fin 68) (v : Word), s.viewOpen view = true ∧ seesTarget view t = true ∧
    ((s.stackOf t).head?).map Prod.snd ≠ some (v.toNat % 1024) := ⟨up, .ld 0, 4, 64, by decide⟩

/-- States and operands that meet the hypotheses of FlitsAreReceived, clause by clause. -/
theorem witness_FlitsAreReceived :
    (∃ (s : State) (p : Fin 6), (s.hport p).st = 2) :=
  ⟨withPort id up, 0, by decide⟩

/-- A command that meets the hypothesis of QueriesOnlyAnswer. -/
theorem witness_QueriesOnlyAnswer :
    (∃ (x : Mbx) (i : Instr), i ∈ [Instr.leaseQuery x, .accountQuery x, .dirQuery x]) :=
  ⟨ldx [], .leaseQuery (ldx []), by decide⟩

/-! ## Ill-formed commands are refused -/

/-- A message that fits its header, to be spoilt. -/
def good : Msg := msg0 0 []

theorem smoke_good : Instr.wf (.msgRd good) = true ∧ Instr.wf (.registerWrite .fm 8 0) = true ∧
    Instr.wf (.hostWrite 0 0 .any 0 0 (zeros 64) false) = true ∧ Instr.wf (.hostBirsp 0 0 4 .i (some (zeros 64))) = true ∧
    Instr.wf (.flitIdleRx 0 (zeros 256)) = true ∧ Instr.wf (.moverCopyChunk 0 1) = true := by decide

theorem smoke_address : Instr.wf (.hostRead 0 (2 ^ 64) .any 0 false) = false ∧ Instr.wf (.hostWrite 0 (2 ^ 64) .any 0 0 (zeros 64) false) = false ∧
    Instr.wf (.hostCleanEvict 0 (2 ^ 64)) = false ∧ Instr.wf (.uioRequest 0 (2 ^ 64) true 0 0 (zeros 64)) = false ∧
    Instr.wf (.hdmDecoderCommit 0 0 (2 ^ 64) 0) = false ∧ Instr.wf (.hdmDecoderCommit 0 0 0 (2 ^ 64 + 1)) = false := by decide

theorem smoke_tag : Instr.wf (.hostRead 0 0 .any (2 ^ 16) false) = false ∧ Instr.wf (.hostWrite 0 0 .any (2 ^ 16) 0 (zeros 64) false) = false ∧
    Instr.wf (.uioRequest 0 0 true (2 ^ 16) 0 (zeros 64)) = false ∧ Instr.wf (.flitMarkerRx 0 0 (2 ^ 64)) = false ∧
    Instr.wf (.flitMarkerRx 0 (2 ^ 32) 0) = false := by decide

theorem smoke_page : Instr.wf (.pullThroughDone (2 ^ 38)) = false ∧ Instr.wf (.pullThroughRaise (2 ^ 38)) = false ∧
    Instr.wf (.pullThroughDlMiss (2 ^ 38)) = false ∧ Instr.wf (.mbSlotWindowExpire (2 ^ 38)) = false ∧
    Instr.wf (.slotRecodeStart (2 ^ 38)) = false ∧ Instr.wf (.recodeWriteDone (2 ^ 38)) = false ∧
    Instr.wf (.respreadPageMove 0 (2 ^ 38)) = false ∧ Instr.wf (.respreadPageMoved 0 (2 ^ 38)) = false ∧
    Instr.wf (.bgRecodePage (2 ^ 38)) = false ∧ Instr.wf (.vlrExpansionDone (2 ^ 38)) = false ∧
    Instr.wf (.ageWalkerVisit (2 ^ 38)) = false ∧ Instr.wf (.evictionPage (2 ^ 38)) = false ∧ Instr.wf (.demotionDone (2 ^ 38)) = false ∧
    Instr.wf (.promotionDone (2 ^ 38)) = false ∧ Instr.wf (.relocationDone (2 ^ 38)) = false ∧ Instr.wf (.farReadDone (2 ^ 38) []) = false ∧
    Instr.wf (.farReadDone 0 [.hard, .hard, .hard]) = false ∧
    Instr.wf (.farRowProgramDone (2 ^ 38) 0) = false ∧ Instr.wf (.durWinExpire (2 ^ 38) 0) = false ∧ Instr.wf (.gcBandCopy (2 ^ 38)) = false ∧
    Instr.wf (.resyncPageCopy (2 ^ 38)) = false ∧ Instr.wf (.broomPageVisit (2 ^ 38)) = false := by decide

theorem smoke_lease : Instr.wf (.leaseQuarterLeft (2 ^ 32)) = false ∧ Instr.wf (.leaseTimerExpire (2 ^ 32)) = false ∧
    Instr.wf (.leaseGraceExpire (2 ^ 32)) = false ∧ Instr.wf (.leaseDrainEnd (2 ^ 32)) = false ∧ Instr.wf (.drainBoundExpire (2 ^ 32)) = false ∧
    Instr.wf (.respreadPortalSwitch (2 ^ 20)) = false ∧ Instr.wf (.respreadPageMove (2 ^ 20) 0) = false ∧
    Instr.wf (.respreadPageMoved (2 ^ 20) 0) = false ∧ Instr.wf (.pubOldReclaim (2 ^ 20)) = false ∧
    Instr.wf (.spreadMemberSlow (2 ^ 20) 0) = false ∧ Instr.wf (.snoopTimeout 4096) = false := by decide

theorem smoke_media : Instr.wf (.farProgramFail 0 0 (2 ^ 32)) = false ∧ Instr.wf (.farEraseFail 0 (2 ^ 32)) = false ∧
    Instr.wf (.bandErase (2 ^ 32)) = false ∧ Instr.wf (.parityDeltaApply 0 (2 ^ 32)) = false ∧ Instr.wf (.stripeReconstruct 0 (2 ^ 32)) = false ∧
    Instr.wf (.moverCopyChunk 0 0) = false ∧ Instr.wf (.streamLayerResident 0 (2 ^ 64)) = false := by decide

theorem smoke_link : Instr.wf (.flitDataRx 0 (zeros 255)) = false ∧ Instr.wf (.flitIdleRx 0 (zeros 257)) = false ∧
    Instr.wf (.flitNakRx 0 []) = false ∧ Instr.wf (.hedgerowPortUp 0 65 0 0 0) = false ∧ Instr.wf (.hedgerowPortUp 0 64 (2 ^ 64) 0 0) = false ∧
    Instr.wf (.moduleRejoin 0 0 (2 ^ 64)) = false ∧ Instr.wf (.hostLinkUp 0 32) = false ∧ Instr.wf (.l0pWidthChange 0 32) = false := by decide

theorem smoke_message : Instr.wf (.msgRd { good with holder := 4097 }) = false ∧ Instr.wf (.msgWr { good with tag := 2 ^ 16 }) = false ∧
    Instr.wf (.msgWrp { good with cxl := 4 }) = false ∧ Instr.wf (.msgAtom { good with synd := 256 }) = false ∧
    Instr.wf (.msgData { good with addr := 2 ^ 50 }) = false := by decide

theorem smoke_data : Instr.wf (.hostWrite 0 0 .any 0 0 (zeros 63) false) = false ∧ Instr.wf (.uioRequest 0 0 true 0 0 []) = false ∧
    Instr.wf (.hostBirsp 0 (2 ^ 44) 1 .i none) = false ∧ Instr.wf (.hostBirsp 0 0 3 .i none) = false ∧
    Instr.wf (.hostBirsp 0 0 1 .i (some [])) = false := by decide

theorem smoke_registers : Instr.wf (.registerWrite .fm 4 0) = false ∧ Instr.wf (.registerWrite .fm (2 ^ 26) 0) = false ∧
    Instr.wf (.captureReleaseWrite 4 0) = false ∧ Instr.wf (.captureReleaseWrite (2 ^ 26) 0) = false ∧
    Instr.wf (.vendorDefinedRequest .fm 0 (2 ^ 16) 0 []) = false ∧ Instr.wf (.vendorDefinedRequest .fm 0 0 (2 ^ 16) []) = false ∧
    Instr.wf (.stookSummaryEmit (2 ^ 16)) = false ∧ Instr.wf (.stookSramFail 16384 0) = false ∧
    Instr.wf (.stookSramFail 0 16384) = false := by decide

/-! ## The manual's worked examples -/

/-- Table 2-1: LD 19 of module 9, window 0 of span 64 GiB, extent 0x9_40A7 in slot 2. -/
def decodeXt : Extent := { xt0 with kind := .shared, spread := [37, 38, 41, 45, 53, 54, 57, 61], namers := [1] }
def decodeSt : State :=
  { up with
    hdg := { Hdg.reset with formed := true, size := 64, formZ := 4, midx := 9, live := List.range 64, quorum := true }
    spc := { Spc.reset with
      windows := [(152, ⟨0x10000000000, 36⟩)], slots := [(152, [(2, 0x940A7)])], extents := [(0x940A7, decodeXt)],
      leases := [(1, { lease0 with ld := some 19, exts := [(2, 0x940A7)] })] } }

/-- The decode of Table 2-1: label, space address, home and page home. -/
theorem test_worked_decode : decodeSt.hedge 19 0x15081234A40 0 = some (5, 0x25029C1234A40) ∧ homeOf 0x940A7 = 37 ∧ localIdx 0x940A7 = 167 ∧
    decodeSt.pageHome (saPage 0x25029C1234A40) = 41 ∧ pageIdx (saPage 0x25029C1234A40) = 0x1234 := by decide

/-- The worked accounting: four local C-EXP16 extents with D = 22 are charged 23,068,672 chunks. -/
theorem test_worked_accounting : 4 * (262144 * chargeOf 1 1 0 22) = 23068672 := by decide

/-- Table 4-5: codewords of the default table for 8-bit exponents. -/
theorem test_default_codes : codeword defaultLens8 121 = [true, false, true] ∧ codeword defaultLens8 120 = [false, true] ∧
    codeword defaultLens8 0 = [true, true, true, false, false, true, false] ∧ codeword defaultLens8 119 = [false, false] ∧
    codeword defaultLens8 255 = List.replicate 12 true := by decide

/-- Table 4-16: codewords of the default table for 5-bit exponents. -/
theorem test_default_codes5 : codeword defaultLens5 13 = [false, false] ∧ codeword defaultLens5 11 = [true, true, false, false] ∧
    codeword defaultLens5 9 = [true, true, true, false, false, true] ∧ codeword defaultLens5 31 = List.replicate 8 true := by decide

/-- Table 4-6: the sign and mantissa bytes and the exponents of four elements, and the first byte of their stream. -/
theorem test_worked_grain : [0x3C8A, 0xBC21, 0, 0x3BF3].map (expSplit 1) = [(0x0A, 121), (0xA1, 120), (0, 0), (0x73, 119)] ∧
    (packMsb ([121, 120, 0, 119].flatMap (codeword defaultLens8)))[0]? = some 0xAF := by decide

/-- Table 7-16: the words of three instructions give back their fields. -/
theorem test_word_cmp : majorOf 0x340C080700000000 = 0x0D ∧ wf 0x340C080700000000 31 0 = 0 ∧
    Ctx.opS ctx0 0x340C080700000000 = some (0, 0, false, 2) := by decide
theorem test_word_vadd : majorOf 0x4D00112011000000 = 0x13 ∧ pgOf 0x4D00112011000000 = 2 ∧ pnOf 0x4D00112011000000 = false ∧
    vD 0x4D00112011000000 = 1 ∧ vA 0x4D00112011000000 = 1 ∧ vB 0x4D00112011000000 = 2 ∧ vEt 0x4D00112011000000 = 1 ∧
    vEtd 0x4D00112011000000 = 1 ∧ vRm 0x4D00112011000000 = 0 ∧ vSat 0x4D00112011000000 = false := by decide
theorem test_word_add : majorOf 0x0420146000000040 = 1 ∧
    Ctx.opS { ctx0 with s := ctx0.s.set 3 9 } 0x0420146000000040 = some (9, 64, false, 5) := by decide

/-- Table 7-13: three elements of an L-MX8 block with scale byte 0x79 are converted to BF16. -/
def vcvtCtx : Ctx := { ctx0 with v := (ctx0.v.set 4 0x01B348).set 9 0x79 }
def vcvtWord : Word := wd 0x19 (6 * 2 ^ 44 + 4 * 2 ^ 40 + 9 * 2 ^ 36 + 5 * 2 ^ 28 + 2 ^ 24)
theorem test_worked_dequantisation : (match vcvtEff vcvtCtx vcvtWord with
    | .next y => y.vreg 6 % 2 ^ 48
    | _ => 0) = 0x3800BC303D80 := by decide

/-- Table 9-7: from module 9 to module 46 with module 10 absent, the order is ZYX with every direction plus, through 25, 41 and 45. -/
def routeSt : State :=
  { up with hdg := { Hdg.reset with formed := true, size := 64, formZ := 4, midx := 9, live := (List.range 64).filter (· != 10), quorum := true } }
theorem test_worked_route : routeSt.routeTo 46 (fun _ => false) = some (1, 0) ∧
    routeSt.nextHop 9 46 1 0 none = some (4, 0) ∧ routeSt.neighbour 9 4 = 25 ∧ routeSt.nextHop 25 46 1 0 (some (2, 0)) = some (4, 0) ∧
    routeSt.neighbour 25 4 = 41 ∧ routeSt.nextHop 41 46 1 0 (some (2, 0)) = some (2, 0) ∧ routeSt.neighbour 41 2 = 45 ∧
    routeSt.nextHop 45 46 1 0 (some (1, 0)) = some (0, 0) ∧ routeSt.neighbour 45 0 = 46 := by decide

/-- Table 10-5: three reservations on NEAR of ranks 1 to 3, with four channels retired, then with the throttle ratio at 0.75. -/
def scaleSt (t : Nat) : State :=
  { up with
    sku := .b
    pwr := { up.pwr with throttle := t }
    near := { Near.reset with chans := (List.range 4).map fun n => (n, { Chan.blank with st := 3 }) }
    qos := { Qos.reset with
      classes := [(0, [⟨1, 1, 0⟩, ⟨2, 1, 0⟩, ⟨3, 1, 0⟩])]
      resv := [(0, { resv0 with cls := 0, rate := 600000 }), (1, { resv0 with cls := 1, rate := 500000 }),
        (2, { resv0 with cls := 2, rate := 250000 })] } }
theorem test_worked_scaling : (scaleSt 16).dRate 8 = 1297583 ∧ (scaleSt 16).scale12 8 1 = 4096 ∧ (scaleSt 16).scale12 8 2 = 4096 ∧
    (scaleSt 16).scale12 8 3 = 3237 := by decide
theorem test_worked_throttle : (scaleSt 12).dRate 8 = 973187 ∧ (scaleSt 12).scale12 8 1 = 4096 ∧ (scaleSt 12).scale12 8 2 = 3057 ∧
    (scaleSt 12).scale12 8 3 = 0 := by decide

/-- The worked placement: NEAR = 0x2_200F_4243, its glume's row and slot, and the row of chunk k + 21. -/
theorem test_worked_placement : chanOf 0x2200F4243 = 17 ∧ chunkIdx 0x2200F4243 = 1000003 ∧ rowIndex 1000003 = 71428 ∧ chunkSlot 1000003 = 11 ∧
    bankOf 1000003 = 4 ∧ rankOf 2 1000003 = 0 ∧ rowOf 2 1000003 = 2232 ∧ rowIndex 1000024 = 71430 ∧ chunkSlot 1000024 = 4 ∧
    bankOf 1000024 = 6 ∧ rowOf 2 1000024 = 2232 ∧ bankOf 1000035 = 7 := by decide

/-- The worked stripe: channel 17 at chunk 500,000 is member 4 of group 1, and channel 9 holds the parity of its region. -/
theorem test_worked_stripe : stripeGroup 17 = 1 ∧ stripeMember 17 = 4 ∧ memberChan 1 4 = 17 ∧ memberChan 1 0 = 1 ∧ memberChan 1 11 = 45 ∧
    stripeRegion 500000 = 2 ∧ parityChan 17 500000 = 9 ∧ rowIndex 500000 = 35714 ∧ chunkSlot 500000 = 4 := by decide

/-- Table 14-2, steps 3 and 4: of sources 448 (priority 5) and 864 (priority 9), a claim returns 864 and raises the threshold to 9. -/
def deliverySt : State :=
  (withEsu (fun e => { e with srcs := [(448 * 64, ⟨true, false, true, true, true⟩), (864 * 64, ⟨true, false, true, true, true⟩)] }) up
    |>.setReg (0xE02000 + 8 * 448) (2 ^ 58 + 5 * 2 ^ 48)).setReg (0xE02000 + 8 * 864) (2 ^ 58 + 9 * 2 ^ 48)
theorem test_worked_delivery : (match exec (.esuClaimRead .core 0) deliverySt with
    | .next t => (t.thresh 0, t.stackOf 0, t.out, t.deliverable 448 0)
    | _ => (0, [], [], true)) = (9, [(0, 864)], [.claim 0 864], false) := by decide

/-- The worked overwrite: an info, an error and a notice record arrive at a full store of unspilled records. -/
def srec (q v : Nat) : SRec := ⟨q, 0, 0, 0x0B00, 0, v, 0, [], []⟩
theorem test_worked_overwrite :
    (storeIn 3 [(srec 1000 1, false), (srec 1001 0, false), (srec 1002 3, false)] (srec 1003 0)).1.map (fun x => x.1.seq) = [1000, 1003, 1002] ∧
    (storeIn 2 [(srec 1000 1, false), (srec 1002 3, false)] (srec 1004 3)).1.map (fun x => x.1.seq) = [1004, 1002] ∧
    (storeIn 2 [(srec 1004 3, false), (srec 1002 3, false)] (srec 1005 1)).2.2 = true := by decide

/-- Table 19-3: the offsets of three indexed registers are registers, and 0x0120_0000 is none. -/
theorem test_worked_addresses : (regAt 0x894028).any (fun d => d.base == 0x800028 && d.stride == 0x4000) = true ∧
    (regAt 0xB11098).any (fun d => d.base == 0xB00080) = true ∧ (regAt 0xE11708).any (fun d => d.base == 0xE10008) = true ∧
    (regAt 0x1200000).isNone = true := by decide

/-! ## The queue -/

/-- A step runs the command in front and leaves the rest waiting. -/
theorem test_step_queue : (match step { leased with pending := [.hostRead 0 0 .any 5 false, .pubFlip (ldx [])] } with
    | .next t => t.pending.length
    | _ => 0) = 1 := by decide

end Sys2Proof.Machine
end

section
/-! SUPPORT. Heartbeats: what a write to a window's lease page does with the lease in the window (R71). -/

namespace Sys2Proof.Machine

open Sys2Proof

theorem exec_spcHbWrite (ld : Fin 64) (w : Fin 8) (off : Fin 512) (v : Word) (s : State) :
    exec (.spcHbWrite ld w off v) s = execSpcHbWrite ld w off v s := rfl

/-- A renewal for the lease's own duration moves its deadline and rearms its quarter mark, and keeps the duration. -/
theorem State.renew_ownDuration (s : State) (h : Nat) (l : Lease) :
    s.renew h l l.dur = s.setLease h (some { l with deadline := s.now + l.dur * 10 ^ 9, quarter := false }) := rfl

theorem execSpcHbWrite_of_active {s : State} {ld : Fin 64} {w : Fin 8} {h : Nat} {l : Lease} (off : Fin 512) (v : Word)
    (hopen : s.hostOpen ld = true) (hlease : s.leaseAt ld w = some (h, l)) (hactive : l.st = .active)
    (hbefore : s.now < l.deadline) :
    execSpcHbWrite ld w off v s = .next (s.renew h l l.dur) := by
  simp [execSpcHbWrite, hopen, hlease, hactive, hbefore]

/-- Whether or not the LD's port takes the write. -/
theorem execSpcHbWrite_of_no_active {s : State} {ld : Fin 64} {w : Fin 8} (off : Fin 512) (v : Word)
    (hnone : ∀ (h : Nat) (l : Lease), s.leaseAt ld w = some (h, l) → l.st ≠ .active) :
    execSpcHbWrite ld w off v s = .next s := by
  cases hlease : s.leaseAt ld w with
  | none => simp [execSpcHbWrite, hlease]
  | some held =>
    obtain ⟨h, l⟩ := held
    have hinactive : l.st ≠ .active := hnone h l hlease
    simp [execSpcHbWrite, hlease, hinactive]

/-- Settles O59: by whether the lease that the window holds is ACTIVE. -/
theorem heartbeatsRenew : Obligations.HeartbeatsRenew := by
  intro s ld w off v hopen
  rw [exec_spcHbWrite]
  constructor
  · intro h l hlease hactive hbefore
    rw [execSpcHbWrite_of_active off v hopen hlease hactive hbefore, State.renew_ownDuration]
  · exact execSpcHbWrite_of_no_active off v

end Sys2Proof.Machine
end

section
/-! SUPPORT. The call stack's two traps: CALL onto a full stack and RET from an empty one (R258). -/

namespace Sys2Proof.Machine

open Sys2Proof

theorem exec_call (c : Fin 4096) (s : State) : exec (.call c) s = execCall c s := rfl

theorem exec_ret (c : Fin 4096) (s : State) : exec (.ret c) s = execRet c s := rfl

theorem execCall_of_issues {s : State} {c : Fin 4096} {x : Ctx} {w : Word} (hissue : s.issues c x w = true)
    (hmajor : majorOf w = 0x2A) : execCall c s = .next ((s.callOp c x w).took c x.tiller) := by
  rw [execCall, State.issue_of hissue (by simp [hmajor])]

theorem execRet_of_issues {s : State} {c : Fin 4096} {x : Ctx} {w : Word} (hissue : s.issues c x w = true)
    (hmajor : majorOf w = 0x2B) : execRet c s = .next ((s.doEff c x (retEff x w)).took c x.tiller) := by
  rw [execRet, State.plainOp_of hissue hmajor]

theorem State.callOp_of_full {x : Ctx} {w : Word} (s : State) (c : Nat) (hlegal : onlyBits w (cHead + cImm) = true)
    (hguard : x.guard w = true) (hfull : 16 ≤ x.calls.length) :
    s.callOp c x w = s.ctxTrap c x x.pc 0x02 0 0 false := by
  simp [State.callOp, hlegal, hguard, hfull]

theorem retEff_of_empty {x : Ctx} {w : Word} (hlegal : onlyBits w cHead = true) (hguard : x.guard w = true)
    (hempty : x.calls = []) : retEff x w = .trap 2 0 0 := by
  rw [retEff, guarded_true hlegal hguard, hempty]

/-- Settles O57: the issue reaches CALL or RET, and each finds its stack at the limit. -/
theorem callStackTraps : Obligations.CallStackTraps := by
  constructor
  · intro s c x w hissue hmajor hlegal hguard hfull
    rw [exec_call, execCall_of_issues hissue hmajor, State.callOp_of_full s c hlegal hguard hfull]
  · intro s c x w hissue hmajor hlegal hguard hempty
    rw [exec_ret, execRet_of_issues hissue hmajor, retEff_of_empty hlegal hguard hempty, State.doEff_trap]

end Sys2Proof.Machine
end

section
/-! SUPPORT. The signal queues: what SIGNAL does with room and without, and when a tiller's signal source is asserted (R261). -/

namespace Sys2Proof.Machine

open Sys2Proof

/-! ## A change of one tiller -/

@[simp] theorem State.setTiller_tiller (s : State) (n : Nat) (f : Tiller → Tiller) : (s.setTiller n f).tiller n = f (s.tiller n) := by
  simp [State.setTiller, State.tiller, State.onTlr]

@[simp] theorem State.setCtx_tiller (s : State) (c : Nat) (x : Ctx) (n : Nat) : (s.setCtx c x).tiller n = s.tiller n := rfl

/-- The even sources from 512 on follow the signal queues of the tillers: asserted while a record stands in the queue. -/
theorem State.level_signal (s : State) {n : Nat} (hn : n < 96) : s.level (512 + 2 * n) = !(s.tiller n).sig.isEmpty := by
  have hlow : ∀ k < 512, 512 + 2 * n ≠ k := fun k hk => by omega
  have hrange : 512 ≤ 512 + 2 * n ∧ 512 + 2 * n < 704 := by omega
  have hindex : (512 + 2 * n - 512) / 2 = n := by omega
  unfold State.level State.tiller
  simp only [hlow, hrange, hindex, Nat.reduceLT, if_false]
  cases look s.tlr.tillers n <;> simp [Tiller.blank]

/-! ## SIGNAL -/

theorem exec_signal (c : Fin 4096) (s : State) : exec (.signal c) s = execSignal c s := rfl

theorem execSignal_of_issues {s : State} {c : Fin 4096} {x : Ctx} {w : Word} (hissue : s.issues c x w = true)
    (hmajor : majorOf w = 0x30) : execSignal c s = .next ((s.signalOp c x w).took c x.tiller) := by
  rw [execSignal, State.issue_of hissue (by simp [hmajor])]

/-- A record goes to the end of a tiller's signal queue. -/
def State.queueSignal (s : State) (n : Nat) (r : Nat × BitVec 64) : State :=
  s.setTiller n fun t => { t with sig := t.sig ++ [r] }

@[simp] theorem State.queueSignal_sig (s : State) (n : Nat) (r : Nat × BitVec 64) :
    ((s.queueSignal n r).tiller n).sig = (s.tiller n).sig ++ [r] := by
  simp [State.queueSignal]

theorem State.signalOp_of_room {s : State} {x : Ctx} {w : Word} (c : Nat) (hlegal : onlyBits w (cHead + bm 49 45) = true)
    (hguard : x.guard w = true) (hroom : (s.tiller x.tiller).sig.length < 16) :
    s.signalOp c x w = (s.queueSignal x.tiller (s.ctxId c x, x.sreg (cSa w))).setCtx c x.advance := by
  simp [State.signalOp, State.queueSignal, hlegal, hguard, Nat.not_le.mpr hroom]

theorem State.signalOp_of_full {s : State} {x : Ctx} {w : Word} (c : Nat) (hlegal : onlyBits w (cHead + bm 49 45) = true)
    (hguard : x.guard w = true) (hfull : 16 ≤ (s.tiller x.tiller).sig.length) : s.signalOp c x w = s := by
  simp [State.signalOp, hlegal, hguard, hfull]

/-- Settles O58: by whether the tiller's queue has room; the source is asserted because the queue then holds the record. -/
theorem signalQueues : Obligations.SignalQueues := by
  intro s c x w hissue hmajor hlegal hguard
  rw [exec_signal, execSignal_of_issues hissue hmajor]
  constructor
  · intro hroom htiller
    rw [State.signalOp_of_room c hlegal hguard hroom]
    refine ⟨_, rfl, ?_, ?_, ?_⟩
    · simp
    · simp
    · rw [State.level_signal _ htiller]
      simp
  · intro hfull
    rw [State.signalOp_of_full c hlegal hguard hfull]

end Sys2Proof.Machine
end

section
/-! SUPPORT. The event steering unit's target windows: a completion that does not name the source at the top of the stack
(R455) and a write of the threshold (R456). -/

namespace Sys2Proof.Machine

open Sys2Proof

/-! ## ESU_COMPLETE -/

theorem exec_esuCompleteWrite (view : View) (t : Fin 68) (v : Word) (s : State) :
    exec (.esuCompleteWrite view t v) s = execEsuCompleteWrite view t v s := rfl

/-- Whether the stack is empty or another source is at its top, the completion is ignored, counted and posted (R455). -/
theorem execEsuCompleteWrite_of_not_top {s : State} {view : View} {t : Fin 68} {v : Word} (hopen : s.viewOpen view = true)
    (hsees : seesTarget view t = true) (hother : ((s.stackOf t).head?).map Prod.snd ≠ some (v.toNat % 1024)) :
    execEsuCompleteWrite view t v s =
      .next (((s.bump cntEsu 1 1).intr 0xE00028 1).post 0x0D00 [(1, t.val), (2, v.toNat % 1024)]) := by
  cases hstack : s.stackOf t with
  | nil => simp [execEsuCompleteWrite, hopen, hsees, hstack]
  | cons entry rest =>
    have htop : entry.2 ≠ v.toNat % 1024 := by simpa [hstack] using hother
    simp [execEsuCompleteWrite, hopen, hsees, hstack, htop]

/-! ## ESU_THRESH -/

theorem exec_esuThreshWrite (view : View) (t : Fin 68) (v : Word) (s : State) :
    exec (.esuThreshWrite view t v) s = execEsuThreshWrite view t v s := rfl

/-- The threshold of target t becomes p. -/
def State.setThresh (s : State) (t p : Nat) : State := s.onEsu fun e => { e with thresh := put e.thresh t p }

@[simp] theorem State.setThresh_thresh_same (s : State) (t p : Nat) : (s.setThresh t p).thresh t = p := by
  simp [State.setThresh, State.thresh]

theorem State.setThresh_thresh_other (s : State) {t k : Nat} (p : Nat) (hother : k ≠ t) :
    (s.setThresh t p).thresh k = s.thresh k := by
  simp [State.setThresh, State.thresh, hother]

@[simp] theorem State.setThresh_stack (s : State) (t p : Nat) : (s.setThresh t p).esu.stack = s.esu.stack := rfl

/-- An evaluation delivers sources and leaves the threshold they are held against. -/
@[simp] theorem State.thresh_esuEval (s : State) (k : Nat) : (s.esuEval).thresh k = s.thresh k := by
  simp [State.thresh]

theorem execEsuThreshWrite_of_sees {s : State} {view : View} {t : Fin 68} (v : Word) (hopen : s.viewOpen view = true)
    (hsees : seesTarget view t = true) :
    execEsuThreshWrite view t v s = .next (s.setThresh t (v.toNat % 16)).esuEval := by
  simp [execEsuThreshWrite, State.setThresh, hopen, hsees]

/-- Settles O60: the top of the stack decides the completion; the threshold is put in place and the evaluation that follows
leaves the stacks and the thresholds. -/
theorem completesAndThresholds : Obligations.CompletesAndThresholds := by
  constructor
  · intro s view t v hopen hsees hother
    rw [exec_esuCompleteWrite, execEsuCompleteWrite_of_not_top hopen hsees hother]
  · intro s view t v hopen hsees
    rw [exec_esuThreshWrite, execEsuThreshWrite_of_sees v hopen hsees]
    refine ⟨_, rfl, ?_, ?_, ?_⟩
    · simp
    · simp
    · intro k hother
      rw [State.thresh_esuEval, State.setThresh_thresh_other _ _ hother]

end Sys2Proof.Machine
end

section
/-! SUPPORT. Offsets without a register: what each view holds is in the table, and reads and writes past it (R534, R536). -/

namespace Sys2Proof.Machine

open Sys2Proof

/-! ## The registers of an LD's view (R536) -/

/-- A family of 64-bit registers covers every aligned offset of its range. -/
theorem covered_of_aligned {base count lock reset off : Nat} {fs : List RegField}
    (hfamily : (⟨base, 8, count, 0, 1, lock, reset, fs⟩ : RegDesc) ∈ regTable) (hcount : count ≠ 1)
    (hlow : base ≤ off) (hhigh : off < base + 8 * count) (haligned : (off - base) % 8 = 0) :
    ∃ r ∈ regTable, r.covers off = true :=
  covered_of_family hfamily hcount hlow (by omega) haligned

theorem hpLdStat_mem_regTable : ⟨0x100400, 8, 64, 0, 1, 0x100008, 0, []⟩ ∈ regTable := by decide

theorem spcWinStat_mem_regTable : ⟨0x300100, 8, 8, 0, 1, 0x300008, 0, []⟩ ∈ regTable := by decide

theorem spcHb_mem_regTable : ⟨0x310000, 8, 4096, 0, 1, 0x300008, 0, [⟨63, 0, .wo, 0, 18446744073709551615⟩]⟩ ∈ regTable := by
  decide

theorem qosLmap_mem_regTable : ⟨0xA00400, 8, 64, 0, 1, 0xA00008, 0xFAC688, [⟨23, 0, .ro, 0, 16777215⟩]⟩ ∈ regTable := by decide

theorem esuSrc_mem_regTable : ⟨0xE02000, 8, 1024, 0, 1, 0, 0, [⟨58, 58, .rw, 0, 1⟩, ⟨51, 48, .rw, 0, 15⟩, ⟨45, 40, .rw, 0, 63⟩,
    ⟨36, 32, .rw, 0, 31⟩, ⟨6, 0, .rw, 0, 127⟩]⟩ ∈ regTable := by decide

/-- The single registers of an LD's view: GLB_ID, SPC_ID, TIER_STRM_SEL, TIER_STRM_STAT and TIER_STRM_LATE. -/
theorem regAt_ld_singles : ∀ off ∈ [0, 0x300000, 0x600100, 0x600108, 0x600110], (regAt off).isSome = true := by decide

/-- An LD's view holds registers of the table only. -/
theorem State.ldHolds_covered {s : State} {ld off : Nat} (hld : ld < 64) (hholds : s.ldHolds ld off = true) :
    ∃ r ∈ regTable, r.covers off = true := by
  simp only [State.ldHolds, Bool.or_eq_true, Bool.and_eq_true, decide_eq_true_eq, beq_iff_eq] at hholds
  obtain (((((((((((hid | hspc) | hwinStat) | hhb) | hsel) | hstat) | hlate) | hldStat) | hlmap) | hring) | htarget) | hsrc) :=
    hholds
  · exact regAt_covered (regAt_ld_singles off (by simp [hid]))
  · exact regAt_covered (regAt_ld_singles off (by simp [hspc]))
  · exact covered_of_aligned spcWinStat_mem_regTable (by decide) (by omega) (by omega) (by omega)
  · exact covered_of_aligned spcHb_mem_regTable (by decide) (by omega) (by omega) (by omega)
  · exact regAt_covered (regAt_ld_singles off (by simp [hsel]))
  · exact regAt_covered (regAt_ld_singles off (by simp [hstat]))
  · exact regAt_covered (regAt_ld_singles off (by simp [hlate]))
  · exact covered_of_aligned hpLdStat_mem_regTable (by decide) (by omega) (by omega) (by omega)
  · exact covered_of_aligned qosLmap_mem_regTable (by decide) (by omega) (by omega) (by omega)
  · exact regAt_covered hring.2
  · exact regAt_covered htarget.2
  · exact covered_of_aligned esuSrc_mem_regTable (by decide) (by omega) (by omega) (by omega)

/-! ## What a view holds -/

theorem regAt_isSome_iff_covered (off : Nat) : (regAt off).isSome = true ↔ ∃ r ∈ regTable, r.covers off = true :=
  List.find?_isSome

/-- Both of the module's views hold the registers of the table (R536). -/
theorem State.viewHolds_of_module (s : State) {v : View} (hmodule : v = .fm ∨ v = .core) (off : Nat) :
    s.viewHolds v off = (regAt off).isSome := by
  obtain rfl | rfl := hmodule <;> rfl

theorem State.viewHolds_covered {s : State} {v : View} {off : Nat} (hholds : s.viewHolds v off = true) :
    ∃ r ∈ regTable, r.covers off = true := by
  cases v with
  | fm | core => exact regAt_covered hholds
  | ld m => exact State.ldHolds_covered m.isLt hholds

theorem State.viewHolds_high (s : State) (v : View) {off : Nat} (hhigh : 0x1200000 ≤ off) : s.viewHolds v off = false := by
  rw [Bool.eq_false_iff]
  intro hholds
  obtain ⟨r, hr, hcovers⟩ := State.viewHolds_covered hholds
  have hlow := RegDesc.covers_low hr hcovers
  omega

/-! ## Reads and writes where a view holds no register -/

theorem State.viewRead_of_not_holds {s : State} {v : View} {off : Nat} (hnone : s.viewHolds v off = false) :
    s.viewRead v off = 0 := by
  unfold State.viewRead
  exact if_neg (ne_true_of_eq_false hnone)

/-- The registers that stand for other state are in the table, so no branch of the write acts past it. -/
theorem State.regWrite_of_no_register (s : State) (ld : Option Nat) {off : Nat} (hnone : regAt off = none) (x : Nat) :
    s.regWrite ld off x = s := by
  obtain ⟨hb, hz, hfloor, hmoved, hlate, hlat⟩ := regAt_shown off hnone
  simp [State.regWrite, hb, hz, hfloor, hmoved, hlate, hlat, hnone]

/-- What an LD may write by REGISTER_WRITE, its view holds, unless the table has no register there. -/
theorem regAt_none_of_ldWrites {s : State} {ld off : Nat} (hwrites : ldWrites off = true) (hnone : s.ldHolds ld off = false) :
    regAt off = none := by
  simp only [ldWrites, Bool.or_eq_true, Bool.and_eq_true, decide_eq_true_eq, beq_iff_eq] at hwrites
  obtain ((rfl | rfl) | ⟨hring, -⟩) := hwrites
  · simp [State.ldHolds] at hnone
  · simp [State.ldHolds] at hnone
  · cases hreg : regAt off with
    | none => rfl
    | some d => simp [State.ldHolds, hring, hreg] at hnone

theorem exec_registerWrite (v : View) (off : Nat) (d : Word) (s : State) :
    exec (.registerWrite v off d) s = execRegisterWrite v off d s := rfl

/-- A view takes the write only when open, and an LD's only at the registers it may write; there the table has no register. -/
theorem execRegisterWrite_of_not_holds {s : State} {v : View} {off : Nat} (d : Word) (hnone : s.viewHolds v off = false) :
    execRegisterWrite v off d s = .next s := by
  cases v with
  | fm | core =>
    have hreg : regAt off = none := by simpa [State.viewHolds] using hnone
    simp [execRegisterWrite, s.regWrite_of_no_register none hreg]
  | ld m =>
    cases hwrites : ldWrites off with
    | false => simp [execRegisterWrite, hwrites]
    | true =>
      have hreg : regAt off = none := regAt_none_of_ldWrites hwrites hnone
      simp [execRegisterWrite, s.regWrite_of_no_register (some m.val) hreg]

/-- Settles O56: what a view holds is covered by the table, whose registers all end below 0x0120_0000, and past what it holds a
write either is not the view's to make or finds no register. -/
theorem offsetsWithoutARegister : Obligations.OffsetsWithoutARegister := by
  intro s v off d
  refine ⟨State.viewHolds_covered, ?_, ?_, ?_⟩
  · intro hmodule
    rw [s.viewHolds_of_module hmodule, regAt_isSome_iff_covered]
  · intro hnone
    rw [exec_registerWrite]
    exact ⟨State.viewRead_of_not_holds hnone, execRegisterWrite_of_not_holds d hnone⟩
  · intro hhigh _
    exact s.viewHolds_high v hhigh

end Sys2Proof.Machine
end

section
/-! SUPPORT. What a step is: the command at the front of the queue, or a nanosecond of the idle step. -/

namespace Sys2Proof.Machine

open Sys2Proof

/-- A step with a command waiting runs the one at the front in the state without it. -/
theorem step_of_pending {s : State} {c : Instr} {rest : List Instr} (hpending : s.pending = c :: rest) :
    step s = exec c { s with pending := rest } := by
  rw [step, hpending]

/-- A step with nothing waiting is a nanosecond. -/
theorem step_of_idle {s : State} (hpending : s.pending = []) : step s = .next s.idle := by
  rw [step, hpending]

/-- Settles O49: a step is a nanosecond of the idle step, or the command at the front of the queue. -/
theorem stepKeepsTheForms : Obligations.StepKeepsTheForms := by
  intro s t hforms hstep
  cases hpending : s.pending with
  | nil =>
    rw [step_of_idle hpending] at hstep
    exact Host.Outcome.next.inj hstep ▸ s.idle_forms hforms
  | cons c rest =>
    rw [step_of_pending hpending] at hstep
    exact exec_forms c { s with pending := rest } hforms t hstep

/-- Settles O46: the idle step is by definition the parts of the module's own work, in their order. -/
theorem stepRunsTheFrontCommand : Obligations.StepRunsTheFrontCommand :=
  ⟨fun _ _ _ hpending => step_of_pending hpending, fun s hpending => ⟨step_of_idle hpending, s.tick_now⟩⟩

end Sys2Proof.Machine
end


section
/-! SUPPORT. The header of a message (Table 9-5): its fields are runs of digits of one number of 128 bits. -/

namespace Sys2Proof.Machine

open Sys2Proof

/-- The number whose digits are the header of a message. -/
def headNum (op dirs len : Nat) (m : Msg) : Nat :=
  m.dst.val * 2 ^ 122 + m.src.val * 2 ^ 116 + dirs * 2 ^ 113 + op * 2 ^ 105 + len * 2 ^ 97 + m.label.val * 2 ^ 94 +
    m.holder * 2 ^ 82 + m.tag * 2 ^ 66 + m.cxl * 2 ^ 64 + m.synd * 2 ^ 56 + m.addr

/-- The header's fields fit Table 9-5. -/
structure HeadFits (op dirs len : Nat) (m : Msg) : Prop where
  op : op < 256
  dirs : dirs < 8
  len : len < 256
  holder : m.holder < 4096
  tag : m.tag < 65536
  cxl : m.cxl < 4
  synd : m.synd < 256
  addr : m.addr < 2 ^ 50

section
variable {op dirs len : Nat} {m : Msg}

theorem headNum_lt (h : HeadFits op dirs len m) : headNum op dirs len m < 256 ^ 16 := by
  obtain ⟨hop, hdirs, hlen, hholder, htag, hcxl, hsynd, haddr⟩ := h
  have hdst := m.dst.isLt; have hsrc := m.src.isLt; have hlabel := m.label.isLt
  unfold headNum
  omega

/-- Each field of the header is read back from its digits, since what stands below it is less than its place. -/
theorem bits_headNum (h : HeadFits op dirs len m) :
    bits (headNum op dirs len m) 127 122 = m.dst.val ∧ bits (headNum op dirs len m) 121 116 = m.src.val ∧
    bits (headNum op dirs len m) 115 113 = dirs ∧ bits (headNum op dirs len m) 112 105 = op ∧
    bits (headNum op dirs len m) 104 97 = len ∧ bits (headNum op dirs len m) 96 94 = m.label.val ∧
    bits (headNum op dirs len m) 93 82 = m.holder ∧ bits (headNum op dirs len m) 81 66 = m.tag ∧
    bits (headNum op dirs len m) 65 64 = m.cxl ∧ bits (headNum op dirs len m) 63 56 = m.synd ∧
    bits (headNum op dirs len m) 49 0 = m.addr := by
  obtain ⟨hop, hdirs, hlen, hholder, htag, hcxl, hsynd, haddr⟩ := h
  have hdst := m.dst.isLt; have hsrc := m.src.isLt; have hlabel := m.label.isLt
  simp only [bits_div]
  unfold headNum
  omega

/-- With fields that fit and data of whole units, the bytes of a message are its header's number and its data. -/
theorem msgBytes_eq (h : HeadFits op dirs len m) (hdata : m.data.length = 32 * len) :
    msgBytes op dirs m = toLe 16 (headNum op dirs len m) ++ m.data := by
  have hunits : (m.data.length + 31) / 32 = len := by omega
  obtain ⟨hop, hdirs, hlen, hholder, htag, hcxl, hsynd, haddr⟩ := h
  simp only [msgBytes, headNum, hunits, fit_self hdata, Nat.mod_eq_of_lt hop, Nat.mod_eq_of_lt hdirs, Nat.mod_eq_of_lt hlen,
    Nat.mod_eq_of_lt hholder, Nat.mod_eq_of_lt htag, Nat.mod_eq_of_lt hcxl, Nat.mod_eq_of_lt hsynd, Nat.mod_eq_of_lt haddr]

theorem leAt_msgBytes (h : HeadFits op dirs len m) (hdata : m.data.length = 32 * len) :
    leAt (msgBytes op dirs m) 0 16 = headNum op dirs len m := by
  rw [msgBytes_eq h hdata, leAt_toLe, Nat.mod_eq_of_lt (headNum_lt h)]

/-- A message is read back from its bytes: its header field by field, its data behind the 16 bytes of the header. -/
theorem msgOf_msgBytes (h : HeadFits op dirs len m) (hdata : m.data.length = 32 * len) : msgOf (msgBytes op dirs m) = m := by
  obtain ⟨hdst, hsrc, -, -, -, hlabel, hholder, htag, hcxl, hsynd, haddr⟩ := bits_headNum h
  have hdrop : (msgBytes op dirs m).drop 16 = m.data := by
    rw [msgBytes_eq h hdata]
    exact List.drop_left' (toLe_length 16 _)
  simp only [msgOf, leAt_msgBytes h hdata, hdst, hsrc, hlabel, hholder, htag, hcxl, hsynd, haddr, hdrop, Fin.ofNat_val_eq_self]

end

/-- Settles O50: the header is one number whose digits are the fields. -/
theorem headerRoundTrip : Obligations.HeaderRoundTrip := by
  intro op dirs m n hop hdirs hholder htag hcxl hsynd haddr hdata hn
  have h : HeadFits op dirs n m := ⟨hop, hdirs, hn, hholder, htag, hcxl, hsynd, haddr⟩
  obtain ⟨-, -, hdirBits, hopBits, hlenBits, -⟩ := bits_headNum h
  refine ⟨msgOf_msgBytes h hdata, ?_, ?_, ?_, ?_⟩
  · rw [headOp, leAt_msgBytes h hdata, hopBits]
  · rw [headDirs, leAt_msgBytes h hdata, hdirBits]
  · rw [headLen, leAt_msgBytes h hdata, hlenBits]
  · rw [msgBytes_eq h hdata, List.length_append, toLe_length, hdata]

end Sys2Proof.Machine
end

section
/-! SUPPORT. Which commands can stop: two, on a chunk that the channel does not have (R363). -/

namespace Sys2Proof.Machine

open Sys2Proof

theorem execParityDeltaApply_of_chunk {s : State} {k : Nat} (n : Fin 96) (hchunk : k < s.chanChunks) :
    ∃ t, execParityDeltaApply n k s = .next t :=
  ⟨_, if_neg (Nat.not_le.mpr hchunk)⟩

theorem execParityDeltaApply_of_no_chunk {s : State} {k : Nat} (n : Fin 96) (hchunk : s.chanChunks ≤ k) :
    execParityDeltaApply n k s = .fault .nearAddressAbsent :=
  if_pos hchunk

theorem execStripeReconstruct_of_chunk {s : State} {k : Nat} (n : Fin 96) (hchunk : k < s.chanChunks) :
    ∃ t, execStripeReconstruct n k s = .next t :=
  ⟨_, if_neg (Nat.not_le.mpr hchunk)⟩

theorem execStripeReconstruct_of_no_chunk {s : State} {k : Nat} (n : Fin 96) (hchunk : s.chanChunks ≤ k) :
    execStripeReconstruct n k s = .fault .nearAddressAbsent :=
  if_pos hchunk

/-- Settles O47: every command's meaning is a next state by its definition, but those of the two that test their chunk first. -/
theorem everyCommandGoesOn : Obligations.EveryCommandGoesOn := by
  intro i s
  cases i
  case parityDeltaApply n k =>
    rcases Nat.lt_or_ge k s.chanChunks with hchunk | hchunk
    · exact .inl (execParityDeltaApply_of_chunk n hchunk)
    · exact .inr ⟨execParityDeltaApply_of_no_chunk n hchunk, .inl ⟨n, k, rfl, hchunk⟩⟩
  case stripeReconstruct n k =>
    rcases Nat.lt_or_ge k s.chanChunks with hchunk | hchunk
    · exact .inl (execStripeReconstruct_of_chunk n hchunk)
    · exact .inr ⟨execStripeReconstruct_of_no_chunk n hchunk, .inr ⟨n, k, rfl, hchunk⟩⟩
  all_goals exact .inl ⟨_, rfl⟩

end Sys2Proof.Machine
end

section
/-! SUPPORT. A message that the module does not take: in bench mode it is discarded, and one for another module goes on its way. -/

namespace Sys2Proof.Machine

open Sys2Proof

/-- Settles O51: each of the messages arrives by its opcode, and the arrival decides before the message's own effect. -/
theorem benchDiscardsAndOthersForward : Obligations.BenchDiscardsAndOthersForward := by
  intro m o i s hmessage
  have harrives : ∃ f, exec i s = .next (s.arrives o m f) := by
    simp only [List.mem_cons, List.not_mem_nil, or_false, Prod.mk.injEq] at hmessage
    rcases hmessage with ⟨rfl, rfl⟩ | ⟨rfl, rfl⟩ | ⟨rfl, rfl⟩ | ⟨rfl, rfl⟩ | ⟨rfl, rfl⟩ | ⟨rfl, rfl⟩ | ⟨rfl, rfl⟩ | ⟨rfl, rfl⟩ |
      ⟨rfl, rfl⟩ | ⟨rfl, rfl⟩ | ⟨rfl, rfl⟩ | ⟨rfl, rfl⟩ | ⟨rfl, rfl⟩ | ⟨rfl, rfl⟩ | ⟨rfl, rfl⟩ | ⟨rfl, rfl⟩ | ⟨rfl, rfl⟩
    all_goals exact ⟨_, rfl⟩
  obtain ⟨f, hexec⟩ := harrives
  constructor
  · intro hbench
    rw [hexec, State.arrives_bench hbench]
  · intro hbench hother
    rw [hexec, State.arrives_transit (by simp [hbench]) hother]

end Sys2Proof.Machine
end

section
/-! SUPPORT. Commands whose sender is refused: what only the fabric manager may issue (R485), and what must travel in a session (R430). -/

namespace Sys2Proof.Machine

open Sys2Proof

/-- A standard command that only the fabric manager may send, from an LD, is refused as unsupported (R485). -/
theorem State.stdCommand_notFm {s : State} {x : Mbx} (h : s.reaches x = true) (hx : mbFm x = false) (need : Nat)
    (f : State → State) : s.stdCommand x .fm need f = (s.taken).reply x rcUnsupported [] := by
  simp [State.stdCommand, State.taken, h, hx]

/-- Settles O52: each of the vendor commands is run as the fabric manager's, each of the standard ones too, and both are refused before
their own effect. -/
theorem onlyTheFabricManager : Obligations.OnlyTheFabricManager := by
  intro x i s hreach hld
  constructor
  · intro hcommand
    have hrun : ∃ secure need f, exec i s = .next (s.command x .fm secure need f) := by
      simp only [List.mem_cons, List.not_mem_nil, or_false] at hcommand
      rcases hcommand with rfl | rfl | rfl | rfl | rfl | rfl | rfl | rfl | rfl | rfl | rfl | rfl | rfl | rfl | rfl | rfl | rfl |
        rfl | rfl | rfl | rfl | rfl | rfl | rfl | rfl | rfl | rfl | rfl | rfl | rfl | rfl | rfl | rfl | rfl | rfl | rfl | rfl |
        rfl | rfl | rfl | rfl
      all_goals exact ⟨_, _, _, rfl⟩
    obtain ⟨secure, need, f, hexec⟩ := hrun
    rw [hexec, State.command_notFm hreach hld]
  · intro hcommand
    have hrun : ∃ need f, exec i s = .next (s.stdCommand x .fm need f) := by
      simp only [List.mem_cons, List.not_mem_nil, or_false] at hcommand
      rcases hcommand with rfl | rfl | rfl
      all_goals exact ⟨_, _, rfl⟩
    obtain ⟨need, f, hexec⟩ := hrun
    rw [hexec, State.stdCommand_notFm hreach hld]

/-- Settles O53: each of the commands must be secured, and its issuer is the one that may send it. -/
theorem plainCommandsAreRefused : Obligations.PlainCommandsAreRefused := by
  intro x i s hreach hplain hcommand
  have hrun : ∃ by_ need f, exec i s = .next (s.command x by_ true need f) ∧
      ((by_ == .fm && !mbFm x) || (by_ == .ld && mbFm x)) = false := by
    simp only [List.mem_cons, List.not_mem_nil, or_false] at hcommand
    rcases hcommand with ⟨hld, hlease⟩ | ⟨hfm, hkey⟩
    · rcases hlease with rfl | rfl | rfl | rfl
      all_goals exact ⟨.ld, _, _, rfl, by simp [hld]⟩
    · rcases hkey with rfl | rfl | rfl | rfl | rfl | rfl | rfl | rfl
      all_goals exact ⟨.fm, _, _, rfl, by simp [hfm]⟩
  obtain ⟨by_, need, f, hexec, hsender⟩ := hrun
  rw [hexec, State.command_plain hreach hplain hsender]

end Sys2Proof.Machine
end

section
/-! SUPPORT. Instructions that touch their context alone: the frame of an effect. -/

namespace Sys2Proof.Machine

open Sys2Proof

/-- Putting a context back after its turn changes the contexts and the note of whose turn is next. -/
theorem State.setCtx_took (s : State) (c n : Nat) (y : Ctx) :
    (s.setCtx c y).took c n = { s with tlr := { s.tlr with ctxs := put s.tlr.ctxs c y, turns := put s.tlr.turns n c } } := rfl

/-- An instruction that touches its context alone leaves everything, changes that context and the turn note, or traps. -/
theorem State.plainOp_frame {s : State} {c : Nat} {x : Ctx} {w : Word} (hissue : s.issues c x w = true) (major : Nat)
    (f : Ctx → Word → Eff) :
    s.plainOp c major f = s ∨
    (∃ y, s.plainOp c major f = { s with tlr := { s.tlr with ctxs := put s.tlr.ctxs c y, turns := put s.tlr.turns x.tiller c } }) ∨
    (∃ k d a, s.plainOp c major f = (s.ctxTrap c x x.pc k d a false).took c x.tiller) := by
  by_cases hmajor : majorOf w = major
  · rw [State.plainOp_of hissue hmajor]
    cases heff : f x w with
    | next y => exact .inr (.inl ⟨y.advance, s.setCtx_took c x.tiller _⟩)
    | goto y p => exact .inr (.inl ⟨y.jump p, s.setCtx_took c x.tiller _⟩)
    | trap k d a => exact .inr (.inr ⟨k, d, a, rfl⟩)
  · exact .inl (State.issue_other hissue (by simp [hmajor]) _)

/-- Settles O54: each of the instructions touches its context alone. -/
theorem registerInstructionsChangeTheirContext : Obligations.RegisterInstructionsChangeTheirContext := by
  intro c i s x w hinstr hissue
  have hplain : ∃ major f, exec i s = .next (s.plainOp c major f) := by
    simp only [List.mem_cons, List.not_mem_nil, or_false] at hinstr
    rcases hinstr with rfl | rfl | rfl | rfl | rfl | rfl | rfl | rfl | rfl | rfl | rfl | rfl | rfl | rfl | rfl | rfl | rfl |
      rfl | rfl | rfl | rfl | rfl | rfl | rfl | rfl | rfl | rfl | rfl | rfl | rfl | rfl | rfl | rfl | rfl
    all_goals exact ⟨_, _, rfl⟩
  obtain ⟨major, f, hexec⟩ := hplain
  rw [hexec]
  rcases State.plainOp_frame hissue major f with hsame | ⟨y, hctx⟩ | ⟨k, d, a, htrap⟩
  · exact .inl (congrArg _ hsame)
  · exact .inr (.inl ⟨y, congrArg _ hctx⟩)
  · exact .inr (.inr ⟨k, d, a, congrArg _ htrap⟩)

end Sys2Proof.Machine
end


section
/-! SUPPORT. Host requests and evicts, what a port takes of them, and an evict that is the module's only request (R99, R102). -/

namespace Sys2Proof.Machine

open Sys2Proof

/-- The evict with which a holder leaves a line. -/
def State.evictReq (s : State) (sa holder : Nat) : Req := (s.newReq (.peer 64 0) .evict sa 7 holder .invalid 0 []).2

/-- The state with that evict as its only request. -/
def State.evicting (s : State) (sa holder : Nat) : State :=
  { s with nextId := s.nextId + 1, reqs := [s.evictReq sa holder] }

theorem State.newReq_evict {s : State} (hreqs : s.reqs = []) (sa holder : Nat) :
    s.newReq (.peer 64 0) .evict sa 7 holder .invalid 0 [] = (s.evicting sa holder, s.evictReq sa holder) := by
  simp [State.evicting, State.evictReq, State.newReq, hreqs]

/-- An evict of a line homed here is served here. -/
theorem State.evictLine_home {s : State} {sa holder : Nat} (hreqs : s.awake.reqs = []) (hhomes : s.awake.homes (saPage sa) = true)
    (hhome : s.awake.pageHome (saPage sa) = s.awake.me) :
    s.evictLine sa holder = (s.awake.evicting sa holder).serve (s.awake.evictReq sa holder).id := by
  have hhomes' : (s.awake.evicting sa holder).homes (saPage sa) = true := hhomes
  have hhome' : (s.awake.evicting sa holder).pageHome (saPage sa) = (s.awake.evicting sa holder).me := hhome
  have hpage : (s.awake.evictReq sa holder).page = saPage sa := rfl
  simp [State.evictLine, State.newReq_evict hreqs, State.route, hhomes', hhome', hpage, State.atHome]

theorem State.each_singleton {α : Type} (s : State) (a : α) (f : State → α → State) : s.each [a] f = f s a := rfl

/-- Settles O1: each request is taken by its port and goes on to its own function; an evict of a tracked line is served here as
the only request. -/
theorem hostRequestsAreServed : Obligations.HostRequestsAreServed := by
  refine ⟨?_, ?_, ?_, ?_, ?_, ?_, ?_, ?_, ?_, ?_, ?_, ?_⟩
  · intro s ld hpa tag label sa mv ide hHostOpen hIdeRefuses hHedge
    show execHostRead ld hpa mv tag ide s = _
    simp [execHostRead, hHostOpen, hIdeRefuses, hHedge]
  · intro s ld hpa tag label sa mv mask data ide hHostOpen hIdeRefuses hHedge hLdOwes
    show execHostWrite ld hpa mv tag mask data ide s = _
    simp [execHostWrite, hHostOpen, hIdeRefuses, hHedge, hLdOwes]
  · intro s ld hpa tag label sa mv mask data ide hHostOpen hIdeRefuses hHedge hLdOwes
    show execHostWrite ld hpa mv tag mask data ide s = _
    simp [execHostWrite, hHostOpen, hIdeRefuses, hHedge, hLdOwes]
  · intro s ld hpa tag label sa mask data hHostOpen hBump
    show execUioRequest ld hpa true tag mask data s = _
    simp [execUioRequest, hHostOpen, hBump]
  · intro s ld hpa tag label sa mask data hHostOpen hBump
    show execUioRequest ld hpa false tag mask data s = _
    simp [execUioRequest, hHostOpen, hBump]
  · intro s ld hpa label sa e hHostOpen hHedge hKindAt hReqs hHomes hPageHome hDozeHolds hContains hRespreadOf hIsVlr hDirEnt hSt hForm hHolderOf
    show execHostCleanEvict ld hpa s = _
    have htaken : (s.awake.hdg.takeover.contains (s.awake.pageHome (saPage (sa / 64 * 64))) ||
        s.awake.hdg.twinMarks.contains (saPage (sa / 64 * 64))) = false := by rw [hPageHome]; exact hContains
    have hserve := State.serve_evict (u := s.awake.evicting (sa / 64 * 64) (s.holderOf ld)) rfl rfl rfl rfl hDozeHolds htaken
      hRespreadOf hIsVlr hDirEnt hSt hForm hHolderOf
    have hrest : { s.awake with nextId := s.awake.nextId + 1, reqs := [] } = { s.awake with nextId := s.awake.nextId + 1 } := by
      rw [← hReqs]
    simp only [execHostCleanEvict, hHostOpen, hHedge, hKindAt, Bool.not_true, Bool.false_eq_true, if_false, if_true,
      State.evictLine_home hReqs hHomes hPageHome, hserve]
    rw [← hrest]
    rfl
  · intro s ld hpa label sa hHostOpen hHedge hKindAt
    show execHostCleanEvict ld hpa s = _
    simp [execHostCleanEvict, hHostOpen, hHedge, hKindAt]
  · intro s ld line rsp hPortUp hFind
    show execHostBirsp ld line 1 rsp none s = _
    simp [execHostBirsp, hPortUp, List.range_one, State.each_singleton, hFind]
  · intro s ld line rsp o hPortUp hFind
    show execHostBirsp ld line 1 rsp none s = _
    simp [execHostBirsp, hPortUp, List.range_one, State.each_singleton, hFind]
  · intro s p phase hPortUp
    show execGlobalPersistentFlush p phase s = _
    simp [execGlobalPersistentFlush, hPortUp]
  · intro s ld w off v h l hHostOpen hLeaseAt hSt hNow
    exact execSpcHbWrite_of_active off v hHostOpen hLeaseAt hSt hNow
  · intro s ld hHostOpen
    show execFunctionLevelReset ld s = _
    simp [execFunctionLevelReset, hHostOpen]

end Sys2Proof.Machine
end

section
/-! SUPPORT. The commands of leases, accounts, slots, the directory and code tables: their checks pass, so their effect is left. -/

namespace Sys2Proof.Machine

open Sys2Proof

/-- Settles O2: each command's sender and checks pass, and its lease is found. -/
theorem leaseCommandsAct : Obligations.LeaseCommandsAct := by
  refine ⟨?_, ?_, ?_, ?_, ?_, ?_, ?_, ?_⟩
  · intro s x rs p hsent hData hnoByte hMemberOf hFormedOrBench hReadGReqs hExtNeed hWord hHalf hWindowFree hPlanAll hOrder hAdmitPlan
    show execLeaseGrant x s = _
    have hlong : ¬x.data.length < 16 + 16 * mb8 x 5 := Nat.not_lt.mpr hData
    simp only [execLeaseGrant, State.command_sent hsent, State.grantCmd, ↓if_neg hlong, ↓if_neg hnoByte, hMemberOf,
      hFormedOrBench, hReadGReqs, State.withExts_known hExtNeed, State.grantNow, hWord, ↓if_neg (Nat.not_lt.mpr hHalf), hWindowFree,
      State.grantDo, hPlanAll, ↓if_neg (Nat.not_lt.mpr hOrder), hAdmitPlan, ne_eq, not_true, Bool.not_true, Bool.false_eq_true, ↓reduceIte]
  · intro s x rs p l hsent hData hnoByte hMemberOf hFormedOrBench hReadGReqs hExtNeed hWord hLeases hSt hLd hAcct hPlanAll hOrder hAdmitPlan
    show execLeaseGrant x s = _
    have hlong : ¬x.data.length < 16 + 16 * mb8 x 5 := Nat.not_lt.mpr hData
    have hown : ¬(l.st ≠ .active ∨ l.ld ≠ some (mbWho x)) := by simp [hSt, hLd]
    have hsame : ¬(l.acct ≠ mb8 x 0 ∨ l.window ≠ mb8 x 1 ∨ l.rights ≠ mb8 x 4) := by simp [hAcct]
    simp only [execLeaseGrant, State.command_sent hsent, State.grantCmd, ↓if_neg hlong, ↓if_neg hnoByte, hMemberOf,
      hFormedOrBench, hReadGReqs, State.withExts_known hExtNeed, State.grantNow, ↓if_pos hWord, hLeases, ↓if_neg hown, ↓if_neg hsame,
      State.grantDo, hPlanAll, ↓if_neg (Nat.not_lt.mpr hOrder), hAdmitPlan, Bool.not_true, Bool.false_eq_true, ↓reduceIte]
  · intro s x l hsent hHalf hLeases hLd hSt hNow
    show execLeaseRenew x s = _
    simp [execLeaseRenew, State.command_sent hsent, ↓if_neg (Nat.not_lt.mpr hHalf), hLeases, hLd, hSt, hNow, State.renew]
  · intro s x l hsent hLeases hLd hSt hnoNamedExts
    show execLeaseRelease x s = _
    simp only [execLeaseRelease, State.command_sent hsent, State.taken_spc, State.taken_now, hLeases, hLd, hSt, ne_eq, not_true,
      or_self, ↓if_neg hnoNamedExts, ↓reduceIte]
  · intro s x l hsent hnoTokLock hnoMemberOf hLeaseFor hnoTokenStatus hnoTokenStatus2 hnoWindowFor
    show execLeaseAttach x s = _
    simp only [execLeaseAttach, State.command_sent hsent, ↓if_neg hnoTokLock, ↓if_neg hnoMemberOf, hLeaseFor, ↓if_neg hnoTokenStatus,
      ↓if_neg hnoTokenStatus2, ↓if_neg hnoWindowFor]
  · intro s x hsent hnoTokLock hnoMemberOf hLeaseFor hnoWindowFor hnoPeers
    show execLeaseAttach x s = _
    simp only [execLeaseAttach, State.command_sent hsent, ↓if_neg hnoTokLock, ↓if_neg hnoMemberOf, hLeaseFor, ↓if_neg hnoWindowFor,
      ↓if_neg hnoPeers]
  · intro s x l hsent hWord hHalf hHalf2 hData hHalf3 hLeaseFor hnoLd
    show execLeaseQuery x s = _
    have hcount : ¬(mb16 x 12 = 0 ∨ mb16 x 12 > 1024 ∨ (mb32 x 0 = 0 ∧ mb8 x 4 ≥ 8) ∨ leAt x.data 5 3 ≠ 0 ∨ mb16 x 14 ≠ 0) := by
      omega
    simp only [execLeaseQuery, State.command_sent hsent, ↓if_neg hcount, ↓if_pos hWord, hLeaseFor, Option.map_some]
    exact congrArg _ (if_neg hnoLd)
  · intro s x l hsent hWord hMe hLeases hSt hnoNamedExts
    show execLeaseRevoke x s = _
    have hbound : ¬(mb32 x 12 ≠ 0 ∧ (mb32 x 12 < 100 ∨ mb32 x 12 > 50000)) := by omega
    have hheld : ¬(l.st ≠ .active ∧ l.st ≠ .orphan) := by tauto
    simp only [execLeaseRevoke, State.command_sent hsent, ↓if_neg hbound, hMe, State.taken_me, State.taken_spc, hLeases,
      ↓if_neg hheld, ↓if_neg hnoNamedExts, ne_eq, not_true, ↓reduceIte]

/-- Settles O3: each command is sent by its issuer and passes its checks; the re-spread steps find the extent's re-spread. -/
theorem accountAndSpreadCommandsAct : Obligations.AccountAndSpreadCommandsAct := by
  refine ⟨?_, ?_, ?_, ?_, ?_, ?_, ?_, ?_⟩
  · intro s x hsent hnoData hMe hGranted
    show execAccountSet x s = _
    simp only [execAccountSet, State.command_sent hsent, ↓if_neg hnoData, ↓if_pos hMe, ↓if_neg (Nat.not_lt.mpr hGranted)]
  · intro s x hsent hMe
    show execAccountQuery x s = _
    simp only [execAccountQuery, State.command_sent hsent, hMe, ↓reduceIte]
  · intro s x hsent hByte hHalf hData hAcct hAcct2 hAccts
    show execAccountBindAdd x s = _
    have hop : ¬((mb8 x 1 ≠ 1 ∧ mb8 x 1 ≠ 2) ∨ mb16 x 2 ≥ 4096 ∨ leAt x.data 4 12 ≠ 0) := by omega
    have hroom : ¬((s.taken.acct (mb8 x 0)).members.length ≥ 256 ∨
        ((vals s.taken.spc.accts).filter fun y => y.members.contains (mb16 x 2)).length ≥ 8) := by
      rw [State.taken_spc]; omega
    have hnew : addNew (s.taken.acct (mb8 x 0)).members (mb16 x 2) = (s.taken.acct (mb8 x 0)).members ++ [mb16 x 2] := by
      simp [addNew, hAcct]
    have hmore : (s.taken.acct (mb8 x 0)).members ++ [mb16 x 2] ≠ (s.taken.acct (mb8 x 0)).members := by simp
    simp only [execAccountBindAdd, State.bindAcct, State.command_sent hsent, ↓if_neg hop, hByte, hroom, hnew, hmore, ↓reduceIte,
      and_false]
  · intro s x hsent hByte hHalf hData hAcct
    show execAccountBindRemove x s = _
    have hop : ¬((mb8 x 1 ≠ 1 ∧ mb8 x 1 ≠ 2) ∨ mb16 x 2 ≥ 4096 ∨ leAt x.data 4 12 ≠ 0) := by omega
    have hgone : (s.taken.acct (mb8 x 0)).members.filter (· != mb16 x 2) ≠ (s.taken.acct (mb8 x 0)).members := by
      intro hsame
      simpa using List.filter_eq_self.mp hsame _ hAcct
    simp only [execAccountBindRemove, State.bindAcct, State.command_sent hsent, ↓if_neg hop, hByte, ↓if_neg hgone, OfNat.ofNat_ne_one,
      false_and, ↓reduceIte]
  · intro s x xt hsent hWord hData hBgBusy hExtNeed hExtents hnoSpread hnoIsLive hnoAdmitsSlot hMe
    show execExtentRespread x s = _
    have hfields : ¬(mb32 x 0 ≥ 2 ^ 20 ∨ leAt x.data 6 10 ≠ 0) := by omega
    simp only [execExtentRespread, State.command_sent hsent, State.respreadCmd, ↓if_neg hfields, State.bgCommand_free hBgBusy,
      State.withExts_known hExtNeed, State.respreadNow, hExtents, ↓if_neg hnoSpread, ↓if_neg hnoIsLive, ↓if_neg hnoAdmitsSlot, hMe]
  · intro s e page xt q hRespreadNext hMove hSlotsOf hSetMove
    show execRespreadPageMove e page s = _
    simp [execRespreadPageMove, hRespreadNext, hMove, hSlotsOf, hSetMove]
    simp [Move.mk0]
  · intro s e page xt q m hRespreadNext hMove hKind hIssued
    show execRespreadPageMoved e page s = _
    simp [execRespreadPageMoved, hRespreadNext, hMove, hKind, hIssued]
  · intro s e who xt q hExtents hRespread hDone hReqs hPutExtent
    show execRespreadPortalSwitch e s = _
    simp [execRespreadPortalSwitch, hExtents, hRespread, hDone, hReqs, hPutExtent]

/-- Settles O4: the event's condition selects its branch. -/
theorem pullThroughAndSlotCommandsAct : Obligations.PullThroughAndSlotCommandsAct := by
  refine ⟨?_, ?_, ?_, ?_, ?_, ?_, ?_, ?_⟩
  · intro s page m hMove hKind
    show execPullThroughDone page s = _
    simp [execPullThroughDone, hMove, hKind]
  · intro s page m hMove hKind
    show execPullThroughRaise page s = _
    simp [execPullThroughRaise, hMove, hKind]
  · intro s page m hMove hKind
    show execPullThroughDlMiss page s = _
    simp [execPullThroughDlMiss, hMove, hKind]
  · intro s r q m hReq hMove hOp
    show execStreamPtBoundExpire r s = _
    simp [execStreamPtBoundExpire, hReq, hMove, hOp]
  · intro s page x hOpenSlot hNow
    show execMbSlotWindowExpire page s = _
    simp [execMbSlotWindowExpire, hOpenSlot, hNow]
  · intro s r q hReq hSlotFree
    show execMbWriteSlotWaitEnd r s = _
    simp [execMbWriteSlotWaitEnd, hReq, hSlotFree]
  · intro s page x hClosedSlot hnoRecoding
    show execSlotRecodeStart page s = _
    simp [execSlotRecodeStart, hClosedSlot, hnoRecoding]
  · intro s page x h hFind hBuilt hnoDurablePage hDurablePage
    show execRecodeWriteDone page s = _
    simp [execRecodeWriteDone, hFind, hBuilt, hnoDurablePage, hDurablePage]

/-- Settles O5: the timer's lease or drain is found and its time has come. -/
theorem leaseTimersAct : Obligations.LeaseTimersAct := by
  refine ⟨?_, ?_, ?_, ?_, ?_, ?_⟩
  · intro s h l d hnoBoot hLeases hLd hSt
    show execLeaseQuarterLeft h s = _
    simp [execLeaseQuarterLeft, ↓if_neg hnoBoot, hLeases, hLd, ↓if_pos hSt]
  · intro s h l hnoBoot hLeases hSt
    show execLeaseTimerExpire h s = _
    simp [execLeaseTimerExpire, hnoBoot, hLeases, hSt]
  · intro s h l hnoBoot hLeases hSt
    show execLeaseGraceExpire h s = _
    simp [execLeaseGraceExpire, hnoBoot, hLeases, hSt]
  · intro s h d hnoInGrace hFind
    show execLeaseDrainEnd h s = _
    simp [execLeaseDrainEnd, hnoInGrace, hFind]
  · intro s h d hnoInGrace hFind
    show execDrainBoundExpire h s = _
    simp [execDrainBoundExpire, hnoInGrace, hFind]
  · intro s ld t hTokLock hNow
    show execTokenLockoutEnd ld s = _
    simp [execTokenLockoutEnd, hTokLock, hNow]

/-- Settles O6: the entry, page or extent is found and no check refuses. -/
theorem directoryCommandsAct : Obligations.DirectoryCommandsAct := by
  refine ⟨?_, ?_, ?_, ?_, ?_, ?_, ?_, ?_⟩
  · intro s r q hReq hnoWaitsFor hnoServe
    show execDirectoryWaitEnd r s = _
    simp [execDirectoryWaitEnd, hReq, hnoWaitsFor, hnoServe]
  · intro s holder hFilter
    show execSnoopTimeout holder s = _
    simp [execSnoopTimeout, ↓if_neg hFilter]
  · intro s hnoSweepBusy
    show execHolderSweepDone s = _
    simp [execHolderSweepDone, hnoSweepBusy]
  · intro s x xt p y4 y5 ne hsent hnoWord hnoMayPublish hBgBusy hExtNeed hExtents hnoKind hnoHomesFor hPlanNew hTaken hMap hnoCls
    show execPubBuild x s = _
    dsimp only at hTaken hMap
    rw [hMap] at hTaken
    simp only [execPubBuild, State.buildCmd, State.buildNow, State.command_sent hsent, ↓if_neg hnoWord,
      ↓if_neg hnoMayPublish, State.bgCommand_free hBgBusy, State.withExts_known hExtNeed, hExtents, ↓if_neg hnoKind,
      ↓if_neg hnoHomesFor, hPlanNew, hTaken, hMap, ↓if_neg hnoCls]
  · intro s x hsent hnoData hnoHalf hTaken hnoFormedOrBench hTaken2
    show execPubFlip x s = _
    simp only [execPubFlip, State.command_sent hsent, ↓if_neg hnoData, ↓if_neg hnoHalf, hTaken, ↓if_neg hnoFormedOrBench, hTaken2,
      ↓reduceIte]
  · intro s e x hExtents hnoServing hMe
    show execPubOldReclaim e s = _
    simp [execPubOldReclaim, hExtents, ↓if_neg hnoServing, hMe]
  · intro s e x hExtents hnoServing hnoMe hIsLive
    show execPubOldReclaim e s = _
    simp [execPubOldReclaim, hExtents, ↓if_neg hnoServing, ↓if_neg hnoMe, hIsLive]
  · intro s x hsent hnoQuad hHomes
    show execDirQuery x s = _
    simp [execDirQuery, State.command_sent hsent, ↓if_neg hnoQuad, hHomes]

/-- Settles O7: the slot's state passes the command's checks. -/
theorem codeTableCommandsAct : Obligations.CodeTableCommandsAct := by
  refine ⟨?_, ?_, ?_, ?_, ?_, ?_, ?_⟩
  · intro s x xt hsent hnoByte hExtNeed hExtents hnoMayExtent hnoElem hnoStagingBusy hBgBusy
    show execTrain x s = _
    simp only [execTrain, State.trainCmd, State.command_sent hsent, ↓if_neg hnoByte, State.withExts_known hExtNeed,
      hExtents, ↓if_neg hnoMayExtent, ↓if_neg hnoElem, ↓if_neg hnoStagingBusy, State.bgCommand_free hBgBusy]
  · intro s x hsent hnoByte hnoStagingBusy hC
    show execTableLoad x s = _
    simp [execTableLoad, State.command_sent hsent, hnoByte, hnoStagingBusy, hC]
  · intro s x t n hsent hnoByte hnoSpaceWide hnoStagingBusy hStaging hTableSt
    show execTablePublish x s = _
    simp only [execTablePublish, State.command_sent hsent, ↓if_neg hnoByte, ↓if_neg hnoSpaceWide, ↓if_neg hnoStagingBusy, hStaging, hTableSt]
  · intro s x xt hsent hExtNeed hExtents hnoByte hnoCls hnoTableSt hnoTables
    show execTableBind x s = _
    simp only [execTableBind, State.bindCmd, State.command_sent hsent, State.withExts_known hExtNeed, hExtents,
      ↓if_neg hnoByte, ↓if_neg hnoCls, ↓if_neg hnoTableSt, ↓if_neg hnoTables]
  · intro s x t hsent hnoByte hnoSpaceWide hTables hnoSt
    show execTableRetire x s = _
    simp only [execTableRetire, State.command_sent hsent, ↓if_neg hnoByte, ↓if_neg hnoSpaceWide, hTables, ↓if_neg hnoSt]
  · intro s x hsent hnoByte
    show execTableQuery x s = _
    simp [execTableQuery, State.command_sent hsent, hnoByte]
  · intro s slot t hTables hnoSt hnoCopyAll
    show execTableSlotFreed slot s = _
    simp [execTableSlotFreed, hTables, ↓if_neg hnoSt, ↓if_neg hnoCopyAll]

/-- Settles O8: the extent is known and no check refuses; the events find their page. -/
theorem recodeAndVlrCommandsAct : Obligations.RecodeAndVlrCommandsAct := by
  refine ⟨?_, ?_, ?_, ?_, ?_, ?_, ?_⟩
  · intro s x xt hsent hExtNeed hExtents hnoMayExtent hBgBusy hTaken
    show execRecode x s = _
    simp only [execRecode, State.recodeCmd, State.command_sent hsent, State.withExts_known hExtNeed, hExtents,
      ↓if_neg hnoMayExtent, State.bgCommand_free hBgBusy, ↓if_pos hTaken]
  · intro s x xt hsent hExtNeed hExtents hnoMayExtent hBgBusy hTaken
    show execRecode x s = _
    simp only [execRecode, State.recodeCmd, State.command_sent hsent, State.withExts_known hExtNeed, hExtents,
      ↓if_neg hnoMayExtent, State.bgCommand_free hBgBusy, ↓if_neg hTaken]
  · intro s x xt hsent hExtNeed hExtNeed2 hExtents hnoMayExtent hnoCls hTaken
    show execVlrBind x s = _
    simp only [execVlrBind, State.vlrCmd, State.withExts_known hExtNeed2, State.vlrNow, State.command_sent hsent,
      State.withExts_known hExtNeed, hExtents, ↓if_neg hnoMayExtent, ↓if_neg hnoCls, hTaken, ↓reduceIte]
  · intro s x xt hsent hExtNeed hExtents hnoMayExtent hnoCls
    show execVlrDiscard x s = _
    simp only [execVlrDiscard, State.discardCmd, State.command_sent hsent, State.withExts_known hExtNeed, hExtents,
      ↓if_neg hnoMayExtent, ↓if_neg hnoCls]
  · intro s page x hPmeOf hnoPmeOf hnoSlotsOf hTakeSlot
    show execBgRecodePage page s = _
    simp only [execBgRecodePage, hPmeOf, ↓if_neg hnoPmeOf, ↓if_neg hnoSlotsOf, hTakeSlot, ↓reduceIte, Bool.false_eq_true]
  · intro s page x v hnoExpands hExtent hVlr
    show execVlrExpansionDone page s = _
    simp [execVlrExpansionDone, hnoExpands, hExtent, hVlr]
  · intro s c page hModCtx hExpRank hOnTlr
    show execExpansionQueueStart s = _
    simp only [execExpansionQueueStart, hModCtx, hExpRank, hOnTlr]

end Sys2Proof.Machine
end

section
/-! SUPPORT. Tiering, streaming and the far tier: each event's condition holds, so its effect is left. -/

namespace Sys2Proof.Machine

open Sys2Proof

/-- Settles O9: the event's condition selects its branch. -/
theorem tierMovesAct : Obligations.TierMovesAct := by
  refine ⟨?_, ?_, ?_, ?_, ?_, ?_, ?_⟩
  · intro s hOn
    show execEpochBoundary s = _
    simp [execEpochBoundary, hOn]
  · intro s page hnoPme
    show execAgeWalkerVisit page s = _
    exact congrArg _ (if_neg hnoPme)
  · intro s page hEvicting
    show execEvictionPage page s = _
    simp [execEvictionPage, hEvicting]
  · intro s page m hMove hKind hRevoked
    show execDemotionDone page s = _
    simp [execDemotionDone, hMove, hKind, hRevoked]
  · intro s page m hMove hKind hnoRevoked
    show execDemotionDone page s = _
    simp [execDemotionDone, hMove, hKind, hnoRevoked]
  · intro s page m hMove hKind
    show execPromotionDone page s = _
    simp [execPromotionDone, hMove, hKind]
  · intro s page m hMove hnoKind
    show execRelocationDone page s = _
    simp [execRelocationDone, hMove, hnoKind]

/-- Settles O10: the commands' field checks hold by arithmetic, and the rest of their checks by hypothesis. -/
theorem streamAndPinCommandsAct : Obligations.StreamAndPinCommandsAct := by
  refine ⟨?_, ?_, ?_, ?_, ?_, ?_, ?_, ?_⟩
  · intro s x hsent hSheaves
    show execPolicyActivate x s = _
    simp [execPolicyActivate, State.command_sent hsent, ↓if_pos hSheaves]
  · intro s x f i hsent hSheaves hnoKind hTaken hTaken2 hFreeSched
    show execStreamStart x s = _
    simp only [execStreamStart, State.command_sent hsent, hSheaves, ↓if_neg hnoKind, ↓if_neg hTaken, ↓if_neg hTaken2, hFreeSched]
  · intro s x c hsent hScheds hnoMayStream hSt
    show execStreamStop x s = _
    simp only [execStreamStop, State.command_sent hsent, hScheds, ↓if_neg hnoMayStream, hSt, ↓reduceIte]
  · intro s x c hsent hScheds hnoMayStream
    show execStreamQuery x s = _
    simp only [execStreamQuery, State.command_sent hsent, hScheds, ↓if_neg hnoMayStream]
  · intro s x hsent hnoWord hnoMayName hTaken
    show execPagePin x s = _
    simp only [execPagePin, State.command_sent hsent, ↓if_neg hnoWord, ↓if_neg hnoMayName, ↓if_neg hTaken]
  · intro s x hsent hnoWord hnoMayName
    show execPageUnpin x s = _
    simp only [execPageUnpin, State.command_sent hsent, ↓if_neg hnoWord, ↓if_neg hnoMayName]
  · intro s x hsent hnoByte hnoMayName hBgBusy
    show execTierMovePromote x s = _
    simp only [execTierMovePromote, State.tierMove, State.command_sent hsent, ↓if_neg hnoByte, ↓if_neg hnoMayName,
      State.bgCommand_free hBgBusy]
  · intro s x hsent hnoByte hnoMayName hBgBusy
    show execTierMoveDemote x s = _
    simp only [execTierMoveDemote, State.tierMove, State.command_sent hsent, ↓if_neg hnoByte, ↓if_neg hnoMayName,
      State.bgCommand_free hBgBusy]

/-- Settles O11: the request at the head of the port is the one named, and the layer's condition holds. -/
theorem placementAndLayersAct : Obligations.PlacementAndLayersAct := by
  refine ⟨?_, ?_, ?_, ?_, ?_, ?_, ?_⟩
  · intro s q rest hPlaceQ hOp
    show execPlacePromote s = _
    simp [execPlacePromote, State.placeHead, hPlaceQ, hOp]
  · intro s q rest hPlaceQ hOp
    show execPlaceDemote s = _
    simp [execPlaceDemote, State.placeHead, hPlaceQ, hOp]
  · intro s q rest hPlaceQ hOp
    show execPlaceDiscard s = _
    simp [execPlaceDiscard, State.placeHead, hPlaceQ, hOp]
  · intro s q rest hPlaceQ hOp
    show execPlacePin s = _
    simp [execPlacePin, State.placeHead, hPlaceQ, hOp]
  · intro s q rest hPlaceQ hOp
    show execPlaceUnpin s = _
    simp [execPlaceUnpin, State.placeHead, hPlaceQ, hOp]
  · intro s i c hScheds hnoSt
    show execStreamLayerPromote i s = _
    simp [execStreamLayerPromote, hScheds, ↓if_neg hnoSt]
  · intro s i layer c hScheds hnoSt
    show execStreamLayerResident i layer s = _
    simp only [execStreamLayerResident, hScheds]
    exact congrArg _ (if_neg hnoSt)

/-- Settles O12: the event's condition selects its branch. -/
theorem farTierEventsAct : Obligations.FarTierEventsAct := by
  refine ⟨?_, ?_, ?_, ?_, ?_, ?_, ?_, ?_, ?_, ?_, ?_⟩
  · intro s page res m hMove hnoKind hnoInBuffer hnoDieGo
    show execFarReadDone page res s = _
    simp [execFarReadDone, hMove, hnoKind, hnoInBuffer, hnoDieGo]
  · intro s page journal hjournal hJrnlReady
    show execFarRowProgramDone page journal s = _
    simp [execFarRowProgramDone, hjournal, hJrnlReady]
  · intro s page journal r it hnoJournal hItemOf hRowFull
    show execFarRowProgramDone page journal s = _
    simp [execFarRowProgramDone, hnoJournal, hItemOf, hRowFull]
  · intro s page journal t hjournal hJrnlWin hNow
    show execDurWinExpire page journal s = _
    simp [execDurWinExpire, hjournal, hJrnlWin, hNow]
  · intro s page journal r it hnoJournal hItemOf hWhy
    show execDurWinExpire page journal s = _
    simp [execDurWinExpire, hnoJournal, hItemOf, hWhy]
  · intro s chan die band hBandCount
    show execFarProgramFail chan die band s = _
    simp [execFarProgramFail, hBandCount]
  · intro s chan band hBandCount
    show execFarEraseFail chan band s = _
    simp [execFarEraseFail, hBandCount]
  · intro s page hPmeOf
    show execGcBandCopy page s = _
    simp [execGcBandCopy, ↓if_pos hPmeOf]
  · intro s band hBand
    show execBandErase band s = _
    exact congrArg _ (if_pos hBand)
  · intro s hGovLevel
    show execGovernorRefill s = _
    exact congrArg _ (if_pos hGovLevel)
  · intro s hJrnl
    show execJournalCheckpoint s = _
    simp [execJournalCheckpoint, hJrnl]

/-- Settles O13: the wear figures are read at the state the command leaves, and the die's checks pass. -/
theorem farCommandsAct : Obligations.FarCommandsAct := by
  refine ⟨?_, ?_⟩
  · intro s x hsent
    show execFarWearQuery x s = _
    simp [execFarWearQuery, State.command_sent hsent]
  · intro s x hsent hnoDieCount hnoDie hTaken hBgBusy
    show execFarDieRetire x s = _
    simp only [execFarDieRetire, State.command_sent hsent, ↓if_neg hnoDieCount, ↓if_neg hnoDie, hTaken, State.bgCommand_free hBgBusy,
      ↓reduceIte]

end Sys2Proof.Machine
end

section
/-! SUPPORT. Contexts, sheaves, rings and tillers: each event finds what it names. -/

namespace Sys2Proof.Machine

open Sys2Proof

/-- Settles O20: the context and its operation are found. -/
theorem contextEventsAct : Obligations.ContextEventsAct := by
  refine ⟨?_, ?_, ?_, ?_, ?_, ?_, ?_⟩
  · intro s c op x o hCtxs hFind
    show execAsyncOpDone c op s = _
    simp only [execAsyncOpDone, hCtxs, hFind]
  · intro s c x q e hCtxs hnoWait hSheaves hExtents
    show execFetchfDone c s = _
    simp only [execFetchfDone, hCtxs, ↓if_neg hnoWait, hSheaves, hExtents]
  · intro s c hPolCtx
    show execWaitgReevaluate c s = _
    simp [execWaitgReevaluate, hPolCtx]
  · intro s c x y3 y4 y5 q hnoPolCtx hCtxs hWait hSheaves hnoEnded
    show execWaitgReevaluate c s = _
    simp [execWaitgReevaluate, hnoPolCtx, hCtxs, hWait, hSheaves, hnoEnded]
  · intro s c x y3 y4 y5 t q hCtxs hWait hGateEnd hSheaves hnoNow
    show execWaitgTimeout c s = _
    simp [execWaitgTimeout, hCtxs, hWait, hGateEnd, hSheaves, hnoNow]
  · intro s c x hCtxs hResident
    show execContextQuantumExpire c s = _
    simp [execContextQuantumExpire, hCtxs, hResident]
  · intro s c x hCtxs hFilter hMakeRoom
    show execContextSwapDone c s = _
    simp only [execContextSwapDone, hCtxs, hFilter, hMakeRoom, ↓reduceIte]

/-- Settles O21: no check refuses the command. -/
theorem sheafCommandsAct : Obligations.SheafCommandsAct := by
  refine ⟨?_, ?_, ?_, ?_, ?_, ?_⟩
  · intro s x b hsent hnoByte hnoByte2 hReadImage hByte hnoLength
    show execSheafLoad x s = _
    simp [execSheafLoad, State.sheafCmd, State.command_sent hsent, ↓if_neg hnoByte, ↓if_neg hnoByte2, hReadImage, hByte,
      ↓if_neg hnoLength]
  · intro s x b ls hsent hnoByte hnoByte2 hReadImage hnoByte3 hnoImageShape hExtNeed hGrantLeases
    show execSheafLoad x s = _
    simp only [execSheafLoad, State.sheafCmd, State.command_sent hsent, ↓if_neg hnoByte, ↓if_neg hnoByte2, hReadImage,
      ↓if_neg hnoByte3, ↓if_neg hnoImageShape, State.withExts_known hExtNeed, hGrantLeases]
  · intro s x q hsent hSheaves hnoMaySheaf hnoSheafUsed
    show execSheafUnload x s = _
    simp only [execSheafUnload, State.command_sent hsent, hSheaves, ↓if_neg hnoMaySheaf, ↓if_neg hnoSheafUsed]
  · intro s x q hsent hSheaves hnoMaySheaf
    show execSheafQuery x s = _
    simp only [execSheafQuery, State.command_sent hsent, hSheaves, ↓if_neg hnoMaySheaf]
  · intro s x hsent hMe
    show execCtxCancel x s = _
    simp [execCtxCancel, State.command_sent hsent, hMe]
  · intro s n v hTestBit
    show execTlrSigPopWrite n v s = _
    simp [execTlrSigPopWrite, hTestBit]

/-- Settles O22: the ring's head holds the descriptor, and no check refuses it. -/
theorem descriptorRingsAct : Obligations.DescriptorRingsAct := by
  refine ⟨?_, ?_, ?_, ?_, ?_, ?_, ?_, ?_, ?_, ?_⟩
  · intro s ld r v hnoHostOpen
    show execTlrRqTailWrite ld r v s = _
    simp [execTlrRqTailWrite, hnoHostOpen]
  · intro s ld r v hnoHostOpen hTestBit
    show execTlrRqCfgEnable ld r v s = _
    simp [execTlrRqCfgEnable, hnoHostOpen, hTestBit]
  · intro s ld r v hnoHostOpen hnoTestBit
    show execTlrRqCfgEnable ld r v s = _
    simp [execTlrRqCfgEnable, hnoHostOpen, hnoTestBit]
  · intro s ld r v hnoHostOpen
    show execTlrCqCfgEnable ld r v s = _
    simp [execTlrCqCfgEnable, hnoHostOpen]
  · intro s ld r v hnoHostOpen
    show execTlrCqHeadWrite ld r v s = _
    simp [execTlrCqHeadWrite, hnoHostOpen]
  · intro s ld r d hHeadDesc hnoDescOk hnoDescOk2 hnoQuerySheaf hnoPlaceOk
    show execDescStart ld r s = _
    simp [execDescStart, State.startHead, hHeadDesc, hnoDescOk, hnoDescOk2, hnoQuerySheaf, hnoPlaceOk]
  · intro s ld r d hHeadDesc hnoDescOk hnoRing
    show execDescCancel ld r s = _
    simp [execDescCancel, hHeadDesc, hnoDescOk, hnoRing]
  · intro s ld r d hHeadDesc hnoDescOk hnoDescs
    show execDescBarrier ld r s = _
    simp [execDescBarrier, hHeadDesc, hnoDescOk, hnoDescs]
  · intro s ld r d hStartPump hStartPump2 hStartPump3
    show execDescStartResume ld r s = _
    simp [execDescStartResume, State.startHead, hStartPump, hStartPump2, hStartPump3]
  · intro s ld r hRing
    show execCqCoalesceTimer ld r s = _
    simp [execCqCoalesceTimer, hRing]

/-- Settles O23: the tiller's condition selects the branch. -/
theorem tillersAct : Obligations.TillersAct := by
  refine ⟨?_, ?_, ?_, ?_⟩
  · intro s n ratio hnoTlrBad
    show execTillerShareReduce n ratio s = _
    simp [execTillerShareReduce, hnoTlrBad]
  · intro s n ratio hnoTiller
    show execTillerRestore n ratio s = _
    simp [execTillerRestore, hnoTiller]
  · intro s hi v
    show execTlrDisWrite hi v s = _
    simp [execTlrDisWrite]
  · intro s n hnoTlrBad
    show execTillerRuntimeFail n s = _
    exact congrArg _ (if_neg hnoTlrBad)

end Sys2Proof.Machine
end

section
/-! SUPPORT. The Hedgerow port's own events. -/

namespace Sys2Proof.Machine

open Sys2Proof

/-- Settles O24: the port's state selects what it sends, and each timer's condition holds. -/
theorem hedgerowPortsAct : Obligations.HedgerowPortsAct := by
  refine ⟨?_, ?_, ?_, ?_, ?_, ?_, ?_, ?_, ?_, ?_, ?_⟩
  · intro s p hnoHport hHport
    show execFlitTransmit p s = _
    simp [execFlitTransmit, hnoHport, hHport]
  · intro s p q rest e hnoHport hnoHport2 hHport hHport2
    show execFlitTransmit p s = _
    simp [execFlitTransmit, hnoHport, hnoHport2, hHport, hHport2]
  · intro s p hnoHport hnoHport2 hHport hHport2
    show execFlitTransmit p s = _
    simp [execFlitTransmit, hnoHport, hnoHport2, hHport, hHport2]
  · intro s p c hnoHport hnoHport2 hHport hnoHport3 hHport2
    show execFlitTransmit p s = _
    simp [execFlitTransmit, hnoHport, hnoHport2, hHport, hnoHport3, hHport2]
  · intro s p hnoHport hnoHport2 hHport hnoHport3 hHport2
    show execFlitTransmit p s = _
    simp [execFlitTransmit, hnoHport, hnoHport2, hHport, hnoHport3, hHport2]
  · intro s p epoch tag hnoHport hnoHport2
    show execFlitMarkerRx p epoch tag s = _
    simp [execFlitMarkerRx, ↓if_neg hnoHport, ↓if_neg hnoHport2]
  · intro s p hHport
    show execPortNoFlitTimeout p s = _
    simp [execPortNoFlitTimeout, hHport]
  · intro s p hHport
    show execPortRetrainTimer p s = _
    simp [execPortRetrainTimer, hHport]
  · intro s p hHport
    show execKeyEpochAdvance p s = _
    simp [execKeyEpochAdvance, ↓if_pos hHport]
  · intro s hnoNow
    show execLinkWeightUpdate s = _
    simp [execLinkWeightUpdate, ↓if_neg hnoNow]
  · intro s hnoNow
    show execRouteSplitUpdate s = _
    simp [execRouteSplitUpdate, ↓if_neg hnoNow]

end Sys2Proof.Machine
end

section
/-! SUPPORT. The requests, placements and snoops of other modules, where they arrive here (R99, R193, R315). -/

namespace Sys2Proof.Machine

open Sys2Proof

/-- Settles O25: each message arrives here and has the effect of its opcode. -/
theorem requestMessagesAct : Obligations.RequestMessagesAct := by
  refine ⟨?_, ?_, ?_, ?_, ?_, ?_, ?_, ?_, ?_⟩
  · intro s m hbench hhere hserving
    exact congrArg _ (State.arrives_here hbench hhere hserving .rd (State.onRd · m))
  · intro s m hbench hhere hserving
    exact congrArg _ (State.arrives_here hbench hhere hserving .wr (State.onWr · m))
  · intro s m hbench hhere hserving
    exact congrArg _ (State.arrives_here hbench hhere hserving .wrp (State.onWrp · m))
  · intro s m hbench hhere hserving
    exact congrArg _ (State.arrives_here hbench hhere hserving .atom (State.onAtom · m))
  · intro s m hbench hhere hserving hop
    exact congrArg _ ((State.arrives_here hbench hhere hserving .place (State.onPlace · m)).trans (if_pos hop))
  · intro s m hbench hhere hserving hop
    exact congrArg _ ((State.arrives_here hbench hhere hserving .place (State.onPlace · m)).trans (if_neg hop))
  · intro s m hbench hhere hserving hholder
    exact congrArg _ ((State.arrives_here hbench hhere hserving .snpinv (State.onSnp · .inv m)).trans (if_neg hholder))
  · intro s m hbench hhere hserving hholder
    exact congrArg _ ((State.arrives_here hbench hhere hserving .snpdata (State.onSnp · .data m)).trans (if_neg hholder))
  · intro s m hbench hhere hserving hholder
    exact congrArg _ ((State.arrives_here hbench hhere hserving .snpcur (State.onSnp · .cur m)).trans (if_neg hholder))

end Sys2Proof.Machine
end

section
/-! SUPPORT. The responses, mirror messages and journal messages of other modules, where they arrive here (R103, R160, R329, R332). -/

namespace Sys2Proof.Machine

open Sys2Proof

/-- Settles O26: each message arrives here, and finds the request, snoop, queue or slot that its clause names. -/
theorem responseMessagesAct : Obligations.ResponseMessagesAct := by
  refine ⟨?_, ?_, ?_, ?_, ?_, ?_, ?_, ?_, ?_, ?_, ?_, ?_, ?_, ?_⟩
  · intro s m r hbench hhere hserving hanswered
    show execMsgData m s = _
    rw [execMsgData, State.arrives_here hbench hhere hserving, State.onData, hanswered]
  · intro s m r hbench hhere hserving hanswered
    show execMsgCmp m s = _
    rw [execMsgCmp, State.arrives_here hbench hhere hserving, State.onCmp, hanswered]
  · intro s m hbench hhere hserving hanswered
    show execMsgCmp m s = _
    rw [execMsgCmp, State.arrives_here hbench hhere hserving, State.onCmp, hanswered]
  · intro s m hbench hhere hserving
    show execMsgBirsp m s = _
    rw [execMsgBirsp, State.arrives_here hbench hhere hserving, State.onBirsp]
  · intro s m hbench hhere hserving howes
    show execMsgWbk m s = _
    rw [execMsgWbk, State.arrives_here hbench hhere hserving, State.onWbk, if_pos howes]
  · intro s m hbench hhere hserving howes
    show execMsgWbk m s = _
    rw [execMsgWbk, State.arrives_here hbench hhere hserving, State.onWbk, if_neg howes]
  · intro s m hbench hhere hserving hwaiting
    exact congrArg _ ((State.arrives_here hbench hhere hserving .mirror (State.onMirror · m)).trans (if_pos hwaiting))
  · intro s m hbench hhere hserving hempty
    exact congrArg _ ((State.arrives_here hbench hhere hserving .mirror (State.onMirror · m)).trans (if_neg hempty))
  · intro s m x hbench hhere hserving hempty hslot
    show execMsgClose m s = _
    rw [execMsgClose, State.arrives_here hbench hhere hserving, State.onClose, if_pos hempty, State.closeIn, hslot]
  · intro s m recs hbench hhere hon hrecs
    show execMsgJrnl m recs s = _
    rw [execMsgJrnl, State.arrivesSys_here hbench hhere hon, if_neg hrecs]
  · intro s m hbench hhere hserving
    show execMsgJack m s = _
    rw [execMsgJack, State.arrives_here hbench hhere hserving, State.onJack]
  · intro s m hbench hhere hserving
    exact congrArg _ (State.arrives_here hbench hhere hserving .gasp (State.onGasp · m))
  · intro s m r hbench hhere hserving hfind
    show execMsgMack m s = _
    rw [execMsgMack, State.arrives_here hbench hhere hserving, State.onMack, hfind]
  · intro s op m hreserved
    exact congrArg _ (if_neg hreserved)

end Sys2Proof.Machine
end

section
/-! SUPPORT. MEMB and COPY messages that the module takes have the effect of their body (R321, R424). -/

namespace Sys2Proof.Machine

open Sys2Proof

theorem exec_msgMemb_here {s : State} {m : Msg} (hbench : ¬s.hdg.bench = true) (hhere : ¬(s.hdg.formed ∧ m.dst.val ≠ s.me))
    (hon : ¬(!s.pwr.on || !s.pwr.resetN || s.pwr.flush.isSome) = true) (b : MembBody) :
    exec (.msgMemb m b) s = .next (s.onMemb b) :=
  congrArg _ (State.arrivesSys_here hbench hhere hon (.memb b) (State.onMemb · b))

theorem exec_msgCopy_here {s : State} {m : Msg} (hbench : ¬s.hdg.bench = true) (hhere : ¬(s.hdg.formed ∧ m.dst.val ≠ s.me))
    (hon : ¬(!s.pwr.on || !s.pwr.resetN || s.pwr.flush.isSome) = true) (b : CopyBody) :
    exec (.msgCopy m b) s = .next (s.onCopy m.src b) :=
  congrArg _ (State.arrivesSys_here hbench hhere hon (.copy m.dst b) (State.onCopy · m.src b))

/-- Settles O27: each message is taken, and its body's own branch is the effect. -/
theorem membershipAndCopyMessagesAct : Obligations.MembershipAndCopyMessagesAct := by
  refine ⟨?_, ?_, ?_, ?_, ?_, ?_, ?_, ?_, ?_, ?_, ?_, ?_, ?_⟩
  · intro s m b hbench hhere hon
    exact exec_msgMemb_here hbench hhere hon b
  · intro s m b _ serial z coord links hbench hhere hon hbody
    rw [exec_msgMemb_here hbench hhere hon, hbody, State.onMemb]
  · intro s m b k p up hbench hhere hon hbody
    rw [exec_msgMemb_here hbench hhere hon, hbody, State.onMemb]
  · intro s m b e live q wits we ms hbench hhere hon hbody hunformed
    rw [exec_msgMemb_here hbench hhere hon, hbody, State.onMemb, if_pos hunformed]
  · intro s m b e live q wits we ms hbench hhere hon hbody hformed hnews
    rw [exec_msgMemb_here hbench hhere hon, hbody, State.onMemb, if_neg hformed, if_neg hnews]
  · intro s m b k on hbench hhere hon hbody hawake
    rw [exec_msgMemb_here hbench hhere hon, hbody]
    exact congrArg _ (if_neg hawake)
  · intro s m b k serial hbench hhere hon hbody hother hcoord
    rw [exec_msgMemb_here hbench hhere hon, hbody, State.onMemb, if_neg hother]
    exact congrArg _ (if_pos hcoord)
  · intro s m b hbench hhere hon
    exact exec_msgCopy_here hbench hhere hon b
  · intro s m b page st seq synd d poison hbench hhere hon hbody
    rw [exec_msgCopy_here hbench hhere hon, hbody, State.onCopy]
  · intro s m b n t hbench hhere hon hbody
    rw [exec_msgCopy_here hbench hhere hon, hbody, State.onCopy]
  · intro s m b pairs recs hbench hhere hon hbody
    rw [exec_msgCopy_here hbench hhere hon, hbody, State.onCopy]
  · intro s m b h l hbench hhere hon hbody
    rw [exec_msgCopy_here hbench hhere hon, hbody, State.onCopy]
  · intro s m b a x hbench hhere hon hbody hbudget
    rw [exec_msgCopy_here hbench hhere hon, hbody, State.onCopy, if_pos hbudget]

end Sys2Proof.Machine
end

section
/-! SUPPORT. A flit at a port that is up (R304, R309): lost when its code refuses it, else taken, and then for its type alone. -/

namespace Sys2Proof.Machine

open Sys2Proof

theorem State.recvFlit_lost {s : State} {p : Nat} {b : Bytes} (hup : (s.hport p).st = 2) (hbad : openFlit (fit 256 b) = none)
    (type : Nat) (f : State → Nat → Bytes → State) : s.recvFlit p b type f = s.flitLost p := by
  simp [State.recvFlit, hup, hbad]

theorem State.recvFlit_opens {s : State} {p n : Nat} {b d : Bytes} (hup : (s.hport p).st = 2)
    (hopen : openFlit (fit 256 b) = some (d, n)) (type : Nat) (f : State → Nat → Bytes → State) :
    s.recvFlit p b type f =
      if bits (leAt d 0 6) 47 44 ≠ type then s else f (s.flitTaken p d n) (leAt d 0 6) (d.drop 6) := by
  simp [State.recvFlit, hup, hopen]

/-- Settles O28: by whether the flit's code holds; what is done with a flit that was taken is by definition that of its type. -/
theorem flitsAreReceived : Obligations.FlitsAreReceived := by
  refine ⟨?_, ?_, ?_⟩
  · intro s p flit hup
    show execFlitIdleRx p flit s = _
    cases hopen : openFlit (fit 256 flit) with
    | none => rw [execFlitIdleRx, State.recvFlit_lost hup hopen]
    | some o => rw [execFlitIdleRx, State.recvFlit_opens hup hopen]
  · intro s p flit hup
    show execFlitNakRx p flit s = _
    cases hopen : openFlit (fit 256 flit) with
    | none => rw [execFlitNakRx, State.recvFlit_lost hup hopen]
    | some o => rw [execFlitNakRx, State.recvFlit_opens hup hopen]
  · intro s p flit hup
    show execFlitDataRx p flit s = _
    cases hopen : openFlit (fit 256 flit) with
    | none => rw [execFlitDataRx, State.recvFlit_lost hup hopen]
    | some o =>
      rw [execFlitDataRx, State.recvFlit_opens hup hopen]

end Sys2Proof.Machine
end

section
/-! SUPPORT. Membership, quality of service, DRAM, integrity and security: each condition selects its branch. -/

namespace Sys2Proof.Machine

open Sys2Proof

/-- Settles O29: the member, page or request is found and its time has come. -/
theorem membershipEventsAct : Obligations.MembershipEventsAct := by
  refine ⟨?_, ?_, ?_, ?_, ?_, ?_, ?_, ?_, ?_⟩
  · intro s r q hReq hContains
    show execMirrorMackTimeout r s = _
    simp [execMirrorMackTimeout, hReq, ↓if_pos hContains]
  · intro s r q m hReq hnoNow hRemoteOf hnoContains
    show execFabricReqTimeout r s = _
    simp [execFabricReqTimeout, hReq, ↓if_neg hnoNow, hRemoteOf, ↓if_neg hnoContains]
  · intro s hBoot
    show execFormationRetry s = _
    simp [execFormationRetry, ↓if_pos hBoot]
  · intro s m elapsedMs hIsCoord
    show execMemberDeclareAbsent m elapsedMs s = _
    simp [execMemberDeclareAbsent, ↓if_pos hIsCoord]
  · intro s m hnoContains hOnHdg
    show execTakeoverReplicaActive m s = _
    simp [execTakeoverReplicaActive, ↓if_neg hnoContains, ↓if_pos hOnHdg]
  · intro s m hnoContains hOnHdg
    show execTakeoverReplicaActive m s = _
    simp [execTakeoverReplicaActive, ↓if_neg hnoContains, hOnHdg]
  · intro s m serial spaceId hSerials
    show execModuleRejoin m serial spaceId s = _
    simp [execModuleRejoin, ↓if_pos hSerials]
  · intro s page hTwinState
    show execResyncPageCopy page s = _
    simp [execResyncPageCopy, ↓if_pos hTwinState]
  · intro s w t hWitHold hIsCoord
    show execWitnessHoldExpire w s = _
    simp [execWitnessHoldExpire, hWitHold, ↓if_pos hIsCoord]

/-- Settles O30: the command's sender and checks pass. -/
theorem membershipCommandsAct : Obligations.MembershipCommandsAct := by
  refine ⟨?_, ?_, ?_, ?_, ?_⟩
  · intro s x hsent
    show execFormQuery x s = _
    simp [execFormQuery, State.command_sent hsent]
  · intro s x m hsent hNbrs hnoPosState
    show execFormAdopt x s = _
    simp only [execFormAdopt, State.command_sent hsent, hNbrs, ↓if_neg hnoPosState]
  · intro s x hsent hTaken
    show execWitnessForce x s = _
    simp only [execWitnessForce, State.command_sent hsent, hTaken, ↓reduceIte]
  · intro s x hsent hnoByte
    show execLinkRetrain x s = _
    simp [execLinkRetrain, State.command_sent hsent, hnoByte]
  · intro s x hsent
    show execResyncQuery x s = _
    simp [execResyncQuery, State.command_sent hsent]

/-- Settles O31: the command's checks pass, and the event finds its master. -/
theorem qosAct : Obligations.QosAct := by
  refine ⟨?_, ?_, ?_, ?_, ?_, ?_, ?_, ?_⟩
  · intro s x hsent hTaken
    show execQosClassSet x s = _
    simp only [execQosClassSet, State.command_sent hsent, hTaken, ↓reduceIte]
  · intro s x y2 i hsent hTaken hWord hResvOf
    show execQosReserve x s = _
    simp only [execQosReserve, State.command_sent hsent, hTaken, hWord, hResvOf, ↓reduceIte]
  · intro s x i hsent hTaken hnoWord hTaken2 hResvIdx
    show execQosReserve x s = _
    simp only [execQosReserve, State.command_sent hsent, hTaken, ↓if_neg hnoWord, hTaken2, hResvIdx, ↓reduceIte]
  · intro s x hsent hnoByte
    show execQosQuery x s = _
    simp [execQosQuery, State.command_sent hsent, hnoByte]
  · intro s hnoNow
    show execQosWindowEnd s = _
    simp [execQosWindowEnd, hnoNow]
  · intro s m level chan hVal
    show execRtUrgencyChange m level chan s = _
    simp [execRtUrgencyChange, hVal]
  · intro s m level chan hnoVal hlevel
    show execRtUrgencyChange m level chan s = _
    simp [execRtUrgencyChange, hnoVal, hlevel]
  · intro s m level chan n rank bank hnoVal hlevel hOnQos
    show execRtUrgencyChange m level chan s = _
    simp [execRtUrgencyChange, ↓if_neg hnoVal, hlevel, ↓if_neg hOnQos]

/-- Settles O32: what the channel owes, its urgency and its state select the branch. -/
theorem dramEventsAct : Obligations.DramEventsAct := by
  refine ⟨?_, ?_, ?_, ?_, ?_, ?_, ?_, ?_, ?_, ?_, ?_, ?_, ?_, ?_, ?_, ?_, ?_⟩
  · intro s n rank hnoRefreshes hRtAt hChan
    show execRefreshDue n rank s = _
    simp [execRefreshDue, hnoRefreshes, hRtAt, hChan]
  · intro s n rank hnoRefreshes hRtAt hnoChan
    show execRefreshDue n rank s = _
    simp [execRefreshDue, hnoRefreshes, hRtAt, hnoChan]
  · intro s n rank hnoRefreshes hnoRtAt hChan
    show execRefreshDue n rank s = _
    simp [execRefreshDue, hnoRefreshes, hnoRtAt, hChan]
  · intro s n rank hnoRefreshes hnoRtAt hnoChan hRankIdle
    show execRefreshDue n rank s = _
    simp [execRefreshDue, hnoRefreshes, hnoRtAt, hnoChan, hRankIdle]
  · intro s n rank hnoRefreshes hnoRtAt hnoChan hnoRankIdle
    show execRefreshDue n rank s = _
    simp [execRefreshDue, hnoRefreshes, hnoRtAt, hnoChan, hnoRankIdle]
  · intro s n rank hChan
    show execForcedRefreshDone n rank s = _
    simp [execForcedRefreshDone, hChan]
  · intro s n rate hChanUp
    show execRefreshRatePoll n rate s = _
    simp [execRefreshRatePoll, hChanUp]
  · intro s n hnoChanUp hChan
    show execWriteQueueDrain n s = _
    simp [execWriteQueueDrain, hnoChanUp, hChan]
  · intro s n hnoChanUp hnoChan hnoReqs
    show execWriteQueueDrain n s = _
    simp [execWriteQueueDrain, hnoChanUp, hnoChan, hnoReqs]
  · intro s n hNow
    show execRetrainPeriodExpire n s = _
    simp [execRetrainPeriodExpire, hNow]
  · intro s n temp hChan
    show execRetrainTempQueue n temp s = _
    simp [execRetrainTempQueue, hChan]
  · intro s n hnoHead hnoRtAt
    show execRetrainStart n s = _
    simp [execRetrainStart, ↓if_neg hnoHead, ↓if_neg hnoRtAt]
  · intro s n dly rd wr temp d hnoChan hTrainWorks
    show execRetrainDone n dly rd wr temp s = _
    simp [execRetrainDone, hnoChan, hTrainWorks]
  · intro s n dly rd wr temp hnoChan hTrainWorks hChan
    show execRetrainDone n dly rd wr temp s = _
    simp [execRetrainDone, hnoChan, hTrainWorks, hChan]
  · intro s v hTestBit
    show execDrcRetrainGo v s = _
    simp [execDrcRetrainGo, hTestBit]
  · intro s n hChanUp
    show execChannelSlowDetect n s = _
    simp [execChannelSlowDetect, hChanUp]
  · intro s n hChan
    show execChannelSlowClear n s = _
    simp [execChannelSlowClear, hChan]

/-- Settles O33: no check refuses the command. -/
theorem integrityCommandsAct : Obligations.IntegrityCommandsAct := by
  refine ⟨?_, ?_, ?_, ?_, ?_, ?_, ?_, ?_, ?_⟩
  · intro s x hsent hnoByte hnoBroom hBgBusy
    show execBroomStart x s = _
    simp [execBroomStart, State.command_sent hsent, ↓if_neg hnoByte, ↓if_neg hnoBroom, State.bgCommand_free hBgBusy]
  · intro s x hsent hBroomLast
    show execBroomQuery x s = _
    simp only [execBroomQuery, State.command_sent hsent, hBroomLast]
  · intro s x b hsent hBroomLast
    show execBroomQuery x s = _
    simp only [execBroomQuery, State.command_sent hsent, hBroomLast]
  · intro s x hsent hnoChaffOk hnoChaffCovered hnoData hnoChaff hData
    show execRetire x s = _
    simp only [execRetire, State.command_sent hsent, ↓if_neg hnoChaffOk, ↓if_neg hnoChaffCovered, ↓if_neg hnoData,
      ↓if_neg hnoChaff, ↓if_pos hData]
  · intro s x hsent hnoChaffOk hnoChaffCovered hnoData hnoChaff hnoData2
    show execRetire x s = _
    simp only [execRetire, State.command_sent hsent, ↓if_neg hnoChaffOk, ↓if_neg hnoChaffCovered, ↓if_neg hnoData, ↓if_neg hnoChaff,
      ↓if_neg hnoData2]
  · intro s x hsent
    show execChaffQuery x s = _
    simp [execChaffQuery, State.command_sent hsent]
  · intro s x m hsent hnoQuad hTaken hBgBusy hExtNeed hnoSpaceKnown hFreeMover
    show execMoverCopy x s = _
    simp only [execMoverCopy, State.moverCmd, State.moverNow, State.command_sent hsent, ↓if_neg hnoQuad, ↓if_neg hTaken,
      State.bgCommand_free hBgBusy, State.withExts_known hExtNeed, ↓if_neg hnoSpaceKnown, hFreeMover]
  · intro s x hsent hnoByte hnoMover hnoMover2
    show execMoverCtlResume x s = _
    simp only [execMoverCtlResume, State.moverCtl, State.command_sent hsent, ↓if_neg hnoByte, ↓if_neg hnoMover, ↓if_neg hnoMover2]
  · intro s x hsent hnoByte hnoMover hnoMover2
    show execMoverCtlAbort x s = _
    simp only [execMoverCtlAbort, State.moverCtl, State.command_sent hsent, ↓if_neg hnoByte, ↓if_neg hnoMover, ↓if_neg hnoMover2]

/-- Settles O34: the visited page, chunk or register is the one named. -/
theorem integrityEventsAct : Obligations.IntegrityEventsAct := by
  refine ⟨?_, ?_, ?_, ?_, ?_, ?_, ?_, ?_, ?_, ?_⟩
  · intro s page b hBroom hnoBroomWants
    show execBroomPageVisit page s = _
    simp [execBroomPageVisit, hBroom, hnoBroomWants]
  · intro s m lines
    show execMoverCopyChunk m lines s = _
    simp [execMoverCopyChunk]
  · intro s n chunk hnoChanChunks
    show execParityDeltaApply n chunk s = _
    simp [execParityDeltaApply, hnoChanChunks]
  · intro s n chunk hnoChanChunks
    show execStripeReconstruct n chunk s = _
    exact if_neg hnoChanChunks
  · intro s v hTestBit
    show execIntErrqPopWrite v s = _
    simp [execIntErrqPopWrite, hTestBit]
  · intro s off v hTestBit
    show execCaptureReleaseWrite off v s = _
    simp [execCaptureReleaseWrite, hTestBit]
  · intro s n ratio hnoLane
    show execHuskLaneShareReduce n ratio s = _
    simp [execHuskLaneShareReduce, hnoLane]
  · intro s n ratio hnoLane
    show execHuskLaneRestore n ratio s = _
    simp [execHuskLaneRestore, ↓if_neg hnoLane]
  · intro s v
    show execHskLaneDisWrite v s = _
    simp [execHskLaneDisWrite]
  · intro s e m x hExtents hContains
    show execSpreadMemberSlow e m s = _
    simp only [execSpreadMemberSlow, hExtents, hContains, ↓reduceIte]

/-- Settles O35: the command's sender and checks pass. -/
theorem securityActs : Obligations.SecurityActs := by
  refine ⟨?_, ?_, ?_, ?_, ?_⟩
  · intro s x hsent hnoHalf
    show execKeyQuery x s = _
    simp [execKeyQuery, State.command_sent hsent, hnoHalf]
  · intro s x hsent hBgBusy
    show execAccountErase x s = _
    simp [execAccountErase, State.command_sent hsent, State.bgCommand_free hBgBusy]
  · intro s x hsent
    show execSpaceKeyRoll x s = _
    simp [execSpaceKeyRoll, State.command_sent hsent]
  · intro s slot hKeySt
    show execKeySlotEmptied slot s = _
    simp [execKeySlotEmptied, hKeySt]
  · intro s
    show execEntropyHealthFail s = _
    simp [execEntropyHealthFail]

end Sys2Proof.Machine
end

section
/-! SUPPORT. Event steering, the recorder, host commands, registers, power and resets: each condition selects its branch. -/

namespace Sys2Proof.Machine

open Sys2Proof

/-- Settles O38: the source's state and the target's stack select the branch. -/
theorem eventSteeringActs : Obligations.EventSteeringActs := by
  refine ⟨?_, ?_, ?_, ?_, ?_, ?_, ?_, ?_, ?_, ?_, ?_, ?_, ?_, ?_, ?_⟩
  · intro s n ld hContains hOnEsu
    show execEsuEdgeArrive n ld s = _
    simp only [execEsuEdgeArrive, hContains, ↓if_pos hOnEsu, ↓reduceIte]
  · intro s n ld hContains hOnEsu
    show execEsuEdgeArrive n ld s = _
    rw [execEsuEdgeArrive, hContains]
    exact congrArg _ (if_neg hOnEsu)
  · intro s n hnoLevel
    show execEsuLevelChange n s = _
    simp [execEsuLevelChange, hnoLevel]
  · intro s g y2 t hGrps hVal
    show execEsuGroupTimerExpire g s = _
    simp [execEsuGroupTimerExpire, hGrps, ↓if_pos hVal]
  · intro s view t hnoViewOpen hnoSeesTarget hStackOf
    show execEsuClaimRead view t s = _
    simp [execEsuClaimRead, hnoViewOpen, hnoSeesTarget, hStackOf]
  · intro s view t hnoViewOpen hnoSeesTarget hnoStackOf hBestFor
    show execEsuClaimRead view t s = _
    simp [execEsuClaimRead, hnoViewOpen, hnoSeesTarget, hnoStackOf, hBestFor]
  · intro s view t n hnoViewOpen hnoSeesTarget hnoStackOf hBestFor
    show execEsuClaimRead view t s = _
    simp [execEsuClaimRead, hnoViewOpen, hnoSeesTarget, hnoStackOf, hBestFor]
  · intro s view t v th top rest hnoViewOpen hStackOf hnoToNat
    show execEsuCompleteWrite view t v s = _
    simp [execEsuCompleteWrite, hnoViewOpen, hStackOf, hnoToNat]
  · intro s view t v hViewOpen
    show execEsuThreshWrite view t v s = _
    simp [execEsuThreshWrite, hViewOpen]
  · intro s n v hViewOpen
    show execEsuSrcWrite .fm n v s = _
    simp [execEsuSrcWrite, hViewOpen]
  · intro s n v hViewOpen
    show execEsuSrcWrite .core n v s = _
    simp [execEsuSrcWrite, hViewOpen]
  · intro s k n v
    show execEsuSrcWrite (.ld k) n v s = _
    simp [execEsuSrcWrite]
  · intro s ld en fmask vmask hmask
    show execMsixVectorUnmask ld en fmask vmask s = _
    simp [execMsixVectorUnmask, hmask]
  · intro s ld en fmask vmask hnoMask
    show execMsixVectorUnmask ld en fmask vmask s = _
    simp [execMsixVectorUnmask, hnoMask]
  · intro s ld hContains
    show execLdResetDrainEnd ld s = _
    simp only [execLdResetDrainEnd, hContains, ↓reduceIte]

/-- Settles O39: the command's sender and checks pass, and each register bit acts. -/
theorem stookActs : Obligations.StookActs := by
  refine ⟨?_, ?_, ?_, ?_, ?_, ?_, ?_, ?_, ?_, ?_, ?_, ?_, ?_⟩
  · intro s
    show execStookSpill s = _
    simp [execStookSpill]
  · intro s ok hok
    show execStookArchive ok s = _
    simp [execStookArchive, hok]
  · intro s ok hnoOk hnoArchErr
    show execStookArchive ok s = _
    simp [execStookArchive, hnoOk, hnoArchErr]
  · intro s code hnoBucketNow
    show execStookSummaryEmit code s = _
    simp [execStookSummaryEmit, hnoBucketNow]
  · intro s x hsent hnoHalf
    show execStkRead x s = _
    simp [execStkRead, State.command_sent hsent, hnoHalf]
  · intro s x hsent hByte
    show execFreeze x s = _
    simp [execFreeze, State.freezeCmd, State.command_sent hsent, hByte]
  · intro s x hsent hnoByte hByte
    show execFreezeThaw x s = _
    simp [execFreezeThaw, State.freezeCmd, State.command_sent hsent, hByte]
  · intro s x hsent
    show execGaspRead x s = _
    simp [execGaspRead, State.command_sent hsent]
  · intro s v hGetLsbD
    show execStkCtlFreeze v s = _
    simp [execStkCtlFreeze, hGetLsbD]
  · intro s v hGetLsbD
    show execStkCtlThaw v s = _
    simp [execStkCtlThaw, hGetLsbD]
  · intro s v hGetLsbD
    show execStkCtlGaspClr v s = _
    simp [execStkCtlGaspClr, hGetLsbD]
  · intro s t hFrozenAt hNow
    show execFreezeTimeout s = _
    simp [execFreezeTimeout, hFrozenAt, hNow]
  · intro s first last hnoSramCap
    show execStookSramFail first last s = _
    simp [execStookSramFail, hnoSramCap]

/-- Settles O40: the command's sender and length checks pass. -/
theorem standardCommandsAct : Obligations.StandardCommandsAct := by
  refine ⟨?_, ?_, ?_, ?_, ?_, ?_, ?_, ?_, ?_, ?_, ?_, ?_, ?_, ?_, ?_, ?_, ?_⟩
  · intro s x hsent
    show execIdentify x s = _
    simp [execIdentify, State.stdCommand_sent hsent]
  · intro s x hsent hBg
    show execBackgroundOperationStatus x s = _
    simp only [execBackgroundOperationStatus, State.stdCommand_sent hsent, hBg]
  · intro s x b hsent hBg
    show execBackgroundOperationStatus x s = _
    simp only [execBackgroundOperationStatus, State.stdCommand_sent hsent, hBg]
  · intro s x hsent hnoByte
    show execGetEventRecords x s = _
    simp [execGetEventRecords, State.stdCommand_sent hsent, hnoByte]
  · intro s x hsent hnoData hByte
    show execClearEventRecords x s = _
    simp [execClearEventRecords, State.stdCommand_sent hsent, ↓if_neg hnoData, hByte]
  · intro s x hsent hnoData hnoByte hTaken
    show execClearEventRecords x s = _
    simp [execClearEventRecords, State.stdCommand_sent hsent, ↓if_neg hnoData, ↓if_neg hnoByte, ↓if_neg hTaken]
  · intro s x hsent
    show execGetFwInfo x s = _
    simp [execGetFwInfo, State.stdCommand_sent hsent]
  · intro s x hsent
    show execGetTimestamp x s = _
    simp [execGetTimestamp, State.stdCommand_sent hsent]
  · intro s x hsent
    show execSetTimestamp x s = _
    simp [execSetTimestamp, State.stdCommand_sent hsent]
  · intro s x hsent
    show execGetSupportedLogs x s = _
    simp [execGetSupportedLogs, State.stdCommand_sent hsent]
  · intro s x hsent hnoTake
    show execGetLog x s = _
    simp [execGetLog, State.stdCommand_sent hsent, hnoTake]
  · intro s x hsent
    show execIdentifyMemoryDevice x s = _
    simp [execIdentifyMemoryDevice, State.stdCommand_sent hsent]
  · intro s x hsent
    show execGetHealthInfo x s = _
    simp [execGetHealthInfo, State.stdCommand_sent hsent]
  · intro s x hsent
    show execGetPoisonList x s = _
    simp [execGetPoisonList, State.stdCommand_sent hsent]
  · intro s x sa hsent hPoisonTarget
    show execInjectPoison x s = _
    simp [execInjectPoison, State.stdCommand_sent hsent, hPoisonTarget]
  · intro s x sa hsent hPoisonTarget
    show execClearPoison x s = _
    simp [execClearPoison, State.stdCommand_sent hsent, hPoisonTarget]
  · intro s x opcode hnoVal hReaches
    show execMailboxUnsupported x opcode s = _
    simp [execMailboxUnsupported, ↓if_neg hnoVal, hReaches]

/-- Settles O41: the action of the transfer, the bank or the slot selects the branch. -/
theorem firmwareCommandsAct : Obligations.FirmwareCommandsAct := by
  refine ⟨?_, ?_, ?_, ?_, ?_, ?_, ?_, ?_, ?_⟩
  · intro s x hsent hByte
    show execTransferFw x s = _
    simp [execTransferFw, State.stdCommand_sent hsent, hByte]
  · intro s x hsent hnoByte hnoByte2 hnoFwBank hByte hnoFwStage hnoDrop hByte2
    show execTransferFw x s = _
    simp only [execTransferFw, State.stdCommand_sent hsent, ↓if_neg hnoByte, ↓if_neg hnoByte2, ↓if_neg hnoFwBank, ↓if_pos hByte,
      ↓if_neg hnoFwStage, ↓if_neg hnoDrop, ↓if_pos hByte2]
  · intro s x hsent hnoByte hnoByte2 hnoFwBank hByte hnoFwStage hnoDrop hnoByte3
    show execTransferFw x s = _
    simp only [execTransferFw, State.stdCommand_sent hsent, ↓if_neg hnoByte, ↓if_neg hnoByte2, ↓if_neg hnoFwBank, ↓if_pos hByte,
      ↓if_neg hnoFwStage, ↓if_neg hnoDrop, ↓if_neg hnoByte3]
  · intro s x hsent hnoByte hnoByte2 hnoFwBank hnoByte3 hnoFwStage hnoFwStage2 hByte
    show execTransferFw x s = _
    simp only [execTransferFw, State.stdCommand_sent hsent, ↓if_neg hnoByte, ↓if_neg hnoByte2, ↓if_neg hnoFwBank, ↓if_neg hnoByte3,
      ↓if_neg hnoFwStage, ↓if_neg hnoFwStage2, ↓if_pos hByte]
  · intro s x hsent hnoByte hnoByte2 hnoFwBank hnoByte3 hnoFwStage hnoFwStage2 hnoByte4
    show execTransferFw x s = _
    simp only [execTransferFw, State.stdCommand_sent hsent, ↓if_neg hnoByte, ↓if_neg hnoByte2, ↓if_neg hnoFwBank, ↓if_neg hnoByte3,
      ↓if_neg hnoFwStage, ↓if_neg hnoFwStage2, ↓if_neg hnoByte4]
  · intro s x hsent hnoByte hnoByte2
    show execActivateFw x s = _
    simp [execActivateFw, State.stdCommand_sent hsent, hnoByte, hnoByte2]
  · intro s x hsent hnoByte hnoWord hnoData
    show execSeedWrite x s = _
    simp [execSeedWrite, State.seedCmd, State.command_sent hsent, ↓if_neg hnoByte, ↓if_neg hnoWord, ↓if_neg hnoData]
  · intro s x hsent hnoByte hWord
    show execSeedWriteEnd x s = _
    simp [execSeedWriteEnd, State.seedCmd, State.command_sent hsent, hnoByte, hWord]
  · intro s x hsent
    show execSeedQuery x s = _
    simp [execSeedQuery, State.command_sent hsent]

/-- Settles O42: the port's state selects the branch. -/
theorem hostPortsAct : Obligations.HostPortsAct := by
  refine ⟨?_, ?_, ?_, ?_, ?_, ?_, ?_, ?_, ?_, ?_, ?_, ?_, ?_, ?_, ?_, ?_, ?_, ?_⟩
  · intro s ld i base size k hnoHostOpen hSpanOf hSpanSum
    show execHdmDecoderCommit ld i base size s = _
    simp [execHdmDecoderCommit, ↓if_neg hnoHostOpen, hSpanOf, ↓if_pos hSpanSum]
  · intro s ld i base size k hnoHostOpen hSpanOf hnoSpanSum
    show execHdmDecoderCommit ld i base size s = _
    simp [execHdmDecoderCommit, ↓if_neg hnoHostOpen, hSpanOf, ↓if_neg hnoSpanSum]
  · intro s ld i base size hnoHostOpen hSpanOf
    show execHdmDecoderCommit ld i base size s = _
    simp [execHdmDecoderCommit, hnoHostOpen, hSpanOf]
  · intro s p hPortUp
    show execHostLinkDown p s = _
    simp [execHostLinkDown, hPortUp]
  · intro s p hSetPort
    show execHpnPerstAssert p s = _
    simp [execHpnPerstAssert, hSetPort]
  · intro s p
    show execHpnPerstRelease p s = _
    simp [execHpnPerstRelease]
  · intro s p
    show execHostCablePresent p s = _
    simp [execHostCablePresent]
  · intro s p hSetPort
    show execHostCableRemoved p s = _
    simp [execHostCableRemoved, hSetPort]
  · intro s p hnoSetPort
    show execHostCableRemoved p s = _
    simp [execHostCableRemoved, hnoSetPort]
  · intro s p width hnoPortH
    show execHostLinkUp p width s = _
    simp [execHostLinkUp, ↓if_neg hnoPortH]
  · intro s p width hnoPortH
    show execL0pWidthChange p width s = _
    simp [execL0pWidthChange, ↓if_neg hnoPortH]
  · intro s eid hnoSideband hToNat
    show execSetEndpointId eid s = _
    simp [execSetEndpointId, hnoSideband, hToNat]
  · intro s eid hnoSideband hnoToNat
    show execSetEndpointId eid s = _
    simp [execSetEndpointId, hnoSideband, hnoToNat]
  · intro s binding _data hnoSideband hMctp
    show execMctpPacket binding _data s = _
    simp [execMctpPacket, ↓if_neg hnoSideband, ↓if_pos hMctp]
  · intro s binding _data hnoSideband hnoMctp
    show execMctpPacket binding _data s = _
    simp [execMctpPacket, ↓if_neg hnoSideband, ↓if_neg hnoMctp]
  · intro s _data hnoSideband hFmSession
    show execGetLdInfo _data s = _
    simp [execGetLdInfo, State.fmApi, hnoSideband, hFmSession]
  · intro s _data hnoSideband hFmSession
    show execGetLdAllocations _data s = _
    simp [execGetLdAllocations, State.fmApi, hnoSideband, hFmSession]
  · intro s _data hnoSideband hFmSession
    show execGetQosStatus _data s = _
    simp [execGetQosStatus, State.fmApi, hnoSideband, hFmSession]

/-- Settles O43: the view may write the register, so the write reaches it. -/
theorem registerWritesAct : Obligations.RegisterWritesAct := by
  refine ⟨?_, ?_, ?_, ?_⟩
  · intro s off v hViewOpen hOwnCommand
    show execRegisterWrite .fm off v s = _
    simp [execRegisterWrite, hViewOpen, hOwnCommand]
  · intro s off v hViewOpen hOwnCommand
    show execRegisterWrite .core off v s = _
    simp [execRegisterWrite, hViewOpen, hOwnCommand]
  · intro s m off v hViewOpen hOwnCommand hLdWrites
    show execRegisterWrite (.ld m) off v s = _
    simp [execRegisterWrite, hViewOpen, hOwnCommand, hLdWrites]
  · intro s m off v hLdWrites
    show execRegisterWrite (.ld m) off v s = _
    simp [execRegisterWrite, hLdWrites]

/-- Settles O44: the module's state meets the step's condition. -/
theorem powerEventsAct : Obligations.PowerEventsAct := by
  refine ⟨?_, ?_, ?_, ?_, ?_, ?_, ?_, ?_, ?_, ?_, ?_, ?_, ?_, ?_, ?_, ?_, ?_⟩
  · intro s x hsent hnoByte hnoState hTaken hTaken2 hTaken3
    show execDozeEnter x s = _
    have hfree := State.bgCommand_free hTaken2
    simp only [execDozeEnter, State.command_sent hsent, ↓if_neg hnoByte, ↓if_neg hnoState, ↓if_neg hTaken, hfree, ↓if_neg hTaken3]
  · intro s k hDozeStep hnoDozeReady hDozeAbort
    show execDozeEntryStepDone s = _
    simp [execDozeEntryStepDone, hDozeStep, hnoDozeReady, hDozeAbort]
  · intro s k hDozeStep hnoDozeReady hnoDozeAbort hstep
    show execDozeEntryStepDone s = _
    subst hstep
    simp [execDozeEntryStepDone, hDozeStep, hnoDozeReady, hnoDozeAbort]
  · intro s k hDozeStep hnoDozeReady hnoDozeAbort hne1 hstep
    show execDozeEntryStepDone s = _
    subst hstep
    simp [execDozeEntryStepDone, hDozeStep, hnoDozeReady, hnoDozeAbort]
  · intro s k hDozeStep hnoDozeReady hnoDozeAbort hne1 hne2 hstep
    show execDozeEntryStepDone s = _
    subst hstep
    simp [execDozeEntryStepDone, hDozeStep, hnoDozeReady, hnoDozeAbort]
  · intro s k hDozeStep hnoDozeReady hnoDozeAbort hne1 hne2 hne3 hstep
    show execDozeEntryStepDone s = _
    subst hstep
    simp [execDozeEntryStepDone, hDozeStep, hnoDozeReady, hnoDozeAbort]
  · intro s k hDozeStep hnoDozeReady hnoDozeAbort hne1 hne2 hne3 hne4 hstep
    show execDozeEntryStepDone s = _
    subst hstep
    simp [execDozeEntryStepDone, hDozeStep, hnoDozeReady, hnoDozeAbort]
  · intro s k hDozeStep hnoDozeReady hnoDozeAbort hne1 hne2 hne3 hne4 hne5
    show execDozeEntryStepDone s = _
    simp [execDozeEntryStepDone, hDozeStep, hnoDozeReady, hnoDozeAbort, hne1, hne2, hne3, hne4, hne5]
  · intro s x hsent hnoByte hTaken
    show execDozeExit x s = _
    simp [execDozeExit, State.command_sent hsent, hnoByte, hTaken]
  · intro s x hsent hnoByte hTaken
    show execDozeExit x s = _
    simp [execDozeExit, State.command_sent hsent, hnoByte, hTaken]
  · intro s hnoState
    show execDozeExitDone s = _
    simp [execDozeExitDone, hnoState]
  · intro s hReqs
    show execIdleEntry s = _
    simp [execIdleEntry, hReqs]
  · intro s mv hnoRegulates hState
    show execRailEvaluate mv s = _
    simp [execRailEvaluate, hnoRegulates, hState]
  · intro s mv hnoRegulates hnoState hmv
    show execRailEvaluate mv s = _
    simp [execRailEvaluate, hnoRegulates, hnoState, hmv]
  · intro s inputW tj hnoRegulates hLimit10
    show execThrottleSample inputW tj s = _
    simp [execThrottleSample, ↓if_neg hnoRegulates, ↓if_pos hLimit10]
  · intro s inputW tj hnoRegulates hLimit10
    show execThrottleSample inputW tj s = _
    simp only [execThrottleSample, ↓if_neg hnoRegulates, hLimit10, ↓reduceIte]
  · intro s hRegulates
    show execThrottleRaise s = _
    simp [execThrottleRaise, ↓if_pos hRegulates]

/-- Settles O45: the pins and the boot state select the branch. -/
theorem resetsAct : Obligations.ResetsAct := by
  refine ⟨?_, ?_, ?_, ?_, ?_, ?_, ?_, ?_, ?_, ?_, ?_, ?_, ?_, ?_, ?_, ?_, ?_, ?_, ?_, ?_, ?_, ?_, ?_, ?_, ?_, ?_⟩
  · intro s
    show execThermalShutdown s = _
    simp [execThermalShutdown]
  · intro s x hnoSideband hsent
    show execWarmReset x s = _
    simp [execWarmReset, hnoSideband, State.command_sent hsent]
  · intro s x hsent
    show execModuleReset x s = _
    simp [execModuleReset, State.command_sent hsent]
  · intro s x hsent hnoByte hnoChan hnoChan2
    show execChannelReset x s = _
    simp [execChannelReset, State.command_sent hsent, hnoByte, hnoChan, hnoChan2]
  · intro s hSideband
    show execMgmtWatchdogExpire s = _
    simp [execMgmtWatchdogExpire, hSideband]
  · intro s hnoPwrgd hOnPwr
    show execModPwrgdRise s = _
    simp [execModPwrgdRise, ↓if_neg hnoPwrgd, ↓if_pos hOnPwr]
  · intro s hnoPwrgd hOnPwr
    show execModPwrgdRise s = _
    simp [execModPwrgdRise, ↓if_neg hnoPwrgd, ↓if_neg hOnPwr]
  · intro s
    show execModPwrgdFall s = _
    simp [execModPwrgdFall]
  · intro s
    show execInputUndervoltage s = _
    simp [execInputUndervoltage]
  · intro s hnoFlush hOnFar
    show execPowerLossFlushDone s = _
    simp [execPowerLossFlushDone, hnoFlush, hOnFar]
  · intro s hnoFlush hOnFar
    show execPowerLossFlushDone s = _
    simp [execPowerLossFlushDone, hnoFlush, hOnFar]
  · intro s hnoInputOk hOnPwr
    show execInputReturnStable s = _
    simp [execInputReturnStable, ↓if_neg hnoInputOk, ↓if_pos hOnPwr]
  · intro s hnoInputOk hOnPwr
    show execInputReturnStable s = _
    simp [execInputReturnStable, ↓if_neg hnoInputOk, ↓if_neg hOnPwr]
  · intro s hnoResetN hOnPwr
    show execModResetAssert s = _
    simp [execModResetAssert, ↓if_neg hnoResetN, ↓if_pos hOnPwr]
  · intro s hnoResetN hOnPwr
    show execModResetRelease s = _
    simp [execModResetRelease, ↓if_neg hnoResetN, ↓if_pos hOnPwr]
  · intro s ms ok k hBoot hLast
    show execBootStepDone ms ok s = _
    simp [execBootStepDone, hBoot, hLast]
  · intro s ms ok k hBoot hnoLast
    show execBootStepDone ms ok s = _
    simp [execBootStepDone, hBoot, hnoLast]
  · intro s hnoRefLostAt
    show execRefclkLoss s = _
    simp [execRefclkLoss, hnoRefLostAt]
  · intro s t hRefLostAt hSideband
    show execRefclkLossReset s = _
    simp [execRefclkLossReset, hRefLostAt, ↓if_pos hSideband]
  · intro s hnoLocked
    show execReferenceLock s = _
    simp [execReferenceLock, hnoLocked]
  · intro s p mw hnoOn hmw
    show execHedgerowCageInsert p mw s = _
    simp [execHedgerowCageInsert, hnoOn, hmw]
  · intro s p mw hnoOn hnoMw
    show execHedgerowCageInsert p mw s = _
    simp [execHedgerowCageInsert, hnoOn, hnoMw]
  · intro s p lanes spaceId nmod nport hnoHport hTrainedWidth
    show execHedgerowPortUp p lanes spaceId nmod nport s = _
    simp [execHedgerowPortUp, hnoHport, hTrainedWidth]
  · intro s p lanes spaceId nmod nport hnoHport hnoTrainedWidth hSpaceId
    show execHedgerowPortUp p lanes spaceId nmod nport s = _
    simp [execHedgerowPortUp, hnoHport, hnoTrainedWidth, hSpaceId]
  · intro s p lanes spaceId nmod nport hnoHport hnoTrainedWidth hnoSpaceId hHport
    show execHedgerowPortUp p lanes spaceId nmod nport s = _
    simp [execHedgerowPortUp, hnoHport, hnoTrainedWidth, hnoSpaceId, hHport]
  · intro s p lanes spaceId nmod nport hnoHport hnoTrainedWidth hnoSpaceId hHport
    show execHedgerowPortUp p lanes spaceId nmod nport s = _
    simp [execHedgerowPortUp, hnoHport, hnoTrainedWidth, hnoSpaceId, hHport]

end Sys2Proof.Machine
end

section
/-! SUPPORT. The state right after reset: its forms, and the reset values of the registers. -/

namespace Sys2Proof.Machine

open Sys2Proof

set_option maxRecDepth 4000 in
/-- Settles O48: the state and the register table are closed, so each value is read off. -/
theorem resetState : Obligations.ResetState := by
  refine ⟨State.reset_canonical, rfl, ?_, rfl, rfl, rfl, ?_⟩
  · decide
  · decide

end Sys2Proof.Machine
end

section
/-! SUPPORT. Ralath instructions on registers: an issued legal word with a true guard has the result of its function (Table 7-8). -/

namespace Sys2Proof.Machine

open Sys2Proof

/-- An instruction whose effect on its context is a result goes on in sequence with it. -/
theorem State.plainOp_next {s : State} {c : Nat} {x y : Ctx} {w : Word} (hissue : s.issues c x w = true) {major : Nat}
    (hmajor : majorOf w = major) {f : Ctx → Word → Eff} (heff : f x w = .next y) :
    s.plainOp c major f = (s.setCtx c y.advance).took c x.tiller := by
  rw [State.plainOp_of hissue hmajor, heff, State.doEff_next]

theorem aluEff_of {x : Ctx} {w : Word} {a b : BitVec 64} {fd : Bool} {sd : Nat} (hop : x.opS w = some (a, b, fd, sd)) {ok : Nat → Bool}
    (hok : ok (wf w 52 49) = true) (hguard : x.guard w = true) (f : Nat → BitVec 64 → BitVec 64 → BitVec 64) :
    aluEff ok f x w = .next (x.setSa fd sd (f (wf w 52 49) a b)) := by
  simp only [aluEff, hop]
  exact guarded_true hok hguard _

/-- A legal arithmetic instruction with a true guard writes the function of its operands to its destination. -/
theorem State.alu_result {s : State} {c : Nat} {x : Ctx} {w : Word} {a b : BitVec 64} {fd : Bool} {sd : Nat}
    (hissue : s.issues c x w = true) {major : Nat} (hmajor : majorOf w = major) (hop : x.opS w = some (a, b, fd, sd)) {ok : Nat → Bool}
    (hok : ok (wf w 52 49) = true) (hguard : x.guard w = true) {f : Nat → BitVec 64 → BitVec 64 → BitVec 64} :
    s.plainOp c major (aluEff ok f) = (s.setCtx c (x.setSa fd sd (f (wf w 52 49) a b)).advance).took c x.tiller :=
  State.plainOp_next hissue hmajor (aluEff_of hop hok hguard f)

/-- Settles O14: every one of them is the arithmetic instruction of its function. -/
theorem scalarResults : Obligations.ScalarResults := by
  refine ⟨?_, ?_, ?_, ?_, ?_, ?_, ?_, ?_, ?_, ?_, ?_, ?_⟩
  · intro s c x w a b fd sd hissue hmajor hop hfunc hguard
    exact congrArg _ (State.alu_result hissue hmajor hop (by simp [func0, hfunc]) hguard)
  · intro s c x w a b fd sd hissue hmajor hop hfunc hguard
    exact congrArg _ (State.alu_result hissue hmajor hop (by simp [func0, hfunc]) hguard)
  · intro s c x w a b fd sd hissue hmajor hop hfunc hguard
    exact congrArg _ (State.alu_result hissue hmajor hop (by simp [func0, hfunc]) hguard)
  · intro s c x w a b fd sd hissue hmajor hop hfunc hguard
    exact congrArg _ (State.alu_result hissue hmajor hop (by simp [func1, hfunc]) hguard)
  · intro s c x w a b fd sd hissue hmajor hop hfunc hguard
    exact congrArg _ (State.alu_result hissue hmajor hop (by simp [func0, hfunc]) hguard)
  · intro s c x w a b fd sd hissue hmajor hop hfunc hguard
    exact congrArg _ (State.alu_result hissue hmajor hop (by simp [func0, hfunc]) hguard)
  · intro s c x w a b fd sd hissue hmajor hop hfunc hguard
    exact congrArg _ (State.alu_result hissue hmajor hop (by simp [func0, hfunc]) hguard)
  · intro s c x w a b fd sd hissue hmajor hop hfunc hguard
    exact congrArg _ (State.alu_result hissue hmajor hop (by simp [func0, hfunc]) hguard)
  · intro s c x w a b fd sd hissue hmajor hop hfunc hguard
    exact congrArg _ (State.alu_result hissue hmajor hop (by simp [func0, hfunc]) hguard)
  · intro s c x w a b fd sd hissue hmajor hop hfunc hguard
    exact congrArg _ (State.alu_result hissue hmajor hop (by simp [func0, hfunc]) hguard)
  · intro s c x w a b fd sd hissue hmajor hop hfunc hguard
    exact congrArg _ (State.alu_result hissue hmajor hop (by simp [func1, hfunc]) hguard)
  · intro s c x w a b fd sd hissue hmajor hop hfunc hguard
    exact congrArg _ (State.alu_result hissue hmajor hop (by simp [func1, hfunc]) hguard)

theorem cmpEff_of {x : Ctx} {w : Word} {a b : BitVec 64} {fd : Bool} {sd : Nat} (hop : x.opS w = some (a, b, fd, sd))
    (hlegal : ((condOf (wf w 52 49) a b).isSome && !fd && decide (sd < 8)) = true) (hguard : x.guard w = true) :
    cmpEff x w = .next (x.setP sd (BitVec.ofNat 512 (cmpMask (wf w 52 49) a b 512))) := by
  simp only [cmpEff, hop]
  exact guarded_true hlegal hguard _

theorem State.ldsWord_of {s : State} {c : Nat} {x : Ctx} {w : Word} {a : Nat} {v : BitVec 64} (hsize : (wf w 50 49 == 3) = true)
    (hguard : x.guard w = true) (hword : (if a % 8 = 0 then s.ctxWord c x (a / 8) else none) = some v) :
    s.ldsWord c x w a = .next (x.setSa (w.toNat.testBit 48) (wf w 46 42) v) := by
  rw [State.ldsWord, hword]
  exact guarded_true hsize hguard _

theorem ldsScratch_of {x : Ctx} {w : Word} {a : Nat} (hguard : x.guard w = true) (haligned : ¬a % memSize w ≠ 0)
    (hwin : ¬(!x.inWin a (memSize w)) = true) :
    ldsScratch x w a = .next (x.setSa (w.toNat.testBit 48) (wf w 46 42) (extendTo (w.toNat.testBit 51) (x.load a (memSize w)))) := by
  simp only [ldsScratch, guarded_true rfl hguard, if_neg haligned, if_neg hwin]

theorem stsWord_of {x y : Ctx} {w : Word} {a : Nat} (hsize : (wf w 51 49 == 3) = true) (hguard : x.guard w = true)
    (hword : (if a % 8 = 0 ∧ a / 8 < 24 then x.putWord (a / 8) (x.getSa (w.toNat.testBit 48) (wf w 46 42)) else none) = some y) :
    stsWord x w a = .next y := by
  simp only [stsWord, hword]
  exact guarded_true hsize hguard _

theorem stsScratch_of {x : Ctx} {w : Word} {a : Nat} (hguard : x.guard w = true) (haligned : ¬a % memSize w ≠ 0)
    (hwin : ¬(!x.inWin a (memSize w)) = true) :
    stsScratch x w a = .next (x.store a (toLe (memSize w) (x.getSa (w.toNat.testBit 48) (wf w 46 42)).toNat)) := by
  simp only [stsScratch, guarded_true rfl hguard, if_neg haligned, if_neg hwin]

/-- Settles O15: the address and its kind select the access, which is legal and aligned. -/
theorem scalarOtherResults : Obligations.ScalarOtherResults := by
  refine ⟨?_, ?_, ?_, ?_, ?_, ?_, ?_, ?_⟩
  · intro s c x w a b fd sd hissue hmajor hop hlegal hguard
    exact congrArg _ (State.plainOp_next hissue hmajor (cmpEff_of hop hlegal hguard))
  · intro s c x w hissue hmajor hlegal hguard
    exact congrArg _ (State.plainOp_next hissue hmajor (guarded_true hlegal hguard _))
  · intro s c x w a v hissue hmajor haddr hctx hsize hguard hword
    show execLds c s = _
    simp only [execLds, State.issue_of hissue (m := fun m => m == 0x0F) (by simp [hmajor]), haddr, if_pos hctx,
      State.ldsWord_of hsize hguard hword, State.doEff_next]
  · intro s c x w a hissue hmajor haddr hnoCtx hspace hguard haligned
    show execLds c s = _
    simp only [execLds, State.issue_of hissue (m := fun m => m == 0x0F) (by simp [hmajor]), haddr, if_neg hnoCtx, if_pos hspace]
    exact congrArg (fun t : State => Host.Outcome.next (t.took c x.tiller)) ((if_neg hguard).trans (if_neg haligned))
  · intro s c x w a hissue hmajor haddr hnoCtx hnoSpace hguard haligned hwin
    show execLds c s = _
    simp only [execLds, State.issue_of hissue (m := fun m => m == 0x0F) (by simp [hmajor]), haddr, if_neg hnoCtx, if_neg hnoSpace,
      ldsScratch_of hguard haligned hwin, State.doEff_next]
  · intro s c x w a y hissue hmajor haddr hctx hsize hguard hword
    show execSts c s = _
    simp only [execSts, State.issue_of hissue (m := fun m => m == 0x10) (by simp [hmajor]), haddr, if_pos hctx,
      stsWord_of hsize hguard hword, State.doEff_next]
  · intro s c x w a hissue hmajor haddr hnoCtx hlegal hspace hguard haligned hnoSys haccess
    show execSts c s = _
    simp only [execSts, State.issue_of hissue (m := fun m => m == 0x10) (by simp [hmajor]), haddr, if_neg hnoCtx, if_neg hlegal,
      if_pos hspace, State.stsSpace, ↓if_neg hguard, ↓if_neg haligned, if_neg hnoSys, haccess]
  · intro s c x w a hissue hmajor haddr hnoCtx hlegal hnoSpace hguard haligned hwin
    show execSts c s = _
    simp only [execSts, State.issue_of hissue (m := fun m => m == 0x10) (by simp [hmajor]), haddr, if_neg hnoCtx, if_neg hlegal,
      if_neg hnoSpace, stsScratch_of hguard haligned hwin, State.doEff_next]

end Sys2Proof.Machine
end

section
/-! SUPPORT. Ralath vector and tile instructions: a legal word whose flags trap nowhere commits its results (R242). -/

namespace Sys2Proof.Machine

open Sys2Proof

/-- An elementwise operation that raises no enabled flag commits the elements of its run. -/
theorem elementwise_of {x : Ctx} {w : Word} {n wd : Nat} {f : Nat → Nat → Nat × Nat}
    (hflags : x.trapFlags (orFlags ((elemRun x w n wd f).1.map Prod.snd)) = 0) :
    elementwise x w n wd f = .next (committed x (orFlags ((elemRun x w n wd f).1.map Prod.snd)) (elemRun x w n wd f).2 (elemRm w)
      fun y => y.setV (vD w) (packElems wd ((elemRun x w n wd f).1.map Prod.fst))) :=
  commit_ok hflags _ _ _

/-- Settles O16: the word is legal, so it runs; its access is inside the window, or its run raises no enabled flag. -/
theorem vectorResults : Obligations.VectorResults := by
  refine ⟨?_, ?_, ?_, ?_, ?_, ?_, ?_, ?_⟩
  · intro s c x w hissue hmajor hlegal haligned hwin
    exact congrArg _ (State.plainOp_next hissue hmajor ((if_neg hlegal).trans (vecAddr_ok rfl haligned hwin _)))
  · intro s c x w hissue hmajor hlegal haligned hwin
    exact congrArg _ (State.plainOp_next hissue hmajor ((if_neg hlegal).trans (vecAddr_ok rfl haligned hwin _)))
  · intro s c x w hissue hmajor hlegal hflags
    exact congrArg _ (State.plainOp_next hissue hmajor ((if_neg hlegal).trans (elementwise_of hflags)))
  · intro s c x w hissue hmajor hlegal hflags
    exact congrArg _ (State.plainOp_next hissue hmajor ((if_neg hlegal).trans (elementwise_of hflags)))
  · intro s c x w hissue hmajor hlegal hflags
    exact congrArg _ (State.plainOp_next hissue hmajor ((if_neg hlegal).trans (elementwise_of hflags)))
  · intro s c x w hissue hmajor hlegal hflags
    exact congrArg _ (State.plainOp_next hissue hmajor ((if_neg hlegal).trans (elementwise_of hflags)))
  · intro s c x w hissue hmajor hlegal hflags
    exact congrArg _ (State.plainOp_next hissue hmajor ((if_neg hlegal).trans (elementwise_of hflags)))
  · intro s c x w hissue hmajor hlegal hflags
    exact congrArg _ (State.plainOp_next hissue hmajor ((if_neg hlegal).trans (elementwise_of hflags)))

/-- Settles O17: the word is legal, its scratch is inside the window, and its flags trap nowhere, so its results are committed. -/
theorem reduceConvertTileResults : Obligations.ReduceConvertTileResults := by
  refine ⟨?_, ?_, ?_, ?_, ?_, ?_, ?_, ?_, ?_⟩
  · intro s c x w hissue hmajor hlegal hflags
    exact congrArg _ (State.plainOp_next hissue hmajor ((if_neg hlegal).trans (commit_ok hflags _ _ _)))
  · intro s c x w hissue hmajor hlegal hranges hblock hflags
    exact congrArg _ (State.plainOp_next hissue hmajor
      ((if_neg hlegal).trans ((if_neg hranges).trans ((if_pos hblock).trans (commit_ok hflags _ _ _)))))
  · intro s c x w hissue hmajor hlegal hranges hblock hflags
    exact congrArg _ (State.plainOp_next hissue hmajor
      ((if_neg hlegal).trans ((if_neg hranges).trans ((if_neg hblock).trans (commit_ok hflags _ _ _)))))
  · intro s c x w m hissue hmajor hmode hlegal hflags
    refine congrArg _ (State.plainOp_next hissue hmajor ?_)
    rw [mmaEff, hmode]
    exact (if_neg hlegal).trans (commit_ok hflags _ _ _)
  · intro s c x w hissue hmajor hlegal
    exact congrArg _ (State.plainOp_next hissue hmajor (if_neg hlegal))
  · intro s c x w hissue hmajor hlegal hwin hflags
    exact congrArg _ (State.plainOp_next hissue hmajor ((if_neg hlegal).trans ((if_neg hwin).trans (commit_ok hflags _ _ _))))
  · intro s c x w hissue hmajor hfunc hlegal hflags
    exact congrArg _ (State.plainOp_next hissue hmajor ((if_pos hfunc).trans ((if_neg hlegal).trans (commit_ok hflags _ _ _))))
  · intro s c x w hissue hmajor hfunc hlegal hguard hcount hwin hflags
    exact congrArg _ (State.plainOp_next hissue hmajor ((if_neg hfunc).trans ((guarded_true hlegal hguard _).trans
      ((if_neg hcount).trans ((if_neg hwin).trans (commit_ok hflags _ _ _))))))
  · intro s c x w hissue hmajor hlegal hguard hwin
    exact congrArg _ (State.plainOp_next hissue hmajor ((guarded_true hlegal hguard _).trans (if_neg hwin)))

end Sys2Proof.Machine
end

section
/-! SUPPORT. Ralath space operations and control flow: each check of the instruction passes in turn. -/

namespace Sys2Proof.Machine

open Sys2Proof

/-- An instruction that a context issues leaves what its own function leaves, and the context has had its turn. -/
theorem State.issue_leaves {s t : State} {c : Nat} {x : Ctx} {w : Word} (hissue : s.issues c x w = true) {major : Nat}
    (hmajor : majorOf w = major) {f : Ctx → Word → State} (hleaves : f x w = t) :
    s.issue c (fun m => m == major) f = t.took c x.tiller := by
  rw [State.issue_of hissue (by simp [hmajor]), hleaves]

/-- Settles O18: each check passes in turn, and the operation starts. -/
theorem spaceOperationsStart : Obligations.SpaceOperationsStart := by
  refine ⟨?_, ?_, ?_, ?_, ?_, ?_, ?_, ?_⟩
  · intro s c x w hissue hmajor hlegal hguard hcount haligned hindex hwin hroom
    exact congrArg _ (State.issue_leaves hissue hmajor ((if_neg hlegal).trans ((if_neg hguard).trans ((if_neg hcount).trans
      ((if_neg haligned).trans ((if_neg hindex).trans ((if_neg hwin).trans ((if_neg hroom).trans (if_pos rfl)))))))))
  · intro s c x w hissue hmajor hlegal hguard hcount haligned hindex hwin hroom
    exact congrArg _ (State.issue_leaves hissue hmajor ((if_neg hlegal).trans ((if_neg hguard).trans ((if_neg hcount).trans
      ((if_neg haligned).trans ((if_neg hindex).trans ((if_neg hwin).trans ((if_neg hroom).trans (if_neg (by decide))))))))))
  · intro s c x w hissue hmajor hlegal hguard haligned hwin hroom hfunc
    exact congrArg _ (State.issue_leaves hissue hmajor ((if_neg hlegal).trans ((if_neg hguard).trans ((if_neg haligned).trans
      ((if_neg hwin).trans ((if_neg hroom).trans (if_pos hfunc)))))))
  · intro s c x w hissue hmajor hlegal hguard haligned hwin hroom hfunc
    exact congrArg _ (State.issue_leaves hissue hmajor ((if_neg hlegal).trans ((if_neg hguard).trans ((if_neg haligned).trans
      ((if_neg hwin).trans ((if_neg hroom).trans (if_neg hfunc)))))))
  · intro s c x w hissue hmajor hfunc hlegal hguard hwin hport
    exact congrArg _ (State.issue_leaves hissue hmajor ((if_neg hfunc).trans ((if_neg hlegal).trans ((if_neg hguard).trans
      ((if_neg hwin).trans (if_pos hport))))))
  · intro s c x w hissue hmajor hfunc hlegal hguard hwin hport
    exact congrArg _ (State.issue_leaves hissue hmajor ((if_neg hfunc).trans ((if_neg hlegal).trans ((if_neg hguard).trans
      ((if_neg hwin).trans (if_neg hport))))))
  · intro s c x w hissue hmajor hfunc hlegal hguard haligned hwin hroom
    exact congrArg _ (State.issue_leaves hissue hmajor ((if_pos hfunc).trans ((if_neg hlegal).trans ((if_neg hguard).trans
      ((if_neg haligned).trans ((if_neg hwin).trans (if_neg hroom)))))))
  · intro s c x w e a hissue hmajor hlegal hguard hextent haccess haligned hleased hgranted
    refine congrArg _ (State.issue_leaves hissue hmajor ((if_neg hlegal).trans ((if_neg hguard).trans ?_)))
    simp only [hextent, haccess]
    cases a with
    | fault => exact absurd rfl hgranted
    | noLease => exact absurd rfl hleased
    | ok => exact (if_neg haligned).trans (if_neg hleased)

theorem brcEff_of {x : Ctx} {w : Word} {t : Bool} (hcond : condOf (cFunc w) (x.sreg (cSa w)) (x.sreg (cSb w)) = some t)
    (hlegal : onlyBits w (bm 63 40 + cImm) = true) (hguard : x.guard w = true) :
    brcEff x w = if t then .goto x (target x w) else .next x := by
  simp only [brcEff, hcond]
  exact guarded_true hlegal hguard _

theorem retEff_of {x : Ctx} {w : Word} {p : Nat} {t : List Nat} (hlegal : onlyBits w cHead = true) (hguard : x.guard w = true)
    (hcalls : x.calls = p :: t) : retEff x w = .goto { x with calls := t } p := by
  rw [retEff, guarded_true hlegal hguard, hcalls]

/-- An instruction whose effect on its context is a branch goes to its target. -/
theorem State.plainOp_goto {s : State} {c : Nat} {x y : Ctx} {w : Word} {p : Nat} (hissue : s.issues c x w = true) {major : Nat}
    (hmajor : majorOf w = major) {f : Ctx → Word → Eff} (heff : f x w = .goto y p) :
    s.plainOp c major f = (s.setCtx c (y.jump p)).took c x.tiller := by
  rw [State.plainOp_of hissue hmajor, heff, State.doEff_goto]

/-- An instruction whose effect on its context is a trap traps at its PC. -/
theorem State.plainOp_trap {s : State} {c : Nat} {x : Ctx} {w : Word} {k d a : Nat} (hissue : s.issues c x w = true) {major : Nat}
    (hmajor : majorOf w = major) {f : Ctx → Word → Eff} (heff : f x w = .trap k d a) :
    s.plainOp c major f = (s.ctxTrap c x x.pc k d a false).took c x.tiller := by
  rw [State.plainOp_of hissue hmajor, heff, State.doEff_trap]

/-- Settles O19: each check passes in turn, and the context goes where the instruction says. -/
theorem controlFlowResults : Obligations.ControlFlowResults := by
  refine ⟨?_, ?_, ?_, ?_, ?_, ?_, ?_, ?_, ?_, ?_, ?_, ?_, ?_, ?_⟩
  · intro s c x w hissue hmajor hlegal hguard
    exact congrArg _ (State.plainOp_goto hissue hmajor (guarded_true hlegal hguard _))
  · intro s c x w t hissue hmajor hcond hlegal hguard ht
    exact congrArg _ (State.plainOp_goto hissue hmajor ((brcEff_of hcond hlegal hguard).trans (if_pos ht)))
  · intro s c x w t hissue hmajor hcond hlegal hguard ht
    exact congrArg _ (State.plainOp_next hissue hmajor ((brcEff_of hcond hlegal hguard).trans (if_neg ht)))
  · intro s c x w hissue hmajor hlegal hguard hroom
    exact congrArg _ (State.issue_leaves hissue hmajor ((if_neg hlegal).trans ((if_neg hguard).trans (if_neg hroom))))
  · intro s c x w p t hissue hmajor hlegal hguard hcalls
    exact congrArg _ (State.plainOp_goto hissue hmajor (retEff_of hlegal hguard hcalls))
  · intro s c x w hissue hmajor hlegal hguard hnest hcount
    exact congrArg _ (State.issue_leaves hissue hmajor ((if_neg hlegal).trans ((if_neg hguard).trans
      ((if_neg hnest).trans (if_neg hcount)))))
  · intro s c x w hissue hmajor hlegal hguard
    exact congrArg _ (State.plainOp_next hissue hmajor (guarded_true hlegal hguard _))
  · intro s c x w hissue hmajor hlegal hguard haligned
    exact congrArg _ (State.issue_leaves hissue hmajor ((if_neg hlegal).trans ((if_neg hguard).trans (if_neg haligned))))
  · intro s c x w hissue hmajor hlegal hguard haligned hnoSys haccess
    refine congrArg _ (State.issue_leaves hissue hmajor ((if_neg hlegal).trans ((if_neg hguard).trans ((if_neg haligned).trans
      ((if_neg hnoSys).trans ?_)))))
    rw [haccess]
  · intro s c x w hissue hmajor hlegal hguard hroom
    exact congrArg _ (State.issue_leaves hissue hmajor ((if_neg hlegal).trans ((if_neg hguard).trans (if_neg hroom))))
  · intro s c x w hissue hmajor hlegal hguard hidle
    exact congrArg _ (State.issue_leaves hissue hmajor ((if_neg hlegal).trans ((if_neg hguard).trans (if_neg hidle))))
  · intro s c x w hissue hmajor hlegal hguard
    exact congrArg _ (State.plainOp_trap hissue hmajor (guarded_true hlegal hguard _))
  · intro s c x w hissue hmajor hlegal hguard hidle
    exact congrArg _ (State.issue_leaves hissue hmajor ((if_neg hlegal).trans ((if_neg hguard).trans (if_neg hidle))))
  · intro s c x w hissue hillegal
    exact congrArg _ (State.issue_of hissue hillegal _)

end Sys2Proof.Machine
end

section
/-! SUPPORT. SPDM requests: the issuer reaches the responder, and the session is in the phase that the request needs (chapter 13). -/

namespace Sys2Proof.Machine

open Sys2Proof

/-- Settles O36: the request is asked, and its parameter or session selects the answer. -/
theorem spdmRequestsAct : Obligations.SpdmRequestsAct := by
  refine ⟨?_, ?_, ?_, ?_, ?_, ?_, ?_, ?_, ?_, ?_, ?_, ?_, ?_⟩
  · intro s who data hasks
    exact congrArg _ (State.spdm_asks hasks _)
  · intro s who data hasks
    exact congrArg _ (State.spdm_asks hasks _)
  · intro s who data hasks
    exact congrArg _ (State.spdm_asks hasks _)
  · intro s who data hasks
    exact congrArg _ (State.spdm_asks hasks _)
  · intro s who data hasks hslot
    show execGetCertificate who data s = _
    simp only [execGetCertificate, State.spdm_asks hasks, if_pos hslot]
  · intro s who data hasks hslot
    show execChallenge who data s = _
    simp only [execChallenge, State.spdm_asks hasks, if_pos hslot]
  · intro s who data hasks hnone
    show execGetMeasurements who data s = _
    simp only [execGetMeasurements, State.spdm_asks hasks, if_pos hnone]
  · intro s who data hasks hsome hone
    show execGetMeasurements who data s = _
    simp only [execGetMeasurements, State.spdm_asks hasks, if_neg hsome, if_pos hone]
  · intro s who data hasks hsome hnoOne hall
    show execGetMeasurements who data s = _
    simp only [execGetMeasurements, State.spdm_asks hasks, if_neg hsome, if_neg hnoOne, if_pos hall]
  · intro s who data i hasks hfree
    show execKeyExchange who data s = _
    rw [execKeyExchange, State.spdm_asks hasks, hfree]
  · intro s who data hasks hfull
    show execKeyExchange who data s = _
    rw [execKeyExchange, State.spdm_asks hasks, hfull]
  · intro s who sess verified data hasks hphase hverified
    show execFinish who sess verified data s = _
    simp only [execFinish, State.spdm_asks hasks, ↓if_neg hphase, ↓if_pos hverified]
  · intro s who sess verified data hasks hphase hrefused
    show execFinish who sess verified data s = _
    simp only [execFinish, State.spdm_asks hasks, ↓if_neg hphase, ↓if_neg hrefused]

/-- Settles O37: the request is asked inside an established session, and its checks pass. -/
theorem spdmSessionsAct : Obligations.SpdmSessionsAct := by
  refine ⟨?_, ?_, ?_, ?_, ?_, ?_, ?_⟩
  · intro s who sess hasks hphase
    exact congrArg _ (State.inSess_asks hasks hphase _)
  · intro s who sess data hasks hphase
    exact congrArg _ (State.inSess_asks hasks hphase _)
  · intro s who sess hasks hphase
    exact congrArg _ (State.inSess_asks hasks hphase _)
  · intro s who sess hopen
    show execSpdmHeartbeatTimeout who sess s = _
    simp [execSpdmHeartbeatTimeout, hopen]
  · intro s who sess std vendor payload hasks hphase hvendor
    show execVendorDefinedRequest who sess std vendor payload s = _
    rw [execVendorDefinedRequest, State.inSess_asks hasks hphase]
    exact congrArg _ (if_neg hvendor)
  · intro s p ld sess go data hasks hphase hport hgo hkeys
    show execIdeKm p ld sess go data s = _
    simp only [execIdeKm, State.inSess_asks hasks hphase, ↓if_neg hport, ↓if_pos hgo, ↓if_neg hkeys]
  · intro s p ld sess go data hasks hphase hport hprogram
    show execIdeKm p ld sess go data s = _
    simp only [execIdeKm, State.inSess_asks hasks hphase, ↓if_neg hport, ↓if_neg hprogram]

end Sys2Proof.Machine
end
